-- ==== Sys2Proof/Word.lean ====
section
/-! DEFINITION. The word types of the module (R8, R10): 32-bit registers, bytes, flag sets. -/

namespace Sys2Proof

/-- A 32-bit register value (R10). -/
abbrev Word := BitVec 32

/-- One byte of memory, of a queue entry or of a message. -/
abbrev Byte := BitVec 8

/-- The seven arithmetic flags in the bit order of ACC_FLAGS (R87):
[0] OVF, [1] UNF, [2] INX, [3] INV, [4] SAT, [5] LONG, [6] NAR. -/
abbrev Flg := BitVec 7

end Sys2Proof
end

