-- ==== Sys2Proof/Syntax.lean ====
section
/-! DEFINITION. The commands the module takes, one constructor per row of spec/opcode_table.json, with their operands.
An itinerary instruction carries the cluster it issues in and its fields (R243 to R247); a waybill row carries the
ring and the index of the taken waybill it carries out (R350); a hardware event carries the unit it happens in. An operand with
a default has that value in the ordinary case. -/

namespace Sys2Proof

/-- Module cluster number (R3). -/
abbrev ClusterNo := Fin 2048

/-- The two halves of a task (R250). -/
inductive Half where
  | access
  | execute
deriving DecidableEq, Repr

/-- The four ration wheels (R268). -/
inductive Wheel where
  | memory
  | link
  | tether
  | glaze
deriving DecidableEq, Repr

/-- ARM blocks: the windows that hold RWA fields (R279, R412). -/
inductive ArmWin where
  | global
  | ration
  | power
  | cluster (n : ClusterNo)
  | stack (k : Fin 8)
deriving DecidableEq, Repr

/-- What the Reed-Solomon decoder finds in a codeword (R217): clean, one symbol in error, two symbols in error or
a detected pattern of more, a pattern it takes for a one-symbol error, a pattern it takes for a valid codeword. -/
inductive EccCase where
  | clean
  | corrected
  | detected
  | miscorrected
  | silent
deriving DecidableEq, Repr

/-- Fields of MOP (R245). -/
structure MopF where
  opk : BitVec 3
  stream : Bool
  cls : BitVec 4
  tile : Fin 2
  grp : BitVec 2
  gq : Bool
  gs : BitVec 2
  zpm : BitVec 2
  mfa : Bool
  mfw : Bool
  wsrc : BitVec 2
  rows : BitVec 6
  cols : BitVec 6
  sa : BitVec 6
  sb : BitVec 6
  k : BitVec 24
deriving DecidableEq, Repr

/-- Fields of READ and DRAIN (R246). -/
structure ReadF where
  tile : Fin 2
  fmt : BitVec 4
  rnd : BitVec 2
  satw : Bool
  site : BitVec 8
  desc : BitVec 6
deriving DecidableEq, Repr

/-- Fields of TLOAD (R246). -/
structure TloadF where
  tile : Fin 2
  fmt : BitVec 4
  path : BitVec 3
  desc : BitVec 6
deriving DecidableEq, Repr

/-- Fields of GLZ (R247). -/
structure GlzF where
  gfn : BitVec 5
  ifmt : BitVec 4
  ofmt : BitVec 4
  sa : BitVec 6
  desc : BitVec 6
  len : BitVec 16
  count : BitVec 31
  idesc : BitVec 6
  eps : Word
deriving DecidableEq, Repr

/-- Fields of SETP (R247). -/
structure SetpF where
  pred : BitVec 8
  cmp : BitVec 2
  off : BitVec 17
  imm : Word
deriving DecidableEq, Repr

/-- Fields of RED (R246). -/
structure RedF where
  tile : Fin 2
  ring : BitVec 3
  carry : BitVec 2
  desc : BitVec 6
deriving DecidableEq, Repr

/-- Fields of SPAIR (R244). -/
structure SpairF where
  descA : BitVec 6
  descW : BitVec 6
  rows : BitVec 6
  cols : BitVec 6
  mdescA : BitVec 6
  mdescW : BitVec 6
  mva : Bool
  mvw : Bool
deriving DecidableEq, Repr

/-- What forward error correction made of a received frame's four codewords (R311, R345):
how many were corrected and how many were uncorrectable. -/
structure FecCase where
  corrected : Nat
  uncorrectable : Nat
deriving DecidableEq, Repr

/-- A received caravan frame (R310, R311): the 80-bit control word and five slots of 512 bytes. -/
structure Frame where
  control : BitVec 80
  slots : List (List Byte)
deriving DecidableEq, Repr

/-- How a port's training ended (R318): the measured round trip in ticks, or the failing step's cause. -/
inductive TrainEnd where
  | ok (rtt : BitVec 16)
  | failed (cause : BitVec 3)
deriving DecidableEq, Repr

/-- How a start-up phase ended (R409, R410): done, or failed with a cause of R410; `recovery` marks the failure of both
management banks (R438). -/
inductive PhaseEnd where
  | done
  | failed (cause : BitVec 4) (recovery : Bool)
deriving DecidableEq, Repr

/-- Who issued a bedrock job (R224): a cluster's access program, or a waybill. -/
inductive JobSrc where
  | cluster (n : ClusterNo)
  | waybill (r : Fin 16) (i : Word)
deriving DecidableEq, Repr

/-- The commands: one constructor per row of spec/opcode_table.json. -/
inductive Instr where
  -- itinerary instructions (R243 to R247)
  | nop (cl : ClusterNo) (h : Half)
  | endHalf (cl : ClusterNo) (h : Half)
  | loop (cl : ClusterNo) (h : Half) (count target : BitVec 16)
  | stagew (cl : ClusterNo) (h : Half)
  | mop (cl : ClusterNo) (f : MopF)
  | wload (cl : ClusterNo) (desc : BitVec 6) (pack : Bool)
  | swap (cl : ClusterNo)
  | read (cl : ClusterNo) (f : ReadF)
  | drain (cl : ClusterNo) (f : ReadF)
  | tload (cl : ClusterNo) (f : TloadF)
  | clear (cl : ClusterNo) (tile : Fin 2)
  | glz (cl : ClusterNo) (f : GlzF)
  | gtload (cl : ClusterNo) (region : BitVec 6) (epoch : BitVec 16) (addr : BitVec 40)
  | gswitch (cl : ClusterNo)
  | gstep (cl : ClusterNo)
  | wadv (cl : ClusterNo)
  | setp (cl : ClusterNo) (f : SetpF)
  | red (cl : ClusterNo) (f : RedF)
  | stream (cl : ClusterNo) (desc : BitVec 6)
  | spair (cl : ClusterNo) (f : SpairF)
  | job (cl : ClusterNo) (joff : BitVec 17)
  | waits (cl : ClusterNo) (desc : BitVec 6)
  -- the task walk (R249, R250)
  | taskIssue (cl : ClusterNo)
  | taskHalfStart (cl : ClusterNo) (h : Half)
  -- array, manifest lane and glaze steps
  | outerProductStep (cl : ClusterNo)
  | streamTokenStep (cl : ClusterNo)
  | weightRowLoad (cl : ClusterNo)
  | manifestLaneAccept (cl : ClusterNo)
  | glazeVectorEntry (cl : ClusterNo)
  | glazeLoadStart (cl : ClusterNo)
  | glazeLoadDone (cl : ClusterNo) (ecc : List (Nat × EccCase))
  -- converters and the drover
  | loadQueuePush (cl : ClusterNo) (desc : BitVec 6)
  | storeQueuePush (cl : ClusterNo)
  | storeQueuePop (cl : ClusterNo)
  | granuleIssue (cl : ClusterNo) (desc : BitVec 6)
  | granuleLand (cl : ClusterNo) (tag : Fin 16)
  | writeAck (cl : ClusterNo) (tag : Fin 16)
  -- resources and bedrock dies
  | slotGrant (w : Wheel) (unit : Fin 2048) (ecc : List (Fin 8 × EccCase))
  | loessRead (k : Fin 8) (i : Nat) (ecc : List (Fin 8 × EccCase))
  | loessWrite (k : Fin 8) (i : Nat) (ecc : List (Fin 8 × EccCase))
  | rhThrottle (k : Fin 8) (chan : Fin 16) (row : BitVec 22)
  | rowRefresh (k : Fin 8) (chan : Fin 16) (row : BitVec 22)
  | bedrockJob (src : JobSrc) (ecc : List (Nat × EccCase))
  | jobComplete (src : JobSrc)
  | hazardNotice (cl : ClusterNo)
  | holdTransitionDone (k : Fin 8)
  | bedrockFwRestart (k : Fin 8) (ok : Bool)
  | specZeroDone (cl : ClusterNo) (slot : Fin 2)
  | tileDrainRow (cl : ClusterNo) (tile : Fin 2)
  -- stages
  | stageBoundary
  | extensionPeriodEnd
  | stageHung
  | votePoint
  | leadDecisionDeadline
  | pauseSettled
  | tandemTimeout (e : Fin 16)
  -- caravan
  | caravanFrame (p : Fin 16) (fec : FecCase) (f : Frame)
  | reductionChunk (p : Fin 16)
  | delivery (p : Fin 16) (ecc : List (Nat × EccCase))
  | tandemRecords (p : Fin 16)
  | time (p : Fin 16) (trx : BitVec 64)
  | identMessage (p : Fin 16)
  | readyMessage (p : Fin 16)
  | go (p : Fin 16)
  | dack (p : Fin 16)
  | leave (p : Fin 16)
  | musterStart
  | musterTimeout (noLock : Bool)
  | cvnUnlock
  | linkDown (p : Fin 16)
  | trainingComplete (p : Fin 16) (r : TrainEnd)
  | quiesceComplete (p : Fin 16)
  | trainingPatternDetect (p : Fin 16)
  -- Tether
  | tetherFlit (f : List Byte)
  | hostLoessRead (addr : Nat) (len : Nat) (ecc : List (Nat × EccCase))
  | hostLoessWrite (addr : Nat) (data : List Byte) (ecc : List (Nat × EccCase))
  | rejectedRegisterAccess (write : Bool) (addr : BitVec 43) (size : Nat)
  | tetherDown
  | tetherTrained (cred : BitVec 11)
  -- events and telemetry
  | eventDeliver
  | sensorRefresh (readings : List (Fin 18 × Word))
  -- waybill rings
  | wbrDoorbell (r : Fin 16) (tail : Word)
  | waybillTake (r : Fin 16) (bytes : Option (List Byte)) (ecc : List (Nat × EccCase)) (fault : Option Word := none)
  | waybillTimeout (r : Fin 16) (i : Word)
  -- waybills (R365)
  | ready (r : Fin 16) (i : Word)
  | echo (r : Fin 16) (i : Word)
  | ident (r : Fin 16) (i : Word)
  | resetWarm (r : Fin 16) (i : Word)
  | resetEngine (r : Fin 16) (i : Word)
  | resetCluster (r : Fin 16) (i : Word)
  | cancel (r : Fin 16) (i : Word)
  | load (r : Fin 16) (i : Word) (ecc : List (Nat × EccCase))
  | start (r : Fin 16) (i : Word)
  | stop (r : Fin 16) (i : Word)
  | unload (r : Fin 16) (i : Word)
  | itnQuery (r : Fin 16) (i : Word)
  | jobWaybill (r : Fin 16) (i : Word) (ecc : List (Nat × EccCase))
  | copy (r : Fin 16) (i : Word) (ecc : List (Nat × EccCase))
  | hold (r : Fin 16) (i : Word)
  | gload (r : Fin 16) (i : Word) (ecc : List (Nat × EccCase))
  | gswitchWaybill (r : Fin 16) (i : Word)
  | glzQuery (r : Fin 16) (i : Word)
  | propose (r : Fin 16) (i : Word)
  | wclear (r : Fin 16) (i : Word)
  | muster (r : Fin 16) (i : Word) (ecc : List (Nat × EccCase) := [])
  | port (r : Fin 16) (i : Word)
  | disband (r : Fin 16) (i : Word)
  | pause (r : Fin 16) (i : Word)
  | save (r : Fin 16) (i : Word) (ecc : List (Nat × EccCase))
  | restore (r : Fin 16) (i : Word) (ecc : List (Nat × EccCase))
  | resume (r : Fin 16) (i : Word)
  | sensors (r : Fin 16) (i : Word)
  | checksum (r : Fin 16) (i : Word) (ecc : List (Nat × EccCase))
  | update (r : Fin 16) (i : Word) (ecc : List (Nat × EccCase))
  | fwswitch (r : Fin 16) (i : Word)
  | fwswitchFallback
  | attest (r : Fin 16) (i : Word) (ecc : List (Nat × EccCase))
  | pstate (r : Fin 16) (i : Word)
  | cap (r : Fin 16) (i : Word)
  | kstep (r : Fin 16) (i : Word)
  -- register accesses with rows of their own
  | arm (w : ArmWin)
  | disarm (w : ArmWin)
  | wbrEnable (r : Fin 16) (v : Word)
  | wbrResume (r : Fin 16)
  | wbrDbRead (r : Fin 16)
  | counterLowRead (addr : Nat)
  | qntWposRead (cl : ClusterNo)
  | chkStart (u : Fin 16)
  | chkCmp (u : Fin 16)
  | chkFeedb (u : Fin 16) (v : Word)
  | chkFeedh (u : Fin 16) (v : Word)
  | chkFeedw (u : Fin 16) (v : Word)
  | glzCtlSwitch (cl : ClusterNo)
  | drvDescWrite (cl : ClusterNo) (w : Fin 16) (v : Word)
  | glbFootPinWrite (pin : Bool)
  | tndModeWrite (v : Word)
  | evtEnable (v : Word)
  | evtRdWrite (v : Word)
  | tthImaskWrite (v : Word)
  | tthIpendClear (v : Word)
  | lnkEnable (p : Fin 16) (on : Bool)
  | lnkRetrain (p : Fin 16)
  | lnkQuiesce (p : Fin 16)
  | pwrEngrst (mask : Word)
  | pwrResetWrite (v : Word)
  | moduleReset (contact : Bool)
  | registerWrite (addr : Nat) (v : Word)
  -- power and start-up
  | powerApplied (smbus : Bool := false) (strap : Fin 8 := 0) (rstLow : Bool := false)
  | startupPhaseDone (r : PhaseEnd)
  | undervoltage
  | brownOut (torn : Bool := false)
  | dieTrip
  -- service
  | buttonPress (ms : Nat)
  | buttonHeld1s
  | buttonHeld8s
  | identifyEnd
  | svcReq
  | svcForce
  | svcCancel
  | svcRelease
  | svcStopped
  | svcWaitExpiry
  | svcDrained
  | forcedQuiesceReset
  | ejectorLeverOpen
  | ejectorLeverClose
  | cageLatchClose (p : Fin 16)
  | cageLatchOpen (p : Fin 16)
  -- test access port
  | bypass (code : Byte := 0xFF#8) (tdi : List Bool := [])
  | idcode
  | samplePreload (cells : List Bool)
  | extest (cells : List Bool := [])
  | clamp (tdi : List Bool := [])
  | highz (tdi : List Bool := [])
  -- sideband
  | getSensorReading (sensor : Nat)
  | getPdr (handle : Nat)
  | setEventReceiver (eid : Byte)
  | getTid
  | getPldmVersion
  | getPldmTypes
  | getPldmCommands
  | setEndpointId (eid : Byte)
  | setdasa (addr : BitVec 7)
  | entdaa (addr : BitVec 7)
  -- time and background work
  | kilnCycle (issued : List ClusterNo)
  | testLogicReset
  | periodicCalibration (k : Fin 8)
deriving DecidableEq, Repr

end Sys2Proof
end

