-- ==== Sys2Proof/Config.lean ====
section
/-! DEFINITION. What an implementation fixes and the free values: constants without a body, of which no value can be proved. -/

namespace Sys2Proof

/-- The two orderable parts (R1, R23): XA-2048 has 8 cluster rows in each engine, XA-1792 has 7. -/
inductive Grade where
  | xa2048
  | xa1792
deriving DecidableEq, Repr

namespace Config

/-- Bytes that a codeword with three or more symbols in error delivers when the decoder takes it for good
(R217): free, drawn with the model's counter. -/
opaque ecc : Nat → Nat → Byte

/-- What a 16-bit operand latch holds of a 32-bit operand, whose halves pass through it within a step (R93, R99): the spec does not
say which is left in it. -/
opaque wideLatch : Nat → BitVec 16

/-- The execute instruction that ACC_TRAP_TASK.STEP names for a creation at the load converter, by task, descriptor and element index
(R92): the converter works for no execute instruction, and the spec does not say which index stands there. -/
opaque loadStep : Nat → Nat → Nat → Nat

/-- Significant bits beyond the least number that the glaze unit keeps of an intermediate (R149, R152), by function and intermediate. -/
opaque glazeBits : Nat → Nat → Nat

/-- How it drops the bits below them: 0 to nearest, 1 toward zero, otherwise toward -infinity (R152 leaves it open). -/
opaque glazeRound : Nat → Nat → Nat

/-- Contents of the default glaze image in on-module flash (R173): not given by the spec. -/
opaque flashGlaze : Nat → Byte

/-- Words of the default ration tables in on-module flash (R285), by offset in the ration window. -/
opaque flashRation : Nat → Word

/-- Ration words that an updated ration-table payload holds (R435): the spec does not give the payload's layout. -/
opaque rationOf : List Byte → Nat → Word

/-- Module serial number (R440), 64 bits. -/
opaque serial : BitVec 64

/-- Management firmware version that start-up runs (R462), by bank. -/
opaque fwVersion : Nat → Word

/-- Bedrock firmware version at start-up (R234), by stack. -/
opaque bedrockVersion : Nat → Word

/-- DIGEST values measured at boot (R441), by measurement slot, step and byte. -/
opaque bootDigest : Nat → Nat → Nat → Byte

/-- Vendor root slot hashes in fuses (R434), by slot and byte: SHA-384 of an EDPUB and MLPUB pair. -/
opaque rootHash : Nat → Nat → Byte

/-- Whether a vendor root slot is fused (R434). -/
opaque rootFused : Nat → Bool

/-- The section and entry words of a LOAD refusal that concerns none (R241), by cause: the spec states no value. -/
opaque loadNowhere : Nat → Nat

/-- Bytes of a save image that hold nothing (unused parts of queue entries and landing slots, R189, R297), by draw and offset. -/
opaque staleByte : Nat → Nat → Byte

/-- What a restore makes of state that the save image format names no place for (R296 to R299), from the record's bytes. -/
opaque restored : List Byte → Nat → Nat

/-- Milliseconds from power applied to READY (R411), by draw. -/
opaque bootMs : Nat → Word

/-- The two fused seeds of the device identity (R440), 32 bytes each: 0 of the Ed25519 pair, 1 of the ML-DSA-65 pair. -/
opaque identitySeed : Nat → Nat → Byte

/-- The random bytes of an ML-DSA-65 signature of the device (R433, R442, FIPS 204), by draw. -/
opaque signRandom : Nat → Nat → Byte

/-- The seeds of the key pairs with which the vendor has signed the endorsement in flash (R440), and the random bytes of that signature:
the vendor's secrets, of which the module holds the block they give. -/
opaque vendorSeed : Nat → Nat → Byte
opaque vendorRandom : Nat → Byte

/-- The nibble a relay store carries beside a lone INT4 element (R32, R341), by address: a delivery has no nibble mask, and the spec
does not say what it holds there. -/
opaque relayNibble : Nat → Byte

/-- What DRV_FAULT records of a job refused for its fields or for an overlap (R226): the spec gives no cause, region or
address for these; cause 0, region 1, address 2, of a descriptor. -/
opaque jobRefusal : Nat → List Byte → Nat

/-- The requester kind and number LSM_UE_INFO names for patrol scrub (R236): the spec does not give it. -/
opaque scrubRequester : Nat

/-- Whether a HOLD has lasted 32 ms or longer (R230), by stack and draw: wall time is outside the model. -/
opaque heldLong : Nat → Nat → Bool

/-- What CVN_OFFSET holds for an offset outside its 16 bits (R346): the spec does not say. -/
opaque wideOffset : Int → Nat

/-- Whether converters write manifest records with posit16 entries (FMT 1 of R129); binary16 otherwise. The spec does not
say which format a converter writes. -/
opaque manifestPosit : Bool

/-- Security version of a management firmware bank as delivered (R435), by bank. -/
opaque fwSvn : Nat → Nat

/-- Security version of the bedrock image a stack starts with as delivered (R435), by stack. -/
opaque bedrockSvn : Nat → Nat

/-- The bytes M5 hashes (R441): the spec names the fuses but not their layout; from the revocations and CNT0 to CNT3. -/
opaque fuseImage : Nat → List Nat → List Byte

/-- The stack whose die records a job that a waybill issued and R226 refused: the spec does not say which; from the
descriptor's bytes. -/
opaque jobDie : List Byte → Nat

/-- Result words of a receipt that the spec names but gives no value for: a STATE receipt without a unit (R364), the cause of an
UPDATE whose bedrock image does not start (R231); by opcode and word. -/
opaque openWord : Nat → Nat → Word

/-- Results of PROPOSE on window entries that are NaN or negative, or whose quotient has no floor (R140): the spec states none;
by P, N and word. -/
opaque proposal : Nat → Nat → Nat → Word

/-- The R433 cause SEC_STATUS.BOOTERR shows for a failure of phase B that the boot ROM reports (R437), by draw. -/
opaque bootErr : Nat → Nat

/-- The stack that fails training or initialisation in phase D (R410), by draw. -/
opaque failedStack : Nat → Nat

/-- The boundary cell that drives a sideband contact (R469): 0 SB_READY, 1 SB_FAULT, 2 SB_ALERT_N. The spec does not list the cells. -/
opaque boundaryCell : Nat → Nat

/-- What the boundary cells sample (R469): levels at the contacts, by draw and cell. -/
opaque sampled : Nat → Nat → Bool

/-- The terminus ID, PLDM version words and sensor PDRs the sideband answers with (R456): the spec does not give them. -/
opaque pldmTid : Byte
opaque pldmVersion : Nat → Byte
opaque pldmPdr : Nat → List Byte

/-- TAG of a transaction the module starts itself (R370), by the number of its flit: the spec does not say how it is chosen. -/
opaque tetherTag : Nat → Nat

end Config

end Sys2Proof
end

