-- ==== Sys2Proof/Machine/Flags.lean ====
section
/-! DEFINITION. The arithmetic flags (R15, R87) and the creations of NaN and NaR (R83). -/

namespace Sys2Proof.Machine

def flagOvf : Flg := 1#7
def flagUnf : Flg := 2#7
def flagInx : Flg := 4#7
def flagInv : Flg := 8#7
def flagSat : Flg := 16#7
def flagLong : Flg := 32#7
def flagNar : Flg := 64#7

/-- A flag set when a condition holds. -/
def flagIf (c : Bool) (f : Flg) : Flg := if c then f else 0

/-- Where a NaN or NaR was created (R92): code of SRC. -/
inductive TrapSrc where
  | load
  | array
  | store
  | glaze
deriving DecidableEq, Repr

/-- SRC as ACC_TRAP_INFO holds it (R92). -/
def TrapSrc.code : TrapSrc → Nat
  | .load => 0
  | .array => 1
  | .store => 2
  | .glaze => 3

/-- A result code, the flags its making set and the creation it was (OP of R83), if any. -/
structure Made where
  code : Nat
  flags : Flg := 0
  op : Option Nat := none
deriving DecidableEq, Repr

end Sys2Proof.Machine
end

