-- ==== Sys2Proof/Machine/Formats.lean ====
section
/-! DEFINITION. Number formats, rounding, conversion and the grit function (02_number_formats.md, R30 to R54). -/

namespace Sys2Proof.Machine

/-- The formats of R30. -/
inductive Fmt where
  | int4
  | int8
  | posit8
  | posit16
  | posit32
  | bin16
  | bf16
  | bin32
  | scale
  | int32
  | wide
deriving DecidableEq, Repr

/-- The format a code names; codes 0xB to 0xF are reserved (R30). -/
def fmtOf (c : Nat) : Option Fmt :=
  match c with
  | 0 => some .int4
  | 1 => some .int8
  | 2 => some .posit8
  | 3 => some .posit16
  | 4 => some .posit32
  | 5 => some .bin16
  | 6 => some .bf16
  | 7 => some .bin32
  | 8 => some .scale
  | 9 => some .int32
  | 10 => some .wide
  | _ => none

/-- Element size in bits (R30). -/
def Fmt.bits : Fmt → Nat
  | .int4 => 4
  | .int8 | .posit8 | .scale => 8
  | .posit16 | .bin16 | .bf16 => 16
  | .posit32 | .bin32 | .int32 => 32
  | .wide => 256

/-- Codes 0x0 to 0x7: the formats the converters convert among freely (R48). -/
def Fmt.isMem : Fmt → Bool
  | .scale | .int32 | .wide => false
  | _ => true

def Fmt.isIeee : Fmt → Bool
  | .bin16 | .bf16 | .bin32 => true
  | _ => false

def Fmt.isPosit : Fmt → Bool
  | .posit8 | .posit16 | .posit32 => true
  | _ => false

def Fmt.isInt : Fmt → Bool
  | .int4 | .int8 | .int32 => true
  | _ => false

/-- A value: zero of either sign, a non-zero real, an infinity, a NaN or a NaR. -/
inductive Val where
  | zero (neg : Bool)
  | fin (q : Rat)
  | inf (neg : Bool)
  | nan
  | nar
deriving DecidableEq, Repr

/-- A real number as a value: zero is +0. -/
def Val.ofRat (q : Rat) : Val := if q = 0 then .zero false else .fin q

/-- The real number of a finite value; 0 for the others. -/
def Val.real : Val → Rat
  | .fin q => q
  | _ => 0

/-- 2 to an integer power. -/
def pow2 (e : Int) : Rat :=
  if 0 ≤ e then ((2 ^ e.toNat : Nat) : Rat) else mkRat 1 (2 ^ (-e).toNat)

/-- The greatest e with 2^e at most x, for x above 0. -/
def floorLog2 (x : Rat) : Int :=
  let e : Int := (Nat.log2 x.num.natAbs : Int) - (Nat.log2 x.den : Int)
  if pow2 e ≤ x then e else e - 1

/-- Two's complement reading of the low n bits. -/
def signedOf (n : Nat) (c : Nat) : Int :=
  let m := c % 2 ^ n
  if m < 2 ^ (n - 1) then (m : Int) else (m : Int) - (2 ^ n : Nat)

/-- The low n bits of an integer in two's complement. -/
def bitsOf (n : Nat) (i : Int) : Nat := (i % ((2 ^ n : Nat) : Int)).toNat

/-- The length of the run of bits equal to `r` from bit `i - 1` of `p` downward. -/
def runLen (p : Nat) (r : Bool) : Nat → Nat
  | 0 => 0
  | i + 1 => if p.testBit i = r then runLen p r i + 1 else 0

/-- The magnitude of a posit whose code lies in 1 to 2^(n-1) - 1 (R33). -/
def positMag (n p : Nat) : Rat :=
  let r := p.testBit (n - 2)
  let m := runLen p r (n - 1)
  let k : Int := if r then (m : Int) - 1 else -(m : Int)
  let left := n - 1 - (m + 1)
  let body := p % 2 ^ left
  let e := if 2 ≤ left then body / 2 ^ (left - 2) else body * 2 ^ (2 - left)
  let fb := left - 2
  let f := body % 2 ^ fb
  pow2 (4 * k + (e : Int)) * (1 + mkRat (f : Int) (2 ^ fb))

/-- Decoding of an n-bit posit (R33). -/
def positVal (n c : Nat) : Val :=
  let p := c % 2 ^ n
  if p = 0 then .zero false
  else if p = 2 ^ (n - 1) then .nar
  else if p < 2 ^ (n - 1) then .fin (positMag n p)
  else .fin (-(positMag n (2 ^ n - p)))

/-- Fraction bits and bias of the IEEE formats (R35). -/
def ieeeShape : Fmt → Nat × Nat
  | .bin16 => (10, 15)
  | .bf16 => (7, 127)
  | _ => (23, 127)

/-- Decoding of an IEEE code: a subnormal becomes a zero of its sign with UNF (R36); a signalling NaN sets INV (R38). -/
def ieeeVal (f : Fmt) (c : Nat) : Val × Flg :=
  let p := (ieeeShape f).1
  let bias := (ieeeShape f).2
  let ebits := f.bits - 1 - p
  let neg := c.testBit (f.bits - 1)
  let e := c / 2 ^ p % 2 ^ ebits
  let m := c % 2 ^ p
  if e = 0 then (.zero neg, flagIf (decide (m ≠ 0)) flagUnf)
  else if e = 2 ^ ebits - 1 then
    if m = 0 then (.inf neg, 0) else (.nan, flagIf (!c.testBit (p - 1)) flagInv)
  else
    let q := pow2 ((e : Int) - (bias : Int)) * (1 + mkRat (m : Int) (2 ^ p))
    (.fin (if neg then -q else q), 0)

/-- Value of a scale byte (R42). -/
def scaleVal (c : Nat) : Rat :=
  pow2 (((c / 8 % 32 : Nat) : Int) - 15) * (1 + mkRat ((c % 8 : Nat) : Int) 8)

/-- The value of a code of a format, with the flags steps 1 and 2 of R51 set for it. -/
def decodeVal (f : Fmt) (c : Nat) : Val × Flg :=
  match f with
  | .int4 => (Val.ofRat ((signedOf 4 c : Int) : Rat), 0)
  | .int8 => (Val.ofRat ((signedOf 8 c : Int) : Rat), 0)
  | .int32 => (Val.ofRat ((signedOf 32 c : Int) : Rat), 0)
  | .posit8 => (positVal 8 c, 0)
  | .posit16 => (positVal 16 c, 0)
  | .posit32 => (positVal 32 c, 0)
  | .bin16 | .bf16 | .bin32 => ieeeVal f c
  | .scale => (.fin (scaleVal c), 0)
  | .wide => (.zero false, 0)

/-- Rounding modes (R45); 0b11 is refused at load. -/
inductive Rnd where
  | rne
  | rtz
  | sr
deriving DecidableEq, Repr

def rndOf (c : Nat) : Option Rnd :=
  match c with
  | 0 => some .rne
  | 1 => some .rtz
  | 2 => some .sr
  | _ => none

/-- A rounding's mode, SATW and grit output. -/
structure RndCtl where
  rnd : Rnd
  satw : Bool
  grit : Nat
deriving DecidableEq, Repr

def rneCtl : RndCtl := { rnd := .rne, satw := false, grit := 0 }

/-- Round a quotient x of quanta to a whole number of them by R46: hi is lo + 1. -/
def roundQuanta (r : RndCtl) (x : Rat) : Nat :=
  let lo := x.floor.toNat
  let d := x - (lo : Rat)
  match r.rnd with
  | .rtz => lo
  | .rne => if d < 1 / 2 then lo else if 1 / 2 < d then lo + 1 else if lo % 2 = 0 then lo else lo + 1
  | .sr => if d = 0 then lo else if 65536 ≤ (d * 65536).floor.toNat + r.grit then lo + 1 else lo

/-- Canonical quiet NaN of an IEEE format (R38). -/
def canonNan (f : Fmt) : Nat :=
  match f with
  | .bin16 => 0x7E00
  | .bf16 => 0x7FC0
  | _ => 0x7FC00000

def signBit (f : Fmt) (neg : Bool) : Nat := if neg then 2 ^ (f.bits - 1) else 0

/-- Exponent field of the infinities. -/
def infCode (f : Fmt) : Nat :=
  let p := (ieeeShape f).1
  (2 ^ (f.bits - 1 - p) - 1) * 2 ^ p

/-- A non-zero real rounded to an IEEE format (R37, R46, R47). -/
def encodeIeee (f : Fmt) (r : RndCtl) (q : Rat) : Made :=
  let p := (ieeeShape f).1
  let bias : Int := ((ieeeShape f).2 : Nat)
  let neg := decide (q < 0)
  let x := if neg then -q else q
  let s := signBit f neg
  let emax := bias
  let emin := 1 - bias
  let e := floorLog2 x
  let n := roundQuanta r (x / pow2 (e - (p : Int)))
  let e' := if n = 2 ^ (p + 1) then e + 1 else e
  let m := if n = 2 ^ (p + 1) then 2 ^ p else n
  let maxFin := pow2 emax * (2 - pow2 (-(p : Int)))
  if maxFin < x then
    let code := if r.rnd = .rtz || decide (e' ≤ emax) then infCode f - 1 else infCode f
    { code := s + code, flags := flagOvf ||| flagInx }
  else if e' < emin then { code := s, flags := flagUnf ||| flagInx }
  else
    let back := pow2 (e' - (p : Int)) * (m : Rat)
    { code := s + (e' + bias).toNat * 2 ^ p + (m - 2 ^ p), flags := flagIf (decide (back ≠ x)) flagInx }

/-- A non-zero real rounded to an n-bit posit (R34, R46, R47). -/
def encodePosit (n : Nat) (r : RndCtl) (q : Rat) : Made :=
  let neg := decide (q < 0)
  let x := if neg then -q else q
  let top := 2 ^ (n - 1) - 1
  let sgn (c : Nat) : Nat := if neg then 2 ^ n - c else c
  if positMag n top < x then { code := sgn top, flags := flagOvf ||| flagInx }
  else if x < positMag n 1 then { code := sgn 1, flags := flagUnf ||| flagInx }
  else if x = positMag n top then { code := sgn top }
  else
    let e := floorLog2 x
    let k := e / 4
    let t : Rat := ((e - 4 * k : Int) : Rat) + (x / pow2 e - 1)
    let regLen := if 0 ≤ k then k.toNat + 2 else (-k).toNat + 1
    let reg := if 0 ≤ k then 2 ^ (k.toNat + 2) - 2 else 1
    let left := n - 1 - regLen
    let y := t / 4 * ((2 ^ left : Nat) : Rat)
    let lo := reg * 2 ^ left + y.floor.toNat
    let d := y - (y.floor : Rat)
    let vlo := positMag n lo
    let inx := flagIf (decide (vlo ≠ x)) flagInx
    let c :=
      if vlo = x then lo
      else match r.rnd with
        | .rtz => lo
        | .rne =>
          if d < 1 / 2 then lo else if 1 / 2 < d then lo + 1 else if lo % 2 = 0 then lo else lo + 1
        | .sr =>
          let f := ((x - vlo) / (positMag n (lo + 1) - vlo) * 65536).floor.toNat
          if 65536 ≤ f + r.grit then lo + 1 else lo
    { code := sgn c, flags := inx }

/-- A real rounded to an integer of n bits, saturated or wrapped (R41, R46, R47). -/
def encodeInt (n : Nat) (r : RndCtl) (q : Rat) : Made :=
  let neg := decide (q < 0)
  let m := roundQuanta r (if neg then -q else q)
  let i : Int := if neg then -(m : Int) else (m : Int)
  let hi : Int := ((2 ^ (n - 1) : Nat) : Int) - 1
  let lo : Int := -((2 ^ (n - 1) : Nat) : Int)
  let out := decide (i < lo) || decide (hi < i)
  let c := if !out then bitsOf n i
    else if r.satw then bitsOf n i
    else if hi < i then bitsOf n hi else bitsOf n lo
  { code := c, flags := flagIf out flagSat ||| flagIf (decide (((signedOf n c : Int) : Rat) ≠ q)) flagInx }

/-- A positive real rounded to a scale byte (R42, R47). -/
def encodeScale (r : RndCtl) (x : Rat) : Made :=
  if scaleVal 255 < x then { code := 255, flags := flagOvf ||| flagInx }
  else if x < scaleVal 0 then { code := 0, flags := flagUnf ||| flagInx }
  else
    let e := floorLog2 x
    let n := roundQuanta r (x / pow2 (e - 3))
    let c := (e + 15).toNat * 8 + (n - 8)
    { code := c, flags := flagIf (decide (scaleVal c ≠ x)) flagInx }

/-- A value written in a format: special inputs by R50, the rest by R46 and R47. -/
def encodeVal (f : Fmt) (r : RndCtl) (v : Val) : Made :=
  match v with
  | .zero neg =>
    if f.isIeee then { code := signBit f neg }
    else if f = .scale then { code := 0, flags := flagInv }
    else { code := 0 }
  | .fin q =>
    match f with
    | .int4 => encodeInt 4 r q
    | .int8 => encodeInt 8 r q
    | .int32 => encodeInt 32 r q
    | .posit8 => encodePosit 8 r q
    | .posit16 => encodePosit 16 r q
    | .posit32 => encodePosit 32 r q
    | .bin16 | .bf16 | .bin32 => encodeIeee f r q
    | .scale => if q < 0 then { code := 0, flags := flagInv } else encodeScale r q
    | .wide => { code := 0 }
  | .inf neg =>
    if f.isIeee then { code := signBit f neg + infCode f }
    else if f.isPosit then { code := 2 ^ (f.bits - 1), flags := flagInv ||| flagNar, op := some 5 }
    else if f = .scale then
      if neg then { code := 0, flags := flagInv } else { code := 255, flags := flagOvf }
    else { code := if neg then 2 ^ (f.bits - 1) else 2 ^ (f.bits - 1) - 1, flags := flagInv ||| flagSat }
  | .nan =>
    if f.isIeee then { code := canonNan f }
    else if f.isPosit then { code := 2 ^ (f.bits - 1), flags := flagNar, op := some 6 }
    else { code := 0, flags := flagInv }
  | .nar =>
    if f.isIeee then { code := canonNan f, flags := flagInv, op := some 7 }
    else if f.isPosit then { code := 2 ^ (f.bits - 1) }
    else { code := 0, flags := flagInv }

/-- What a converter makes of one element (R48, R51). -/
def convert (src dst : Fmt) (r : RndCtl) (c : Nat) : Made :=
  if src = dst && !src.isIeee then { code := c % 2 ^ src.bits }
  else
    let d := decodeVal src c
    let m := encodeVal dst r d.1
    { m with flags := m.flags ||| d.2 }

/-- The conversions the converters perform (R48), for streams. -/
def convertible (src dst : Fmt) : Bool :=
  (src.isMem && dst.isMem) || src = dst ||
  (src = .bin32 && dst = .scale) || (src = .scale && dst = .bin32)

/-- The grit function (R54). -/
def gritRound (k0 k1 : Word) (r : Nat) (xy : Word × Word) : Word × Word :=
  let k := if r % 2 = 0 then k0 else k1
  let x := (xy.1.rotateRight 8 + xy.2) ^^^ (k + BitVec.ofNat 32 r)
  (x, xy.2.rotateLeft 3 ^^^ x)

def grit16 (seed : BitVec 64) (handle : Word) (index : BitVec 48) (site : Byte) : Nat :=
  let k0 := seed.extractLsb' 0 32 ^^^ handle
  let k1 := seed.extractLsb' 32 32
  let x := index.extractLsb' 0 32
  let y := (site.setWidth 32 <<< 16) ||| (index.extractLsb' 32 16).setWidth 32
  let o := (List.range 6).foldl (fun xy r => gritRound k0 k1 r xy) (x, y)
  ((o.1 ^^^ o.2) >>> 16).toNat

/-- Order of two values (R43): NaN is unordered, NaR equals itself and lies below every real. -/
def valLt (a b : Val) : Bool :=
  match a, b with
  | .nan, _ | _, .nan => false
  | _, .nar => false
  | .nar, _ => true
  | .inf s, .inf t => s && !t
  | .inf s, _ => s
  | _, .inf t => !t
  | _, _ => decide (a.real < b.real)

/-- Selection's order (R44): as R43, with -0 below +0. -/
def selLt (a b : Val) : Bool :=
  match a, b with
  | .zero s, .zero t => s && !t
  | _, _ => valLt a b

/-- Rounding to binary32, to nearest, of a real that is not zero (R70). -/
def f32OfReal (q : Rat) : Made := encodeIeee .bin32 rneCtl q

/-- Product of two binary32 or bfloat16 values, rounded to binary32 (R70, R73). -/
def f32Mul (a b : Val) : Made :=
  let sgn (v : Val) : Bool := match v with
    | .zero s => s
    | .fin q => decide (q < 0)
    | .inf s => s
    | _ => false
  let s := sgn a != sgn b
  match a, b with
  | .nan, _ | _, .nan | .nar, _ | _, .nar => { code := canonNan .bin32 }
  | .inf _, .zero _ | .zero _, .inf _ => { code := canonNan .bin32, flags := flagInv, op := some 1 }
  | .inf _, _ | _, .inf _ => { code := signBit .bin32 s + infCode .bin32 }
  | .zero _, _ | _, .zero _ => { code := signBit .bin32 s }
  | .fin x, .fin y => f32OfReal (x * y)

/-- Sum of two binary32 codes, rounded to binary32 (R71 to R73). -/
def f32Add (a b : Nat) : Made :=
  match (decodeVal .bin32 a).1, (decodeVal .bin32 b).1 with
  | .nan, _ | _, .nan | .nar, _ | _, .nar => { code := canonNan .bin32 }
  | .inf s, .inf t =>
    if s = t then { code := signBit .bin32 s + infCode .bin32 }
    else { code := canonNan .bin32, flags := flagInv, op := some 2 }
  | .inf s, _ | _, .inf s => { code := signBit .bin32 s + infCode .bin32 }
  | .zero s, .zero t => { code := signBit .bin32 (s && t) }
  | .zero _, _ => { code := b }
  | _, .zero _ => { code := a }
  | .fin x, .fin y => if x + y = 0 then { code := 0 } else f32OfReal (x + y)

end Sys2Proof.Machine
end

