-- ==== Sys2Proof/Machine/Sparse.lean ====
section
/-! DEFINITION. Sparse maps: plain lists of (key, value) pairs in one canonical form (keys strictly rising, no entry equal
to what an unlisted key reads as). Memory, register files and per-unit state are all held in this form. -/

namespace Sys2Proof.Machine

/-- A sparse map; what an unlisted key reads as is the `d` given to the operations. -/
abbrev SMap (α : Type) := List (Nat × α)

/-- The value at key `k`. -/
def sget {α : Type} (d : Nat → α) : SMap α → Nat → α
  | [], k => d k
  | (j, v) :: m, k => if j = k then v else sget d m k

/-- Drop the entries of key `k`. -/
def serase {α : Type} (m : SMap α) (k : Nat) : SMap α :=
  m.filter (fun e => e.1 != k)

/-- Insert an entry in key order. -/
def sinsert {α : Type} : SMap α → Nat → α → SMap α
  | [], k, v => [(k, v)]
  | (j, w) :: m, k, v => if k < j then (k, v) :: (j, w) :: m else (j, w) :: sinsert m k v

/-- Write `v` at key `k`, keeping the canonical form. -/
def sput {α : Type} [DecidableEq α] (d : Nat → α) (m : SMap α) (k : Nat) (v : α) : SMap α :=
  if v = d k then serase m k else sinsert (serase m k) k v

/-- The part of a map with keys in `a` to `a + n - 1`. -/
def swindow {α : Type} (m : SMap α) (a n : Nat) : SMap α :=
  m.filter (fun e => decide (a ≤ e.1) && decide (e.1 < a + n))

/-- The `n` values from key `a` on, in ascending order. -/
def sgets {α : Type} (d : Nat → α) (m : SMap α) (a n : Nat) : List α :=
  let w := swindow m a n
  (List.range n).map (fun i => sget d w (a + i))

/-- The entries of a block of values from key `a` on that differ from what an unlisted key reads as. -/
def sblock {α : Type} [DecidableEq α] (d : Nat → α) : Nat → List α → SMap α
  | _, [] => []
  | a, v :: vs => if v = d a then sblock d (a + 1) vs else (a, v) :: sblock d (a + 1) vs

/-- Write a block of values from key `a` on. -/
def sputs {α : Type} [DecidableEq α] (d : Nat → α) (m : SMap α) (a : Nat) (vs : List α) : SMap α :=
  m.filter (fun e => decide (e.1 < a)) ++ sblock d a vs ++
    m.filter (fun e => decide (a + vs.length ≤ e.1))

/-- Return a range of keys to what an unlisted key reads as. -/
def sclear {α : Type} (m : SMap α) (a n : Nat) : SMap α :=
  m.filter (fun e => !(decide (a ≤ e.1) && decide (e.1 < a + n)))

/-- Copy the range of `n` keys at `src` to `dst`, for a default that does not depend on the key. -/
def scopy {α : Type} (m : SMap α) (src dst n : Nat) : SMap α :=
  let moved := (swindow m src n).map (fun e => (e.1 - src + dst, e.2))
  m.filter (fun e => decide (e.1 < dst)) ++ moved ++ m.filter (fun e => decide (dst + n ≤ e.1))

/-- The canonical form: keys strictly rising and no entry equal to what an unlisted key reads as. -/
def swf {α : Type} [DecidableEq α] (d : Nat → α) : SMap α → Bool
  | [] => true
  | [(k, v)] => v != d k
  | (k, v) :: (j, w) :: m => v != d k && decide (k < j) && swf d ((j, w) :: m)

end Sys2Proof.Machine
end

