-- ==== Sys2Proof/Machine/ClusterState.lean ====
section
/-! DEFINITION. The state of one cluster (R20) outside its register window: tiles, weight banks, glaze banks, trail queues,
staging, streams, tags, tasks (chapters 03 to 09). -/

namespace Sys2Proof.Machine

/-- One accumulator element as the path tag reads it (R59, R72, R76): nothing received yet, a whole number of quire units
or of I64, NaR, NaN and infinities of Q256H, a binary32 code. -/
inductive Elem where
  | empty
  | num (i : Int)
  | nar
  | nan
  | inf (neg : Bool)
  | f32 (c : Nat)
deriving DecidableEq, Repr

/-- A read, drain or ring reduction of a tile in progress (R67, R69). -/
structure ReadOut where
  drain : Bool
  red : Option (Nat × Nat) := none
  fmt : Nat
  rnd : Nat
  satw : Bool
  site : Nat
  desc : Nat
  next : Nat := 0
  task : Nat := 0
  step : Nat := 0
  slot : Nat := 0
  k : Nat := 0
deriving DecidableEq, Repr

/-- The computation in the cluster's tandem check unit (R303, R388): what the record names, elements that the store converter
has not delivered yet, the codes it has delivered. -/
structure TChk where
  tile : Nat
  fmt : Nat
  task : Nat := 0
  step : Nat := 0
  slot : Nat := 0
  k : Nat := 0
  stage : Nat := 0
  left : Nat
  fed : List Nat := []
deriving DecidableEq, Repr

/-- A load of a tile in progress (R79). -/
structure TileLoad where
  wide : Bool
  desc : Nat
  pos : Nat := 0
deriving DecidableEq, Repr

/-- An accumulator tile: path tag (R81), count (R89), rows of 32 elements, tensor scales (R124), discard mark (R137),
read or load in progress, the slot of an unresolved speculative task that wrote it (R257). `carry` are the pending carry bits of
the quires by element, bit k the one that waits to enter segment k of 32 bits (R66); an element is the segments' sum with them. -/
structure Tile where
  path : Nat := 0
  count : Nat := 0
  rows : SMap (List Elem) := []
  carry : SMap (List Nat) := []
  tsa : Nat := 0
  tsw : Nat := 0
  discard : Bool := false
  out : Option ReadOut := none
  ld : Option TileLoad := none
  spec : Option Nat := none
deriving DecidableEq, Repr

/-- A row of quires with no pending carry. -/
def noCarry (_ : Nat) : List Nat := List.replicate 32 0

/-- A row of a tile that has received nothing. -/
def emptyRow (_ : Nat) : List Elem := List.replicate 32 .empty

/-- A weight bank, the A or B registers of all cells (R93, R106): rows of 32 registers, how many rows it holds, its packing,
the stream its set came from and, once a grouped instruction has used the set, the ordinal of the set's first group (R136). -/
structure Bank where
  rows : SMap (List (BitVec 16)) := []
  held : Nat := 0
  pack : Bool := false
  desc : Nat := 0
  gbase : Option Nat := none
deriving DecidableEq, Repr

def zeroRow (_ : Nat) : List (BitVec 16) := List.replicate 32 0#16

/-- A weight-set load in progress (R106): stream, packing, rows written, the bank it fills from its first row on, whether a MOP
loads it and which (`run`), the slot and task it belongs to. -/
structure WLoad where
  desc : Nat
  pack : Bool
  row : Nat := 0
  bank : Bool := false
  mop : Bool := false
  run : Nat := 0
  slot : Nat := 0
  task : Nat := 0
deriving DecidableEq, Repr

/-- A stream token in the array (R103, R104): the instruction it belongs to, the K position of its set, its row, its elements by
K position in the set, whether a cell takes two of them, the bank it meets, the bank that was active before it entered. `met`
are the weights the token has met so far, by column: with its elements they give the partial result in each column's pass
register (R93). -/
structure Tok where
  run : Nat
  k : Nat
  row : Nat
  codes : List Nat
  pair : Bool := false
  bank : Bool
  was : Bool
  met : List (List (BitVec 16)) := List.replicate 32 []
deriving DecidableEq, Repr

/-- A scale trail queue entry (R188), with the stream and the stage of its delivery (R202). -/
structure ScaleEntry where
  head : Bool
  scale : Nat
  zp : Int := 0
  sum : Int := 0
  seq : Nat
  desc : Nat := 0
  stage : Nat := 0
  slot : Option Nat := none
deriving DecidableEq, Repr

/-- A manifest trail queue entry (R188): the entries of one record, its format, its group number; stream and stage of its
delivery (R202). -/
structure ManEntry where
  posit : Bool
  vals : List Nat
  seq : Nat
  desc : Nat := 0
  stage : Nat := 0
  slot : Option Nat := none
deriving DecidableEq, Repr

/-- A load trail queue entry (R186): elements of one stream, with the stage of their delivery; `last`: the stream's last element is
among them (R106). -/
structure LoadEntry where
  desc : Nat
  stage : Nat
  elems : List Nat
  last : Bool := false
  slot : Option Nat := none
deriving DecidableEq, Repr

/-- A store trail queue entry (R186): codes of one stream in its destination format, the element index of the first,
and the scale and manifest bytes written with a dynamic group (R195) by linked descriptor. -/
structure StoreEntry where
  desc : Nat
  first : Nat
  elems : List Nat
  side : List (Nat × List Byte) := []
  slot : Option Nat := none
deriving DecidableEq, Repr

/-- Elements that wait at the store converter (R69): exact value and code of each, source format, whether the converter
rounds the value into the source format first (R48), and what the instruction carries; `tnd`: the tandem check takes what they
become (R303). -/
structure ConvRow where
  desc : Nat
  src : Fmt
  round : Bool
  rnd : Nat := 0
  satw : Bool := false
  site : Nat := 0
  elems : List (Val × Nat)
  task : Nat := 0
  step : Nat := 0
  tnd : Bool := false
  slot : Option Nat := none
deriving DecidableEq, Repr

/-- An escape that waits in the manifest lane (R130): the elements its terms go to and the exact terms. -/
structure LaneItem where
  k : Nat
  terms : List (Nat × Nat × Rat)
deriving DecidableEq, Repr

/-- The partial sum of a group in one element (R122, R125, R126): products, row operands, column operands, K indices so far. -/
structure GAcc where
  dot : Int := 0
  sa : Int := 0
  sw : Int := 0
  n : Nat := 0
deriving DecidableEq, Repr

/-- An array instruction in progress (R99 to R109, R121 to R130), `id` its number. `ek` and `etok` are the K index and the token
that enter next, `k` is the K index whose terms are added next; `hold` steps are left of the 32 a set holds the array (R107);
`begun` from the first operand latch (R114); `bases` gives the tile's count before each set whose adds have begun (R109); `buf`
the products of an F32 group that is not whole (R71); `toks` the tokens of the set whose adds end next; `abase`, `wdesc` and
`wbase` give the numbers of the operands' groups (R136); `ga` the partial sums of groups, `escA` and `escB` the escapes so far of
the group in progress by row and by column (R128); `esc` are escapes that wait for room in the lane queue (R130). -/
structure MopRun where
  f : MopF
  id : Nat := 0
  task : Nat := 0
  step : Nat := 0
  slot : Nat := 0
  spec : Bool := false
  ek : Nat := 0
  etok : Nat := 0
  hold : Nat := 0
  begun : Bool := false
  abase : Nat := 0
  wdesc : Nat := 0
  wbase : Nat := 0
  k : Nat := 0
  loaded : Nat := 0
  bases : List (Nat × Nat) := []
  buf : SMap (List (List Nat)) := []
  toks : SMap (List Nat) := []
  headed : Bool := false
  entA : List (List ScaleEntry) := []
  entW : List (List ScaleEntry) := []
  manA : List (List ManEntry) := []
  manW : List (List ManEntry) := []
  ga : SMap (List GAcc) := []
  escA : SMap Nat := []
  escB : SMap Nat := []
  esc : List LaneItem := []
  lane : List LaneItem := []
deriving DecidableEq, Repr

/-- A glaze bank (R173, R181); `flash` marks the default image of the on-module flash. -/
structure GBank where
  state : Nat := 0
  epoch : Nat := 0
  fmt : Nat := 0
  flash : Bool := false
  img : SMap Byte := []
deriving DecidableEq, Repr

/-- A glaze table load request (R174): image, epoch, and, if a waybill made it, that waybill and the image it has read (R367). -/
structure GLoad where
  addr : Nat
  epoch : Nat
  task : Nat := 0
  wb : Option (Nat × Nat × List Byte) := none
deriving DecidableEq, Repr

/-- The glaze instruction whose vectors enter (R159 to R166). -/
structure GlzRun where
  f : GlzF
  task : Nat := 0
  step : Nat := 0
  slot : Nat := 0
  spec : Bool := false
  bank : Option Nat := none
  elems : Nat := 0
  row : List Nat := []
  pass : Nat := 0
  lane : Nat := 0
deriving DecidableEq, Repr

/-- A DMA tag (R192): 0 free, 1 request waiting or accepted, 2 performed, 3 landed. `upto` is the element index after the
last element the granule was fetched for; `ahead` marks run-ahead (R199); a free tag with `old` set still has the granule in its
landing slot (R193). -/
structure Tag where
  st : Nat := 0
  write : Bool := false
  gran : Nat := 0
  desc : Nat := 0
  region : Nat := 0
  upto : Nat := 0
  ahead : Bool := false
  old : Bool := false
  drop : Bool := false
  poison : Bool := false
  stage : Nat := 0
  data : List Byte := []
  slot : Option Nat := none
deriving DecidableEq, Repr

/-- A byte to write: address, mask of the nibbles written, value (R216). -/
structure WByte where
  addr : Nat
  mask : BitVec 2
  val : Byte
deriving DecidableEq, Repr

/-- A stream in progress (R190 to R203): `stagePos` and `lastPos` are the elements it held at the start of this stage and of the last
one, `raw` holds the codes a grouped quantising conversion has taken of a group that is not
whole, `qbuf` the converted codes of one that waits for entries. -/
structure Strm where
  run : Bool := false
  task : Nat := 0
  slot : Option Nat := none
  pos : Nat := 0
  iss : Nat := 0
  ahead : Nat := 0
  fetched : Bool := false
  headed : Bool := false
  ptr : Nat := 0
  stagePos : Nat := 0
  lastPos : Nat := 0
  began : Nat := 0
  restarted : Option Nat := none
  again : Nat := 0
  halted : Bool := false
  wbuf : List WByte := []
  stored : Nat := 0
  sc : Option ScaleEntry := none
  mn : Option ManEntry := none
  escs : Nat := 0
  lateRelay : Bool := false
  qbuf : List Nat := []
  raw : List Nat := []
deriving DecidableEq, Repr

/-- A watch armed on the pages of a region (R200): the stage it was armed in, the speculative slot and the task it is for
(R255); `done` once its reader has read its last, `off` from the boundary that disarms it, for the notices of the stage
before that are still under way (R201). `blind`: stacks whose WATCHED bits a HOLD exit has cleared (R230). -/
structure Watch where
  desc : Nat
  region : Nat
  page : Nat
  pages : Nat
  since : Nat := 0
  done : Bool := false
  off : Bool := false
  slot : Option Nat := none
  task : Nat := 0
  blind : List Nat := []
deriving DecidableEq, Repr

/-- Side effects of a task on what software sees of its cluster: what R255 holds for a speculative task. -/
inductive Act where
  | flags (f : Flg)
  | cvt (store : Bool) (f : Flg)
  | trap (src : TrapSrc) (op tile row col task step k : Nat)
  | skew (cause tile opnd task data found : Nat)
  | drover (cause desc origin task addr : Nat)
  | hazard (region wkind wid page : Nat)
  | hazBits (m : Nat)
  | glaze (cause func task : Nat) (ev : Nat)
  | accPath (task : Nat)
  | specFault (tile task : Nat)
  | count (off n : Nat)
  | sat (slot n : Nat)
  | suspect (m : Nat)
  | unsuspect (m : Nat)
  | count64 (off n : Nat)
  | tcount (tile old n : Nat)
  | job (die cause : Nat)
  | stop (cause : Nat)
  | tandem (tile fmt task step k stage : Nat) (bytes : List Byte)
deriving DecidableEq, Repr

/-- A task slot (R250, R260): `st` as ITN_SLOTn.STATE. `held` are side effects held for a speculative task (R255), `now` those of
this kc, of which records keep the first in rank (R84, R137); `pushed` and `popped` are what the task has added to its cluster's
counts of the same names (R258). -/
structure TSlot where
  st : Nat := 0
  task : Nat := 0
  mode : Nat := 0
  sense : Bool := false
  pred : Nat := 0
  wbase : Nat := 0
  wsize : Nat := 0
  ord : Nat := 0
  accIx : Nat := 0
  execIx : Nat := 0
  accOn : Bool := false
  execOn : Bool := false
  accEnd : Bool := false
  execEnd : Bool := false
  value : Option Bool := none
  held : List Act := []
  now : List Act := []
  pushed : SMap Nat := []
  popped : SMap Nat := []
  halted : Bool := false
  kc : Nat := 0
  base : Nat := 0
deriving DecidableEq, Repr

/-- One program half's place (R243, R244): the instruction index, the loop counters by LOOP index, STAGEW waiting. -/
structure HalfPc where
  ix : Nat := 0
  loops : SMap Nat := []
  waitStage : Bool := false
deriving DecidableEq, Repr

/-- The cluster section in place (R238) and the image it came from. -/
structure Section where
  imgId : Nat := 0
  rtnId : Nat := 0
  ntask : Nat := 0
  loopTo : Nat := 0
  nexec : Nat := 0
  nacc : Nat := 0
  ndesc : Nat := 0
  nreg : Nat := 0
  iters : Nat := 0
  loopBase : Nat := 0
  loopStages : Nat := 1
deriving DecidableEq, Repr

/-- Scale and manifest streams interleaved for a grouped MOP (R245). -/
structure Pair where
  f : SpairF
  s : Nat := 0
  m : Nat := 0
deriving DecidableEq, Repr

structure Cluster where
  -- tiles and array
  tile0 : Tile := {}
  tile1 : Tile := {}
  bankA : Bank := {}
  bankB : Bank := {}
  active : Bool := false
  wload : Option WLoad := none
  -- the instruction the execute sequencer is at and those it has passed whose last adds are still due, oldest first (R104, R108);
  -- the number the next one takes; a step has come about in this kc (R114)
  mop : Option MopRun := none
  tail : List MopRun := []
  mops : Nat := 0
  arrOn : Bool := false
  -- stream tokens and bubbles by age in steps, newest first (R104, R109); operands of the last outer-product step, as the row
  -- and column latches hold them (R93, R100)
  wave : List (Option Tok) := []
  latA : List (BitVec 16) := []
  latB : List (BitVec 16) := []
  gbase : SMap Nat := []
  -- glaze
  glz0 : GBank := { state := 3, epoch := 1, fmt := 1, flash := true }
  glz1 : GBank := {}
  gactive : Nat := 0
  gload : Option GLoad := none
  gwait : Option GLoad := none
  gswitch : Bool := false
  glz : Option GlzRun := none
  -- kc left of the rows in flight in the row unit past their last vector (R166)
  rowsOut : List Nat := []
  -- trail queues, converters, staging; `hand` is what consumers have popped of load entries and not used yet (R187)
  loadQ : List LoadEntry := []
  hand : List LoadEntry := []
  storeQ : List StoreEntry := []
  scaleQ : List ScaleEntry := []
  manQ : List ManEntry := []
  conv : List ConvRow := []
  coded : List StoreEntry := []
  pushed : SMap Nat := []
  popped : SMap Nat := []
  staging : SMap Byte := []
  -- drover
  tags : SMap Tag := []
  streams : SMap Strm := []
  pairs : List Pair := []
  dhold : SMap Word := []
  watches : List Watch := []
  hazards : List (Nat × Nat) := []
  took : List (Nat × Nat × Nat) := []
  issued : SMap Nat := []
  returned : SMap Nat := []
  slots : Nat := 0
  gslots : Nat := 0
  -- quantisation
  wins : SMap (Nat × Nat) := []
  fill : SMap Nat := []
  wadv : Bool := false
  -- itinerary
  st : Nat := 0
  stopc : Nat := 0
  stopDue : Option Nat := none
  stopAt : Nat := 0
  sec : Section := {}
  start : Nat := 0
  next : Nat := 0
  pass : Nat := 0
  slot0 : TSlot := {}
  slot1 : TSlot := {}
  ord : Nat := 0
  acc : HalfPc := {}
  exec : HalfPc := {}
  pausing : Bool := false
  -- caravan and tandem
  rseq : SMap Nat := []
  tseq : Nat := 0
  tchk : Option TChk := none
deriving DecidableEq, Repr

/-- A watch is armed on a page (R200). -/
def Watch.has (w : Watch) (page : Nat) : Bool := decide (w.page ≤ page) && decide (page < w.page + w.pages)

def zeroByte (_ : Nat) : Byte := 0
def zeroNat (_ : Nat) : Nat := 0
def freeTag (_ : Nat) : Tag := {}
def idleStrm (_ : Nat) : Strm := {}

def Cluster.tile (c : Cluster) (n : Nat) : Tile := if n = 0 then c.tile0 else c.tile1
def Cluster.setTile (c : Cluster) (n : Nat) (t : Tile) : Cluster :=
  if n = 0 then { c with tile0 := t } else { c with tile1 := t }
def Cluster.tag (c : Cluster) (n : Nat) : Tag := sget freeTag c.tags n
def Cluster.setTag (c : Cluster) (n : Nat) (t : Tag) : Cluster := { c with tags := sput freeTag c.tags n t }
def Cluster.strm (c : Cluster) (d : Nat) : Strm := sget idleStrm c.streams d
def Cluster.setStrm (c : Cluster) (d : Nat) (t : Strm) : Cluster := { c with streams := sput idleStrm c.streams d t }
def Cluster.slot (c : Cluster) (n : Nat) : TSlot := if n = 0 then c.slot0 else c.slot1
def Cluster.setSlot (c : Cluster) (n : Nat) (t : TSlot) : Cluster :=
  if n = 0 then { c with slot0 := t } else { c with slot1 := t }
def Cluster.gbank (c : Cluster) (n : Nat) : GBank := if n = 0 then c.glz0 else c.glz1
def Cluster.setGbank (c : Cluster) (n : Nat) (b : GBank) : Cluster :=
  if n = 0 then { c with glz0 := b } else { c with glz1 := b }
/-- Weight bank A (false) or B (true). -/
def Cluster.bank (c : Cluster) (b : Bool) : Bank := if b then c.bankB else c.bankA
def Cluster.setBank (c : Cluster) (b : Bool) (w : Bank) : Cluster :=
  if b then { c with bankB := w } else { c with bankA := w }
def Cluster.half (c : Cluster) (h : Half) : HalfPc := match h with | .access => c.acc | .execute => c.exec
def Cluster.setHalf (c : Cluster) (h : Half) (p : HalfPc) : Cluster :=
  match h with | .access => { c with acc := p } | .execute => { c with exec := p }

/-- Bytes of staging (R189). -/
def Cluster.stg (c : Cluster) (o n : Nat) : List Byte := sgets zeroByte c.staging o n
def Cluster.setStg (c : Cluster) (o : Nat) (bs : List Byte) : Cluster :=
  { c with staging := sputs zeroByte c.staging o bs }

/-- Little-endian value of bytes (R9), and the bytes of a value. -/
def leNat : List Byte → Nat
  | [] => 0
  | b :: bs => b.toNat + 256 * leNat bs
def leBytes : Nat → Nat → List Byte
  | 0, _ => []
  | n + 1, v => BitVec.ofNat 8 v :: leBytes n (v / 256)

/-- `n` bytes at offset `o` of a byte list, little-endian. -/
def leAt (bs : List Byte) (o n : Nat) : Nat := leNat ((bs.drop o).take n)

/-- Count credits taken and given back in a cluster's ledger l (R277). -/
def Cluster.take (c : Cluster) (l n : Nat) : Cluster :=
  { c with issued := sput zeroNat c.issued l ((sget zeroNat c.issued l + n) % 2 ^ 32) }
def Cluster.give (c : Cluster) (l n : Nat) : Cluster :=
  { c with returned := sput zeroNat c.returned l ((sget zeroNat c.returned l + n) % 2 ^ 32) }

end Sys2Proof.Machine
end

