-- ==== Sys2Proof/Machine/Operands.lean ====
section
/-! DEFINITION. Operand forms: stream descriptors (R190, R191), regions (R197), job descriptors (R224), task entries
(R248) and the itinerary instruction word (R243 to R247). -/

namespace Sys2Proof.Machine

/-- Bits [lo + n - 1 : lo] of a number. -/
def bits (v lo n : Nat) : Nat := v / 2 ^ lo % 2 ^ n

/-- A stream descriptor's fields (R190). -/
structure Desc where
  base : Nat
  strides : List Int
  counts : List Nat
  handle : Nat
  src : Nat
  dst : Nat
  rnd : Nat
  satw : Bool
  restart : Bool
  space : Bool
  stat : Bool
  mf : Bool
  zm : Bool
  site : Nat
  region : Nat
  kind : Nat
  gs : Nat
  scm : Bool
  mslots : Nat
  subq : Bool
  slot : Nat
  firstGrp : Nat
  tscale : Nat
  aux : Nat
  rsvd : Nat
deriving DecidableEq, Repr

/-- The fields of 64 descriptor bytes (R190). -/
def descOf (bs : List Byte) : Desc :=
  let g := leAt bs
  { base := g 0 8 % 2 ^ 48
    strides := (List.range 4).map (fun d => signedOf 32 (g (8 + 4 * d) 4))
    counts := (List.range 4).map (fun d => g (24 + 4 * d) 4)
    handle := g 40 4
    src := bits (g 44 1) 0 4
    dst := bits (g 44 1) 4 4
    rnd := bits (g 45 1) 0 2
    satw := (g 45 1).testBit 2
    restart := (g 45 1).testBit 3
    space := (g 45 1).testBit 4
    stat := (g 45 1).testBit 5
    mf := (g 45 1).testBit 6
    zm := (g 45 1).testBit 7
    site := g 46 1
    region := bits (g 47 1) 0 6
    kind := bits (g 47 1) 6 2
    gs := bits (g 48 1) 0 2
    scm := (g 48 1).testBit 2
    mslots := bits (g 48 1) 3 3
    subq := (g 48 1).testBit 6
    slot := bits (g 49 1) 0 4
    firstGrp := g 50 2
    tscale := g 52 4
    aux := g 56 8
    rsvd := g 6 2 + bits (g 48 1) 7 1 + bits (g 49 1) 4 4 }

def Desc.total (d : Desc) : Nat := d.counts.foldl (· * ·) 1
def Desc.srcFmt (d : Desc) : Fmt := (fmtOf d.src).getD .int8
def Desc.dstFmt (d : Desc) : Fmt := (fmtOf d.dst).getD .int8

/-- The format the elements have in memory or scratch. -/
def Desc.memFmt (d : Desc) : Fmt := if d.kind = 1 then d.dstFmt else d.srcFmt

/-- Group size (R190); 0 for an ungrouped descriptor. -/
def Desc.group (d : Desc) : Nat := match d.gs with | 0 => 0 | 1 => 32 | 2 => 64 | _ => 128

/-- A conversion from a format is a grouped quantising one (R131). For a store the format is what READ or DRAIN delivers (DEDUCED, log entry
149). -/
def Desc.quantOf (d : Desc) (src : Fmt) : Bool :=
  d.gs ≠ 0 && (d.dstFmt = .int4 || d.dstFmt = .int8) && !(src = .int4 || src = .int8)

/-- A grouped quantising conversion by the descriptor's own formats. -/
def Desc.quant (d : Desc) : Bool := d.quantOf d.srcFmt

/-- A dequantising load (R131). -/
def Desc.dequant (d : Desc) : Bool :=
  d.gs ≠ 0 && (d.srcFmt = .int4 || d.srcFmt = .int8) && decide (3 ≤ d.dst) && decide (d.dst ≤ 7) && d.kind ≠ 1

/-- The indices of element e, dimension 0 innermost (R190). -/
def Desc.indices (d : Desc) (e : Nat) : List Nat :=
  (d.counts.foldl (fun (acc : List Nat × Nat) c => (acc.1 ++ [acc.2 % c], acc.2 / c)) ([], e)).1

/-- Where element e sits, in half bytes from address 0 (R190). -/
def Desc.nibble (d : Desc) (e : Nat) : Int :=
  let s := ((d.indices e).zip d.strides).foldl (fun (a : Int) p => a + (p.1 : Int) * p.2) 0
  2 * (d.base : Int) + ((d.memFmt.bits / 4 : Nat) : Int) * s

/-- Least and greatest half-byte address of the descriptor's elements. -/
def Desc.extent (d : Desc) : Int × Int :=
  let w : Int := ((d.memFmt.bits / 4 : Nat) : Int)
  let spans := (d.counts.zip d.strides).map (fun p => w * ((p.1 : Int) - 1) * p.2)
  let lo := spans.foldl (fun a x => if x < 0 then a + x else a) (2 * (d.base : Int))
  let hi := spans.foldl (fun a x => if 0 < x then a + x else a) (2 * (d.base : Int))
  (lo, hi + w - 1)

/-- A byte range inside one scratch range (R189), the itinerary area of `area` bytes removed (R239). -/
def inScratch (area : Nat) (lo hi : Int) : Bool :=
  (decide (0x8C00 ≤ lo) && decide (hi ≤ 0xEFFF)) ||
  (decide (0x10000 ≤ lo) && decide (hi < 0x20000 - (area : Int)))

/-- The first i at which the progression b, b + s, b + 2s, … is at or past the near end of [lo, hi]. -/
def firstIn (b s lo hi : Int) : Nat :=
  if s = 0 then 0 else if 0 < s then ((lo - b + s - 1) / s).toNat else ((b - hi - s - 1) / (-s)).toNat

/-- Some sum of b and an index of each dimension times its stride lies in [lo, hi]. Dimensions are (stride, count). -/
def reaches : List (Int × Nat) → Int → Int → Int → Bool
  | [], b, lo, hi => decide (lo ≤ b) && decide (b ≤ hi)
  | (s, n) :: rest, b, lo, hi =>
    let span (up : Bool) : Int := rest.foldl (fun a d =>
      let x := d.1 * ((d.2 : Int) - 1)
      if (decide (0 < x)) = up then a + x else a) 0
    let l := lo - span true
    let h := hi - span false
    let i := firstIn b s l h
    let m := if s = 0 then 1 else min (n - i) (((h - l) / (s.natAbs : Int)).toNat + 1)
    (List.range m).any (fun j => reaches rest (b + ((i + j : Nat) : Int) * s) lo hi)

/-- The elements of a staging stream stay within the scratch ranges (R191): a stream may step over the descriptor table between
them. -/
def Desc.inStaging (d : Desc) (area : Nat) : Bool :=
  let w : Int := ((d.memFmt.bits / 4 : Nat) : Int)
  let e := d.extent
  decide (2 * 0x8C00 ≤ e.1) && decide (e.2 < 2 * (0x20000 - (area : Int))) &&
    !reaches ((d.strides.zip d.counts).reverse.map (fun p => (w * p.1, p.2))) (2 * (d.base : Int)) (2 * 0xF000 - w + 1) (2 * 0x10000 - 1)

/-- R48, R131: the descriptor's path performs the pair of source format s and its own DSTFMT. -/
def Desc.takes (d : Desc) (s : Fmt) : Bool :=
  match fmtOf d.dst with
  | some t =>
    if d.kind = 2 then s = .scale && t = .scale
    else if d.gs ≠ 0 && (t = .int4 || t = .int8) && !s.isInt then
      (s.isMem || (s = .wide && d.kind = 1)) && s ≠ .scale
    else convertible s t || (d.kind = 1 && (s = .int32 || s = .wide) && t.isMem) ||
      (d.kind = 1 && s = .wide && t = .int32)
  | none => false

/-- The pair of a descriptor's own formats is one of R48. -/
def Desc.pairOk (d : Desc) : Bool := match fmtOf d.src with | some s => d.takes s | none => false

/-- R191: the checks a descriptor must pass; `area` is the size of the itinerary area in bytes. A manifest stream is checked for
the least its records hold, 2 bytes each (R129). -/
def Desc.ok (d : Desc) (area : Nat) : Bool :=
  let size := d.memFmt.bits / 8
  d.pairOk && decide (d.rnd ≠ 3) && decide (d.mslots ≤ 4) && decide (d.rsvd = 0) &&
  d.counts.all (fun c => decide (1 ≤ c)) && decide (d.total < 2 ^ 48) &&
  (!d.restart || decide (d.kind = 3)) && !(d.quant && d.satw) &&
  (if d.kind = 2 then
      (!(d.zm || d.subq) || decide (d.base % 2 = 0)) && (d.subq || decide (d.aux % 2 = 0))
    else decide (d.base % (max size 1) = 0)) &&
  (match d.kind with
    | 0 => decide (d.aux = 0)
    | 1 => if d.scm then decide (d.aux / 2 ^ 15 = 0) && decide (bits d.aux 6 2 = 0) else decide (d.aux = 0)
    | 2 => if d.subq then decide (d.aux = 0) else true
    | _ => decide (d.aux < 2 ^ 17) && decide (d.aux % (max (d.dstFmt.bits / 8) 1) = 0) &&
        inScratch area (d.aux : Int) ((d.aux : Int) + ((d.total * d.dstFmt.bits + 7) / 8 : Nat) - 1)) &&
  (!d.space || (if d.kind = 2 then
      let n := d.total * (if d.zm || d.subq then 2 else 1)
      inScratch area (d.base : Int) ((d.base + n : Nat) - 1) &&
        (d.subq || decide (d.aux = 0) || inScratch area (d.aux : Int) ((d.aux + 2 * d.total : Nat) - 1))
    else d.inStaging area))

/-- A region table entry (R197). -/
structure Region where
  v : Bool
  r : Bool
  w : Bool
  hw : Bool
  prov : Bool
  base : Nat
  pages : Nat
  rsvd : Bool
deriving DecidableEq, Repr

def regionOf (x : Nat) : Region :=
  { v := x.testBit 0, r := x.testBit 1, w := x.testBit 2, hw := x.testBit 3, prov := x.testBit 4
    base := bits x 12 19, pages := bits x 32 20
    rsvd := decide (bits x 5 7 + bits x 31 1 + bits x 52 12 ≠ 0) }

/-- R197: an entry that a load accepts. -/
def Region.ok (g : Region) : Bool :=
  !g.rsvd && decide (g.base + g.pages ≤ 2 ^ 19) && (!g.v || decide (1 ≤ g.pages))

/-- R198: the cause of a failed check of one access at a byte address; 0 when it passes. -/
def Region.check (g : Region) (addr : Int) (write spec : Bool) : Nat :=
  let page := addr / 0x200000
  if addr < 0 ∨ 2 ^ 40 ≤ addr ∨ !g.v ∨ page < (g.base : Int) ∨ ((g.base + g.pages : Nat) : Int) ≤ page then 1
  else if (write && !g.w) || (!write && !g.r) then 2
  else if write && spec && !g.prov then 3
  else 0

/-- A bedrock job descriptor (R224). -/
structure JobD where
  src : Nat
  dst : Nat
  spitch : Nat
  dpitch : Nat
  nx : Nat
  ny : Nat
  idx : Nat
  rowBytes : Nat
  op : Nat
  esize : Nat
  sreg : Nat
  dreg : Nat
  ireg : Nat
  nrows : Nat
  rsvd : Bool
deriving DecidableEq, Repr

def jobOf (bs : List Byte) : JobD :=
  let g := leAt bs
  { src := g 0 8 % 2 ^ 40, dst := g 8 8 % 2 ^ 40, spitch := g 16 4, dpitch := g 20 4, nx := g 24 4, ny := g 28 4
    idx := g 32 8, rowBytes := g 40 4, op := bits (g 44 1) 0 2, esize := bits (g 44 1) 2 2
    sreg := bits (g 45 1) 0 6, dreg := bits (g 46 1) 0 6, ireg := bits (g 47 1) 0 6, nrows := g 48 4
    rsvd := decide (g 5 3 + g 13 3 + bits (g 44 1) 4 4 + bits (g 45 1) 6 2 + bits (g 46 1) 6 2 +
      bits (g 47 1) 6 2 + g 52 12 ≠ 0) }

def JobD.esz (j : JobD) : Nat := 2 ^ j.esize

/-- Reserved values and fields that must be 0 for the operation (R224). -/
def JobD.reserved (j : JobD) : Bool :=
  j.rsvd || decide (j.op = 0) || decide (j.esize = 3) ||
  (decide (j.op ≠ 1) && decide (j.ny ≠ 0)) || (decide (j.op = 1) && decide (j.idx ≠ 0)) ||
  (decide (j.op ≠ 2) && decide (j.rowBytes ≠ 0))

/-- Source, index and destination extents as (address, bytes) (R226). -/
def JobD.srcExt (j : JobD) : Nat × Nat :=
  if j.op = 1 then
    if j.nx = 0 ∨ j.ny = 0 then (j.src, 0) else (j.src, (32 * j.ny - 1) * j.spitch + 32 * j.nx * j.esz)
  else if j.op = 2 then (j.src, j.nrows * j.spitch) else (j.src, 0)
def JobD.idxExt (j : JobD) : Nat × Nat := if j.op = 2 then (j.idx, 4 * j.nx) else (0, 0)
def JobD.dstExt (j : JobD) : Nat × Nat :=
  if j.op = 1 then
    if j.nx = 0 ∨ j.ny = 0 then (j.dst, 0) else (j.dst, (32 * j.nx - 1) * j.dpitch + 32 * j.ny * j.esz)
  else if j.op = 2 then
    if j.nx = 0 then (j.dst, 0) else (j.dst, (j.nx - 1) * j.dpitch + j.rowBytes)
  else (j.dst, 64 * j.nx)

def overlaps (a b : Nat × Nat) : Bool :=
  decide (0 < a.2) && decide (0 < b.2) && decide (a.1 < b.1 + b.2) && decide (b.1 < a.1 + a.2)

/-- Alignment and overlap rules of R224 to R226; addresses past 2^40 - 1 fail the region check (R198). -/
def JobD.shapeOk (j : JobD) : Bool :=
  (match j.op with
    | 1 =>
      let m := 32 * j.esz
      decide (j.src % m = 0) && decide (j.dst % m = 0) && decide (j.spitch % m = 0) && decide (j.dpitch % m = 0)
    | 2 =>
      decide (j.src % 64 = 0) && decide (j.dst % 64 = 0) && decide (j.spitch % 64 = 0) &&
      decide (j.dpitch % 64 = 0) && decide (j.rowBytes ≤ j.spitch) && decide (j.rowBytes ≤ j.dpitch) &&
      decide (j.rowBytes % 64 = 0) && decide (64 ≤ j.rowBytes) && decide (j.rowBytes ≤ 65536)
    | _ => decide (j.dst % 64 = 0)) &&
  !overlaps j.srcExt j.dstExt && !overlaps j.idxExt j.dstExt

/-- A task table entry (R248). -/
structure TaskE where
  exec : Nat
  acc : Nat
  mode : Nat
  sense : Bool
  pred : Nat
  wbase : Nat
  wsize : Nat
  stage : Nat
  rsvd : Bool
deriving DecidableEq, Repr

def taskOf (bs : List Byte) : TaskE :=
  let g := leAt bs
  { exec := g 0 2, acc := g 2 2, mode := bits (g 4 1) 0 2, sense := (g 4 1).testBit 2, pred := g 5 1
    wbase := bits (g 6 1) 0 7, wsize := bits (g 7 1) 0 5, stage := g 8 4
    rsvd := decide (bits (g 4 1) 3 5 + bits (g 6 1) 7 1 + bits (g 7 1) 5 3 + g 12 4 ≠ 0) }

/-- Size of the itinerary area of a section in bytes (R239). -/
def Section.area (s : Section) : Nat := (s.ntask + s.nexec + s.nacc) * 16

/-- Offset of a 16-byte word of the itinerary area: the task table, then the execute and the access program. -/
def Section.at (s : Section) (i : Nat) : Nat := 0x20000 - s.area + 16 * i

def Cluster.taskE (c : Cluster) (i : Nat) : TaskE := taskOf (c.stg (c.sec.at i) 16)

/-- Descriptor n of the table at the end of staging half 0 (R189, R190). -/
def Cluster.desc (c : Cluster) (n : Nat) : Desc := descOf (c.stg (0xF000 + 64 * (n % 64)) 64)

/-- The instruction a 128-bit word holds in a program (R243 to R247); none for an OPC not listed there, a field value
the tables do not have, or a reserved bit that is not 0. -/
def insnOf (cl : ClusterNo) (h : Half) (w : Nat) : Option Instr :=
  let opc := bits w 0 8
  let clean (m : List (Nat × Nat)) : Bool :=
    decide (w = opc + (m.map (fun p => bits w p.1 p.2 * 2 ^ p.1)).foldl (· + ·) 0)
  let b (lo n : Nat) : BitVec n := BitVec.ofNat n (bits w lo n)
  let tile : Fin 2 := if w.testBit 8 then 1 else 0
  let ex := decide (h = .execute)
  let rd : ReadF :=
    { tile := tile, fmt := b 9 4, rnd := b 13 2, satw := w.testBit 15, site := b 16 8, desc := b 24 6 }
  match opc with
  | 0x00 => if clean [] then some (.nop cl h) else none
  | 0x01 => if clean [] then some (.endHalf cl h) else none
  | 0x02 => if clean [(8, 16), (24, 16)] then some (.loop cl h (b 8 16) (b 24 16)) else none
  | 0x03 => if clean [] then some (.stagew cl h) else none
  | 0x10 => if ex && clean [(8, 20), (32, 48)] then
      some (.mop cl { opk := b 8 3, stream := w.testBit 11, cls := b 12 4, tile := if w.testBit 16 then 1 else 0
                      grp := b 17 2, gq := w.testBit 19, gs := b 20 2, zpm := b 22 2, mfa := w.testBit 24
                      mfw := w.testBit 25, wsrc := b 26 2, rows := b 32 6, cols := b 38 6, sa := b 44 6
                      sb := b 50 6, k := b 56 24 })
    else none
  | 0x11 => if ex && clean [(8, 7)] then some (.wload cl (b 8 6) (w.testBit 14)) else none
  | 0x12 => if ex && clean [] then some (.swap cl) else none
  | 0x20 => if ex && clean [(8, 22)] then some (.read cl rd) else none
  | 0x21 => if ex && clean [(8, 22)] then some (.drain cl rd) else none
  | 0x22 => if ex && clean [(8, 8), (24, 6)] then
      some (.tload cl { tile := tile, fmt := b 9 4, path := b 13 3, desc := b 24 6 }) else none
  | 0x23 => if ex && clean [(8, 1)] then some (.clear cl tile) else none
  | 0x30 => if ex && clean [(8, 78), (96, 32)] then
      some (.glz cl { gfn := b 8 5, ifmt := b 13 4, ofmt := b 17 4, sa := b 21 6, desc := b 27 6, len := b 33 16
                      count := b 49 31, idesc := b 80 6, eps := b 96 32 }) else none
  | 0x31 => if ex && clean [(8, 6), (16, 56)] then some (.gtload cl (b 8 6) (b 16 16) (b 32 40)) else none
  | 0x32 => if ex && clean [] then some (.gswitch cl) else none
  | 0x40 => if ex && clean [] then some (.gstep cl) else none
  | 0x41 => if ex && clean [] then some (.wadv cl) else none
  | 0x42 => if ex && clean [(8, 10), (32, 17), (64, 32)] then
      some (.setp cl { pred := b 8 8, cmp := b 16 2, off := b 32 17, imm := b 64 32 }) else none
  | 0x43 => if ex && clean [(8, 12)] then
      some (.red cl { tile := tile, ring := b 9 3, carry := b 12 2, desc := b 14 6 }) else none
  | 0x80 => if !ex && clean [(8, 6)] then some (.stream cl (b 8 6)) else none
  | 0x81 => if !ex && clean [(8, 38)] then
      some (.spair cl { descA := b 8 6, descW := b 14 6, rows := b 20 6, cols := b 26 6, mdescA := b 32 6
                        mdescW := b 38 6, mva := w.testBit 44, mvw := w.testBit 45 }) else none
  | 0x82 => if !ex && clean [(8, 17)] then some (.job cl (b 8 17)) else none
  | 0x83 => if !ex && clean [(8, 6)] then some (.waits cl (b 8 6)) else none
  | _ => none

end Sys2Proof.Machine
end

