-- ==== Sys2Proof/Machine/Tile.lean ====
section
/-! DEFINITION. Accumulator arithmetic: terms, entry into elements, resolution, wide elements (R57 to R81, R95 to R98). -/

namespace Sys2Proof.Machine

/-- Path tags (R81, R91). -/
def pathQ128 : Nat := 1
def pathQ256P : Nat := 2
def pathQ512 : Nat := 3
def pathF32 : Nat := 4
def pathI64 : Nat := 5
def pathQ256H : Nat := 6
def pathQ256G : Nat := 7

def isQuire (p : Nat) : Bool := p = 1 || p = 2 || p = 3 || p = 6 || p = 7

/-- Weight of bit 0 is 2 to minus this (R59); 0 for I64. -/
def fracBits (p : Nat) : Nat := if p = 1 then 48 else if p = 3 then 240 else if p = 5 || p = 4 then 0 else 112

/-- Width of the accumulator (R57). -/
def accBits (p : Nat) : Nat := if p = 1 then 128 else if p = 3 then 512 else if p = 5 then 64 else 256

/-- The path and tag of an array instruction (R57, R81, R96, R121). -/
def mopPath (f : MopF) : Nat :=
  if f.gq then 7
  else if f.opk = 0 then
    match f.cls.toNat with
    | 0 | 1 => 5
    | 2 => 1
    | 3 => 2
    | 4 => 3
    | 5 => 6
    | _ => 4
  else if f.cls.toNat = 2 then 2 else 5

/-- An exact real in quire units (R59). -/
def quireUnits (p : Nat) (q : Rat) : Int := (q * ((2 ^ fracBits p : Nat) : Rat)).floor

/-- The real value of a whole number of units. -/
def unitsReal (p : Nat) (i : Int) : Rat := mkRat i (2 ^ fracBits p)

/-- The term of an operation on two operand values (R95), with the creation of R83 it may be. -/
def termOf (opk : Nat) (a b : Val) : Val × Flg × Option Nat :=
  match a, b with
  | .nar, _ | _, .nar => (.nar, 0, none)
  | .nan, _ | _, .nan => (.nan, 0, none)
  | .inf _, .zero _ | .zero _, .inf _ => (.nan, flagInv, some 1)
  | .inf s, .inf t => (.inf (s != t), 0, none)
  | .inf s, .fin q | .fin q, .inf s => (.inf (s != decide (q < 0)), 0, none)
  | _, _ =>
    let x := a.real
    let y := b.real
    let t := match opk with
      | 0 => x * y
      | 1 => if x < y then y - x else x - y
      | 2 => (x - y) * (x - y)
      | _ => x + y
    (Val.ofRat t, 0, none)

/-- What one term makes of an element: the element, flags, a creation (OP and K index), the K index of a new winner. -/
structure Cell where
  e : Elem
  fl : Flg := 0
  cr : Option (Nat × Nat) := none
  win : Option Nat := none
deriving DecidableEq, Repr

/-- Whole number of units an element holds; an empty element counts as 0. -/
def Elem.units : Elem → Int
  | .num i => i
  | _ => 0

/-- Enter a term into an element by addition (R57, R60, R64, R76, R96). -/
def addTerm (path opk : Nat) (e : Elem) (t : Val) (k : Nat) : Cell :=
  match e with
  | .nar => { e := .nar }
  | .nan => { e := .nan }
  | .inf s =>
    match t with
    | .inf u => if s = u then { e := .inf s } else { e := .nan, fl := flagInv, cr := some (2, k) }
    | .nan => { e := .nan }
    | _ => { e := .inf s }
  | _ =>
    match t with
    | .nar => { e := .nar }
    | .nan => { e := .nan }
    | .inf s => { e := .inf s }
    | _ =>
      let sum := e.units + quireUnits path t.real
      if path = 5 && opk ≠ 0 && decide (2 ^ 63 - 1 < sum) then { e := .num (2 ^ 63 - 1), fl := flagLong }
      else { e := .num (Int.bmod sum (2 ^ (accBits path + (if path = 5 then 0 else 8)))) }

/-- Enter a term into an element by selection (R97). -/
def selTerm (path opk : Nat) (first : Bool) (e : Elem) (t : Val) (k : Nat) : Cell :=
  let v : Elem := match t with
    | .nar => .nar
    | .nan => .nan
    | _ => .num (quireUnits path t.real)
  if first then { e := v, win := some k }
  else match e, v with
    | .nar, _ => { e := e }
    | _, .nar => { e := .nar, win := some k }
    | _, _ =>
      let better := if opk = 3 || opk = 5 then decide (e.units < v.units) else decide (v.units < e.units)
      if better then { e := v, win := some k } else { e := e }

/-- Fold the terms of one column into an element of a Q or I64 path: K index, row operand, column operand. -/
def foldTerms (path opk : Nat) (first : Bool) (e : Elem) (ts : List (Nat × Val × Val)) : Cell :=
  (ts.foldl (fun (st : Cell × Bool) x =>
      let t := termOf opk x.2.1 x.2.2
      let c := if 3 ≤ opk then selTerm path opk st.2 st.1.e t.1 x.1 else addTerm path opk st.1.e t.1 x.1
      let cr := match t.2.2 with
        | some op => some (op, x.1)
        | none => c.cr
      ({ e := c.e, fl := st.1.fl ||| t.2.1 ||| c.fl, cr := st.1.cr.orElse (fun _ => cr)
         win := c.win.orElse (fun _ => st.1.win) }, false))
    ({ e := e }, first)).1

/-- One level of the F32 tree (R71): pairs are added, an odd last node passes unchanged. -/
def treeLevel : List (Nat) → List Nat × Flg × Option Nat
  | a :: b :: r =>
    let m := f32Add a b
    let t := treeLevel r
    (m.code :: t.1, m.flags ||| t.2.1, m.op.orElse (fun _ => t.2.2))
  | r => (r, 0, none)

/-- The group sum of up to 16 products (R71). -/
def treeSum (ps : List Nat) : List Nat × Flg × Option Nat :=
  (List.range 4).foldl (fun (st : List Nat × Flg × Option Nat) _ =>
    let t := treeLevel st.1
    (t.1, st.2.1 ||| t.2.1, st.2.2.orElse (fun _ => t.2.2))) (ps, 0, none)

/-- Add a group sum to an F32 element (R72). -/
def addGroup (e : Elem) (ps : List Nat) (k : Nat) : Cell :=
  let t := treeSum ps
  match t.1 with
  | [] => { e := e }
  | g :: _ =>
    match e with
    | .f32 a =>
      let m := f32Add a g
      { e := .f32 m.code, fl := t.2.1 ||| m.flags, cr := (t.2.2.orElse (fun _ => m.op)).map (fun o => (o, k)) }
    | _ => { e := .f32 g, fl := t.2.1, cr := t.2.2.map (fun o => (o, k)) }

/-- The value of a resolved element (R60, R64): out of range becomes NaR. -/
def resolveElem (p : Nat) (e : Elem) : Elem :=
  match e with
  | .num i =>
    if isQuire p && (decide (i ≤ -(2 ^ (accBits p - 1) : Nat)) || decide (((2 ^ (accBits p - 1) : Nat) : Int) ≤ i))
    then .nar else e
  | _ => e

/-- An element's exact value; tensor scales apply on Q256G unless the read is wide (R123). -/
def elemVal (t : Tile) (wide : Bool) (e : Elem) : Val :=
  match e with
  | .empty => .zero false
  | .num i =>
    let v := unitsReal t.path i
    if t.path = 7 && !wide then
      Val.ofRat (v * (decodeVal .bin32 t.tsa).1.real * (decodeVal .bin32 t.tsw).1.real)
    else Val.ofRat v
  | .nar => if t.path = 6 then .nan else .nar
  | .nan => .nan
  | .inf s => .inf s
  | .f32 c => (decodeVal .bin32 c).1

/-- The wide form of an element (R60, R62, R78); 512 bits on Q512, else 256. -/
def wideOf (p : Nat) (e : Elem) : Nat :=
  let w := if p = 3 then 512 else 256
  match e with
  | .empty => if p = 4 then 2 ^ 32 else 0
  | .num i => bitsOf w i
  | .nar | .nan => if p = 1 then bitsOf w (-(2 ^ 127 : Nat)) else 2 ^ (w - 1)
  | .inf s => if s then 2 ^ 255 + 2 ^ 254 else 2 ^ 254
  | .f32 c => c

/-- The element a wide value restores on a path (R60, R79), with the flags of the load. -/
def ofWide (p : Nat) (w : Nat) : Elem × Flg :=
  if p = 4 then
    if w.testBit 32 then (.empty, 0)
    else
      let c := w % 2 ^ 32
      let m := convert .bin32 .bin32 rneCtl c
      if c / 2 ^ 23 % 256 = 0 then (.f32 m.code, m.flags) else (.f32 c, 0)
  else if p = 5 then (.num (signedOf 64 w), 0)
  else
    let n := accBits p
    let v := w % 2 ^ n
    if v = 2 ^ (n - 1) then (if p = 6 then .nan else .nar, 0)
    else if p = 6 && v = 2 ^ 254 then (.inf false, 0)
    else if p = 6 && v = 2 ^ 255 + 2 ^ 254 then (.inf true, 0)
    else (.num (signedOf n v), 0)

def Tile.row (t : Tile) (r : Nat) : List Elem := sget emptyRow t.rows r
def Tile.setRow (t : Tile) (r : Nat) (v : List Elem) : Tile := { t with rows := sput emptyRow t.rows r v }
def Tile.elem (t : Tile) (r j : Nat) : Elem := (t.row r).getD j .empty

/-! Carry-save form (R66) -/

/-- Pending carry bits of an element's segments. -/
def Tile.pending (t : Tile) (r j : Nat) : Nat := (sget noCarry t.carry r).getD j 0
def Tile.setPending (t : Tile) (r j p : Nat) : Tile :=
  { t with carry := sput noCarry t.carry r ((sget noCarry t.carry r).set j p) }

/-- What n pending carry bits weigh, bit k entering segment k. -/
def carryWeight : Nat → Nat → Nat
  | 0, _ => 0
  | n + 1, p => p % 2 + 2 ^ 32 * carryWeight n (p / 2)

/-- The carries out of n segments that add their share of a term to their contents `r` with the carry pending at each: bit k of the
answer waits to enter segment k + 1. The top segment, which also holds the extension bits, gives none. -/
def carriesOut : Nat → Nat → Nat → Nat → Nat
  | 0, _, _, _ => 0
  | 1, _, _, _ => 0
  | n + 2, r, x, p =>
    (if 2 ^ 32 ≤ r % 2 ^ 32 + x % 2 ^ 32 + p % 2 then 1 else 0) + 2 * carriesOut (n + 1) (r / 2 ^ 32) (x / 2 ^ 32) (p / 2)

/-- Segments of a path's quire: 4, 8 or 16. -/
def segments (p : Nat) : Nat := accBits p / 32

/-- The segments' own contents of a quire element, without the pending carries; the top segment has 40 bits. -/
def Tile.contents (t : Tile) (r j : Nat) : Nat :=
  bitsOf (accBits t.path + 8) ((t.elem r j).units - (carryWeight (segments t.path) (t.pending r j) : Int))

/-- The carries that wait once a quire element has added a term: no carry moves more than one segment. -/
def Tile.carried (t : Tile) (r j : Nat) (term : Int) : Nat :=
  2 * carriesOut (segments t.path) (t.contents r j) (bitsOf (accBits t.path + 8) term) (t.pending r j)

/-- An element takes a value that leaves no pending carry: loaded, selected, or not a number of units. -/
def Tile.setElem (t : Tile) (r j : Nat) (e : Elem) : Tile := (t.setPending r j 0).setRow r ((t.row r).set j e)

/-- The carries that wait in an element once an addition has made `e` of it. -/
def Tile.carriesOf (t : Tile) (r j : Nat) (e : Elem) : Nat :=
  match e with
  | .num i => if isQuire t.path then t.carried r j (i - (t.elem r j).units) else 0
  | _ => 0

/-- An element becomes what an addition has made of it: a quire keeps the carries of its segments pending. -/
def Tile.addElem (t : Tile) (r j : Nat) (e : Elem) : Tile :=
  (t.setPending r j (t.carriesOf r j e)).setRow r ((t.row r).set j e)

/-- Resolution (R64, R67): the pending carries ripple until none remains; an element out of range becomes NaR. -/
def Tile.resolved (t : Tile) : Tile :=
  { t with carry := [], rows := t.rows.map (fun r => (r.1, r.2.map (resolveElem t.path))) }

/-- A tile emptied by a drain, CLEAR or discard: count 0, path none, latches 0 (R67, R124, R246); the mark of R257 stays. -/
def Tile.emptied (t : Tile) : Tile := { t with path := 0, count := 0, rows := [], carry := [], tsa := 0, tsw := 0 }

/-- Rows and columns of the physical or logical tile a path uses (R61). -/
def tileSide (p : Nat) : Nat := if p = 3 then 16 else 32

/-- A tile is busy while it accumulates, is read or drains, or loads (R91). -/
def Cluster.busy (c : Cluster) (n : Nat) : Bool :=
  (decide (c.st = 2) || decide (c.st = 4)) &&
  ((c.tile n).out.isSome || (c.tile n).ld.isSome ||
    (c.tail ++ c.mop.toList).any (fun m => decide (m.f.tile.val = n) || decide (5 ≤ m.f.opk.toNat)))

/-- The first creation of a row of cells with its column. -/
def firstMade (cs : List Cell) : Option (Nat × Nat × Nat) :=
  (cs.zipIdx.findSome? (fun x => x.1.cr.map (fun c => (x.2, c.1, c.2))))

def orFlags (cs : List Cell) : Flg := cs.foldl (fun f c => f ||| c.fl) 0

/-- The cell row or column that holds a logical one (R61). -/
def cellIx (p i : Nat) : Nat := if p = 3 then 2 * i else i

end Sys2Proof.Machine
end

