-- ==== Sys2Proof/Machine/Array.lean ====
section
/-! DEFINITION. The array: outer-product steps, stream tokens, weight sets, grouped multiplication and the manifest lane
(R99 to R109, R121 to R137). Each function answers the cluster after the step and the side effects, or none when the
step does not come about. -/

namespace Sys2Proof.Machine

/-- Take n elements of a stream from entries that a consumer has popped: the elements, the stages they were delivered in, the
entries left. -/
def popElems (d : Nat) : List LoadEntry → Nat → Option (List Nat × List Nat × List LoadEntry)
  | q, 0 => some ([], [], q)
  | [], _ + 1 => none
  | e :: q, n + 1 =>
    if e.desc = d then
      if e.elems.length ≤ n + 1 then
        (popElems d q (n + 1 - e.elems.length)).map (fun r => (e.elems ++ r.1, e.stage :: r.2.1, r.2.2))
      else some (e.elems.take (n + 1), [e.stage], { e with elems := e.elems.drop (n + 1) } :: q)
    else (popElems d q (n + 1)).map (fun r => (r.1, r.2.1, e :: r.2.2))

/-- Elements of a stream among load entries. -/
def elemsOf (d : Nat) (q : List LoadEntry) : Nat := q.foldl (fun n e => if e.desc = d then n + e.elems.length else n) 0

/-- Pop whole entries from the head of the load trail queue while the head's stream is one that `lack`s elements (R186, R187):
the entries popped and the queue left. -/
def popHeads (lack : Nat → Nat) : List LoadEntry → List LoadEntry × List LoadEntry
  | [] => ([], [])
  | e :: q =>
    if 0 < lack e.desc then
      let r := popHeads (fun d => if d = e.desc then lack d - e.elems.length else lack d) q
      (e :: r.1, r.2)
    else ([], e :: q)

/-- The consumers of a step pop what it needs of each stream, as far as the queue's order gives it (R187). -/
def Cluster.pull (c : Cluster) (needs : List (Nat × Nat)) : Cluster :=
  let want (d : Nat) : Nat := needs.foldl (fun n x => if x.1 = d then n + x.2 else n) 0
  let r := popHeads (fun d => want d - elemsOf d c.hand) c.loadQ
  ({ c with loadQ := r.2, hand := c.hand ++ r.1 } : Cluster).give 0 r.1.length

/-- Elements of a stream that are delivered and not used. -/
def queuedElems (c : Cluster) (d : Nat) : Nat := elemsOf d c.hand + elemsOf d c.loadQ

/-- A step can have n elements of a stream now. -/
def Cluster.canPop (c : Cluster) (needs : List (Nat × Nat)) : Bool :=
  let h := (c.pull needs).hand
  needs.all (fun x => decide (needs.foldl (fun n y => if y.1 = x.1 then n + y.2 else n) 0 ≤ elemsOf x.1 h))

/-- A consumer takes elements that a stream delivered in some stages: the record of it, and the mark where a stage met a hazard
(R202). `who` is bit 0 or 1 for a tile, 2 or 3 for a weight bank, 4 for the glaze unit. -/
def Cluster.takes (c : Cluster) (who : Nat) (from_ : List (Nat × Nat)) : Cluster × List Act :=
  let hit := from_.any (fun x => c.hazards.contains x)
  ({ c with took := from_.foldl (fun t x => if t.contains (who, x) then t else (who, x) :: t) c.took },
   if !hit then [] else if who = 4 then [Act.hazBits 0x100000] else [Act.suspect (2 ^ who)])

/-- Pop n elements of a stream for a consumer. -/
def Cluster.popFor (c : Cluster) (d n who : Nat) : Option (List Nat × Cluster × List Act) :=
  let c1 := c.pull [(d, n)]
  (popElems d c1.hand n).map (fun r =>
    let x := ({ c1 with hand := r.2.2 } : Cluster).takes who (r.2.1.map (fun s => (d, s)))
    (r.1, x.1, x.2))

/-! Instructions in progress (R104, R108) -/

/-- The array instructions with adds still due, oldest first. -/
def Cluster.runs (c : Cluster) : List MopRun := c.tail ++ c.mop.toList

def Cluster.runOf (c : Cluster) (id : Nat) : Option MopRun := c.runs.find? (fun m => decide (m.id = id))

/-- Put an instruction in progress back where it stands. -/
def Cluster.putRun (c : Cluster) (m : MopRun) : Cluster :=
  let put (x : MopRun) : MopRun := if x.id = m.id then m else x
  { c with tail := c.tail.map put, mop := c.mop.map put }

/-- An array instruction accumulates into tile n; a selection with indices takes both tiles (R98). -/
def MopRun.writes (m : MopRun) (n : Nat) : Bool := decide (m.f.tile.val = n) || decide (5 ≤ m.f.opk.toNat)

/-- An array instruction has terms to add to tile n yet. -/
def Cluster.accumulates (c : Cluster) (n : Nat) : Bool := c.runs.any (fun m => m.writes n)

/-- The path tag of tile n once the instructions before have added their first terms (R81). -/
def Cluster.pathDue (c : Cluster) (n : Nat) : Nat :=
  if (c.tile n).path ≠ 0 then (c.tile n).path
  else match c.runs.find? (fun m => m.writes n) with
    | some m => if m.f.tile.val = n then mopPath m.f else 5
    | none => 0

/-- Decoded operand of an array class (R95). -/
def opVal (f : MopF) (code : Nat) : Val :=
  (decodeVal ((fmtOf f.cls.toNat).getD .int8) code).1

def opInt (f : MopF) (code : Nat) : Int := signedOf (if f.cls.toNat = 0 then 4 else 8) code

/-- Products per element and K index pair: an INT4 MAC step covers two K indices (R99). -/
def mopPair (f : MopF) : Bool := f.cls.toNat = 0 && f.opk.toNat = 0

/-- K indices a weight set covers (R103). -/
def mopCover (f : MopF) : Nat := if mopPair f then 64 else 32

def mopGroup (f : MopF) : Nat :=
  if f.gq then (match f.gs.toNat with | 0 => 32 | 1 => 64 | _ => 128)
  else (match f.grp.toNat with | 0 => 4 | 1 => 8 | _ => 16)

/-- Escape code of an operand's tensor (R116): -8 where its codes are INT4, -128 where they are INT8. A load that quantises
makes its codes in the destination format; any other stream's tensor has the source format, also where INT4 codes are widened
(R94, R128). -/
def escOf (c : Cluster) (d : Nat) : Int :=
  let x := c.desc d
  if (if x.src ≤ 1 then x.src else x.dst) = 0 then -8 else -128

/-- The escape code of the weight operand, of the stream that the set in use was loaded from (R128). -/
def escW (c : Cluster) (m : MopRun) : Int := escOf c m.wdesc

/-- A scale-skew fault found (R137): cause, operand, data number, number found. -/
structure Skew where
  cause : Nat
  opnd : Nat
  data : Nat := 0
  found : Nat := 0
deriving DecidableEq, Repr

def Skew.before (a b : Skew) : Bool := decide (a.cause < b.cause) || (a.cause = b.cause && decide (a.opnd ≤ b.opnd))

def pickSkew : List Skew → Option Skew
  | [] => none
  | a :: r => match pickSkew r with
    | none => some a
    | some b => if a.before b then some a else some b

/-- R120: a positive, finite, normal binary32 tensor scale. -/
def scaleOk (c : Nat) : Bool :=
  decide (c / 2 ^ 31 % 2 = 0) && decide (c / 2 ^ 23 % 256 ≠ 0) && decide (c / 2 ^ 23 % 256 ≠ 255)

def ManEntry.val (m : ManEntry) (n : Nat) : Val :=
  (decodeVal (if m.posit then .posit16 else .bin16) (m.vals.getD n 0)).1

def ManEntry.flags (m : ManEntry) : Flg :=
  m.vals.foldl (fun f v => f ||| (decodeVal (if m.posit then .posit16 else .bin16) v).2) 0

def ManEntry.special (m : ManEntry) : Bool :=
  (List.range m.vals.length).any (fun n => match m.val n with | .zero _ | .fin _ => false | _ => true)

/-- Group number of the data group of row i (operand 0) or column i (operand 1) of instruction group g (R136). -/
def dataNum (c : Cluster) (m : MopRun) (opnd g i : Nat) : Nat :=
  if opnd = 0 then ((c.desc m.f.sa.toNat).firstGrp + m.abase + g * m.f.rows.toNat + i) % 2 ^ 16
  else ((c.desc m.wdesc).firstGrp + m.wbase + g * m.f.cols.toNat + i) % 2 ^ 16

/-- What entering one group needs from the scale and manifest queues (R245). -/
def groupNeed (m : MopRun) : Nat × Nat :=
  let r := m.f.rows.toNat
  let w := m.f.cols.toNat
  ((if m.headed then 0 else 2) + r + w, (if m.f.mfa then r else 0) + (if m.f.mfw then w else 0))

/-- Enter the next group of a grouped instruction: pop its entries, check them (R136, R137, R124); their streams' hazards mark
the tile (R202). -/
def enterGroup (c : Cluster) (m : MopRun) : Option (Cluster × MopRun × List Skew × List Act) :=
  let need := groupNeed m
  if c.scaleQ.length < need.1 ∨ c.manQ.length < need.2 then none
  else
    let r := m.f.rows.toNat
    let w := m.f.cols.toNat
    let g := m.entA.length
    let first := !m.headed
    let h := if first then c.scaleQ.take 2 else []
    let q := if first then c.scaleQ.drop 2 else c.scaleQ
    let ea := q.take r
    let ew := (q.drop r).take w
    let ma := if m.f.mfa then c.manQ.take r else []
    let mq := if m.f.mfa then c.manQ.drop r else c.manQ
    let mw := if m.f.mfw then mq.take w else []
    let sa := (h.getD 0 { head := true, scale := 0, seq := 0 }).scale
    let sw := (h.getD 1 { head := true, scale := 0, seq := 0 }).scale
    let t := c.tile m.f.tile.val
    let latched := decide (c.pathDue m.f.tile.val ≠ 0) && (decide (t.tsa ≠ 0) || decide (t.tsw ≠ 0))
    let heads : List Skew := if !first then [] else
      (if scaleOk sa then [] else [{ cause := 6, opnd := 0 }]) ++
      (if scaleOk sw then [] else [{ cause := 6, opnd := 1 }]) ++
      (if latched && decide (t.tsa ≠ sa) then [{ cause := 7, opnd := 0 }] else []) ++
      (if latched && decide (t.tsw ≠ sw) then [{ cause := 7, opnd := 1 }] else [])
    let num (opnd i : Nat) : Nat := dataNum c m opnd g i
    let scales (opnd : Nat) (es : List ScaleEntry) : List Skew :=
      es.zipIdx.flatMap (fun x =>
        let n := num opnd x.2
        (if x.1.seq = n then [] else [{ cause := 1, opnd := opnd, data := n, found := x.1.seq }]) ++
        (if x.1.zp ≠ 0 ∧ (m.f.zpm.toNat = 0 ∨ (m.f.zpm.toNat = 2 ∧ opnd = 1)) then
          [{ cause := 5, opnd := opnd, data := n, found := x.1.seq }] else []))
    let mans (opnd : Nat) (es : List ManEntry) : List Skew :=
      es.zipIdx.flatMap (fun x =>
        let n := num opnd x.2
        (if x.1.seq = n then [] else [{ cause := 2, opnd := opnd, data := n, found := x.1.seq }]) ++
        (if x.1.special then [{ cause := 4, opnd := opnd, data := n, found := x.1.seq }] else []))
    let fl := (ma ++ mw).foldl (fun f e => f ||| e.flags) 0
    let c1 := (({ c with scaleQ := q.drop (r + w)
                         manQ := if m.f.mfw then mq.drop w else mq }).give 2 need.1).give 3 need.2
    let c2 := if first && !latched then c1.setTile m.f.tile.val { t with tsa := sa, tsw := sw } else c1
    let m1 := { m with
      headed := true
      entA := m.entA ++ [ea], entW := m.entW ++ [ew], manA := m.manA ++ [ma], manW := m.manW ++ [mw] }
    let x := c2.takes m.f.tile.val ((h ++ ea ++ ew).map (fun e => (e.desc, e.stage)) ++ (ma ++ mw).map (fun e => (e.desc, e.stage)))
    some (x.1, m1, heads ++ scales 0 ea ++ scales 1 ew ++ mans 0 ma ++ mans 1 mw, .flags fl :: x.2)

/-- Enter groups up to group g, as far as their entries are there: a group's entries are popped when all of them have come. -/
def enterGroups : Nat → Cluster → MopRun → Nat → Cluster × MopRun × List Skew × List Act
  | 0, c, m, _ => (c, m, [], [])
  | n + 1, c, m, g =>
    if g < m.entA.length then (c, m, [], [])
    else match enterGroup c m with
      | none => (c, m, [], [])
      | some (c1, m1, s1, f1) =>
        let r := enterGroups n c1 m1 g
        (r.1, r.2.1, s1 ++ r.2.2.1, f1 ++ r.2.2.2)

def noScale : ScaleEntry := { head := false, scale := 0, seq := 0 }
def noMan : ManEntry := { posit := false, vals := [], seq := 0 }

/-- Row or column i's scale entry and manifest record in group g. -/
def MopRun.scaleA (m : MopRun) (g i : Nat) : ScaleEntry := (m.entA.getD g []).getD i noScale
def MopRun.scaleW (m : MopRun) (g j : Nat) : ScaleEntry := (m.entW.getD g []).getD j noScale
def MopRun.recA (m : MopRun) (g i : Nat) : ManEntry := (m.manA.getD g []).getD i noMan
def MopRun.recW (m : MopRun) (g j : Nat) : ManEntry := (m.manW.getD g []).getD j noMan

/-- The zero-point stand-in for an escape code (R128): row operand, column operand of group g. -/
def qRow (c : Cluster) (m : MopRun) (g i code : Nat) : Int :=
  let v := opInt m.f code
  if m.f.mfa && v = escOf c m.f.sa.toNat then (m.scaleA g i).zp else v
def qCol (c : Cluster) (m : MopRun) (g j code : Nat) : Int :=
  let v := opInt m.f code
  if m.f.mfw && v = escW c m then (m.scaleW g j).zp else v

/-- A partial sum takes the operands of one more K index. -/
def GAcc.add (p : GAcc) (a b : Int) : GAcc := { dot := p.dot + a * b, sa := p.sa + a, sw := p.sw + b, n := p.n + 1 }

def noAccs (_ : Nat) : List GAcc := List.replicate 32 {}

/-- The group term T of element (i, j) in units of Q256 (R122, R125, R126), from the group's partial sum. Of a group that a short
weight set cuts, the K indices held take part (R106, R109). -/
def groupTerm (m : MopRun) (g i j : Nat) (s : GAcc) : Int :=
  let sa := m.scaleA g i
  let sw := m.scaleW g j
  let p : Int := match m.f.zpm.toNat with
    | 0 => s.dot
    | 1 => s.dot - sw.zp * s.sa - sa.zp * sw.sum + (s.n : Int) * sa.zp * sw.zp
    | _ => s.dot - sa.zp * s.sw
  quireUnits 7 ((p : Rat) * scaleVal sa.scale * scaleVal sw.scale)

/-- Lane item of an escape in activation row i at K index k (R128), its group's n-th: the codes of the columns there. -/
def laneA (c : Cluster) (m : MopRun) (k i n : Nat) (bs : List Nat) : LaneItem :=
  let g := k / mopGroup m.f
  let ma := ((m.recA g i).val n).real
  let ew := escW c m
  { k := k
    terms := (List.range m.f.cols.toNat).map (fun j =>
      let q := opInt m.f (bs.getD j 0)
      if m.f.mfw && q = ew then (i, j, ma * ((m.recW g j).val (sget zeroNat m.escB j)).real)
      else (i, j, ma * scaleVal (m.scaleW g j).scale * ((q - (m.scaleW g j).zp : Int) : Rat))) }

/-- Lane item of an escape in weight column j at K index k (R128): the rows' codes there. -/
def laneW (c : Cluster) (m : MopRun) (k j n : Nat) (as : List (Nat × Nat)) : LaneItem :=
  let g := k / mopGroup m.f
  let mw := ((m.recW g j).val n).real
  let ea := escOf c m.f.sa.toNat
  { k := k
    terms := as.filterMap (fun x =>
      let q := opInt m.f x.2
      if m.f.mfa && q = ea then none
      else some (x.1, j, mw * scaleVal (m.scaleA g x.1).scale * ((q - (m.scaleA g x.1).zp : Int) : Rat))) }

/-- The escapes of one K index (R128, R137): the codes of the rows and of the columns there. Answers the run with its groups' escape
counts, the lane items and the cause 3 faults. -/
def escapesAt (c : Cluster) (m : MopRun) (k : Nat) (as : List (Nat × Nat)) (bs : List Nat) :
    MopRun × List LaneItem × List Skew :=
  let g := k / mopGroup m.f
  let rows := if m.f.mfa then as.filter (fun x => decide (opInt m.f x.2 = escOf c m.f.sa.toNat)) else []
  let cols := if m.f.mfw then (List.range m.f.cols.toNat).filter (fun j => decide (opInt m.f (bs.getD j 0) = escW c m)) else []
  let ra := rows.map (fun x =>
    let n := sget zeroNat m.escA x.1
    let r := m.recA g x.1
    if r.vals.length ≤ n then (([] : List LaneItem), [{ cause := 3, opnd := 0, data := dataNum c m 0 g x.1, found := r.seq : Skew }])
    else ([laneA c m k x.1 n bs], []))
  let rw_ := cols.map (fun j =>
    let n := sget zeroNat m.escB j
    let r := m.recW g j
    if r.vals.length ≤ n then (([] : List LaneItem), [{ cause := 3, opnd := 1, data := dataNum c m 1 g j, found := r.seq : Skew }])
    else ([laneW c m k j n as], []))
  let up (l : SMap Nat) (is : List Nat) : SMap Nat := is.foldl (fun l i => sput zeroNat l i (sget zeroNat l i + 1)) l
  let ends := decide ((k + 1) % mopGroup m.f = 0)
  ({ m with
     escA := if ends then [] else up m.escA (rows.map (fun x => x.1))
     escB := if ends then [] else up m.escB cols },
   (ra ++ rw_).flatMap (fun x => x.1), (ra ++ rw_).flatMap (fun x => x.2))

/-- The escapes of consecutive K indices from k0 on. -/
def escapesOf (c : Cluster) (m : MopRun) (k0 n : Nat) (as : Nat → List (Nat × Nat)) (bs : Nat → List Nat) :
    MopRun × List LaneItem × List Skew :=
  (List.range n).foldl (fun s x =>
    let r := escapesAt c s.1 (k0 + x) (as x) (bs x)
    (r.1, s.2.1 ++ r.2.1, s.2.2 ++ r.2.2)) (m, [], [])

/-- Terms of one element from consecutive K indices of an ungrouped instruction: K index, row operand, column operand. `k0` is the
K index of R92 that the first of them has, `kb` its K index in the instruction; `buf` the products of an F32 group that is not
whole; `flush` ends F32's group at the last of them (R71). -/
def colTerms (m : MopRun) (k0 kb : Nat) (flush : Bool) (e : Elem) (buf : List Nat) (ks : List (Nat × Nat × Nat)) :
    Cell × List Nat :=
  if mopPath m.f = 4 then
    let st := ks.foldl (fun (s : Cell × List Nat) x =>
        let p := f32Mul (opVal m.f x.2.1) (opVal m.f x.2.2)
        let kt := k0 + (x.1 - kb)
        let buf := s.2 ++ [p.code]
        let c1 : Cell := { s.1 with fl := s.1.fl ||| p.flags, cr := s.1.cr.orElse (fun _ => p.op.map (fun o => (o, kt))) }
        if (x.1 + 1) % mopGroup m.f = 0 then
          let c2 := addGroup c1.e buf (kt + 1 - buf.length)
          ({ c2 with fl := c1.fl ||| c2.fl, cr := c1.cr.orElse (fun _ => c2.cr) }, [])
        else (c1, buf)) (({ e := e } : Cell), buf)
    if flush && !st.2.isEmpty then
      let c2 := addGroup st.1.e st.2 (k0 + ks.length - st.2.length)
      ({ c2 with fl := st.1.fl ||| c2.fl, cr := st.1.cr.orElse (fun _ => c2.cr) }, [])
    else st
  else
    (foldTerms (mopPath m.f) m.f.opk.toNat (decide (k0 = 0)) e
      (ks.map (fun x => (k0 + (x.1 - kb), opVal m.f x.2.1, opVal m.f x.2.2))), [])

/-- Terms of one tile row: K index, row operand, column operands. -/
def rowTerms (m : MopRun) (t : Tile) (i : Nat) (flush : Bool) (ks : List (Nat × Nat × List Nat)) :
    List Cell × List (List Nat) :=
  let cells := (List.range m.f.cols.toNat).map (fun j =>
    colTerms m t.count (ks.headD (0, 0, [])).1 flush (t.elem i j) ((sget (fun _ => List.replicate 32 []) m.buf i).getD j [])
      (ks.map (fun x => (x.1, x.2.1, x.2.2.getD j 0))))
  (cells.map (·.1), cells.map (·.2))

/-- An instruction's terms are kept by selection, not added (R97). -/
def MopRun.selects (m : MopRun) : Bool := decide (3 ≤ m.f.opk.toNat)

/-- An element takes what a term has made of it. -/
def Tile.putCell (t : Tile) (sel : Bool) (i j : Nat) (e : Elem) : Tile := if sel then t.setElem i j e else t.addElem i j e

/-- Write a row's cells into the tile. -/
def Tile.putCells (t : Tile) (sel : Bool) (i : Nat) (cs : List Cell) : Tile :=
  let pend := (List.range 32).map (fun j => (cs[j]?).elim (t.pending i j) (fun c => if sel then 0 else t.carriesOf i j c.e))
  ({ t with carry := sput noCarry t.carry i pend } : Tile).setRow i
    ((t.row i).zipIdx.map (fun x => (cs[x.2]?).elim x.1 (fun c => c.e)))

/-- Write the winners' K indices of a row into the index tile (R98). -/
def Tile.putWinners (t : Tile) (i : Nat) (cs : List Cell) : Tile :=
  t.setRow i ((t.row i).zipIdx.map (fun x => ((cs[x.2]?).bind (fun c => c.win)).elim x.1 (fun k => .num (k : Int))))

/-- The count limit (R65): every element of the tile becomes NaR. -/
def Tile.allNar (t : Tile) : Tile :=
  { t with
    count := 2 ^ 39, carry := []
    rows := (List.range 32).map (fun r => (r, List.replicate 32 (if t.path = 6 then Elem.nan else .nar))) }

/-- An accumulation of n products per element that meets the count limit of a quire path takes no term (R65): the tile after it,
and whether it is the one that takes the count to 2^39. -/
def Tile.limit (t : Tile) (n : Nat) : Option (Tile × Bool) :=
  if !isQuire t.path then none
  else if t.count = 2 ^ 39 then some (t.allNar, false)
  else if 2 ^ 39 ≤ t.count + n then some (t.allNar, true)
  else none

/-- A tile's count has risen from `old` (R89). -/
def countRise (n old new : Nat) : List Act := if old < new then [.tcount n old (new - old)] else []

/-- What the accumulation that takes a tile to the count limit reports (R65, R92). -/
def limitActs (m : MopRun) (hit : Bool) : List Act :=
  if hit then [.flags (flagOvf ||| flagNar), .trap .array 4 m.f.tile.val 0 0 m.task m.step (2 ^ 39)] else []

/-- Raise a tile's count by n products per element below the count limit (R75, R76, R89). -/
def Tile.addCount (t : Tile) (n : Nat) : Tile × Flg :=
  if isQuire t.path then ({ t with count := t.count + n }, 0)
  else
    let c := min (t.count + n) (2 ^ 48 - 1)
    ({ t with count := c },
     if t.path = 4 then flagIf (decide (t.count ≤ 2 ^ 22) && decide (2 ^ 22 < c)) flagLong
     else flagIf (decide (2 ^ 48 - 1 < t.count + n)) flagLong)

/-- The first creation of several rows, in row order, as a trap (R84, R92). -/
def trapOf (m : MopRun) (path : Nat) (rows : List (Nat × List Cell)) : List Act :=
  match rows.findSome? (fun x => (firstMade x.2).map (fun y => (x.1, y))) with
  | some (i, j, op, k) =>
    [.trap .array op m.f.tile.val (cellIx path i) (cellIx path j) m.task m.step (k % 2 ^ 48)]
  | none => []

/-- Scale-skew fault: the instruction stops, the tile is emptied and discarded; no instruction into it goes on (R137). -/
def skewStop (c : Cluster) (m : MopRun) (s : Skew) : Cluster × List Act :=
  let n := m.f.tile.val
  let gone (x : MopRun) : Bool := x.writes n
  let ids := (c.runs.filter gone).map (fun x => x.id)
  ({ c.setTile n { (c.tile n).emptied with discard := true } with
     mop := c.mop.filter (fun x => !gone x), tail := c.tail.filter (fun x => !gone x)
     wave := c.wave.map (fun t => t.filter (fun x => !ids.contains x.run)) },
   [.skew s.cause n s.opnd m.task s.data s.found, .stop 3])

/-- The bank whose resident set an instruction with WSRC 1 or 2 uses. -/
def residentSet (m : MopRun) : Bool := m.f.stream && decide (m.f.wsrc.toNat ≠ 0)

/-- Groups numbered for an instruction's streams once all its groups have been entered (R136). A resident set's groups are numbered
at its first grouped use. -/
def endBase (c : Cluster) (m : MopRun) : Cluster :=
  if m.f.gq then
    let g := m.f.k.toNat / mopGroup m.f
    let a := m.f.sa.toNat
    let b1 := sput zeroNat c.gbase a (sget zeroNat c.gbase a + g * m.f.rows.toNat)
    let more := sput zeroNat b1 m.wdesc (sget zeroNat b1 m.wdesc + g * m.f.cols.toNat)
    if residentSet m then
      let b := c.bank c.active
      if b.gbase.isSome then { c with gbase := b1 }
      else ({ c with gbase := more } : Cluster).setBank c.active { b with gbase := some m.wbase }
    else { c with gbase := more }
  else c

/-- Stream tokens are in the array (R113). -/
def Cluster.waving (c : Cluster) : Bool := c.wave.any (fun t => t.isSome)

/-- An instruction's last add and last lane add have taken place (R130). -/
def MopRun.added (m : MopRun) : Bool := decide (m.f.k.toNat ≤ m.k) && m.lane.isEmpty && m.esc.isEmpty

/-- An outer-product instruction goes on, or ends with its last adds. -/
def finishMop (c : Cluster) (m : MopRun) : Cluster :=
  if m.added then { endBase c m with mop := none } else { c with mop := some m }

/-- Instructions in progress make room: a stream instruction is passed once its last token has entered and its last set no longer
holds the array (R107, R108), and is gone with its last add. -/
def Cluster.passRuns (c : Cluster) : Cluster :=
  let c1 := match c.mop with
    | some m => if m.f.stream && decide (m.f.k.toNat ≤ m.ek) && decide (m.hold ≤ 1) then
        { endBase c m with mop := none, tail := c.tail ++ [m] } else c
    | none => c
  { c1 with tail := c1.tail.filter (fun m => !m.added) }

/-- Escapes in ascending K order (R130). -/
def byK (xs : List LaneItem) : List LaneItem :=
  xs.foldl (fun l x => l.takeWhile (fun y => decide (y.k ≤ x.k)) ++ x :: l.dropWhile (fun y => decide (y.k ≤ x.k))) []

/-- Entries in the manifest lane's queue of 64. -/
def Cluster.laneUsed (c : Cluster) : Nat := c.runs.foldl (fun n m => n + m.lane.length) 0

/-- Waiting escapes go into the lane queue while it has room (R130): `room` entries are free beside the instruction's own. -/
def MopRun.refill (m : MopRun) (room : Nat) : MopRun :=
  let n := room - m.lane.length
  { m with lane := m.lane ++ m.esc.take n, esc := m.esc.drop n }

/-- The lane queue has room, so the array may step (R130). -/
def laneRoom (c : Cluster) : Bool := c.runs.all (fun m => m.esc.isEmpty) && decide (c.laneUsed < 64)

/-- Room in the lane queue for an instruction, its own entries among it. -/
def Cluster.laneFor (c : Cluster) (m : MopRun) : Nat := 64 - (c.laneUsed - m.lane.length)

/-- Terms of one element from consecutive K indices of a grouped instruction (R122): the group term is added when a group ends, and
at the K index `cut` where a short weight set ends. -/
def groupCell (c : Cluster) (m : MopRun) (cut : Option Nat) (i j : Nat) (ks : List (Nat × Nat × Nat)) (t : Tile) (p : GAcc) :
    Tile × GAcc :=
  ks.foldl (fun s x =>
    let g := x.1 / mopGroup m.f
    let q := s.2.add (qRow c m g i x.2.1) (qCol c m g j x.2.2)
    if (x.1 + 1) % mopGroup m.f = 0 ∨ cut = some x.1 then
      (s.1.addElem i j (addTerm 7 0 (s.1.elem i j) (Val.ofRat (unitsReal 7 (groupTerm m g i j q))) 0).e, {})
    else (s.1, q)) (t, p)

/-- What a step reports of a skew fault beside its other acts. -/
def skewed (c : Cluster) (m : MopRun) (s : Skew) (acts : List Act) : Option (Cluster × List Act) :=
  let r := skewStop c m s
  some (r.1, acts ++ r.2)

/-- A tile that accumulates n more K indices (R65, R89): the tile after it, whether terms enter it, what it reports. -/
def Tile.counted (t : Tile) (m : MopRun) (n : Nat) : Tile × Bool × List Act :=
  match t.limit n with
  | some l => (l.1, false, limitActs m l.2)
  | none => let u := t.addCount n; (u.1, true, .flags u.2 :: countRise m.f.tile t.count u.1.count)

/-- The index tile takes the I64 tag and the value tile's rise (R98). -/
def indexCount (c : Cluster) (m : MopRun) (rise : Nat) : Cluster × List Act :=
  if 5 ≤ m.f.opk.toNat then
    let n := 1 - m.f.tile.val
    let u := ({ c.tile n with path := 5 } : Tile).addCount rise
    (c.setTile n u.1, .flags u.2 :: countRise n (c.tile n).count u.1.count)
  else (c, [])

/-- An outer-product step of a grouped instruction, its operands taken (R122): `nk` K indices, row codes `aAt`, column codes
`bAt` by position in the step. Of the faults of the step that with the lowest cause is recorded (R137). -/
def outerGroup (c : Cluster) (m : MopRun) (nk : Nat) (aAt : Nat → Nat → Nat) (bAt : Nat → List Nat) (acts : List Act) :
    Option (Cluster × List Act) :=
  let e := enterGroups 2 c m ((m.k + nk - 1) / mopGroup m.f)
  let c3 := e.1
  let m1 := e.2.1
  if m1.entA.length ≤ (m.k + nk - 1) / mopGroup m.f then none
  else
    let R := List.range m.f.rows.toNat
    let x := escapesOf c3 m1 m.k nk (fun x => R.map (fun i => (i, aAt x i))) bAt
    match pickSkew (e.2.2.1 ++ x.2.2) with
    | some s => skewed c3 m1 s (acts ++ e.2.2.2)
    | none =>
      let n := m.f.tile.val
      let t0 : Tile := { c3.tile n with path := 7 }
      let cnt := t0.counted m nk
      let st := if cnt.2.1 then
          R.foldl (fun (s : Tile × SMap (List GAcc)) i =>
            let r := (List.range m.f.cols.toNat).foldl (fun (u : Tile × List GAcc) j =>
              let v := groupCell c3 m1 none i j ((List.range nk).map (fun x => (m.k + x, aAt x i, (bAt x).getD j 0))) u.1
                (u.2.getD j {})
              (v.1, u.2.set j v.2)) (s.1, sget noAccs s.2 i)
            (r.1, sput noAccs s.2 i r.2)) (cnt.1, m1.ga)
        else (cnt.1, m1.ga)
      let m2 := ({ x.1 with ga := st.2, k := m.k + nk, esc := byK x.2.1 } : MopRun)
      let terms := if cnt.2.1 then [Act.count64 0x190 (m.f.rows.toNat * m.f.cols.toNat * nk)] else []
      some (finishMop (c3.setTile n st.1) (m2.refill (c3.laneFor m2)), acts ++ e.2.2.2 ++ terms ++ cnt.2.2)

/-- Terms of an outer-product step of an ungrouped instruction enter the tile (R95 to R98): `rows` with their K indices and
operands, `flush` at the end of an F32 group, `n` K indices. -/
def ungrouped (c : Cluster) (m : MopRun) (flush : Bool) (rows : List (Nat × List (Nat × Nat × List Nat))) (n : Nat) :
    Cluster × MopRun × List Act :=
  let u := m.f.tile.val
  let path := mopPath m.f
  let t : Tile := { c.tile u with path := path }
  let cnt := t.counted m n
  let d := indexCount (c.setTile u cnt.1) m (cnt.1.count - t.count)
  if !cnt.2.1 then (d.1, m, cnt.2.2 ++ d.2)
  else
    let res := rows.map (fun r => (r.1, rowTerms m t r.1 flush r.2))
    let cells := res.map (fun x => (x.1, x.2.1))
    let put := cells.foldl (fun (tt : Tile) x => tt.putCells m.selects x.1 x.2) cnt.1
    let ix := if 5 ≤ m.f.opk.toNat then
        (d.1.setTile u put).setTile (1 - u) (cells.foldl (fun (tt : Tile) x => tt.putWinners x.1 x.2) (d.1.tile (1 - u)))
      else d.1.setTile u put
    let buf := if path = 4 then
        res.foldl (fun b x => sput (fun _ => List.replicate 32 []) b x.1 (x.2.2 ++ List.replicate (32 - x.2.2.length) [])) m.buf
      else m.buf
    (ix, { m with buf := buf },
     [.count64 0x190 (m.f.rows.toNat * m.f.cols.toNat * n), .flags (cells.foldl (fun f x => f ||| orFlags x.2) 0)] ++
       cnt.2.2 ++ d.2 ++ trapOf m path cells)

/-- What an operand latch of 16 bits holds of an operand (R93): the two codes of an INT4 MAC step, else the code; of a 32-bit class
the spec does not say which half stands in it. -/
def latchWord (f : MopF) (x y : Nat) : BitVec 16 :=
  if mopPair f then BitVec.ofNat 16 (x % 16 + 16 * (y % 16))
  else if ((fmtOf f.cls.toNat).getD .int8).bits ≤ 16 then BitVec.ofNat 16 x else Config.wideLatch x

/-- An outer-product step (R100, R109): the next K index, or the next two of an INT4 MAC. -/
def outerStep (c : Cluster) : Option (Cluster × List Act) :=
  match c.mop with
  | none => none
  | some m =>
    let kk := m.f.k.toNat - m.k
    let nk := if mopPair m.f then min 2 kk else min 1 kk
    let R := m.f.rows.toNat
    let C := m.f.cols.toNat
    let n := m.f.tile.val
    if m.f.stream || nk = 0 || !laneRoom c || c.waving then none
    else match (c.pull [(m.f.sa.toNat, R * nk), (m.f.sb.toNat, C * nk)]).popFor m.f.sa.toNat (R * nk) n with
      | none => none
      | some (as, c1, a1) => match c1.popFor m.f.sb.toNat (C * nk) n with
        | none => none
        | some (bs, c2, a2) =>
          let aAt (x i : Nat) : Nat := as.getD (x * R + i) 0
          let bAt (x : Nat) : List Nat := (bs.drop (x * C)).take C
          let c3 := { c2 with
            arrOn := true
            latA := (List.range R).map (fun i => latchWord m.f (aAt 0 i) (aAt 1 i))
            latB := (List.range C).map (fun j => latchWord m.f (bs.getD j 0) (bs.getD (C + j) 0)) }
          let m1 := { m with begun := true }
          if m.f.gq then outerGroup c3 m1 nk aAt bAt (a1 ++ a2)
          else
            let last := decide (m.k + nk = m.f.k.toNat)
            let rows := (List.range R).map (fun i => (i, (List.range nk).map (fun x => (m.k + x, aAt x i, bAt x))))
            let r := ungrouped c3 m1 last rows nk
            some (finishMop r.1 { r.2.1 with k := m.k + nk }, a1 ++ a2 ++ r.2.2)

/-- Bank A (false) or B (true) as bit 2 or 3 of DRV_SUSPECT (R210). -/
def bankBit (b : Bool) : Nat := if b then 3 else 2

/-- What a weight bank's rows were taken from passes to the tile they feed, so that a notice that arrives later marks the
tile too (R202). -/
def Cluster.feed (c : Cluster) (who n : Nat) : Cluster :=
  { c with took := (c.took.filter (fun x => x.1 = who)).foldl (fun t x =>
      if t.contains (n, x.2) then t else (n, x.2) :: t) c.took }

/-! Stream tokens (R103 to R105, R109) -/

/-- The cells a token meets in the step in which its age is d: cell (d - j, j) of each column adds its term, if its weight row is
valid (R104, R109). -/
def Tok.reach (x : Tok) (b : Bank) (d : Nat) : Tok :=
  { x with met := x.met.zipIdx.map (fun l =>
      let i := d - l.2
      if l.2 ≤ d ∧ i < 32 ∧ i < b.held then l.1 ++ [(sget zeroRow b.rows i).getD l.2 0#16] else l.1) }

/-- A token's weight in column j at a K position of its set; a cell of an INT4 MAC set holds two (R103). -/
def Tok.weight (x : Tok) (j k : Nat) : Nat :=
  let l := x.met.getD j []
  if x.pair then
    let v := (l.getD (k / 2) 0#16).toNat
    if k % 2 = 0 then v % 16 else v / 16 % 16
  else (l.getD k 0#16).toNat

/-- K positions of the valid weight rows a token has met in column j. -/
def Tok.kmet (x : Tok) (j : Nat) : Nat := (if x.pair then 2 else 1) * (x.met.getD j []).length

/-- K indices of the set at K position k. -/
def MopRun.kset (m : MopRun) (k : Nat) : Nat := min (mopCover m.f) (m.f.k.toNat - k)

/-- The terms of a token in column j (R95): K index, row operand, weight. -/
def Tok.terms (x : Tok) (m : MopRun) (j : Nat) : List (Nat × Nat × Nat) :=
  (List.range (min (m.kset x.k) (x.kmet j))).map (fun k => (x.k + k, x.codes.getD k 0, x.weight j k))

/-- A set's adds begin: the tile's count rises by its valid weight rows, once (R65, R109); the run keeps the count before. -/
def openSet (c : Cluster) (m : MopRun) (k n : Nat) : Cluster × MopRun × List Act :=
  if m.bases.any (fun x => decide (x.1 = k)) then (c, m, [])
  else
    let u := m.f.tile.val
    let t : Tile := { c.tile u with path := mopPath m.f }
    let cnt := t.counted m n
    let d := indexCount (c.setTile u cnt.1) m (cnt.1.count - t.count)
    (d.1, { m with bases := (k, t.count) :: m.bases }, cnt.2.2 ++ d.2)

/-- The tile's count before a set whose adds have begun. -/
def MopRun.baseOf (m : MopRun) (k : Nat) : Nat := ((m.bases.find? (fun x => decide (x.1 = k))).map (fun x => x.2)).getD 0

/-- The last column of a set's last token has been added: the set is complete, its escapes have met their partners (R128, R130). -/
def closeSet (c : Cluster) (m : MopRun) (x : Tok) : Cluster × MopRun × List Skew :=
  let toks := sput (fun _ => []) m.toks x.row x.codes
  let m1 := { m with toks := toks }
  if x.row + 1 ≠ m.f.rows.toNat then (c, m1, [])
  else
    let kv := min (m.kset x.k) (x.kmet (m.f.cols.toNat - 1))
    let m2 := { m1 with k := x.k + m.kset x.k, toks := [], bases := m.bases.filter (fun y => decide (y.1 ≠ x.k)) }
    if !m.f.gq then (c, m2, [])
    else
      let as (k : Nat) : List (Nat × Nat) := (List.range m.f.rows.toNat).map (fun i => (i, (sget (fun _ => []) toks i).getD k 0))
      let bs (k : Nat) : List Nat := (List.range m.f.cols.toNat).map (fun j => x.weight j k)
      let r := escapesOf c m2 x.k kv as bs
      let m3 : MopRun := { r.1 with esc := r.1.esc ++ byK r.2.1 }
      (c, m3.refill (c.laneFor m3), r.2.2)

/-- The accumulator row adds column j's result of a token to its element (R104, R105, R109); `susp` is DRV_SUSPECT. -/
def addColumn (c : Cluster) (m : MopRun) (x : Tok) (j : Nat) (susp : Nat) : Cluster × List Act :=
  let n := m.f.tile.val
  let ks := x.terms m j
  let c0 := if j = 0 then c.feed (bankBit x.bank) n else c
  let marks := if j = 0 ∧ susp.testBit (bankBit x.bank) then [Act.suspect (2 ^ n)] else []
  let o := openSet c0 m x.k ks.length
  let m1 := o.2.1
  let t := o.1.tile n
  let base := m1.baseOf x.k
  let ends := decide (j + 1 = m.f.cols.toNat)
  let close (c : Cluster) (m : MopRun) (acts : List Act) : Cluster × List Act :=
    let r := if ends then closeSet c m x else (c, m, [])
    match pickSkew r.2.2 with
    | some s => let v := skewStop (r.1.putRun r.2.1) r.2.1 s; (v.1, acts ++ v.2)
    | none => (r.1.putRun r.2.1, acts)
  if isQuire t.path && decide (t.count = 2 ^ 39) then close o.1 m1 (marks ++ o.2.2)
  else
    let acts := marks ++ o.2.2 ++ [Act.count64 0x190 ks.length]
    if m.f.gq then
      let accs := sget noAccs m1.ga x.row
      let cut := if ks.length < m.kset x.k then some (x.k + ks.length - 1) else none
      let v := groupCell o.1 m1 cut x.row j ks t (accs.getD j {})
      close (o.1.setTile n v.1) { m1 with ga := sput noAccs m1.ga x.row (accs.set j v.2) } acts
    else
      let r := (colTerms m1 base x.k true (t.elem x.row j) [] ks).1
      let c1 := o.1.setTile n (t.putCell m.selects x.row j r.e)
      let c2 := match r.win with
        | some k => if 5 ≤ m.f.opk.toNat then
            c1.setTile (1 - n) ((c1.tile (1 - n)).setElem x.row j (.num (k : Int))) else c1
        | none => c1
      let trap := match r.cr with
        | some (op, k) => [Act.trap .array op n (cellIx t.path x.row) (cellIx t.path j) m.task m.step (k % 2 ^ 48)]
        | none => []
      close c2 m1 (acts ++ [.flags r.fl] ++ trap)

/-- Row 0 of the set that the next token starts is in its bank (R107). -/
def setReady (c : Cluster) (m : MopRun) : Bool :=
  match m.f.wsrc.toNat with
  | 0 => decide (m.ek / mopCover m.f < m.loaded) ||
    (match c.wload with
      | some w => w.mop && decide (w.run = m.id) && decide (1 ≤ w.row) && decide (m.loaded = m.ek / mopCover m.f)
      | none => false)
  | 2 => (match c.wload with | some w => decide (1 ≤ w.row) | none => true)
  | _ => true

/-- The next token enters the array: with a set's first token the SWAP takes effect, once the set's groups have been entered (R103,
R107, R245). The token is none while it waits for its elements or for a group's entries, or where a skew fault has stopped the
instruction. -/
def enterToken (c : Cluster) (m : MopRun) : Cluster × Option Tok × List Act :=
  let kset := m.kset m.ek
  let first := decide (m.etok = 0)
  let next := if first && decide (m.f.wsrc.toNat ≠ 1) then !c.active else c.active
  if kset = 0 || (first && (decide (0 < m.hold) || !setReady c m)) || !c.canPop [(m.f.sa.toNat, kset)] then (c, none, [])
  else
    let b := c.bank next
    let m1 := if first && residentSet m then
        { m with wdesc := b.desc, wbase := b.gbase.getD (sget zeroNat c.gbase b.desc) } else m
    let g := (m.ek + kset - 1) / mopGroup m.f
    let e := if first && m.f.gq then enterGroups 4 c m1 g else (c, m1, [], [])
    let m2 := e.2.1
    match pickSkew e.2.2.1 with
    | some s => let r := skewStop (e.1.putRun m2) m2 s; (r.1, none, e.2.2.2 ++ r.2)
    | none =>
      if m.f.gq && decide (m2.entA.length ≤ g) then (e.1.putRun m2, none, e.2.2.2)
      else match e.1.popFor m.f.sa.toNat kset m.f.tile.val with
        | none => (e.1.putRun m2, none, e.2.2.2)
        | some (xs, c1, a1) =>
          let x : Tok := { run := m.id, k := m.ek, row := m.etok, codes := xs, pair := b.pack, bank := next, was := c.active }
          let m3 := if m.etok + 1 = m.f.rows.toNat then { m2 with etok := 0, ek := m.ek + kset } else { m2 with etok := m.etok + 1 }
          (({ c1 with active := next } : Cluster).putRun { m3 with begun := true, hold := if first then 32 else m.hold },
           some (x.reach b 0), e.2.2.2 ++ a1)

/-- A token would reach a row of its set that is not loaded yet (R107). Until its first row is written, a load has no bank. -/
def waveBlocked (c : Cluster) : Bool :=
  match c.wload with
  | none => false
  | some w => decide (0 < w.row) && (c.wave.take 31).zipIdx.any (fun x =>
    match x.1 with | some t => decide (t.bank = w.bank) && decide (w.row ≤ x.2 + 1) | none => false)

/-- Acts of several instructions: for each the slot and the task it is for. -/
abbrev RunAct := Nat × Nat × Act

def MopRun.tag (m : MopRun) (as : List Act) : List RunAct := as.map (fun a => (m.slot, m.task, a))

/-- The tokens move on one step: each meets its next cells. -/
def Cluster.advanceWave (c : Cluster) : Cluster :=
  { c with wave := (none :: c.wave).zipIdx.map (fun x => x.1.map (fun t => t.reach (c.bank t.bank) x.2)) }

/-- The accumulator row's adds of one step: column j takes the result of the token whose age is j + 32. -/
def waveAdds (c : Cluster) (susp : Nat) : Cluster × List RunAct :=
  ((List.range 32).reverse).foldl (fun s j =>
    match s.1.wave.getD (32 + j) none with
    | none => s
    | some x => match s.1.runOf x.run with
      | none => s
      | some m =>
        if m.f.cols.toNat ≤ j then s
        else
          let r := addColumn s.1 m x j susp
          (r.1, s.2 ++ m.tag r.2)) (c, [])

/-- The array stands in stream mode: a stream instruction is in progress, or tokens of one are in the array. -/
def Cluster.streaming (c : Cluster) : Bool :=
  match c.mop with
  | some m => m.f.stream
  | none => c.waving

/-- One step of the array in stream mode (R103 to R107, R109): tokens move on, the accumulator row adds, the next token enters or a
bubble does; `stop`: the instruction's task stands halted, and no token of it enters (R255). -/
def tokenStep (c : Cluster) (susp : Nat) (stop : Bool) : Option (Cluster × List RunAct) :=
  if !c.streaming || !laneRoom c || waveBlocked c then none
  else
    let c0 := { c with
      mop := c.mop.map (fun (m : MopRun) => { m with hold := m.hold - 1 }), latA := [], latB := []
      arrOn := c.arrOn || c.runs.any (fun m => m.begun) }
    let d := waveAdds c0.advanceWave susp
    let e := match d.1.mop with
      | some m => if stop then (d.1, none, []) else let r := enterToken d.1 m; (r.1, r.2.1, m.tag r.2.2)
      | none => (d.1, none, [])
    let wave := (e.2.1 :: e.1.wave.drop 1).take 63
    let c1 := { e.1 with wave := if wave.any (fun t => t.isSome) then wave else [], arrOn := e.1.arrOn || e.2.1.isSome }
    some (c1.passRuns, d.2 ++ e.2.2)

/-! The cells (R93) -/

/-- The row operand latch of cell (i, j), with its valid bit: in stream mode what the token that has come so far brings to row i
(R104), in outer-product mode the operand on its row. The cell's operand pass register holds the same for cell (i, j + 1). -/
def Cluster.rowLatch (c : Cluster) (i j : Nat) : Option (BitVec 16) :=
  match c.wave.getD (i + j) none with
  | some t =>
    if t.pair then (t.codes[2 * i]?).map (fun x => BitVec.ofNat 16 (x % 16 + 16 * (t.codes.getD (2 * i + 1) 0 % 16)))
    else (t.codes[i]?).map (BitVec.ofNat 16)
  | none => if c.wave = [] then c.latA[i]? else none

/-- The column operand latch of a cell of column j (outer-product mode only). -/
def Cluster.colLatch (c : Cluster) (j : Nat) : Option (BitVec 16) := c.latB[j]?

/-- The partial-result pass register of cell (i, j), with its valid bit (R104, R105): the terms of the token that has come so far in
rows 0 to i of the column, summed, selected, or as F32 products of its groups (R71); of a grouped instruction the partial sum. -/
def Cluster.partialAt (c : Cluster) (i j : Nat) : Option (Cell × List Nat × GAcc) :=
  (c.wave.getD (i + j) none).bind (fun x => (c.runOf x.run).map (fun m =>
    let ks := (x.terms m j).take ((if x.pair then 2 else 1) * (i + 1))
    let r := colTerms m 0 x.k false .empty [] ks
    (r.1, r.2, ks.foldl (fun p y => p.add (qRow c m (y.1 / mopGroup m.f) x.row y.2.1) (qCol c m (y.1 / mopGroup m.f) j y.2.2)) {})))

/-- The active-set bit of cell (i, j): that of the last token that has reached it (R107). -/
def Cluster.activeAt (c : Cluster) (i j : Nat) : Bool :=
  match (c.wave.drop (i + j)).findSome? id with
  | some t => t.bank
  | none => match c.wave.reverse.findSome? id with
    | some t => t.was
    | none => c.active

/-! Weight sets -/

/-- The load a MOP with WSRC 0 may begin: the inactive bank is free and a set is left (R106). -/
def mopLoad (m : MopRun) : Option WLoad :=
  let started := m.ek / mopCover m.f + (if m.etok = 0 then 0 else 1)
  if m.f.stream && decide (m.f.wsrc.toNat = 0) && decide (m.loaded = started) && decide (m.loaded * mopCover m.f < m.f.k.toNat)
  then some { desc := m.f.sb.toNat, pack := mopPair m.f, mop := true, run := m.id, slot := m.slot, task := m.task }
  else none

/-- The load in progress, or the one that begins now, into the inactive bank. -/
def Cluster.loading (c : Cluster) : Option WLoad :=
  let w := c.wload.orElse (fun _ => c.mop.bind mopLoad)
  w.map (fun w => if w.row = 0 then { w with bank := !c.active } else w)

/-- No token of an earlier set in a bank has still to leave row i of the array (R106). Once the first token of the set that the bank
is filled with has entered, the newest tokens are that set's own, which may be ahead of its later rows (R107). -/
def rowFree (c : Cluster) (b : Bool) (i : Nat) : Bool :=
  let uses (x : Option Tok) : Bool := match x with | some t => decide (t.bank = b) | none => false
  let own (x : Option Tok) : Bool := uses x || x.isNone
  let mine := if c.active = b then (c.wave.takeWhile own).length else 0
  ((c.wave.take (i + 32)).drop mine).all (fun x => !uses x)

/-- Elements of a stream among load entries up to the end of its run, and whether that end is among them (R106). -/
def runElems (d : Nat) : List LoadEntry → Nat × Bool
  | [] => (0, false)
  | e :: q =>
    if e.desc ≠ d then runElems d q
    else if e.last then (e.elems.length, true)
    else let r := runElems d q; (e.elems.length + r.1, r.2)

/-- Elements that a full row of a load takes. -/
def WLoad.per (w : WLoad) : Nat := if w.pack then 64 else 32

/-- Elements that the next row of a load takes, and whether the stream's last is among them: a full row, or what is left before the
stream's last element (R106). -/
def WLoad.next (w : WLoad) (c : Cluster) : Nat × Bool :=
  let r := runElems w.desc (c.hand ++ c.loadQ)
  if r.2 && decide (r.1 ≤ w.per) then (r.1, true) else (w.per, false)

/-- One row of a weight set is written into its bank (R106); the load stops after row 31 or with the stream's last element. A row
that the stream's end leaves part-filled is not valid. -/
def weightRow (c : Cluster) : Option (Cluster × List Act) :=
  match c.loading with
  | none => none
  | some w =>
    let b := w.bank
    let n := w.next c
    let who := bankBit b
    if !rowFree c b w.row then none
    else
      let c0 := if w.row = 0 then { c with took := c.took.filter (fun x => x.1 ≠ who) } else c
      match c0.popFor w.desc n.1 who with
      | none => none
      | some (es, c1, a1) =>
        let cell (n : Nat) : BitVec 16 :=
          if w.pack then BitVec.ofNat 16 (es.getD n 0 % 16 + 16 * (es.getD (32 + n) 0 % 16)) else BitVec.ofNat 16 (es.getD n 0)
        let old := if w.row = 0 then { c1.bank b with held := 0, pack := w.pack, desc := w.desc, gbase := none } else c1.bank b
        let bank := { old with
          rows := sput zeroRow old.rows w.row ((List.range 32).map cell)
          held := if n.1 = w.per then w.row + 1 else w.row }
        let done := decide (w.row + 1 = 32) || n.2
        let c2 := { c1.setBank b bank with wload := if done then none else some { w with row := w.row + 1 } }
        let c3 := if done && w.mop then
            { c2 with mop := c2.mop.map (fun m => if m.id = w.run then { m with loaded := m.loaded + 1 } else m) } else c2
        some (c3, (if w.row = 0 then [Act.unsuspect (2 ^ who)] else []) ++ a1)

/-! The manifest lane -/

/-- The oldest instruction with an escape in the manifest lane. -/
def Cluster.laneRun (c : Cluster) : Option MopRun := c.runs.find? (fun m => !m.lane.isEmpty)

/-- An instruction's exact manifest terms enter their elements (R128). -/
def Tile.addLane (t : Tile) (it : LaneItem) : Tile :=
  it.terms.foldl (fun (tt : Tile) x =>
    tt.addElem x.1 x.2.1 (addTerm 7 0 (tt.elem x.1 x.2.1) (Val.ofRat x.2.2) 0).e) t

/-- The manifest lane accepts one escape and adds its exact terms (R128, R130). -/
def laneAccept (c : Cluster) : Option (Cluster × List Act) :=
  match c.laneRun with
  | none => none
  | some m => match m.lane with
    | [] => none
    | it :: rest =>
      let n := m.f.tile.val
      let m1 : MopRun := { m with lane := rest }
      let c1 := { c.setTile n ((c.tile n).addLane it) with arrOn := true }
      let c2 := c1.putRun (m1.refill (c1.laneFor m))
      let c3 := match c2.mop with
        | some x => if x.f.stream then c2 else finishMop c2 x
        | none => c2
      some (c3.passRuns, [])

/-- Issue of a MOP (R68, R81, R94, R97, R98, R245, R257). None while it must wait; an outer-product instruction waits until the last
stream token has been added (R108). `spec`: the task is speculative, and its first accumulation into a tile needs an empty one. -/
def mopIssue (c : Cluster) (f : MopF) (task step slot : Nat) (spec : Bool) : Option (Cluster × List Act) :=
  let n := f.tile.val
  let t := c.tile n
  let ix := c.tile (1 - n)
  let two := decide (5 ≤ f.opk.toNat)
  let path := mopPath f
  let foreign (u : Tile) : Bool := match u.spec with | some s => decide (s ≠ slot) | none => false
  let held (u : Tile) : Bool := u.out.isSome || u.ld.isSome
  let full (k : Nat) : Bool := spec && decide ((c.tile k).spec ≠ some slot) && decide (c.pathDue k ≠ 0)
  if c.mop.isSome ∨ (!f.stream ∧ c.waving) ∨ held t ∨ foreign t ∨ (two ∧ (held ix ∨ foreign ix)) then none
  else if t.discard || (two && ix.discard) then some (c, [])
  else if full n then some (c, [.specFault n task, .stop 7])
  else if two && full (1 - n) then some (c, [.specFault (1 - n) task, .stop 7])
  else if (c.pathDue n ≠ 0 ∧ c.pathDue n ≠ path) ∨ (two ∧ c.pathDue (1 - n) ≠ 0 ∧ c.pathDue (1 - n) ≠ 5) then
    some (c, [.accPath task, .stop 6])
  else
    let c1 := if spec then
        let d := c.setTile n { t with spec := some slot }
        if two then d.setTile (1 - n) { ix with spec := some slot } else d
      else c
    some ({ c1 with
            mops := c.mops + 1
            mop := some { f := f, id := c.mops, task := task, step := step, slot := slot, spec := spec, wdesc := f.sb.toNat
                          abase := sget zeroNat c.gbase f.sa.toNat, wbase := sget zeroNat c.gbase f.sb.toNat } }, [])

end Sys2Proof.Machine
end

