-- ==== Sys2Proof/Machine/Crc.lean ====
section
/-! DEFINITION. Check values (R387) and SHA-384 (R432, R441), published functions the module uses. -/

namespace Sys2Proof.Machine

/-- One bit of a reflected CRC (R387). -/
def crcBit (w : Nat) (p r : BitVec w) : BitVec w := (r >>> 1) ^^^ (if r.getLsbD 0 then p else 0#w)

/-- One byte of a reflected CRC (R387). -/
def crcByte (w : Nat) (p r : BitVec w) (b : Byte) : BitVec w :=
  let r0 := r ^^^ b.setWidth w
  crcBit w p (crcBit w p (crcBit w p (crcBit w p (crcBit w p (crcBit w p (crcBit w p (crcBit w p r0)))))))

/-- The running state over more bytes. -/
def crcFeed (w : Nat) (p : BitVec w) (r : BitVec w) (bs : List Byte) : BitVec w := bs.foldl (crcByte w p) r

def poly32 : BitVec 32 := 0x82F63B78#32
def poly64 : BitVec 64 := 0xC96C5795D7870F42#64

/-- CRC-32C with a fold (R387). -/
def crc32c (fold : Nat) (bs : List Byte) : Word :=
  crcFeed 32 poly32 (BitVec.allOnes 32 ^^^ BitVec.ofNat 32 fold) bs ^^^ BitVec.allOnes 32

/-- CRC-64 with the ECMA-182 polynomial and a fold (R387). -/
def crc64 (fold : Nat) (bs : List Byte) : BitVec 64 :=
  crcFeed 64 poly64 (BitVec.allOnes 64 ^^^ BitVec.ofNat 64 fold) bs ^^^ BitVec.allOnes 64

/-! The constants of SHA-384 are digits of irrational roots of small primes, and are computed as such. -/

/-- No d from 2 to 20 below n divides n: for n up to 440 that makes n a prime. -/
def noSmallFactor (n : Nat) : Bool := (List.range 19).all (fun d => decide (n ≤ d + 2) || decide (n % (d + 2) ≠ 0))

/-- The first 80 primes. -/
def shaPrimes : List Nat := ((List.range 410).drop 2).filter noSmallFactor

/-- The largest r of at most `bits` bits above `r` with r ^ k ≤ n, found bit by bit. -/
def rootFrom (k n : Nat) : Nat → Nat → Nat
  | 0, r => r
  | bits + 1, r => rootFrom k n bits (if (r + 2 ^ bits) ^ k ≤ n then r + 2 ^ bits else r)

/-- The first 64 fractional bits of the k-th root of p. -/
def rootFraction (k p : Nat) : BitVec 64 := BitVec.ofNat 64 (rootFrom k (p * 2 ^ (64 * k)) 69 0)

/-- What round i adds: of the cube root of prime i. -/
def shaRoundAdds : List (BitVec 64) := shaPrimes.map (rootFraction 3)

/-- The state before the first block: of the square roots of eight primes, for SHA-384 from the ninth on, for SHA-512 from the first. -/
def shaStart (first : Nat) : List (BitVec 64) := ((shaPrimes.drop first).take 8).map (rootFraction 2)

/-- The message schedule, newest word first. -/
def shaSchedule : Nat → List (BitVec 64) → List (BitVec 64)
  | 0, w => w
  | n + 1, w =>
    let x := w.getD 14 0
    let y := w.getD 1 0
    let s0 := x.rotateRight 1 ^^^ x.rotateRight 8 ^^^ (x >>> 7)
    let s1 := y.rotateRight 19 ^^^ y.rotateRight 61 ^^^ (y >>> 6)
    shaSchedule n ((w.getD 15 0 + s0 + w.getD 6 0 + s1) :: w)

def shaRound (h : List (BitVec 64)) (kw : BitVec 64) : List (BitVec 64) :=
  match h with
  | [a, b, c, d, e, f, g, hh] =>
    let s1 := e.rotateRight 14 ^^^ e.rotateRight 18 ^^^ e.rotateRight 41
    let t1 := hh + s1 + ((e &&& f) ^^^ (~~~e &&& g)) + kw
    let s0 := a.rotateRight 28 ^^^ a.rotateRight 34 ^^^ a.rotateRight 39
    let t2 := s0 + ((a &&& b) ^^^ (a &&& c) ^^^ (b &&& c))
    [t1 + t2, a, b, c, d + t1, e, f, g]
  | l => l

def beWord (bs : List Byte) : BitVec 64 := BitVec.ofNat 64 (bs.foldl (fun a b => a * 256 + b.toNat) 0)

def shaBlock (h : List (BitVec 64)) (blk : List Byte) : List (BitVec 64) :=
  let w0 := (List.range 16).map (fun i => beWord ((blk.drop (8 * i)).take 8))
  let w := (shaSchedule 64 w0.reverse).reverse
  let kw := (w.zip shaRoundAdds).map (fun p => p.1 + p.2)
  let r := kw.foldl shaRound h
  (h.zip r).map (fun p => p.1 + p.2)

def shaBlocks : Nat → List (BitVec 64) → List Byte → List (BitVec 64)
  | 0, h, _ => h
  | n + 1, h, bs => shaBlocks n (shaBlock h (bs.take 128)) (bs.drop 128)

/-- The first n words of the last state, from a start. -/
def shaWords (start : List (BitVec 64)) (n : Nat) (bs : List Byte) : List Byte :=
  let pad := (240 - (bs.length + 1) % 128) % 128
  let msg := bs ++ 0x80#8 :: List.replicate pad 0#8 ++ (leBytes 16 (8 * bs.length)).reverse
  ((shaBlocks (msg.length / 128) start msg).take n).flatMap (fun w => (leBytes 8 w.toNat).reverse)

/-- SHA-384 of a message. -/
def sha384 (bs : List Byte) : List Byte := shaWords (shaStart 8) 6 bs

/-- SHA-512 of a message, which Ed25519 uses (R433). -/
def sha512 (bs : List Byte) : List Byte := shaWords (shaStart 0) 8 bs

end Sys2Proof.Machine
end

