-- ==== Sys2Proof/Machine/Conv.lean ====
section
/-! DEFINITION. The converters' grouped conversions and statistics (R115 to R117, R131 to R138). -/

namespace Sys2Proof.Machine

/-- Rounding control of a descriptor's element (R45, R53): grit of seed, handle, element index and site. -/
def ctlOf (seed : BitVec 64) (handle rnd : Nat) (satw : Bool) (site idx : Nat) : RndCtl :=
  let r := (rndOf rnd).getD .rne
  { rnd := r, satw := satw
    grit := if r = .sr then grit16 seed (BitVec.ofNat 32 handle) (BitVec.ofNat 48 idx) (BitVec.ofNat 8 site) else 0 }

def Desc.ctl (d : Desc) (seed : BitVec 64) (idx : Nat) : RndCtl := ctlOf seed d.handle d.rnd d.satw d.site idx

/-- qmin and qmax (R116). -/
def codeRange (f : Fmt) (mf : Bool) : Int × Int :=
  match f, mf with
  | .int4, false => (-8, 7)
  | .int4, true => (-7, 7)
  | _, false => (-128, 127)
  | _, true => (-127, 127)

def escapeCode (f : Fmt) : Int := if f = .int4 then -8 else -128

def clampI (x lo hi : Int) : Int := if x < lo then lo else if hi < x then hi else x

def absR (x : Rat) : Rat := if x < 0 then -x else x

/-- Round an exact real to an integer (R46). -/
def roundInt (r : RndCtl) (x : Rat) : Int :=
  let m := roundQuanta r (absR x)
  if x < 0 then -(m : Int) else (m : Int)

def isFin (v : Val) : Bool := match v with | .zero _ | .fin _ => true | _ => false

/-- The indices of the n largest keys, ties to the lower index (R132). -/
def largest : Nat → List (Nat × Rat) → List Nat
  | 0, _ => []
  | n + 1, xs =>
    match xs.foldl (fun (b : Option (Nat × Rat)) x => match b with
        | none => some x
        | some y => if y.2 < x.2 then some x else some y) none with
    | none => []
    | some y => y.1 :: largest n (xs.filter (fun x => x.1 ≠ y.1))

/-- What the quantisation of one group gives: codes with flags, scale byte, zero point, manifest entries, degenerate mark,
flags of the choice of scale and of the entries, elements that set SAT. -/
structure QGroup where
  codes : List Made
  scale : Nat
  zp : Int
  entries : List Nat
  degen : Bool
  flags : Flg
  sats : Nat
deriving DecidableEq, Repr

/-- One element quantised (R115, R117, R134). -/
def quantElem (st s : Rat) (z lo hi : Int) (bitsN : Nat) (r : RndCtl) (v : Val) : Made :=
  match v with
  | .nan | .nar =>
    let q := clampI z lo hi
    { code := bitsOf bitsN q, flags := flagInv ||| flagIf (decide (q ≠ z)) flagSat }
  | .inf neg => { code := bitsOf bitsN (if neg then lo else hi), flags := flagInv ||| flagSat }
  | _ =>
    let x := v.real
    let q0 := roundInt r (x / (st * s) + (z : Rat))
    let q := clampI q0 lo hi
    let back := st * s * ((q - z : Int) : Rat)
    { code := bitsOf bitsN q
      flags := flagIf (decide (q ≠ q0)) (flagSat ||| flagInx) ||| flagIf (decide (back ≠ x)) flagInx }

/-- The smallest scale byte with st × s at least `need`; 0xFF when there is none (R132). -/
def pickScale (st need : Rat) : Nat × Flg :=
  match (List.range 256).find? (fun b => decide (need ≤ st * scaleVal b)) with
  | some b => (b, 0)
  | none => (255, flagOvf ||| flagInx)

/-- Zero point of an asymmetric dynamic group from its ends (R132). -/
def pickZp (st need lo : Rat) (qmin : Int) : Nat × Int × Flg :=
  let s := pickScale st need
  (s.1, qmin - (lo / (st * scaleVal s.1)).floor, s.2)

/-- Quantise one group (R132, R133, R134). `fixed` is the static scale and zero point. DESIGN CHOICES: a TSCALE that breaks R120 counts with
the value its code decodes to, and a quotient by 0 is 0 (log entry 147); the manifest entry of an escaped -0 is made of the exact quotient
and is +0 (log entry 150). -/
def quantGroup (d : Desc) (seed : BitVec 64) (idx : Nat) (xs : List Val) (fixed : Option (Nat × Int)) : QGroup :=
  let f := d.dstFmt
  let range := codeRange f d.mf
  let qmin := range.1
  let qmax := range.2
  let st := (decodeVal .bin32 d.tscale).1.real
  let ix := xs.zipIdx
  let fin := (ix.filter (fun p => isFin p.1)).map (fun p => (p.2, p.1.real))
  let cands := match fixed with
    | some (s, z) =>
      (fin.map (fun p =>
        let c := p.2 / (st * scaleVal s) + (z : Rat)
        let cl := if c < (qmin : Rat) then (qmin : Rat) else if (qmax : Rat) < c then (qmax : Rat) else c
        (p.1, absR (c - cl)))).filter (fun p => decide (0 < p.2))
    | none => fin.map (fun p => (p.1, absR p.2))
  let esc := if d.mf && decide (0 < d.mslots) then largest d.mslots cands else []
  let ef : Fmt := if Config.manifestPosit then .posit16 else .bin16
  let ents := ((List.range xs.length).filter (fun k => esc.contains k)).map
    (fun k => encodeVal ef rneCtl (Val.ofRat ((xs.getD k .nan).real / st)))
  let rest := (fin.filter (fun p => !esc.contains p.1)).map (·.2)
  let lo := rest.foldl (fun a x => if x < a then x else a) (rest.headD 0)
  let hi := rest.foldl (fun a x => if a < x then x else a) (rest.headD 0)
  let sym (lo hi : Rat) : Nat × Int × Flg :=
    let m := if absR lo < absR hi then absR hi else absR lo
    let s := pickScale st (m / (qmax : Rat))
    (s.1, 0, s.2)
  let u := lo / (st * scaleVal 0)
  let uz := clampI (-u.floor) (-128) 127
  let exactDegen := d.zm && decide (((u.floor : Int) : Rat) = u) && decide (qmin ≤ u.floor + uz) && decide (u.floor + uz ≤ qmax)
  let sz : Nat × Int × Flg × Bool := match fixed with
    | some (s, z) => (s, z, 0, false)
    | none =>
      if hi = lo then
        if exactDegen then (0, uz, 0, true) else let s := sym lo lo; (s.1, s.2.1, s.2.2, true)
      else if !d.zm then let s := sym lo hi; (s.1, s.2.1, s.2.2, false)
      else
        let span : Rat := ((qmax - qmin - 1 : Int) : Rat)
        let a := pickZp st ((hi - lo) / span) lo qmin
        if -128 ≤ a.2.1 ∧ a.2.1 ≤ 127 then (a.1, a.2.1, a.2.2, false)
        else
          let lo' := if 0 < lo then 0 else lo
          let hi' := if hi < 0 then 0 else hi
          let b := pickZp st ((hi' - lo') / span) lo' qmin
          (b.1, clampI b.2.1 (-128) 127, b.2.2, false)
  let codes := ix.map (fun p =>
    if esc.contains p.2 then ({ code := bitsOf f.bits (escapeCode f) } : Made)
    else quantElem st (scaleVal sz.1) sz.2.1 qmin qmax f.bits (d.ctl seed (idx + p.2)) p.1)
  { codes := codes, scale := sz.1, zp := sz.2.1, entries := ents.map (·.code), degen := sz.2.2.2
    flags := sz.2.2.1 ||| ents.foldl (fun a m => a ||| m.flags) 0
    sats := (codes.filter (fun m => decide (m.flags &&& flagSat ≠ 0))).length }

/-- Dequantise one element (R131): `n` is how many escapes of its group came before it. Answers the result and whether
the element was an escape. An entry keeps its sign and its UNF (R129). -/
def dequantElem (d : Desc) (seed : BitVec 64) (idx : Nat) (sc : ScaleEntry) (mn : Option ManEntry) (n code : Nat) :
    Made × Bool :=
  let q := signedOf d.srcFmt.bits code
  let st := (decodeVal .bin32 d.tscale).1.real
  let isE := d.mf && decide (q = escapeCode d.srcFmt)
  if isE then
    match mn with
    | some m =>
      if n < m.vals.length then
        let v := decodeVal (if m.posit then .posit16 else .bin16) (m.vals.getD n 0)
        let r := encodeVal d.dstFmt (d.ctl seed idx) (match v.1 with | .fin q => Val.ofRat (st * q) | x => x)
        ({ r with flags := r.flags ||| v.2 }, true)
      else if d.dstFmt.isPosit then
        ({ code := 2 ^ (d.dstFmt.bits - 1), flags := flagInv ||| flagNar, op := some 9 }, true)
      else ({ code := canonNan d.dstFmt, flags := flagInv, op := some 9 }, true)
    | none =>
      if d.dstFmt.isPosit then
        ({ code := 2 ^ (d.dstFmt.bits - 1), flags := flagInv ||| flagNar, op := some 9 }, true)
      else ({ code := canonNan d.dstFmt, flags := flagInv, op := some 9 }, true)
  else (encodeVal d.dstFmt (d.ctl seed idx) (Val.ofRat (st * scaleVal sc.scale * ((q - sc.zp : Int) : Rat))), false)

/-- A magnitude rounded upward to binary32 (R138). -/
def upF32 (x : Rat) : Nat :=
  if x ≤ 0 then 0
  else
    let m := encodeIeee .bin32 { rneCtl with rnd := .rtz } x
    if m.flags &&& flagUnf ≠ 0 then 0x00800000
    else if m.flags &&& flagInx ≠ 0 then m.code + 1 else m.code

/-- P and N of a list of values (R138). -/
def statsOf (vs : List Val) : Nat × Nat :=
  vs.foldl (fun (a : Nat × Nat) v => match v with
    | .inf false => (0x7F800000, a.2)
    | .inf true => (a.1, 0x7F800000)
    | .fin q => if 0 < q then (max a.1 (upF32 q), a.2) else (a.1, max a.2 (upF32 (-q)))
    | _ => a) (0, 0)

def noWin (_ : Nat) : Nat × Nat := (0, 0)

/-- Record statistics in entry 0 of a slot (R138, R139); an empty record becomes one that holds an entry. -/
def Cluster.record (c : Cluster) (slot : Nat) (vs : List Val) : Cluster :=
  let s := statsOf vs
  let o := sget noWin c.wins (slot * 16)
  { c with
    wins := sput noWin c.wins (slot * 16) (max o.1 s.1, max o.2 s.2)
    fill := sput zeroNat c.fill slot (max 1 (sget zeroNat c.fill slot)) }

/-- The first creation of a converted vector as a trap (R84): lowest lane. -/
def convTrap (src : TrapSrc) (task step idx : Nat) (ms : List Made) : List Act :=
  match ms.zipIdx.findSome? (fun x => x.1.op.map (fun o => (x.2, o))) with
  | some (lane, op) => [.trap src op 0 0 (lane % 32) task step (idx + lane)]
  | none => []

def madeFlags (ms : List Made) : Flg := ms.foldl (fun f m => f ||| m.flags) 0

end Sys2Proof.Machine
end

