-- ==== Sys2Proof/Machine/Drover.lean ====
section
/-! DEFINITION. The drover's own work on queues, staging and streams (R186 to R199): operands read from landing slots or
scratch, load and store conversion, which granule comes next. -/

namespace Sys2Proof.Machine

/-- The task slot of a stream's task when that task is speculative (R256). -/
def Cluster.specSlot (c : Cluster) (s : Nat) : Option Nat := if 3 ≤ (c.slot s).st then some s else none

/-- The tag that holds a granule for a stream (R192); run-ahead tags are not its own. -/
def Cluster.tagFor (c : Cluster) (dn gran : Nat) : Option Nat :=
  (List.range 16).find? (fun n =>
    let t := c.tag n
    decide (t.st ≠ 0) && !t.write && !t.ahead && !t.drop && decide (t.gran = gran) && decide (t.desc = dn))

/-- A run-ahead tag that a demand of the same region may use (R199). -/
def Cluster.aheadFor (c : Cluster) (region gran : Nat) : Option Nat :=
  (List.range 16).find? (fun n =>
    let t := c.tag n
    decide (t.st ≠ 0) && !t.write && t.ahead && !t.drop && decide (t.gran = gran) && decide (t.region = region))

def Cluster.freeTag (c : Cluster) : Option Nat := (List.range 16).find? (fun n => decide ((c.tag n).st = 0))

/-- Free a tag (R192) and return its credit (R277). -/
def Cluster.dropTag (c : Cluster) (n : Nat) : Cluster := (c.setTag n {}).give 4 1

/-- Free a tag whose granule stays in its landing slot until the slot is used again (R193). -/
def Cluster.retireTag (c : Cluster) (n : Nat) : Cluster :=
  let t := c.tag n
  (c.setTag n { gran := t.gran, desc := t.desc, region := t.region, old := true }).give 4 1

/-- A free tag whose landing slot still holds a granule of a stream (R193). -/
def Cluster.oldTag (c : Cluster) (dn gran : Nat) : Option Nat :=
  (List.range 16).find? (fun n =>
    let t := c.tag n
    t.old && decide (t.st = 0) && decide (t.gran = gran) && decide (t.desc = dn))

/-- A source byte of a stream: scratch, or the landing slot of the tag that holds its granule. -/
def srcByte (c : Cluster) (dn : Nat) (d : Desc) (a : Int) : Option Byte :=
  if d.space then some (sget zeroByte c.staging a.toNat)
  else
    let a := a.toNat
    match c.tagFor dn (a / 512 * 512) with
    | some n => if (c.tag n).st = 3 then some (sget zeroByte c.staging (0x6000 + 512 * n + a % 512)) else none
    | none => none

def srcBytes (c : Cluster) (dn : Nat) (d : Desc) (a : Int) (n : Nat) : Option (List Byte) :=
  (List.range n).mapM (fun (i : Nat) => srcByte c dn d (a + (i : Int)))

/-- The code of element e of a stream, if it is at hand (R32, R190). -/
def elemCode (c : Cluster) (dn : Nat) (d : Desc) (e : Nat) : Option Nat :=
  let na := d.nibble e
  if d.memFmt = .int4 then (srcByte c dn d (na / 2)).map (fun b => if na % 2 = 0 then b.toNat % 16 else b.toNat / 16)
  else (srcBytes c dn d (na / 2) (d.memFmt.bits / 8)).map leNat

/-- Codes of elements pos, pos + 1, …, up to n of them, as far as they are at hand. -/
def elemCodes (c : Cluster) (dn : Nat) (d : Desc) : Nat → Nat → List Nat
  | _, 0 => []
  | e, n + 1 => match elemCode c dn d e with
    | some x => x :: elemCodes c dn d (e + 1) n
    | none => []

/-- Bytes of entry e of a scale stream, and the address of its group sum (R119, R191). -/
def scaleAddr (d : Desc) (e : Nat) : Int := (d.base : Int) + ((e * (if d.zm then 2 else 1) : Nat) : Int)
def sumAddr (d : Desc) (e : Nat) : Int := (d.aux : Int) + ((2 * e : Nat) : Int)

def granOf (a : Int) : Int := a / 512 * 512

/-- The element a stream holds: a grouped quantising conversion holds the first of a group until the group is delivered. -/
def Strm.heldAt (s : Strm) (d : Desc) : Nat :=
  if s.qbuf = [] then s.pos - s.raw.length else (s.pos - 1) / max d.group 1 * max d.group 1

/-- The granules element e of a stream needs (R193, R198). -/
def needs (c : Cluster) (dn : Nat) (d : Desc) (s : Strm) (e : Nat) : List Int :=
  if d.kind = 2 then
    if d.subq then
      let n := match srcByte c dn d s.ptr with | some b => 2 + 2 * (b.toNat % 8) | none => 2
      if granOf s.ptr = granOf (s.ptr + n - 1 : Nat) then [granOf s.ptr] else [granOf s.ptr, granOf (s.ptr + n - 1 : Nat)]
    else granOf (scaleAddr d e) :: (if d.aux = 0 then [] else [granOf (sumAddr d e)])
  else [granOf (d.nibble e / 2)]

/-- The first element at or after e with a granule that is not held, and that granule. -/
def firstMissing (c : Cluster) (dn : Nat) (d : Desc) (s : Strm) (total : Nat) : Nat → Nat → Nat × Option Int
  | 0, e => (e, none)
  | n + 1, e =>
    if total ≤ e then (e, none)
    else if d.kind = 2 ∧ d.subq ∧ s.pos < e then (e, none)
    else match (needs c dn d s e).find? (fun g => g < 0 || (c.tagFor dn g.toNat).isNone) with
      | some g => (e, some g)
      | none => firstMissing c dn d s total n (e + 1)

/-- The element after the last consecutive one that needs a granule; a granule that elements need again later is held again if its
slot still has it (R193). -/
def lastUse (c : Cluster) (dn : Nat) (d : Desc) (s : Strm) (total : Nat) (g : Int) : Nat → Nat → Nat
  | 0, e => e
  | n + 1, e => if total ≤ e then e
    else if (needs c dn d s e).contains g then lastUse c dn d s total g n (e + 1) else e

/-- The first element from e on, up to element `top`, that needs a granule. -/
def nextUse (c : Cluster) (dn : Nat) (d : Desc) (s : Strm) (g : Int) (top : Nat) : Nat → Nat → Option Nat
  | 0, _ => none
  | n + 1, e =>
    if top < e then none
    else if (needs c dn d s e).contains g then some e
    else nextUse c dn d s g top n (e + 1)

/-- Free the tags of a stream whose elements have all been taken (R192). A granule that an element before the place of the next fetch
needs again is fetched again: the place goes back to that element (R193). -/
def freeTags (c : Cluster) (dn pos : Nat) : Cluster :=
  (List.range 16).foldl (fun c n =>
    let t := c.tag n
    if t.st = 3 ∧ !t.write ∧ !t.ahead ∧ t.desc = dn ∧ t.upto ≤ pos then
      let s := c.strm dn
      let c1 := match nextUse c dn (c.desc dn) s (t.gran : Int) s.iss 16400 pos with
        | some e => c.setStrm dn { s with iss := e }
        | none => c
      c1.retireTag n
    else c) c

/-- Free the landed tags of a manifest stream below an address. -/
def freeBelow (c : Cluster) (dn a : Nat) : Cluster :=
  (List.range 16).foldl (fun c n =>
    let t := c.tag n
    if t.st = 3 ∧ !t.write ∧ !t.ahead ∧ t.desc = dn ∧ t.gran < a then c.dropTag n else c) c

/-- A stream that has delivered its last element ends; its watches disarm at the end of the stage (R200). -/
def endStrm (c : Cluster) (dn total : Nat) : Cluster :=
  let s := c.strm dn
  if total ≤ s.pos ∧ s.qbuf = [] ∧ s.raw = [] then
    { c.setStrm dn { s with run := false } with
      watches := c.watches.map (fun w => if w.desc = dn then { w with done := true } else w) }
  else c

/-- Deliver converted elements of a stream: into the load trail queue, or into scratch for a copy (R194). -/
def deliver (c : Cluster) (dn : Nat) (d : Desc) (stage idx : Nat) (codes : List Nat) : Cluster :=
  if d.kind = 3 then
    let w := d.dstFmt.bits
    if w = 4 then
      (codes.zipIdx).foldl (fun c x =>
        let e := idx + x.2
        let a := d.aux + e / 2
        let old := (sget zeroByte c.staging a).toNat
        let b := if e % 2 = 0 then old / 16 * 16 + x.1 % 16 else old % 16 + 16 * (x.1 % 16)
        c.setStg a [BitVec.ofNat 8 b]) c
    else c.setStg (d.aux + idx * (w / 8)) (codes.flatMap (fun v => leBytes (w / 8) v))
  else
    let e : LoadEntry := { desc := dn, stage := stage, elems := codes, last := decide (d.total ≤ idx + codes.length), slot := (c.strm dn).slot }
    ({ c with loadQ := c.loadQ ++ [e] }).take 0 1

/-- Parameters the converters take from the module: seed, stage, whether QNT_CTL.STAT allows statistics. -/
structure Env where
  seed : BitVec 64
  stage : Nat
  stat : Bool
deriving DecidableEq, Repr

/-- Counts of a grouped quantising conversion (R131, R143): SAT marks count only while statistics are allowed. -/
def qntAct (d : Desc) (stat : Bool) (g : QGroup) (esc : Nat) : List Act :=
  (if g.degen then [Act.count 0x214 1] else []) ++ (if esc = 0 then [] else [Act.count 0x218 esc]) ++
  (if d.stat && stat && g.sats ≠ 0 then [Act.sat d.slot g.sats] else [])

/-- Whether the pair of scale streams a descriptor belongs to lets it push now (R245). -/
def pairTurn (p : Pair) (dn : Nat) (man : Bool) : Bool :=
  let r := p.f.rows.toNat
  let w := p.f.cols.toNat
  if man then
    let a := if p.f.mva then r else 0
    let b := if p.f.mvw then w else 0
    let q := p.m % (max (a + b) 1)
    if q < a then dn = p.f.mdescA.toNat else dn = p.f.mdescW.toNat
  else if p.s = 0 then dn = p.f.descA.toNat
  else if p.s = 1 then dn = p.f.descW.toNat
  else if (p.s - 2) % (max (r + w) 1) < r then dn = p.f.descA.toNat else dn = p.f.descW.toNat

def pairHas (p : Pair) (dn : Nat) (man : Bool) : Bool :=
  if man then (p.f.mva && dn = p.f.mdescA.toNat) || (p.f.mvw && dn = p.f.mdescW.toNat)
  else dn = p.f.descA.toNat || dn = p.f.descW.toNat

/-- The scale streams of a pair, or its manifest streams. -/
def pairDescs (p : Pair) (man : Bool) : List Nat :=
  if man then (if p.f.mva then [p.f.mdescA.toNat] else []) ++ (if p.f.mvw then [p.f.mdescW.toNat] else [])
  else [p.f.descA.toNat, p.f.descW.toNat]

/-- A stream of a pair pushes in the pair's order, once the pairs started before it have pushed all theirs (R245). -/
def turnOk (c : Cluster) (dn : Nat) (man : Bool) : Bool :=
  match c.pairs.find? (fun p => pairHas p dn man) with
  | some p => pairTurn p dn man &&
    (c.pairs.takeWhile (fun q => !pairHas q dn man)).all (fun q => (pairDescs q man).all (fun d => !(c.strm d).run))
  | none => true

def turnDone (c : Cluster) (dn : Nat) (man : Bool) : Cluster :=
  { c with
    pairs := c.pairs.map (fun p => if pairHas p dn man then (if man then { p with m := p.m + 1 } else { p with s := p.s + 1 }) else p) }

/-- Push a head entry or an ordinary entry of a scale stream (R188, R190). -/
def pushScale (c : Cluster) (dn : Nat) (d : Desc) (stage : Nat) : Option Cluster :=
  let s := c.strm dn
  if 256 ≤ c.scaleQ.length ∨ !turnOk c dn false then none
  else if !s.headed then
    let e : ScaleEntry := { head := true, scale := d.tscale, seq := d.firstGrp, desc := dn, stage := stage, slot := s.slot }
    some (turnDone ((({ c with scaleQ := c.scaleQ ++ [e] } : Cluster).setStrm dn { s with headed := true }).take 2 1) dn false)
  else
    let sum : Option Int := if d.aux = 0 then some 0 else (srcBytes c dn d (sumAddr d s.pos) 2).map (fun b => signedOf 16 (leNat b))
    match srcBytes c dn d (scaleAddr d s.pos) (if d.zm then 2 else 1), sum with
    | some bs, some sm =>
      let e : ScaleEntry := { head := false, scale := leAt bs 0 1, zp := if d.zm then signedOf 8 (leAt bs 1 1) else 0
                              sum := sm, seq := (d.firstGrp + s.pos) % 2 ^ 16, desc := dn, stage := stage, slot := s.slot }
      let c1 := (({ c with scaleQ := c.scaleQ ++ [e] } : Cluster).setStrm dn { s with pos := s.pos + 1 }).take 2 1
      some (turnDone (endStrm (freeTags c1 dn (s.pos + 1)) dn d.total) dn false)
    | _, _ => none

/-- Push a manifest record (R129, R188). DESIGN CHOICE (log entry 148): a COUNT of 5 to 7 counts as that many entries. -/
def pushMan (c : Cluster) (dn : Nat) (d : Desc) (stage : Nat) : Option Cluster :=
  let s := c.strm dn
  if 64 ≤ c.manQ.length ∨ !turnOk c dn true then none
  else match srcBytes c dn d s.ptr 2 with
    | none => none
    | some h =>
      let n := leAt h 0 1 % 8
      match srcBytes c dn d (s.ptr + 2 : Nat) (2 * n) with
      | none => none
      | some b =>
        let e : ManEntry := { posit := (leAt h 0 1).testBit 3, vals := (List.range n).map (fun i => leAt b (2 * i) 2)
                              seq := (d.firstGrp + s.pos) % 2 ^ 16, desc := dn, stage := stage, slot := s.slot }
        let c1 := (({ c with manQ := c.manQ ++ [e] } : Cluster).setStrm dn { s with pos := s.pos + 1, ptr := s.ptr + 2 + 2 * n }).take 3 1
        let keep := if d.total ≤ s.pos + 1 then 2 ^ 64 else (s.ptr + 2 + 2 * n) / 512 * 512
        some (turnDone (endStrm (freeBelow c1 dn keep) dn d.total) dn true)

/-- Take the scale entry of the next group for a converter, passing over a head entry (R131, R188). -/
def popScale (c : Cluster) : Option (ScaleEntry × Cluster) :=
  match c.scaleQ with
  | e :: r =>
    if e.head then match r with
      | f :: q => some (f, ({ c with scaleQ := q }).give 2 2)
      | [] => none
    else some (e, ({ c with scaleQ := r }).give 2 1)
  | [] => none

def popMan (c : Cluster) (mf : Bool) : Option (Option ManEntry × Cluster) :=
  if !mf then some (none, c)
  else match c.manQ with
    | e :: r => some (some e, ({ c with manQ := r }).give 3 1)
    | [] => none

/-- Scale entry and record of the group a static grouped conversion works on, taken at the group's first element. -/
def groupHead (c : Cluster) (dn : Nat) (d : Desc) : Option (ScaleEntry × Option ManEntry × Cluster) :=
  let s := c.strm dn
  match s.sc with
  | some e => some (e, s.mn, c)
  | none => match popScale c with
    | none => none
    | some (e, c1) => (popMan c1 (d.mf && d.dequant)).map
        (fun r => (e, r.1, r.2.setStrm dn { s with sc := some e, mn := r.1, escs := 0 }))

/-- The task that a stream belongs to is speculative now, and byte `a` of staging lies outside its window (R253). -/
def Cluster.strays (c : Cluster) (s : Strm) (a : Nat) : Bool :=
  match s.slot with
  | none => false
  | some o =>
    let t := c.slot o
    decide (3 ≤ t.st) && decide (t.task = s.task) && !(decide (t.wbase * 1024 ≤ a) && decide (a < (t.wbase + t.wsize) * 1024))

/-- A speculative task's store outside its window faults as a failed demand check does (R198, R253). -/
def strayFault (c : Cluster) (dn a : Nat) : Cluster × List Act :=
  let s := c.strm dn
  (c.setStrm dn { s with halted := true }, [.drover 3 dn 0 s.task (a / 512 * 512), .stop 2])

/-- The load converter converts what is at hand of a stream, up to one entry, and delivers it (R194, R131). A stream that a
fault or a poisoned granule has stopped fetches no more; elements of the granules before it are still delivered (R198, R219,
DEDUCED). Statistics record the rounded results (DEDUCED, log entry 151). -/
def loadPush (c : Cluster) (dn : Nat) (env : Env) : Option (Cluster × List Act) :=
  let d := c.desc dn
  let s := c.strm dn
  if !s.run ∨ (d.kind = 0 ∧ 128 ≤ c.loadQ.length) ∨ d.kind = 1 then none
  else if d.kind = 3 ∧ (c.strays s d.aux ∨ c.strays s (d.aux + (d.total * d.dstFmt.bits + 7) / 8 - 1)) then
    (if s.halted then none else some (strayFault c dn d.aux))
  else if d.kind = 2 then (if d.subq then pushMan c dn d env.stage else pushScale c dn d env.stage).map (fun c => (c, []))
  else
    let cap := min 32 (1024 / d.dstFmt.bits)
    let step (e : Nat) : Nat := Config.loadStep s.task dn e
    let finish (c : Cluster) (pos : Nat) : Cluster := endStrm (freeTags c dn pos) dn d.total
    let stat (c : Cluster) (vs : List Val) : Cluster := if d.stat && env.stat then c.record d.slot vs else c
    if d.quant then
      match s.qbuf with
      | _ :: _ =>
        let n := min cap s.qbuf.length
        let c1 := deliver c dn d env.stage (s.pos - s.qbuf.length) (s.qbuf.take n)
        some (finish (c1.setStrm dn { s with qbuf := s.qbuf.drop n }) s.pos, [])
      | [] =>
        let g0 := s.pos - s.raw.length
        let n := min d.group (d.total - g0)
        let codes := s.raw ++ elemCodes c dn d s.pos (n - s.raw.length)
        if codes.length = s.raw.length then none
        else if codes.length < n then
          some (freeTags (c.setStrm dn { s with raw := codes, pos := g0 + codes.length }) dn (g0 + codes.length), [])
        else if (d.scm ∧ 255 ≤ c.scaleQ.length) ∨ (d.mf ∧ 64 ≤ c.manQ.length) then none
        else
          let vs := codes.map (fun x => decodeVal d.srcFmt x)
          let go (c : Cluster) (fixed : Option (Nat × Int)) : Cluster × List Act :=
            let g := quantGroup d env.seed g0 (vs.map (·.1)) fixed
            let fl := g.flags ||| madeFlags g.codes ||| vs.foldl (fun f v => f ||| v.2) 0
            let qs := g.codes.map (·.code)
            let m := min cap n
            let grp := (g0 / d.group + d.firstGrp) % 2 ^ 16
            let c1 := if fixed.isSome then c else
              let e0 : ScaleEntry := { head := true, scale := d.tscale, seq := d.firstGrp, desc := dn, stage := env.stage, slot := s.slot }
              let e1 : ScaleEntry := { head := false, scale := g.scale, zp := g.zp, seq := grp, desc := dn, stage := env.stage,
                                       slot := s.slot }
              let sc := if s.headed then [e1] else [e0, e1]
              ({ c with scaleQ := c.scaleQ ++ sc } : Cluster).take 2 sc.length
            let me : ManEntry := { posit := Config.manifestPosit, vals := g.entries, seq := grp, desc := dn, stage := env.stage,
                                   slot := s.slot }
            let c2 := if d.mf then ({ c1 with manQ := c1.manQ ++ [me] } : Cluster).take 3 1 else c1
            let c3 := deliver c2 dn d env.stage g0 (qs.take m)
            let c4 := c3.setStrm dn { s with pos := g0 + n, qbuf := qs.drop m, raw := [], headed := true, sc := none }
            (finish (stat c4 (vs.map (·.1))) (g0 + n),
              [.cvt false fl] ++ qntAct d env.stat g g.entries.length)
          if d.scm then some (go c none)
          else match popScale c with
            | none => none
            | some (e, c1) => some (go c1 (some (e.scale, e.zp)))
    else if d.dequant then
      match groupHead c dn d with
      | none => none
      | some (e, mn, c1) =>
        let s1 := c1.strm dn
        let n := min (min cap (d.total - s.pos)) (d.group - s.pos % d.group)
        let codes := elemCodes c1 dn d s.pos n
        if codes = [] then none
        else
          let r := codes.zipIdx.foldl (fun (a : List Made × Nat) x =>
            let m := dequantElem d env.seed (s.pos + x.2) e mn a.2 x.1
            (a.1 ++ [m.1], if m.2 then a.2 + 1 else a.2)) (([] : List Made), s1.escs)
          let pos := s.pos + codes.length
          let c2 := deliver c1 dn d env.stage s.pos (r.1.map (·.code))
          let full := decide (pos % d.group = 0)
          let c3 := c2.setStrm dn { s1 with pos := pos, escs := if full then 0 else r.2
                                            sc := if full then none else s1.sc, mn := if full then none else s1.mn }
          let vs := codes.zipIdx.map (fun x => (decodeVal d.dstFmt ((r.1.getD x.2 { code := 0 }).code)).1)
          some (finish (stat c3 vs) pos, [.cvt false (madeFlags r.1)] ++ convTrap .load s.task (step s.pos) s.pos r.1)
    else
      let codes := elemCodes c dn d s.pos (min cap (d.total - s.pos))
      if codes = [] then none
      else
        let ms := codes.zipIdx.map (fun x => convert d.srcFmt d.dstFmt (d.ctl env.seed (s.pos + x.2)) x.1)
        let pos := s.pos + codes.length
        let c1 := deliver c dn d env.stage s.pos (ms.map (·.code))
        let c2 := c1.setStrm dn { s with pos := pos }
        some (finish (stat c2 (codes.map (fun x => (decodeVal d.srcFmt x).1))) pos,
          [.cvt false (madeFlags ms)] ++ convTrap .load s.task (step s.pos) s.pos ms)

/-- Round a row at the store converter into the source format its instruction names (R48, R69). -/
def roundRow (d : Desc) (env : Env) (r : ConvRow) (idx : Nat) : List Made :=
  r.elems.zipIdx.map (fun x =>
    if r.round then encodeVal r.src (ctlOf env.seed d.handle r.rnd r.satw r.site (idx + x.2)) x.1.1
    else { code := x.1.2 })

/-- The bytes of codes of a format one after the other, two INT4 codes to a byte (R32). -/
def codeBytes (f : Fmt) (codes : List Nat) : List Byte :=
  if f = .int4 then
    (List.range ((codes.length + 1) / 2)).map (fun i =>
      BitVec.ofNat 8 (codes.getD (2 * i) 0 % 16 + codes.getD (2 * i + 1) 0 % 16 * 16))
  else codes.flatMap (fun v => leBytes (f.bits / 8) v)

/-- The tandem check takes codes that the store converter delivers (R303); the last ones give the record. -/
def feedCheck (c : Cluster) (f : Fmt) (codes : List Nat) : Cluster × List Act :=
  match c.tchk with
  | none => (c, [])
  | some t =>
    let t1 := { t with left := t.left - codes.length, fed := t.fed ++ codes }
    if codes = [] || decide (t1.left ≠ 0) then ({ c with tchk := some t1 }, [])
    else ({ c with tchk := none }, [.tandem t.tile t.fmt t.task t.step t.k t.stage (codeBytes f t1.fed)])

/-- The element index of the next element a store descriptor's converter takes. -/
def Cluster.storeIx (c : Cluster) (dn : Nat) : Nat := sget zeroNat c.pushed dn % max (c.desc dn).total 1

/-- The store converter can deliver what a row begins: of a grouped quantising conversion a whole group, and of a static one its scale
entry, must be there (R131). -/
def convReady (c : Cluster) (r : ConvRow) : Bool :=
  let d := c.desc r.desc
  !d.quantOf r.src ||
  (decide (min d.group (max d.total 1 - c.storeIx r.desc) ≤
      (c.conv.filter (fun x => decide (x.desc = r.desc))).foldl (fun n x => n + x.elems.length) 0) &&
    (d.scm || (popScale c).isSome))

/-- The row the store converter delivers next: the first whose stream has one to deliver (R187). -/
def convNext (c : Cluster) : Option ConvRow := c.conv.find? (convReady c)

/-- The store converter takes another row: the store queue is not full (R185, R187), and of what it could deliver it holds no more
than the rows of its latency of 3 kc (R69). Groups that it gathers keep no other stream waiting. -/
def convRoom (c : Cluster) : Bool :=
  decide (c.storeQ.length < 64) && c.coded.isEmpty &&
    decide (((c.conv.filter (convReady c)).foldl (fun n x => n + x.elems.length) 0) < 96)

/-- Count what a speculative task's slot has pushed or popped through a descriptor beside the cluster's own count (R258). -/
def Cluster.notePush (c : Cluster) (o : Option Nat) (dn n : Nat) : Cluster :=
  match o with
  | some i => let t := c.slot i; c.setSlot i { t with pushed := sput zeroNat t.pushed dn (sget zeroNat t.pushed dn + n) }
  | none => c
def Cluster.notePop (c : Cluster) (o : Option Nat) (dn n : Nat) : Cluster :=
  match o with
  | some i => let t := c.slot i; c.setSlot i { t with popped := sput zeroNat t.popped dn (sget zeroNat t.popped dn + n) }
  | none => c

/-- The store converter makes the next store entry (R69, R187, R131): elements already converted wait in `coded`. -/
def storePush (c : Cluster) (env : Env) : Option (Cluster × List Act) :=
  if 64 ≤ c.storeQ.length then none
  else match c.coded with
  | e :: rest => some (({ c with coded := rest, storeQ := c.storeQ ++ [e] }).take 1 1, [])
  | [] => match convNext c with
    | none => none
    | some r =>
      let rows := c.conv.erase r
      let d := c.desc r.desc
      let total := max d.total 1
      let idx := c.storeIx r.desc
      let cap := min 32 (1024 / d.dstFmt.bits)
      let stat (c : Cluster) (vs : List Val) : Cluster := if d.stat && env.stat then c.record d.slot vs else c
      let put (c : Cluster) (n : Nat) (es : List StoreEntry) (rest : List ConvRow) : Cluster :=
        match es with
        | [] => { c with conv := rest }
        | e :: more => (({ c with conv := rest, coded := more, storeQ := c.storeQ ++ [e]
                                  pushed := sput zeroNat c.pushed r.desc ((idx + n) % total) }).take 1 1).notePush r.slot r.desc n
      let pack (idx : Nat) (codes : List Nat) (side : List (Nat × List Byte)) : List StoreEntry :=
        (List.range ((codes.length + cap - 1) / cap)).map (fun i =>
          { desc := r.desc, first := idx + i * cap, elems := (codes.drop (i * cap)).take cap
            side := if i = 0 then side else [], slot := r.slot })
      if d.quantOf r.src then
        let need := min d.group (total - idx)
        let mine := c.conv.filter (fun x => x.desc = r.desc)
        let avail := mine.flatMap (fun x => x.elems.map (fun v => (v, x)))
        if avail.length < need then none
        else
          let vals := (avail.take need).zipIdx.map (fun p =>
            if p.1.2.round then
              encodeVal p.1.2.src (ctlOf env.seed d.handle p.1.2.rnd p.1.2.satw p.1.2.site (idx + p.2)) p.1.1.1
            else { code := p.1.1.2 })
          let vs := ((avail.take need).zip vals).map (fun p =>
            if p.1.2.src = .wide then (p.1.1.1, (0 : Flg)) else decodeVal p.1.2.src p.2.code)
          let rest := (c.conv.foldl (fun (a : List ConvRow × Nat) x =>
            if x.desc = r.desc then
              if x.elems.length ≤ a.2 then (a.1, a.2 - x.elems.length)
              else (a.1 ++ [{ x with elems := x.elems.drop a.2 }], 0)
            else (a.1 ++ [x], a.2)) (([] : List ConvRow), need)).1
          let go (c : Cluster) (fixed : Option (Nat × Int)) : Cluster × List Act :=
            let g := quantGroup d env.seed idx (vs.map (·.1)) fixed
            let side := (if d.scm then
                [(bits d.aux 0 6, leBytes 1 g.scale ++ (if d.zm then leBytes 1 (bitsOf 8 g.zp) else []))] else []) ++
              (if d.mf && (d.scm && d.aux.testBit 14) then
                [(bits d.aux 8 6, leBytes 2 (g.entries.length + (if Config.manifestPosit then 8 else 0)) ++
                  g.entries.flatMap (leBytes 2))] else [])
            let fl := g.flags ||| madeFlags g.codes ||| madeFlags vals ||| vs.foldl (fun f v => f ||| v.2) 0
            let qs := g.codes.map (·.code)
            let k := feedCheck (stat (put c need (pack idx qs side) rest) (vs.map (·.1))) d.dstFmt
              (((avail.take need).zip qs).filterMap (fun p => if p.1.2.tnd then some p.2 else none))
            (k.1, [.cvt true fl] ++ qntAct d env.stat g g.entries.length ++ convTrap .store r.task r.step idx vals ++ k.2)
          if d.scm then some (go c none)
          else match popScale c with
            | none => none
            | some (e, c1) => some (go c1 (some (e.scale, e.zp)))
      else
        let m1 := roundRow d env r idx
        let m2 := (m1.zip r.elems).zipIdx.map (fun x =>
          let k := d.ctl env.seed (idx + x.2)
          if r.src = .wide && d.dstFmt ≠ .wide then encodeVal d.dstFmt k x.1.2.1
          else convert r.src d.dstFmt k x.1.1.code)
        let made := (m1.zip m2).map (fun p => { p.2 with flags := p.1.flags ||| p.2.flags, op := p.1.op.orElse (fun _ => p.2.op) })
        let k := feedCheck (stat (put c r.elems.length (pack idx (m2.map (·.code)) []) rows)
            (if r.src = .wide then r.elems.map (·.1) else m1.map (fun m => (decodeVal r.src m.code).1))) d.dstFmt
          (if r.tnd then m2.map (·.code) else [])
        some (k.1, [.cvt true (madeFlags made)] ++ convTrap .store r.task r.step idx made ++ k.2)

/-- A tensor stored packed (R32): STRIDE0 is 1, each higher stride the count of the dimension below it. -/
def Desc.packed (d : Desc) : Bool :=
  (d.strides.zip (1 :: d.counts)).all (fun p => decide (p.1 = (p.2 : Int)))

/-- A byte address of an element as a write holds it (R198): one outside 0 to 2^48 - 1 keeps the 48 bits that DRV_FAULT_ADDR shows and
lies above all addresses that exist, so that its check fails. -/
def writeAddr (a : Int) : Nat :=
  (a % (2 ^ 48 : Nat)).toNat + (if a < 0 ∨ ((2 ^ 48 : Nat) : Int) ≤ a then 2 ^ 48 else 0)

/-- The bytes an element writes (R32, R216). -/
def elemWrites (d : Desc) (e code : Nat) : List WByte :=
  let na := d.nibble e
  let a := writeAddr (na / 2)
  let w := d.dstFmt.bits
  if w = 4 then
    if d.packed && decide (d.total % 2 = 1) && decide (e + 1 = d.total) then
      [{ addr := a, mask := 3#2, val := BitVec.ofNat 8 (code % 16) }]
    else if na % 2 = 0 then [{ addr := a, mask := 1#2, val := BitVec.ofNat 8 (code % 16) }]
    else [{ addr := a, mask := 2#2, val := BitVec.ofNat 8 (code % 16 * 16) }]
  else (leBytes (w / 8) code).zipIdx.map (fun x => { addr := a + x.2, mask := 3#2, val := x.1 })

/-- Merge a masked byte over an old one. -/
def maskByte (m : BitVec 2) (old new : Byte) : Byte :=
  let k : Byte := (if m.getLsbD 0 then 0x0F#8 else 0#8) ||| (if m.getLsbD 1 then 0xF0#8 else 0#8)
  (old &&& ~~~k) ||| (new &&& k)

def writeStg (c : Cluster) (ws : List WByte) : Cluster :=
  ws.foldl (fun c w => c.setStg w.addr [maskByte w.mask (sget zeroByte c.staging w.addr) w.val]) c

/-- Hand bytes to a store stream: scratch at once, Loess bytes wait for their granule requests (R194, R195). -/
def storeBytes (c : Cluster) (dn : Nat) (ws : List WByte) : Cluster :=
  if (c.desc dn).space then writeStg c ws
  else c.setStrm dn { c.strm dn with wbuf := (c.strm dn).wbuf ++ ws }

/-- Scale and manifest bytes of a dynamic group through its linked descriptors, each a group further (R195); they are stores of
the same task. -/
def storeSide (s : Strm) (c : Cluster) (x : Nat × List Byte) : Cluster :=
  let d := c.desc x.1
  let n := sget zeroNat c.popped x.1
  let c0 := c.setStrm x.1 { c.strm x.1 with task := s.task, slot := s.slot }
  let c1 := ({ c0 with popped := sput zeroNat c.popped x.1 (n + x.2.length) } : Cluster).notePop s.slot x.1 x.2.length
  storeBytes c1 x.1 (x.2.zipIdx.map (fun b => { addr := d.base + n + b.2, mask := 3#2, val := b.1 }))

/-- Nothing that goes through a store descriptor is on its way: in the converter, in its queue, in flight to memory. -/
def Cluster.allStored (c : Cluster) (dn : Nat) : Bool :=
  c.conv.all (fun x => decide (x.desc ≠ dn)) && c.coded.all (fun e => decide (e.desc ≠ dn)) &&
      c.storeQ.all (fun e => decide (e.desc ≠ dn)) &&
  (c.strm dn).wbuf.isEmpty && (List.range 16).all (fun n => !((c.tag n).write && decide ((c.tag n).desc = dn) && decide ((c.tag n).st ≠ 0)))

/-- A tile whose reduced elements have all been stored is empty, as after a drain (R332). -/
def freeReduced (c : Cluster) (dn : Nat) : Cluster :=
  let free (c : Cluster) (n : Nat) : Cluster :=
    match (c.tile n).out with
    | some o => if o.red.isSome && decide (o.next = 1) && decide (o.desc = dn) then
        c.setTile n { (c.tile n).emptied with out := none } else c
    | none => c
  if c.allStored dn then free (free c 0) 1 else c

/-- The drover pops the head store entry, whose stream must run (R187). -/
def storePop (c : Cluster) : Option (Cluster × List Act) :=
  match c.storeQ with
  | [] => none
  | e :: rest =>
    let s := c.strm e.desc
    if !s.run ∨ s.halted then none
    else
      let d := c.desc e.desc
      let ws := e.elems.zipIdx.flatMap (fun x => elemWrites d (e.first + x.2) x.1)
      let at_ (dn : Nat) (as : List Nat) : List (Nat × Nat) := if (c.desc dn).space then as.map (fun a => (dn, a)) else []
      let puts := at_ e.desc (ws.map (fun w => w.addr)) ++ e.side.flatMap (fun x =>
        at_ x.1 ((List.range x.2.length).map (fun i => (c.desc x.1).base + sget zeroNat c.popped x.1 + i)))
      match puts.find? (fun p => c.strays s p.2) with
      | some p => some (strayFault c e.desc p.2)
      | none =>
        let c1 := (({ c with storeQ := rest } : Cluster).setStrm e.desc { s with stored := s.stored + e.elems.length }).give 1 1
        let c3 := e.side.foldl (storeSide s) (storeBytes c1 e.desc ws)
        let s3 := c3.strm e.desc
        some (freeReduced (if d.space ∧ d.total ≤ s3.stored then c3.setStrm e.desc { s3 with run := false } else c3) e.desc, [])

/-- A store stream whose bytes have all been acknowledged ends (R196). -/
def endStore (c : Cluster) (dn : Nat) : Cluster :=
  let c := freeReduced c dn
  let s := c.strm dn
  if s.run ∧ (c.desc dn).kind = 1 ∧ (c.desc dn).total ≤ s.stored ∧ s.wbuf = [] ∧
      (List.range 16).all (fun n => !((c.tag n).write && (c.tag n).desc = dn && (c.tag n).st ≠ 0)) then
    c.setStrm dn { s with run := false }
  else c

/-- R193: landed granules that one of the drover's own writes overlaps are dropped and fetched again when needed. -/
def dropLanded (c : Cluster) (gran : Nat) : Cluster :=
  (List.range 16).foldl (fun c n =>
    let t := c.tag n
    if t.st = 0 ∧ t.old ∧ t.gran = gran then c.setTag n {}
    else if t.st ≠ 0 ∧ !t.write ∧ t.gran = gran then
      let s := c.strm t.desc
      let c1 := if t.ahead then c else c.setStrm t.desc { s with iss := min s.iss s.pos }
      if t.st = 3 then c1.dropTag n else c1.setTag n { t with drop := true }
    else c) c

end Sys2Proof.Machine
end

