-- ==== Sys2Proof/Machine/Glaze.lean ====
section
/-! DEFINITION. The glaze unit: table images, segment evaluation, functions, row operations, G1 mode (R148 to R172). -/

namespace Sys2Proof.Machine

/-- Floor of a product shifted right (R151). -/
def asr (x : Int) (n : Nat) : Int := x / (2 ^ n : Nat)

def beNat (bs : List Byte) : Nat := bs.foldl (fun a b => a * 256 + b.toNat) 0
def imgLe (img : Nat → Byte) (o n : Nat) : Nat := leNat ((List.range n).map (fun i => img (o + i)))
def imgBe (img : Nat → Byte) (o n : Nat) : Nat := beNat ((List.range n).map (fun i => img (o + i)))

/-- The slot of a native table code (R170). -/
def tableSlot (img : Nat → Byte) (code : Nat) : Option Nat :=
  (List.range 4).find? (fun s => (img (32 + 24 * s)).toNat = code)

/-- A native table in an image: slot, direction, clamp, end value, exponents (R170). -/
structure GTab where
  slot : Nat
  dir : Bool
  mono : Bool
  endv : Nat
deriving DecidableEq, Repr

def gtab (img : Nat → Byte) (s : Nat) : GTab :=
  let f := (img (33 + 24 * s)).toNat
  { slot := s, dir := f.testBit 0, mono := f.testBit 1, endv := imgLe img (36 + 24 * s) 4 % 2 ^ 26 }

def oexp (img : Nat → Byte) (s b : Nat) : Int := signedOf 8 (img (40 + 24 * s + b)).toNat
def gEntry (img : Nat → Byte) (s i : Nat) : Nat := imgLe img (128 + 2048 * s + 8 * i) 8
def c0Of (e : Nat) : Nat := bits e 38 26

/-- A coefficient at its weight: c × 2^(x - 25). -/
def weigh (c : Int) (x : Int) : Rat := (c : Rat) * pow2 (x - 25)

/-- The binade of an entry: 0 on a fraction-indexed table (R150). -/
def binadeOf (code i : Nat) : Nat := if 4 ≤ code ∧ code ≤ 8 then i / 16 else 0

/-- Segment value with seam clamping (R151, R155). -/
def segValue (img : Nat → Byte) (code : Nat) (t : GTab) (i T : Nat) : Rat :=
  let e := gEntry img t.slot i
  let a2 := signedOf 13 (bits e 6 13) + asr (signedOf 6 (bits e 0 6) * T) 18
  let a1 := signedOf 19 (bits e 19 19) + asr (a2 * T) 18
  let a0 := (c0Of e : Int) + asr (a1 * T) 18
  let a0 := if a0 < 0 then 0 else a0
  let x := oexp img t.slot (binadeOf code i)
  let y := weigh a0 x
  if t.mono then
    let here := weigh (c0Of e) x
    let next := if i = 255 then weigh t.endv x
      else weigh (c0Of (gEntry img t.slot (i + 1))) (oexp img t.slot (binadeOf code (i + 1)))
    let lo := if t.dir then next else here
    let hi := if t.dir then here else next
    if y < lo then lo else if hi < y then hi else y
  else y

/-- Index and T of a fraction in [0, 1): the top `n` bits, then 18 (R150). -/
def splitFrac (n : Nat) (f : Rat) : Nat × Nat :=
  let v := (f * ((2 ^ (n + 18) : Nat) : Rat)).floor.toNat
  (v / 2 ^ 18, v % 2 ^ 18)

/-- A value with only its first `p` significant bits, the rest dropped as `mode` says (`Config.glazeRound`). Every mode is monotonic
in the value, so that what is kept of two intermediates stands in the order of the intermediates (R154). -/
def keepBits (p mode : Nat) (v : Rat) : Rat :=
  if v = 0 then 0
  else
    let u := pow2 (floorLog2 (absR v) + 1 - p)
    let m := v / u
    let n : Int := if mode = 0 then (m + 1 / 2).floor else if mode = 1 ∧ v < 0 then -(-m).floor else m.floor
    (n : Rat) * u

/-- An intermediate of function `fn` kept to at least `least` significant bits: how many, and how the rest is dropped, is free for
each intermediate `which` of each function, and the same for every argument. -/
def keepAt (least fn which : Nat) (v : Rat) : Rat :=
  keepBits (least + Config.glazeBits fn which) (Config.glazeRound fn which) v

/-- An intermediate kept to at least 40 significant bits (R149, R152). -/
def keep40 (fn which : Nat) (v : Rat) : Rat := keepAt 40 fn which v

/-- The constants of R152, held to 64 bits. -/
def cLog2e : Rat := mkRat 13306513097844322492 (2 ^ 63)
def cFourOverPi : Rat := mkRat 11743562013128004906 (2 ^ 63)
def cLn2 : Rat := mkRat 12786308645202655660 (2 ^ 64)
def cSqrt2OverPi : Rat := mkRat 14718372293494604904 (2 ^ 64)
def cTwoOverSqrtPi : Rat := mkRat 10407460856758233229 (2 ^ 63)
def cInvSqrt2Pi : Rat := mkRat 14718372293494604904 (2 ^ 65)

/-- A value too small for any output format, of a sign (R152, "flushes"). -/
def tiny (neg : Bool) : Rat := if neg then -(pow2 (-1000)) else pow2 (-1000)

/-- The table a function uses (R148), by its code in the image (R170). -/
def tableOf (gfn : Nat) : Nat :=
  match gfn with
  | 0x00 | 0x01 | 0x11 => 1
  | 0x02 | 0x03 => 2
  | 0x04 | 0x05 | 0x06 | 0x12 | 0x13 => 3
  | 0x07 | 0x09 => 4
  | 0x08 | 0x0B => 5
  | 0x0A => 6
  | 0x0D => 7
  | 0x0C => 8
  | 0x0E | 0x0F => 9
  | _ => 0

/-- 2 to the power t from E2 (R152). -/
def exp2Of (img : Nat → Byte) (t : GTab) (x : Rat) : Rat :=
  let n := x.floor
  let p := splitFrac 8 (x - (n : Rat))
  let n' := if n < -1000 then -1000 else if 1000 < n then 1000 else n
  pow2 n' * segValue img 1 t p.1 p.2

/-- log2 of x from L2 (R152). -/
def log2Of (img : Nat → Byte) (t : GTab) (x : Rat) : Rat :=
  let e := floorLog2 x
  let p := splitFrac 8 (x / pow2 e - 1)
  (e : Rat) + segValue img 2 t p.1 p.2

/-- k, m′ and the RS value of x = 4^k m′ (R150, R152). -/
def rsOf (img : Nat → Byte) (t : GTab) (x : Rat) : Int × Rat × Rat :=
  let e := floorLog2 x
  let k := e / 2
  let m := x / pow2 (2 * k)
  let h := if 2 ≤ m then 1 else 0
  let p := splitFrac 7 (x / pow2 e - 1)
  (k, m, segValue img 3 t (128 * h + p.1) p.2)

/-- Value of an exponent-indexed table at a in [2^-8, 2^8) (R150). -/
def expIndexed (img : Nat → Byte) (code : Nat) (t : GTab) (a : Rat) : Rat :=
  let e := floorLog2 a
  let p := splitFrac 4 (a / pow2 e - 1)
  segValue img code t (16 * (e + 8).toNat + p.1) p.2

/-- First and end values of an exponent-indexed table, which bound the edge rules when it clamps (R155). -/
def firstVal (img : Nat → Byte) (t : GTab) : Rat := weigh (c0Of (gEntry img t.slot 0)) (oexp img t.slot 0)
def endVal (img : Nat → Byte) (t : GTab) : Rat := weigh t.endv (oexp img t.slot 15)

def minR (a b : Rat) : Rat := if a < b then a else b
def maxR (a b : Rat) : Rat := if a < b then b else a

/-- sin(πf/4) or cos(πf/4) from SC, f in [0, 1] (R150, R152). -/
def scOf (img : Nat → Byte) (t : GTab) (cosine : Bool) (f : Rat) : Rat :=
  let base := if cosine then 128 else 0
  if 1 ≤ f then segValue img 9 t (base + 127) (2 ^ 18)
  else let p := splitFrac 7 f; segValue img 9 t (base + p.1) p.2

/-- A native function of a finite non-zero x in its domain, before the final rounding (R152, R155). The reduction of SIN and COS keeps
at least 64 significant bits: with 40 an argument near 2^20 could be off by 2^-20, beyond R156's bound. -/
def nativeReal (img : Nat → Byte) (t : GTab) (gfn : Nat) (x : Rat) : Rat :=
  let a := absR x
  let neg := decide (x < 0)
  let sg (v : Rat) : Rat := if neg then -v else v
  let small := decide (a < pow2 (-8))
  let big := decide (pow2 8 ≤ a)
  let k (w : Nat) (v : Rat) : Rat := keep40 gfn w v
  let capS (v : Rat) : Rat := if t.mono then minR v (firstVal img t) else v
  let capL (v : Rat) : Rat := if t.mono then maxR v (endVal img t) else v
  let y := expIndexed img (tableOf gfn) t a
  match gfn with
  | 0x00 => exp2Of img t (k 0 (x * cLog2e))
  | 0x01 => exp2Of img t x
  | 0x02 => k 1 (k 0 (log2Of img t x) * cLn2)
  | 0x03 => k 0 (log2Of img t x)
  | 0x04 => let r := rsOf img t a; sg (pow2 (-2 * r.1) * k 0 (r.2.2 * r.2.2))
  | 0x05 => let r := rsOf img t a; pow2 r.1 * k 0 (r.2.1 * r.2.2)
  | 0x06 => let r := rsOf img t a; pow2 (-r.1) * r.2.2
  | 0x07 => sg (if small then capS (k 0 (a * (1 - k 1 (k 2 (x * x) / 3)))) else if big then capL 1 else y)
  | 0x0D => sg (if small then capS (k 0 (k 3 (a * cTwoOverSqrtPi) * (1 - k 1 (k 2 (x * x) / 3)))) else if big then capL 1 else y)
  | 0x08 =>
    if small then
      let v := k 0 (1 / 2 + x / 4)
      if t.mono then (if neg then maxR v (1 - firstVal img t) else minR v (firstVal img t)) else v
    else if big then (if neg then tiny false else capL 1)
    else if neg then k 0 (1 - y) else y
  | 0x0B =>
    if small then k 0 (x * k 1 (1 / 2 + x / 4))
    else if big then (if neg then tiny true else x)
    else k 0 (x * (if neg then k 1 (1 - y) else y))
  | 0x0A =>
    if small then k 0 (x * k 1 (1 / 2 + k 2 (x * cInvSqrt2Pi)))
    else if big then (if neg then tiny true else x)
    else k 0 (x * (if neg then k 1 (1 - y) else y))
  | 0x09 =>
    let u := k 3 (cSqrt2OverPi * k 4 (x + k 5 (mkRat 44715 1000000 * k 6 (x * k 7 (x * x)))))
    let au := absR u
    if au < pow2 (-8) then k 0 (x * k 1 (1 / 2 + k 2 (x * cInvSqrt2Pi)))
    else if pow2 8 ≤ au then (if neg then tiny true else x)
    else
      let yu := expIndexed img 4 t au
      k 0 (x / 2 * k 1 (1 + (if u < 0 then -yu else yu)))
  | 0x0C =>
    if small then
      let v := k 0 (cLn2 + x / 2 + k 1 (k 2 (x * x) / 8))
      if t.mono then (if neg then maxR v (firstVal img t) else minR v (pow2 (-8) + firstVal img t)) else v
    else if big then
      (if neg then tiny false else if t.mono then maxR x (pow2 8 + endVal img t) else x)
    else if neg then y else k 0 (x + y)
  | _ =>
    let r := keepAt 64 gfn 0 (a * cFourOverPi)
    let n := r.floor
    let f := r - (n : Rat)
    let o := (n % 8).toNat
    let g := 1 - f
    if gfn = 0x0E then
      let v := match o with
        | 0 => scOf img t false f
        | 1 => scOf img t true g
        | 2 => scOf img t true f
        | 3 => scOf img t false g
        | 4 => -(scOf img t false f)
        | 5 => -(scOf img t true g)
        | 6 => -(scOf img t true f)
        | _ => -(scOf img t false g)
      sg v
    else match o with
      | 0 => scOf img t true f
      | 1 => scOf img t false g
      | 2 => -(scOf img t false f)
      | 3 => -(scOf img t true g)
      | 4 => -(scOf img t true f)
      | 5 => -(scOf img t false g)
      | 6 => scOf img t false f
      | _ => scOf img t true g

/-- Special results (R157): `made` marks a NaN or NaR the function creates, `infin` an infinity from a finite operand. -/
structure Spec where
  v : Val
  made : Bool := false
  infin : Bool := false
deriving DecidableEq, Repr

/-- R157's table; none where the input is an ordinary argument. -/
def specialOf (gfn : Nat) (x : Val) : Option Spec :=
  match x with
  | .nan | .nar => some { v := x }
  | .zero s => match gfn with
    | 0x00 | 0x01 | 0x0F => some { v := .fin 1 }
    | 0x02 | 0x03 => some { v := .inf true, infin := true }
    | 0x04 | 0x06 => some { v := .inf s, infin := true }
    | 0x08 => some { v := .fin (1 / 2) }
    | 0x0C => some { v := .fin cLn2 }
    | _ => some { v := .zero s }
  | .inf s => match gfn, s with
    | 0x00, false | 0x01, false | 0x02, false | 0x03, false | 0x05, false | 0x0C, false
    | 0x09, false | 0x0A, false | 0x0B, false => some { v := .inf false }
    | 0x00, true | 0x01, true | 0x08, true | 0x0C, true | 0x04, false | 0x06, false => some { v := .zero false }
    | 0x04, true | 0x09, true | 0x0A, true | 0x0B, true => some { v := .zero true }
    | 0x07, _ | 0x0D, _ => some { v := .fin (if s then -1 else 1) }
    | 0x08, false => some { v := .fin 1 }
    | _, _ => some { v := .nan, made := true }
  | .fin q =>
    if q < 0 ∧ (gfn = 0x02 ∨ gfn = 0x03 ∨ gfn = 0x05 ∨ gfn = 0x06) then some { v := .nan, made := true }
    else if (gfn = 0x0E ∨ gfn = 0x0F) ∧ 2 ^ 20 ≤ absR q then some { v := .nan, made := true }
    else none

/-- Deliver a glaze result in the output format (R149, R157). -/
def glzOut (ofmt : Fmt) (s : Spec) : Made :=
  match s.v with
  | .nan | .nar =>
    let c := if ofmt.isPosit then 2 ^ (ofmt.bits - 1) else canonNan ofmt
    if s.made then
      { code := c, flags := flagInv ||| flagIf ofmt.isPosit flagNar, op := some 8 }
    else { code := c }
  | .inf _ =>
    if ofmt.isPosit then { code := 2 ^ (ofmt.bits - 1), flags := flagInv ||| flagNar, op := some 8 }
    else { encodeVal ofmt rneCtl s.v with flags := flagIf s.infin flagOvf }
  | v => encodeVal ofmt rneCtl v

/-- A G1 entry: C0, C1, C2 (R168). -/
def g1Value (img : Nat → Byte) (slot i T b : Nat) : Rat :=
  let e := imgBe img (128 + 1024 * slot + 4 * i) 4
  let nib := (img (36 + 12 * slot + b / 2)).toNat
  let x := signedOf 4 (if b % 2 = 0 then nib / 16 else nib % 16)
  let a1 := signedOf 11 (bits e 5 11) + asr (signedOf 5 (bits e 0 5) * T) 10
  let a0 := (bits e 16 16 : Int) + asr (a1 * T) 10
  (a0 : Rat) * pow2 (x - 15)

def splitG1 (n : Nat) (f : Rat) : Nat × Nat :=
  let v := (f * ((2 ^ (n + 10) : Nat) : Rat)).floor.toNat
  (v / 2 ^ 10, v % 2 ^ 10)

/-- The fixed slot of a function's table in a G1 image (R171). -/
def g1Slot (gfn : Nat) : Option Nat :=
  match gfn with
  | 0x00 | 0x01 => some 0
  | 0x04 => some 1
  | 0x06 => some 2
  | 0x07 => some 3
  | 0x08 => some 4
  | 0x09 => some 5
  | 0x0B => some 6
  | _ => none

/-- A G1 function of a finite non-zero argument (R168). -/
def g1Real (img : Nat → Byte) (gfn : Nat) (x : Rat) : Rat :=
  let a := absR x
  let neg := decide (x < 0)
  let sg (v : Rat) : Rat := if neg then -v else v
  let small := decide (a < pow2 (-8))
  let big := decide (pow2 8 ≤ a)
  let s := (g1Slot gfn).getD 0
  let e := floorLog2 a
  let p4 := splitG1 4 (a / pow2 e - 1)
  let y := g1Value img s (16 * (e + 8).toNat + p4.1) p4.2 (e + 8).toNat
  let ex (z : Rat) : Rat :=
    let n := z.floor
    let p := splitG1 8 (z - (n : Rat))
    pow2 n * g1Value img 0 p.1 p.2 0
  let k := e / 2
  let h := if 2 ≤ a / pow2 (2 * k) then 1 else 0
  let p7 := splitG1 7 (a / pow2 e - 1)
  let rs := g1Value img s (128 * h + p7.1) p7.2 0
  match gfn with
  | 0x00 => ex (x * mkRat 0x5C55 (2 ^ 14))
  | 0x01 => ex x
  | 0x04 => sg (pow2 (-2 * k) * rs)
  | 0x06 => pow2 (-k) * rs
  | 0x07 => if small then x else if big then sg 1 else sg y
  | 0x08 => if small then 1 / 2 + x / 4 else if big then (if neg then 0 else 1) else if neg then 1 - y else y
  | _ => if small then x / 2 else if big then (if neg then 0 else x) else if neg then x * (1 - y) else x * y

/-- A glaze bank's image bytes. -/
def GBank.byte (b : GBank) (i : Nat) : Byte := if b.flash then Config.flashGlaze i else sget zeroByte b.img i

/-- The large-argument rule of SIGMOID and SOFTPLUS for x < 0 comes to 0: a clamped table whose last value leaves nothing below it
(R155: 1 - ENDV for SIGMOID, ENDV for SOFTPLUS), so that the positive e^-a may not be delivered beside it (R154). -/
def edgeZero (img : Nat → Byte) (t : GTab) (gfn : Nat) (x : Rat) : Bool :=
  t.mono && decide (x ≤ -(pow2 8)) &&
  ((decide (gfn = 0x08) && decide (1 ≤ endVal img t)) || (decide (gfn = 0x0C) && decide (endVal img t ≤ 0)))

/-- One elementwise result (R149, R157, R168). A native function without its table does not execute (`glzRefuse`). -/
def glzElem (b : GBank) (gfn : Nat) (ofmt : Fmt) (x : Val) : Made :=
  match specialOf gfn x with
  | some s => glzOut ofmt s
  | none =>
    let q := x.real
    let out (r : Rat) : Made :=
      if r = 0 then encodeVal ofmt rneCtl (.zero (b.fmt = 2 && q < 0 && (gfn = 0x09 || gfn = 0x0B)))
      else glzOut ofmt { v := .fin r }
    if b.fmt = 2 then out (g1Real b.byte gfn q)
    else match tableSlot b.byte (tableOf gfn) with
      | some s =>
        let t := gtab b.byte s
        if edgeZero b.byte t gfn q then { code := 0, flags := flagUnf ||| flagInx } else out (nativeReal b.byte t gfn q)
      | none => out 0

/-- The row maximum and its position (R161, R44). -/
def rowMax (xs : List Val) : Val × Nat :=
  match xs.zipIdx.find? (fun x => x.1 = .nan || x.1 = .nar) with
  | some x => x
  | none => xs.zipIdx.foldl (fun (a : Val × Nat) x => if x.2 = 0 then x else if selLt a.1 x.1 then x else a) (.zero false, 0)

def hasNan (xs : List Val) : Bool := xs.any (fun x => x = .nan || x = .nar)
def hasInf (xs : List Val) : Bool := xs.any (fun x => match x with | .inf _ => true | _ => false)

def nanOut (ofmt : Fmt) (made : Bool) : Made := glzOut ofmt { v := .nan, made := made }

/-- binary32 (or, in G1 mode, binary16) rounding of a real. -/
def roundReal (f : Fmt) (q : Rat) : Made := encodeVal f rneCtl (Val.ofRat q)

/-- SOFTMAX of a row (R162, R168). -/
def softmax (b : GBank) (ofmt : Fmt) (xs : List Val) : List Made × Flg :=
  let posInf := xs.any (fun x => x = .inf false)
  let m := (rowMax xs).1
  if hasNan xs then (xs.map (fun _ => nanOut ofmt false), 0)
  else if posInf || m = .inf true then (xs.map (fun _ => nanOut ofmt true), 0)
  else
    let f : Fmt := if b.fmt = 2 then .bin16 else .bin32
    let es := xs.map (fun x => match x with
      | .inf _ => ({ code := 0 } : Made)
      | v =>
        let d := keepBits 40 (Config.glazeRound 0x11 0) (v.real - m.real)
        if d = 0 then roundReal f 1 else glzElem b 0x00 f (.fin d))
    let vs := es.map (fun e => (decodeVal f e.code).1.real)
    let sum := vs.foldl (· + ·) 0
    let fl := madeFlags es
    if b.fmt = 2 then
      let s16 := roundReal .bin16 sum
      let r := glzElem b 0x04 .bin16 (decodeVal .bin16 s16.code).1
      let rv := (decodeVal .bin16 r.code).1.real
      (vs.map (fun e => roundReal .bin16 (e * rv)), fl ||| s16.flags ||| r.flags)
    else (vs.map (fun e => roundReal ofmt (e / sum)), fl)

/-- NORMSTAT and RMSSTAT of a row (R163, R168): G1 rounds the mean, the variance and the mean square to binary16; the sum with
ε stays R163's binary32. -/
def rowStat (b : GBank) (rms : Bool) (ofmt : Fmt) (eps : Nat) (xs : List Val) : List Made × Flg :=
  let n := if rms then 1 else 2
  if hasNan xs then (List.replicate n (nanOut ofmt (hasInf xs)), 0)
  else if hasInf xs then (List.replicate n (nanOut ofmt true), 0)
  else
    let l : Rat := (xs.length : Rat)
    let s1 := xs.foldl (fun a x => a + x.real) 0
    let s2 := xs.foldl (fun a x => a + x.real * x.real) 0
    let f : Fmt := if b.fmt = 2 then .bin16 else .bin32
    let v := roundReal f (if rms then s2 / l else (l * s2 - s1 * s1) / (l * l))
    let e := (decodeVal .bin32 eps).1.real
    let ve : Made := match (decodeVal f v.code).1 with
      | .inf s => { code := signBit .bin32 s + infCode .bin32 }
      | x => roundReal .bin32 (x.real + e)
    let r := glzElem b 0x06 ofmt (decodeVal .bin32 ve.code).1
    let mean := roundReal ofmt (s1 / l)
    ((if rms then [r] else [mean, r]), v.flags ||| ve.flags)

/-- R148, R167: whether the bank can perform the function; the cause of R183 when it cannot. -/
def glzRefuse (b : GBank) (f : GlzF) : Nat :=
  let g := f.gfn.toNat
  if b.fmt = 2 then
    let ok := (g1Slot g).isSome || (0x10 ≤ g && g ≤ 0x13)
    if ok && f.ifmt.toNat = 5 && f.ofmt.toNat = 5 then 0 else 2
  else if g = 0x10 then 0
  else if (tableSlot b.byte (tableOf g)).isSome then 0 else 1

/-- Elements of a glaze instruction, its row length, elements of one row or all. -/
def glzRow (f : GlzF) : Nat := f.len.toNat + 1
def glzTotal (f : GlzF) : Nat := if 0x10 ≤ f.gfn.toNat then glzRow f * f.count.toNat else f.count.toNat

/-- Elements of the next vector (R159): of a row's pass 2 or 3 (R162), of the row being taken, or of the rest. -/
def glzVec (r : GlzRun) : Nat :=
  if r.pass ≠ 0 then min 32 (glzRow r.f - r.lane)
  else if 0x10 ≤ r.f.gfn.toNat then min 32 (glzRow r.f - r.row.length) else min 32 (glzTotal r.f - r.elems)

/-- Slots of shared evaluators that the next vector takes: 8 lanes each (R164). -/
def glzSlots (r : GlzRun) : Nat := (glzVec r + 7) / 8

/-- The next vector delivers results: every elementwise vector, pass 3 of SOFTMAX, the last vector of another row. -/
def glzDelivers (r : GlzRun) : Bool :=
  decide (r.f.gfn.toNat < 0x10) || decide (r.pass = 2) ||
  (decide (r.pass = 0) && decide (r.f.gfn.toNat ≠ 0x11) && decide (glzRow r.f ≤ r.row.length + glzVec r))

/-- The next vector is the first of a row (R166). -/
def glzBegins (r : GlzRun) : Bool := decide (0x10 ≤ r.f.gfn.toNat) && decide (r.pass = 0) && r.row.isEmpty

/-- The row unit holds 4 rows (R166). -/
def rowUnitFull (c : Cluster) : Bool := decide (4 ≤ c.rowsOut.length)

/-- The kc from the entry of a row's last vector, in its last pass, to its last result (R166). -/
def rowLag (b : GBank) (g : Nat) : Nat :=
  if g = 0x10 then 6 else if g = 0x11 then (if b.fmt = 2 then 15 else 12) else 30

/-- The position in its row of the element a row's creation comes from (R158, R161 to R163, DEDUCED): the maximum of ROWMAX, the
first +infinity of SOFTMAX (the first element of a row made only of -infinity), the first infinity of the others. -/
def rowCause (g : Nat) (xs : List Val) : Nat :=
  if g = 0x10 then (rowMax xs).2
  else if g = 0x11 then (xs.findIdx? (fun x => x = .inf false)).getD 0
  else (xs.findIdx? (fun x => match x with | .inf _ => true | _ => false)).getD 0

/-- A row's creation as a trap (R158). -/
def rowTrap (task step first pos : Nat) (ms : List Made) : List Act :=
  match ms.findSome? (fun m => m.op) with
  | some op => [.trap .glaze op 0 0 (pos % 32) task step (first + pos)]
  | none => []

/-- A row that goes to the store converter through descriptor `desc`, its elements in format `src` (R149). -/
def glzConv (r : GlzRun) (desc : Nat) (src : Fmt) (ms : List Made) : ConvRow :=
  { desc := desc, src := src, round := false, elems := ms.map (fun m => ((decodeVal src m.code).1, m.code))
    task := r.task, step := r.step, slot := if r.spec then some r.slot else none }

/-- The instruction after a vector: `last` once its last vector has entered (R165). -/
def glzNext (r : GlzRun) (last : Bool) : Option GlzRun := if last then none else some r

/-- A vector of pass 2 or 3 of a SOFTMAX row enters (R162): the end of pass 2 has formed S, pass 3 delivers. -/
def passEntry (c : Cluster) (r : GlzRun) : Cluster × List Act :=
  let ifmt := (fmtOf r.f.ifmt.toNat).getD .bin32
  let ofmt := (fmtOf r.f.ofmt.toNat).getD .bin32
  let b := c.gbank (r.bank.getD c.gactive)
  let n := glzVec r
  let ends := decide (glzRow r.f ≤ r.lane + n)
  let vs := r.row.map (fun x => (decodeVal ifmt x).1)
  let out := softmax b ofmt vs
  if r.pass = 1 then
    ({ c with glz := some (if ends then { r with pass := 2, lane := 0 } else { r with lane := r.lane + n }) },
      if ends then [.flags out.2] else [])
  else
    let ms := (out.1.drop r.lane).take n
    let first := r.elems - glzRow r.f
    let after : GlzRun := if ends then { r with pass := 0, lane := 0, row := [] } else { r with lane := r.lane + n }
    ({ c with conv := c.conv ++ [glzConv r r.f.desc.toNat ofmt ms]
              rowsOut := if ends then c.rowsOut ++ [rowLag b 0x11] else c.rowsOut
              glz := glzNext after (ends && decide (glzTotal r.f ≤ r.elems)) },
      [.flags (madeFlags ms), .count64 0x320 n] ++
      if r.lane = 0 then rowTrap r.task r.step first (rowCause 0x11 vs) out.1 else [])

/-- The results of a whole row of ROWMAX, NORMSTAT or RMSSTAT: what goes to the converter, the results, the inner flags. -/
def rowResults (b : GBank) (r : GlzRun) (all : List Nat) : List ConvRow × List Made × Flg :=
  let ifmt := (fmtOf r.f.ifmt.toNat).getD .bin32
  let ofmt := (fmtOf r.f.ofmt.toNat).getD .bin32
  let g := r.f.gfn.toNat
  let vs := all.map (fun x => (decodeVal ifmt x).1)
  if g = 0x10 then
    let m := rowMax vs
    let v : Made := if ifmt = ofmt then { code := all.getD m.2 0 } else glzOut ofmt { v := m.1 }
    ([glzConv r r.f.desc.toNat ofmt [v], glzConv r r.f.idesc.toNat .int32 [{ code := m.2 }]], [v, { code := m.2 }], 0)
  else
    let s := rowStat b (decide (g = 0x13)) ofmt r.f.eps.toNat vs
    ([glzConv r r.f.desc.toNat ofmt s.1], s.1, s.2)

/-- Queued elements `xs` enter as a vector, in the bound bank (R159 to R163). -/
def elemsEntry (c : Cluster) (r : GlzRun) (xs : List Nat) : Cluster × List Act :=
  let ifmt := (fmtOf r.f.ifmt.toNat).getD .bin32
  let b := c.gbank (r.bank.getD c.gactive)
  let g := r.f.gfn.toNat
  let elems := r.elems + xs.length
  let last := decide (glzTotal r.f ≤ elems)
  if g < 0x10 then
    let ofmt := (fmtOf r.f.ofmt.toNat).getD .bin32
    let ms := xs.map (fun x => glzElem b g ofmt (decodeVal ifmt x).1)
    ({ c with conv := c.conv ++ [glzConv r r.f.desc.toNat ofmt ms], glz := glzNext { r with elems := elems } last },
      [.flags (madeFlags ms), .count64 0x320 ms.length] ++ convTrap .glaze r.task r.step r.elems ms)
  else
    let all := r.row ++ xs
    if all.length < glzRow r.f then ({ c with glz := some { r with elems := elems, row := all } }, [])
    else if g = 0x11 then ({ c with glz := some { r with elems := elems, row := all, pass := 1, lane := 0 } }, [])
    else
      let out := rowResults b r all
      let first := elems - glzRow r.f
      ({ c with conv := c.conv ++ out.1, rowsOut := c.rowsOut ++ [rowLag b g]
                glz := glzNext { r with elems := elems, row := [] } last },
        [.flags (madeFlags out.2.1 ||| out.2.2), .count64 0x320 out.2.1.length] ++
        rowTrap r.task r.step first (rowCause g (all.map (fun x => (decodeVal ifmt x).1))) out.2.1)

/-- A vector enters the glaze unit (R159 to R164); results go to the store converter (R149), which must have room (R185); the
first of a row waits while the row unit holds 4 rows (R166). The first vector binds the active bank (R175); a function or format that
bank cannot perform does not execute (R167, R182). -/
def vectorEntry (c : Cluster) : Option (Cluster × List Act) :=
  match c.glz with
  | none => none
  | some r =>
    if (glzDelivers r && !convRoom c) || (glzBegins r && rowUnitFull c) then none
    else if r.pass ≠ 0 then some (passEntry c r)
    else
      match c.popFor r.f.sa.toNat (glzVec r) 4 with
      | none => none
      | some (xs, c1, a) =>
        let cause := if r.bank.isNone then glzRefuse (c.gbank c.gactive) r.f else 0
        if cause ≠ 0 then some ({ c with glz := none }, [.glaze cause r.f.gfn.toNat r.task 4, .stop 5])
        else
          let u := elemsEntry c1 { r with bank := some (r.bank.getD c.gactive) } xs
          some (u.1, a ++ u.2)

/-- R172: the check of an image in a bank; `crc` is CRC-32C of bytes 32 to 8,319. Answers 1 native, 2 G1, 0 failed. -/
def imageCheck (img : Nat → Byte) (crc : Nat) : Nat :=
  let magic := imgBe img 0 4
  if magic = 0x474C5A4E then
    let codes := (List.range 4).map (fun s => (img (32 + 24 * s)).toNat)
    let used := codes.filter (fun c => c ≠ 0)
    let okTab (s : Nat) : Bool :=
      let code := codes.getD s 0
      let t := gtab img s
      let indexed := decide (4 ≤ code ∧ code ≤ 8)
      let val (i : Nat) : Rat :=
        if i = 256 then weigh t.endv (oexp img s (if indexed then 15 else 0))
        else weigh (c0Of (gEntry img s i)) (oexp img s (binadeOf code i))
      let ordered := (List.range 256).all (fun i => if t.dir then decide (val (i + 1) ≤ val i) else decide (val i ≤ val (i + 1)))
      let shift := (List.range 255).all (fun i =>
        let b := binadeOf code i
        let b' := binadeOf code (i + 1)
        b = b' || (let d := oexp img s b' - oexp img s b
          0 ≤ d || c0Of (gEntry img s (i + 1)) % 2 ^ (-d).toNat = 0))
      decide (code ≤ 9) &&
      (code = 0 || indexed || (List.range 16).all (fun b => img (40 + 24 * s + b) = 0)) &&
      (code = 0 || !t.mono || (ordered && shift))
    if imgLe img 4 2 = 1 ∧ imgLe img 16 4 = crc ∧ decide used.Nodup ∧ (List.range 4).all okTab then 1 else 0
  else if magic = 0x47315442 then
    let codes := (List.range 8).map (fun s => (img (32 + 12 * s)).toNat)
    if imgBe img 16 4 = crc ∧ codes = [0x81, 0x82, 0x83, 0x84, 0x85, 0x86, 0x87, 0] ∧
        (List.range 3).all (fun s => (List.range 8).all (fun i => img (36 + 12 * s + i) = 0)) then 2
    else 0
  else 0

/-- IMAGE_ID of a bank (R170, R171). -/
def GBank.imgId (b : GBank) : Nat := if b.fmt = 0 then 0 else if b.fmt = 2 then imgBe b.byte 8 8 else imgLe b.byte 8 8

end Sys2Proof.Machine
end

