-- ==== Sys2Proof/Machine/RegMap.lean ====
section
/-! DEFINITION. The register map (20_register_reference.md, R458 to R462): windows, registers, fields, access types (R12),
reset classes (R461) and reset values, as the chapters' register tables give them. -/

namespace Sys2Proof.Machine

/-- The windows of R458. -/
inductive Win where
  | global
  | ration
  | mgmt
  | ring (r : Nat)
  | check (u : Nat)
  | service
  | security
  | events
  | power
  | port (p : Nat)
  | caravan
  | tether
  | stack (k : Nat)
  | cluster (n : Nat)
  | engine (e : Nat)
deriving DecidableEq, Repr

/-- Access types (R12). -/
inductive Acc where
  | ro
  | rw
  | w1c
  | rws
  | wo
  | rwa
deriving DecidableEq, Repr

/-- Reset classes: `zero`, `keep`, `por` and `itin` are the codes 0, K, L and I of R461, `warm` is GLB_FLAGS's own
(R457), `hw` is H: the value is set by hardware. -/
inductive RClass where
  | zero
  | keep
  | por
  | itin
  | warm
  | hw
deriving DecidableEq, Repr

/-- A register field: lowest bit, width, access, reset class, value at power-on. -/
structure Fld where
  lo : Nat
  len : Nat
  acc : Acc
  cls : RClass
  init : Nat := 0
deriving DecidableEq, Repr

/-- The base of a window (R458). -/
def Win.base : Win → Nat
  | .global => 0
  | .ration => 0x1000
  | .mgmt => 0x100000
  | .ring r => 0x102000 + 0x40 * r
  | .check u => 0x103000 + 0x40 * u
  | .service => 0x104000
  | .security => 0x105000
  | .events => 0x106000
  | .power => 0x200000
  | .port p => 0x400000 + 0x10000 * p
  | .caravan => 0x500000
  | .tether => 0x600000
  | .stack k => 0x800000 + 0x20000 * k
  | .cluster n => 0x1000000 + 0x100000 * (n / 128) + 0x1000 * (n % 128)
  | .engine e => 0x1000000 + 0x100000 * e + 0x80000

/-- The window an address lies in (R458). -/
def winOf (a : Nat) : Option Win :=
  if a < 0x1000 then some .global
  else if a < 0x2000 then some .ration
  else if 0x100000 ≤ a ∧ a < 0x101000 then some .mgmt
  else if 0x102000 ≤ a ∧ a < 0x102400 then some (.ring ((a - 0x102000) / 0x40))
  else if 0x103000 ≤ a ∧ a < 0x103400 then some (.check ((a - 0x103000) / 0x40))
  else if 0x104000 ≤ a ∧ a < 0x105000 then some .service
  else if 0x105000 ≤ a ∧ a < 0x106000 then some .security
  else if 0x106000 ≤ a ∧ a < 0x107000 then some .events
  else if 0x200000 ≤ a ∧ a < 0x201000 then some .power
  else if 0x400000 ≤ a ∧ a < 0x500000 then some (.port ((a - 0x400000) / 0x10000))
  else if 0x500000 ≤ a ∧ a < 0x501000 then some .caravan
  else if 0x600000 ≤ a ∧ a < 0x601000 then some .tether
  else if 0x800000 ≤ a ∧ a < 0x900000 then some (.stack ((a - 0x800000) / 0x20000))
  else if 0x1000000 ≤ a ∧ a < 0x2000000 then
    let e := (a - 0x1000000) / 0x100000
    let o := a % 0x100000
    if o < 0x80000 then some (.cluster (128 * e + o / 0x1000))
    else if o < 0x81000 then some (.engine e) else none
  else none

/-- One field that takes a whole register. -/
def whole (acc : Acc) (cls : RClass) (init : Nat := 0) : List Fld := [⟨0, 32, acc, cls, init⟩]

/-- ARM_CTL (R284). -/
def armCtl : List Fld :=
  [⟨0, 1, .wo, .zero, 0⟩, ⟨1, 1, .wo, .zero, 0⟩, ⟨2, 1, .ro, .zero, 0⟩, ⟨3, 1, .w1c, .zero, 0⟩,
   ⟨4, 1, .w1c, .zero, 0⟩, ⟨5, 2, .ro, .zero, 0⟩, ⟨7, 1, .rw, .zero, 0⟩]

/-- A record register whose VALID is bit [0] and the rest of whose given bits are RO (R209). -/
def record (n : Nat) : List Fld := [⟨0, 1, .w1c, .keep, 0⟩, ⟨1, n - 1, .ro, .keep, 0⟩]

def fldsGlobal (g : Grade) (o : Nat) : List Fld :=
  if o = 0x000 then whole .ro .hw
  else if 0x100 ≤ o ∧ o ≤ 0x10C then whole .rwa .keep
  else if o = 0x200 then [⟨0, 2, .ro, .hw, 0⟩, ⟨2, 2, .rws, .por, 0⟩]
  else if 0x300 ≤ o ∧ o < 0x340 then whole .ro .zero
  else if 0x340 ≤ o ∧ o < 0x360 then whole .ro .keep
  else if o = 0x380 then [⟨0, 8, .rw, .zero, 0⟩]
  else if o = 0x384 then [⟨0, 27, .ro, .zero, 0⟩]
  else if o = 0x400 ∨ o = 0x404 then whole .ro .keep
  else if o = 0x408 then whole .rw .keep
  else if o = 0x40C then record 32
  else if o = 0x500 then [⟨0, 6, .rw, .zero, 0⟩]
  else if 0x504 ≤ o ∧ o ≤ 0x514 then whole .ro .hw
  else if o = 0x518 then record 32
  else if o = 0x600 then
    [⟨0, 1, .rw, .por, if g = .xa1792 then 1 else 0⟩, ⟨1, 5, .ro, .hw, 0⟩]
  else if o = 0x604 then whole .ro .zero
  else if o = 0x608 then whole .rw .zero
  else if o = 0x700 then
    [⟨0, 2, .rw, .keep, 0⟩, ⟨2, 4, .rw, .keep, 0⟩, ⟨6, 1, .rw, .keep, 0⟩, ⟨8, 8, .rw, .keep, 0x10⟩]
  else if o = 0x704 then [⟨0, 21, .ro, .zero, 0⟩]
  else if o = 0x708 then record 32
  else if 0x70C ≤ o ∧ o ≤ 0x718 then whole .ro .keep
  else if 0x71C ≤ o ∧ o ≤ 0x724 then whole .rw .zero
  else if o = 0x800 then [⟨0, 7, .w1c, .warm, 0⟩]
  else if o = 0xFF0 then armCtl
  else []

def fldsRation (o : Nat) : List Fld :=
  if o = 0x000 then whole .rwa .keep (Config.flashRation 0).toNat
  else if o = 0x004 then [⟨0, 16, .ro, .zero, 0⟩]
  else if o = 0x008 then [⟨0, 24, .rwa, .keep, (Config.flashRation 8).toNat % 2 ^ 24⟩]
  else if o = 0x00C then whole .rw .zero
  else if 0x040 ≤ o ∧ o < 0x068 then [⟨0, 16, .rwa, .keep, (Config.flashRation o).toNat % 2 ^ 16⟩]
  else if 0x080 ≤ o ∧ o < 0x0A8 then [⟨0, 16, .ro, .zero, 0⟩]
  else if 0x0C0 ≤ o ∧ o < 0x0E8 then whole .rw .zero
  else if 0x200 ≤ o ∧ o < 0xA00 then whole .rwa .keep (Config.flashRation o).toNat
  else if o = 0xFF0 then armCtl
  else []

def fldsRing (o : Nat) : List Fld :=
  if o = 0x00 then
    [⟨0, 1, .rws, .keep, 0⟩, ⟨1, 4, .rws, .keep, 4⟩, ⟨5, 1, .rws, .keep, 0⟩, ⟨6, 1, .wo, .zero, 0⟩]
  else if 0x04 ≤ o ∧ o ≤ 0x10 then whole .rws .keep
  else if o = 0x14 then whole .rw .keep
  else if o = 0x18 ∨ o = 0x1C then whole .ro .keep
  else if o = 0x20 then whole .rws .keep
  else if o = 0x24 then
    [⟨0, 1, .ro, .keep, 0⟩, ⟨1, 2, .ro, .keep, 0⟩, ⟨3, 3, .ro, .zero, 0⟩, ⟨6, 1, .w1c, .zero, 0⟩]
  else []

def fldsCheck (o : Nat) : List Fld :=
  if o = 0x00 then
    [⟨0, 1, .rw, .keep, 0⟩, ⟨1, 1, .rw, .keep, 0⟩, ⟨2, 1, .wo, .zero, 0⟩, ⟨3, 1, .wo, .zero, 0⟩]
  else if o = 0x04 then
    [⟨0, 1, .ro, .zero, 0⟩, ⟨1, 1, .ro, .keep, 0⟩, ⟨2, 1, .w1c, .keep, 0⟩, ⟨3, 1, .w1c, .zero, 0⟩]
  else if 0x08 ≤ o ∧ o ≤ 0x10 then whole .wo .zero
  else if 0x14 ≤ o ∧ o ≤ 0x20 then whole .rw .keep
  else if 0x24 ≤ o ∧ o ≤ 0x2C then whole .ro .keep
  else []

def fldsService (o : Nat) : List Fld :=
  if o = 0x00 then
    [⟨0, 4, .wo, .zero, 0⟩, ⟨4, 1, .rws, .keep, 0⟩, ⟨5, 1, .rws, .keep, 0⟩, ⟨6, 1, .rws, .keep, 1⟩,
     ⟨7, 1, .rw, .zero, 0⟩]
  else if o = 0x04 then
    [⟨0, 7, .ro, .zero, 0⟩, ⟨7, 1, .w1c, .zero, 0⟩, ⟨8, 1, .ro, .zero, 0⟩, ⟨9, 1, .ro, .hw, 0⟩,
     ⟨10, 1, .w1c, .zero, 0⟩]
  else if o = 0x08 ∨ o = 0x0C then whole .rws .keep
  else if o = 0x10 then [⟨0, 16, .rws, .keep, 10000⟩]
  else if o = 0x14 then [⟨0, 16, .ro, .hw, 0⟩]
  else if o = 0x18 then [⟨0, 17, .w1c, .por, 0⟩]
  else if 0x40 ≤ o ∧ o < 0x80 then whole .ro .por
  else if o = 0x80 then whole .ro .por 1
  else if o = 0x84 then [⟨0, 5, .rw, .zero, 0⟩]
  else if o = 0x88 then whole .ro .hw
  else []

def fldsSecurity (o : Nat) : List Fld :=
  if o = 0x00 then [⟨0, 11, .ro, .hw, 0⟩, ⟨11, 1, .w1c, .zero, 0⟩]
  else if o = 0x04 then whole .ro .hw
  else if o = 0x08 then [⟨0, 1, .rws, .keep, 0⟩, ⟨1, 1, .rws, .keep, 0⟩]
  else if 0x10 ≤ o ∧ o < 0x40 then whole .rws .keep
  else if o = 0x40 then [⟨0, 3, .rw, .zero, 0⟩]
  else if 0x44 ≤ o ∧ o < 0x74 then whole .ro .keep
  else if o = 0x74 then whole .rw .keep
  else []

/-- Default routes of the events of EVT_ROUTEi (R447): bits R 1, I 2, P 4, S 8. -/
def routeDefault (i : Nat) : Nat :=
  match i with
  | 0 => 0x33331333
  | 1 => 0x13171131
  | 2 => 0x733F1317
  | 3 => 0x13311333
  | 4 => 0x7FD31573
  | _ => 0x55F7F7

def fldsEvents (o : Nat) : List Fld :=
  if o = 0x00 then [⟨0, 1, .rws, .keep, 0⟩, ⟨1, 4, .rws, .keep, 6⟩, ⟨5, 1, .w1c, .zero, 0⟩]
  else if o = 0x04 then [⟨12, 20, .rws, .keep, 0⟩]
  else if o = 0x08 then whole .rws .keep
  else if o = 0x0C then whole .ro .keep
  else if o = 0x10 then whole .rw .keep
  else if o = 0x14 then whole .ro .keep
  else if o = 0x18 then whole .rw .keep
  else if o = 0x1C then [⟨0, 9, .ro, .keep, 0⟩]
  else if o = 0x20 then [⟨0, 1, .w1c, .keep, 0⟩, ⟨16, 16, .ro, .keep, 0⟩]
  else if 0x40 ≤ o ∧ o < 0x54 then whole .rws .keep (routeDefault ((o - 0x40) / 4))
  else if o = 0x54 then [⟨0, 24, .rws, .keep, routeDefault 5⟩]
  else if 0x104 ≤ o ∧ o ≤ 0x144 then whole .ro .hw
  else if 0x184 ≤ o ∧ o ≤ 0x1C4 then whole .rws .keep
  else []

def fldsPower (g : Grade) (o : Nat) : List Fld :=
  let max := if g = .xa2048 then 1000 else 760
  if o = 0x00 then [⟨0, 1, .ro, .keep, 0⟩, ⟨1, 3, .ro, .zero, 0⟩, ⟨4, 4, .ro, .keep, 0⟩]
  else if o = 0x04 then [⟨0, 1, .wo, .zero, 0⟩, ⟨8, 8, .wo, .zero, 0⟩]
  else if o = 0x08 then [⟨0, 2, .ro, .hw, 0⟩]
  else if o = 0x0C then [⟨0, 16, .rwa, .keep, if g = .xa2048 then 850 else 760⟩]
  else if o = 0x10 then [⟨0, 16, .ro, .zero, max⟩, ⟨16, 3, .ro, .zero, 0⟩, ⟨19, 5, .ro, .zero, 16⟩]
  else if o = 0x14 then [⟨0, 24, .ro, .zero, 0⟩]
  else if o = 0x18 then whole .rw .por
  else if o = 0x1C ∨ o = 0x20 then whole .ro .hw
  else if o = 0x24 ∨ o = 0x28 then [⟨0, 16, .ro, .hw, 0⟩]
  else if o = 0x2C then whole .ro .hw
  else if o = 0x30 then [⟨0, 2, .ro, .keep, 0⟩]
  else if o = 0x34 then [⟨0, 16, .wo, .zero, 0⟩]
  else if 0x40 ≤ o ∧ o ≤ 0x54 then whole .ro .hw
  else if o = 0xFF0 then armCtl
  else []

def fldsPort (o : Nat) : List Fld :=
  if o = 0x00 then [⟨0, 6, .ro, .keep, 0⟩]
  else if o = 0x04 then [⟨0, 1, .rw, .keep, 1⟩, ⟨1, 2, .wo, .zero, 0⟩]
  else if o = 0x08 then [⟨0, 14, .ro, .zero, 0⟩]
  else if o = 0x0C then [⟨0, 16, .ro, .zero, 0⟩]
  else if o = 0x10 then [⟨0, 16, .rw, .por, 0⟩]
  else if 0x14 ≤ o ∧ o ≤ 0x20 then whole .rw .keep
  else []

def fldsCaravan (o : Nat) : List Fld :=
  if o = 0x00 then [⟨0, 17, .ro, .zero, 0⟩]
  else if 0x04 ≤ o ∧ o ≤ 0x08 then whole .ro .zero
  else if 0x0C ≤ o ∧ o ≤ 0x10 then whole .ro .keep
  else if o = 0x14 then [⟨0, 16, .ro, .zero, 0⟩]
  else if 0x18 ≤ o ∧ o ≤ 0x24 then whole .rw .zero
  else if o = 0x28 then record 23
  else if o = 0x2C then [⟨0, 20, .ro, .keep, 0⟩]
  else if o = 0x30 then record 18
  else []

def fldsTether (o : Nat) : List Fld :=
  if o = 0x00 then [⟨0, 2, .ro, .keep, 0⟩, ⟨2, 1, .w1c, .keep, 0⟩]
  else if o = 0x04 then [⟨0, 11, .ro, .hw, 0⟩]
  else if 0x08 ≤ o ∧ o ≤ 0x10 then whole .rw .keep
  else if o = 0x14 then record 6
  else if o = 0x18 then whole .ro .keep
  else if o = 0x1C then [⟨0, 11, .ro, .keep, 0⟩]
  else if o = 0x20 then whole .rws .keep 0xFFFFFFFF
  else if o = 0x24 then whole .w1c .keep
  else if 0x100 ≤ o ∧ o < 0x300 then
    if o % 16 = 0 ∨ o % 16 = 8 then whole .rws .keep
    else if o % 16 = 4 then [⟨0, 11, .rws, .keep, 0⟩] else []
  else []

def fldsStack (o : Nat) : List Fld :=
  if o = 0x00 then [⟨0, 3, .ro, .hw, 1⟩, ⟨3, 1, .w1c, .keep, 0⟩]
  else if o = 0x04 then [⟨0, 1, .rwa, .keep, 0⟩]
  else if o = 0x08 then [⟨0, 2, .rwa, .keep, 2⟩]
  else if o = 0x0C then [⟨0, 28, .ro, .keep, 0⟩]
  else if 0x10 ≤ o ∧ o ≤ 0x18 then whole .rw .keep
  else if o = 0x1C then record 16
  else if o = 0x20 then [⟨0, 31, .ro, .keep, 0⟩]
  else if o = 0x24 then [⟨0, 16, .rw, .keep, 0x1000⟩]
  else if o = 0x28 ∨ o = 0x2C then whole .rw .keep
  else if o = 0x30 ∨ o = 0x34 then whole .ro .por
  else if o = 0x38 then record 16
  else if o = 0x3C then whole .ro .hw
  else if o = 0xFF0 then armCtl
  else []

def fldsEngine (o : Nat) : List Fld :=
  if o = 0x000 then [⟨0, 7, .w1c, .zero, 0⟩]
  else if o = 0x004 then [⟨0, 7, .rw, .keep, 0⟩]
  else if o = 0x400 then [⟨0, 1, .rw, .keep, 0⟩]
  else if 0x410 ≤ o ∧ o < 0x480 then whole .rw .zero
  else []

def fldsCluster (o : Nat) : List Fld :=
  if o = 0x100 then [⟨0, 7, .w1c, .zero, 0⟩]
  else if o = 0x104 then [⟨0, 1, .rw, .zero, 0⟩, ⟨1, 1, .rw, .zero, 0⟩]
  else if o = 0x108 ∨ o = 0x110 then whole .rw .zero
  else if o = 0x10C ∨ o = 0x114 then [⟨0, 16, .rw, .zero, 0⟩]
  else if o = 0x118 ∨ o = 0x11C then whole .rw .zero
  else if o = 0x120 then record 19
  else if o = 0x124 ∨ o = 0x128 then whole .ro .keep
  else if o = 0x12C then [⟨0, 16, .ro, .keep, 0⟩]
  else if o = 0x130 then whole .ro .keep
  else if o = 0x134 then [⟨0, 8, .ro, .zero, 0⟩]
  else if o = 0x180 then [⟨0, 8, .ro, .zero, 0⟩]
  else if 0x188 ≤ o ∧ o ≤ 0x194 then whole .rw .zero
  else if o = 0x200 then [⟨0, 4, .rwa, .keep, 0⟩, ⟨4, 1, .rwa, .keep, 0⟩, ⟨5, 1, .rwa, .keep, 0⟩]
  else if o = 0x204 then [⟨0, 4, .rw, .zero, 0⟩, ⟨4, 4, .rw, .zero, 0⟩, ⟨8, 5, .rw, .keep, 0⟩]
  else if o = 0x208 ∨ o = 0x20C then whole .rw .keep
  else if o = 0x210 then whole .rw .keep 0xFFFFFFFF
  else if o = 0x214 ∨ o = 0x218 then whole .rw .keep
  else if o = 0x21C then [⟨0, 1, .w1c, .keep, 0⟩, ⟨1, 5, .ro, .keep, 0⟩, ⟨16, 16, .ro, .keep, 0⟩]
  else if o = 0x220 then whole .ro .keep
  else if o = 0x224 then [⟨0, 16, .w1c, .keep, 0⟩]
  else if 0x228 ≤ o ∧ o ≤ 0x234 then whole .rw .hw
  else if 0x240 ≤ o ∧ o < 0x280 then whole .rw .keep
  else if o = 0x300 then [⟨0, 1, .rwa, .keep, 0⟩, ⟨1, 1, .rw, .zero, 0⟩]
  else if o = 0x304 ∨ o = 0x308 ∨ o = 0x30C ∨ o = 0x310 then whole .ro .hw
  else if o = 0x314 then
    [⟨0, 1, .w1c, .keep, 0⟩, ⟨1, 3, .ro, .keep, 0⟩, ⟨8, 5, .ro, .keep, 0⟩, ⟨16, 16, .ro, .keep, 0⟩]
  else if o = 0x318 ∨ o = 0x31C then whole .ro .hw
  else if o = 0x320 ∨ o = 0x324 then whole .rw .zero
  else if o = 0x400 then [⟨0, 3, .rwa, .keep, 2⟩]
  else if o = 0x404 ∨ o = 0x408 then whole .ro .zero
  else if o = 0x40C then [⟨0, 6, .w1c, .zero, 0⟩, ⟨8, 6, .w1c, .zero, 0⟩]
  else if o = 0x410 then [⟨0, 1, .w1c, .keep, 0⟩, ⟨1, 11, .ro, .keep, 0⟩, ⟨16, 16, .ro, .keep, 0⟩]
  else if o = 0x414 then whole .ro .keep
  else if o = 0x418 then [⟨0, 16, .ro, .keep, 0⟩]
  else if o = 0x41C then record 23
  else if o = 0x420 then [⟨0, 19, .ro, .keep, 0⟩]
  else if 0x424 ≤ o ∧ o ≤ 0x42C then whole .rw .zero
  else if o = 0x430 then [⟨0, 4, .w1c, .keep, 0⟩]
  else if o = 0x440 then [⟨0, 6, .rw, .zero, 0⟩]
  else if 0x480 ≤ o ∧ o < 0x4C0 then whole .rw .hw
  else if 0x800 ≤ o ∧ o < 0xA00 then
    if o % 8 = 0 then [⟨0, 5, .rw, .hw, 0⟩, ⟨12, 19, .rw, .hw, 0⟩] else [⟨0, 20, .rw, .hw, 0⟩]
  else if o = 0xA00 then [⟨0, 7, .ro, .itin, 0⟩]
  else if 0xA04 ≤ o ∧ o ≤ 0xA10 then whole .ro .zero
  else if o = 0xA14 ∨ o = 0xA18 then whole .ro .itin
  else if 0xA1C ≤ o ∧ o ≤ 0xA2C then whole .rw .zero
  else if o = 0xA30 then [⟨0, 1, .w1c, .keep, 0⟩, ⟨1, 1, .ro, .keep, 0⟩, ⟨16, 16, .ro, .keep, 0⟩]
  else if 0xB00 ≤ o ∧ o < 0xB50 then whole .ro .hw
  else if o = 0xB50 then record 32
  else if o = 0xFF0 then armCtl
  else []

/-- The fields of the register at an offset of a window; none for an offset that holds no register (R459). -/
def fldsOf (g : Grade) (w : Win) (o : Nat) : List Fld :=
  match w with
  | .global => fldsGlobal g o
  | .ration => fldsRation o
  | .mgmt => if o = 0 then [⟨0, 2, .ro, .hw, 0⟩] else if o = 4 then whole .ro .hw else []
  | .ring _ => fldsRing o
  | .check _ => fldsCheck o
  | .service => fldsService o
  | .security => fldsSecurity o
  | .events => fldsEvents o
  | .power => fldsPower g o
  | .port _ => fldsPort o
  | .caravan => fldsCaravan o
  | .tether => fldsTether o
  | .stack _ => fldsStack o
  | .cluster _ => fldsCluster o
  | .engine _ => fldsEngine o

/-- The value of a register after a power-on reset, from its fields. -/
def fldsInit (fs : List Fld) : Nat :=
  fs.foldl (fun v f => v ||| (f.init % 2 ^ f.len) <<< f.lo) 0

/-- What the register at a management address holds after power-on. -/
def regInit (g : Grade) (a : Nat) : Word :=
  match winOf a with
  | none => 0
  | some w => BitVec.ofNat 32 (fldsInit (fldsOf g w (a - w.base)))

/-- The low words of the pairs that read as one 64-bit value by R11. DESIGN CHOICE (log entry 144): CVN_RBID and TND_DIV_K, which are no
counters, are read so too. -/
def pairLow (w : Win) (o : Nat) : Bool :=
  match w with
  | .global => o = 0x100 || o = 0x108 || o = 0x400 || o = 0x710 || o = 0x720
  | .cluster _ =>
    o = 0x108 || o = 0x110 || o = 0x128 || o = 0x188 || o = 0x190 || o = 0x318 || o = 0x320 || o = 0x414 ||
    o = 0xA14 || o = 0xA28 || (0x800 ≤ o && o < 0xA00 && o % 8 = 0)
  | .engine _ => 0x410 ≤ o && o < 0x480 && o % 8 = 0
  | .stack _ => o = 0x30
  | .check _ => o = 0x14 || o = 0x1C || o = 0x24
  | .caravan => o = 0x04 || o = 0x0C
  | _ => false

end Sys2Proof.Machine
end

