-- ==== Sys2Proof/Machine/ModuleState.lean ====
section
/-! DEFINITION. The state of the module outside clusters and registers: Loess stacks, provisional map, jobs, caravan ports
and domain, Tether, waybill rings, events, service, boot, test port and sideband. -/

namespace Sys2Proof.Machine

/-- Who makes a request or a write, coded as WKIND and WID of DRV_HAZ (R209): 0 cluster, 1 Tether, 2 caravan port,
3 management block. -/
structure Who where
  kind : Nat
  id : Nat := 0
deriving DecidableEq, Repr

/-! Loess (chapter 08) -/

/-- Where a request at a stack comes from (R215, R269): a drover; a host transaction with its number and TAG (R370, R379); a
delivery on a port with its DSEQ, cluster, address and length (R342); what stands for the granules of a bedrock job (R227), of a
glaze table load of an itinerary (R174) and of a waybill (R366), `mgmt` where the management block issued it. -/
inductive ReqSrc where
  | drover
  | host (seq tag : Nat)
  | car (port dseq cl addr n : Nat)
  | job (ord : Nat) (mgmt : Bool)
  | load (cl : Nat)
  | way (fg : Bool)
deriving DecidableEq, Repr

/-- A granule request at a stack (R192, R215): cluster, tag, address, bytes to write or the length of a host read, whether its
task is speculative and which one it is, whether it is recovery traffic (R274), where it comes from, the stage it reached the
stack in (R275), the slots it has still to take, what the decoder will find for it in logical codewords (R218). -/
structure Req where
  cl : Nat := 0
  tag : Nat := 0
  write : Bool
  addr : Nat := 0
  bytes : List WByte := []
  spec : Bool := false
  task : Nat := 0
  recov : Bool := false
  src : ReqSrc := .drover
  len : Nat := 512
  due : Nat := 0
  n : Nat := 1
  found : List (Nat × EccCase) := []
deriving DecidableEq, Repr

/-- A queued mitigation refresh (R222, R223): channel, row and bank L[36:15], stage it became due, activations of the row
since, whether the row was counted as throttled, rows still to refresh. -/
structure Mit where
  chan : Nat
  row : Nat
  due : Nat
  further : Nat := 0
  throttled : Bool := false
  left : Nat := 4
deriving DecidableEq, Repr

/-- A firmware image in flash (R435, R437): version, SVN, whether it verifies, DIGEST, the root slot that verified it, the slots
its package revokes. -/
structure FwBank where
  version : Word := 0
  svn : Nat := 0
  ok : Bool := true
  digest : List Byte := []
  root : Nat := 0
  revoke : Nat := 0
deriving DecidableEq, Repr

/-- A Loess stack and its bedrock die, beside its registers; `needArm` after an update that fell back, until the next ARM (R231). -/
structure Stack where
  waiting : List Req := []
  accepted : List Req := []
  scrubAcc : Nat := 0
  scrubDue : List Nat := []
  rows : SMap Nat := []
  mits : List Mit := []
  cal : List Nat := []
  retry : Nat := 0
  heldFrom : Nat := 0
  fwNew : Option FwBank := none
  needArm : Bool := false
deriving DecidableEq, Repr

/-- A provisional map entry (R240, R254); `opened` while its owner is an unresolved or confirmed speculative task. -/
structure Pme where
  used : Bool := false
  img : Nat := 0
  otask : Nat := 0
  oclu : Nat := 0
  pages : Nat := 0
  lpage : Nat := 0
  spage : Nat := 0
  opened : Bool := false
deriving DecidableEq, Repr

/-- A bedrock job issued (R226, R227): `done` once the dies have run it, with the cause it stopped with (0 none)
and the stack that found it, and the bytes written by then. -/
structure Job where
  src : JobSrc
  d : JobD
  ord : Nat
  spec : Bool := false
  slot : Nat := 0
  task : Nat := 0
  done : Bool := false
  cause : Nat := 0
  dieNo : Nat := 0
  bytes : Nat := 0
deriving DecidableEq, Repr

/-- A hazard notice under way to a drover (R201). -/
structure Notice where
  cl : Nat
  page : Nat
  who : Who
  stage : Nat
deriving DecidableEq, Repr

/-! Caravan (chapter 12) -/

/-- A slot that waits for a link grant: activity (R269), KIND (R313), bytes. -/
structure TxSlot where
  act : Nat
  kind : Nat
  data : List Byte
deriving DecidableEq, Repr

/-- A frame sent and not acknowledged (R312): FSEQ, the credits it carried, whether it has been sent again, its slots. -/
structure SentFrame where
  fseq : Nat
  cred : Nat := 0
  again : Bool := false
  slots : List TxSlot
deriving DecidableEq, Repr

/-- A caravan port, beside its registers: slots that wait, the frame being filled, frames not acknowledged, frames to
send again, receive side, credits, vote bits. -/
structure Port where
  txq : List TxSlot := []
  frame : List TxSlot := []
  sent : List SentFrame := []
  replay : List SentFrame := []
  rslot : Nat := 0
  next : Nat := 0
  good : Nat := 255
  naking : Bool := false
  nakFor : Nat := 0
  nakRun : Nat := 0
  rx : List (Nat × List Byte) := []
  credOut : Nat := 0
  total : Nat := 256
  issued : Nat := 0
  returned : Nat := 0
  frozen : Bool := false
  quiesce : Bool := false
  vin : Nat := 0
  vout : Nat := 0
  pattern : Bool := false
deriving DecidableEq, Repr

/-- A port's entry for one module of the route book (R329). -/
structure PortE where
  peer : Nat
  pport : Nat
  role : Nat
deriving DecidableEq, Repr

/-- A relay window (R341). -/
structure Relay where
  src : Nat
  dst : Nat
  lpage : Nat
  dpage : Nat
  pages : Nat
deriving DecidableEq, Repr

/-- The route book (R329, R330). -/
structure Book where
  rbid : Nat
  lead : Nat
  stepk : Nat
  depth : Nat
  voteKc : Nat
  mods : List (List PortE)
  rings : List (Nat × List Nat)
  relays : List Relay
deriving DecidableEq, Repr

/-- The caravan domain, beside its registers (R320 to R328): book, S0, READY counts by child port, T0, time lock, this
period's own vote and decision (COMPLETE or TAKE, PAUSEOK or PAUSE), the muster waybill. -/
structure Cvn where
  book : Option Book := none
  s0 : Nat := 0
  subs : SMap Nat := []
  readySent : Bool := false
  t0 : Option Nat := none
  lockRun : Nat := 0
  missed : Nat := 0
  voted : Bool := false
  own : Option (Bool × Bool) := none
  decision : Option (Bool × Bool) := none
  wb : Option (Nat × Nat) := none
  straggling : Bool := false
  dseq : Nat := 0
deriving DecidableEq, Repr

/-- A relay store under way (R341, R342): its deliveries' sequence numbers, the tag it frees, the worst status seen. -/
structure RelaySt where
  cl : Nat
  tag : Nat
  seqs : List Nat
  port : Nat
  status : Nat := 0
deriving DecidableEq, Repr

/-- A ring reduction in progress in one cluster (R332 to R338): the elements' exact values, the reduced codes or values
by element, slots received of chunks that are not whole (key: chunk, phase and CFMT). -/
structure Red where
  cl : Nat
  tile : Nat
  ring : Nat
  carry : Nat
  desc : Nat
  rseq : Nat
  last : Nat
  own : List Val
  base : Nat := 0
  got : SMap (Option (Val × Nat)) := []
  stored : Nat := 0
  task : Nat := 0
  step : Nat := 0
  parts : List (Nat × Nat × List Byte) := []
deriving DecidableEq, Repr

/-- A tandem record with where its drain stood (R303, R305). -/
structure TRec where
  cl : Nat
  seq : Nat
  check : Nat
  k : Nat
  stage : Nat := 0
  task : Nat := 0
  step : Nat := 0
  tile : Nat := 0
deriving DecidableEq, Repr

/-- An engine's tandem unit (R304). -/
structure TUnit where
  own : List TRec := []
  partner : List TRec := []
deriving DecidableEq, Repr

/-! Tether (chapter 14) -/

/-- What the module sends to its host: reads of and writes to host memory, interrupt messages, completions. -/
inductive HMsg where
  | fetch (addr n : Nat)
  | mem (addr : Nat) (data : List Byte)
  | irq (v : Nat) (addr : Nat) (data : Word)
  | word (v : Word)
  | data (bs : List Byte)
  | error
deriving DecidableEq, Repr

/-- A message that waits for a Tether slot: activity, stage it became due; for a completion the address, window and TAG of its
request. Once its flit is formed, the flit's header, the credits it carried and
whether it has been sent again (R370, R371). -/
structure TxMsg where
  act : Nat
  due : Nat
  msg : HMsg
  addr : Nat := 0
  space : Nat := 0
  tag : Nat := 0
  head : Nat := 0
  cred : Nat := 0
  again : Bool := false
deriving DecidableEq, Repr

/-- Traffic from the host that waits for a Tether slot of that direction, or behind one that does (R376): activity, stage it
became due, the request it brings, if any. -/
structure RxMsg where
  act : Nat
  due : Nat
  req : Option Req := none
deriving DecidableEq, Repr

/-- An access of the host through one of the Tether's windows (R374): what the table's rows for it name. -/
inductive HostAcc where
  | loessRead (addr len : Nat) (ecc : List (Nat × EccCase))
  | loessWrite (addr : Nat) (data : List Byte) (ecc : List (Nat × EccCase))
  | rejected (write : Bool) (addr size : Nat)
  | register (addr v : Nat)
  | counterRead (addr : Nat)
  | qntWposRead (cl : Nat)
  | wbrDbRead (r : Nat)
  | arm (w : ArmWin)
  | disarm (w : ArmWin)
  | wbrDoorbell (r tail : Nat)
  | wbrEnable (r v : Nat)
  | wbrResume (r : Nat)
  | chkStart (u : Nat)
  | chkCmp (u : Nat)
  | chkFeed (u n v : Nat)
  | glzSwitch (cl : Nat)
  | drvDesc (cl w v : Nat)
  | footPin (pin : Bool)
  | tndMode (v : Nat)
  | evtEnable (v : Nat)
  | evtRd (v : Nat)
  | imask (v : Nat)
  | ipendClear (v : Nat)
  | lnkEnable (p : Nat) (on : Bool)
  | lnkRetrain (p : Nat)
  | lnkQuiesce (p : Nat)
  | pwrEngrst (mask : Nat)
  | pwrReset (v : Nat)
  | svcReq
  | svcForce
  | svcCancel
  | svcRelease
deriving DecidableEq, Repr

/-- The Tether, beside its registers (R369 to R373): `tags` are the TAGs of read requests received whose transactions have not
come about yet, `more` is set while a write goes on in the next flit (R370), `rxCred` are the receive credits the host holds and `credOut`
those to return to it (R372), `writes` counts host writes into Loess so far; `later` are host accesses that wait behind earlier ones
(R379). -/
structure Teth where
  later : List HostAcc := []
  rxCred : Nat := 0
  rxq : List RxMsg := []
  tags : List Nat := []
  more : Bool := false
  credOut : Nat := 0
  writes : Nat := 0
  txq : List TxMsg := []
  sent : List (Nat × TxMsg) := []
  replay : List (Nat × TxMsg) := []
  next : Nat := 0
  good : Nat := 1023
  naking : Bool := false
  nakFor : Nat := 0
  nakRun : Nat := 0
  issued : Nat := 0
  returned : Nat := 0
deriving DecidableEq, Repr

/-- What the module has sent, oldest first: the receive credits it advertises to its host, Tether flits with the part of the message they carry, caravan frames, sideband
messages, in-band interrupts, bits out of the test port. -/
inductive Out where
  | advert (credits : Nat)
  | host (fseq : Nat) (m : HMsg) (flit : List Byte)
  | frame (p : Nat) (control : BitVec 80) (slots : List (List Byte))
  | side (bs : List Byte)
  | ibi (addr : Nat)
  | tdo (bs : List Bool)
deriving DecidableEq, Repr

/-! Waybills (chapter 13) -/

/-- A waybill taken and without a receipt (R358): phase 0 taken, 1 started, 2 acting; its clusters, the stage it names
or has reached, what it has done so far. -/
structure Wb where
  ix : Nat
  opc : Nat
  seq : Nat
  irq : Bool
  fence : Bool
  params : List Nat
  tmo : Nat := 0
  phase : Nat := 0
  clus : List Nat := []
  stage : Nat := 0
  done : Nat := 0
deriving DecidableEq, Repr

/-- A waybill ring, beside its registers (R350 to R356). -/
structure Ring where
  taken : List Wb := []
  seqBase : Nat := 0
  ixBase : Nat := 0
  haltIx : Nat := 0
  issued : Nat := 0
  returned : Nat := 0
deriving DecidableEq, Repr

/-! Events (chapter 19) -/

/-- A queued event (R445, R449): list index, source class, flags HELD EXT GAP, unit, kc, stage, SEQ, details, merges, routes served
(R451). One that is `gone`, without a route or dropped, keeps its place among the numbers of its kc until the kc ends (R448). -/
structure Ev where
  ix : Nat
  scls : Nat
  flags : Nat
  unit : Nat
  kc : Nat
  stage : Nat
  seq : Nat
  d0 : Nat
  d1 : Nat
  rep : Nat := 0
  served : Nat := 0
  gone : Bool := false
deriving DecidableEq, Repr

/-! Service, boot, test port, sideband (chapters 16 to 18, 21) -/

/-- The service sequence and bezel, beside their registers (R413 to R428). -/
structure Svc where
  saving : Bool := false
  forcedDue : Bool := false
  asked : Bool := false
  identify : Bool := false
  flashed : Bool := false
  violated : Bool := false
  beyond : List Nat := []
  tripped : Bool := false
  life : SMap Nat := []
  uv : Bool := false
deriving DecidableEq, Repr

/-- Fuses, flash and measurements (R434 to R441): the bank the bank-select record names and the one that runs; a bank chosen in
recovery has not raised its counter yet; default glaze image and ration tables written by UPDATE with what their package says; the
bedrock images that the stacks start with and those they started with before. -/
structure Boot where
  sel : Bool := false
  act : Bool := false
  fw0 : FwBank := {}
  fw1 : FwBank := {}
  cnt : SMap Nat := []
  revoked : Nat := 0
  recovery : Bool := false
  rise : Bool := false
  switching : Option (Nat × Nat × Bool) := none
  irqs : List Nat := []
  meas : SMap (List Byte) := []
  glz : Option (List Byte × FwBank) := none
  rtn : Option (List Byte × FwBank) := none
  beds : SMap (Option FwBank) := []
  bedsOld : SMap (Option FwBank) := []
deriving DecidableEq, Repr

/-- The test access port (R469): instruction register, boundary cells, start-up held at the end of phase E. -/
structure Tap where
  ir : Nat := 1
  cells : List Bool := []
  waiting : Bool := false
deriving DecidableEq, Repr

/-- The sideband endpoint (R456, R467, R468): the straps as sampled at power-on (SMBus instead of I3C, address bits), SB_RST_N low since
then, endpoint ID, dynamic address, event receiver. -/
structure Side where
  smbus : Bool := false
  strap : Nat := 0
  rstLow : Bool := false
  eid : Nat := 0
  dyn : Nat := 0
  recv : Option Nat := none
deriving DecidableEq, Repr

/-- A reset that is still to act (R404, R407): of the engines of a mask, or of the module with its PWR_RSTCAUSE.KIND. -/
inductive ResetDue where
  | eng (mask : Nat)
  | mod (cause : Nat)
deriving DecidableEq, Repr

/-- A pause in progress (R294): the set, B, the waybill that waits (none for the service sequence), 1 waiting,
2 settling, 3 paused; P; what the save image takes from the pause boundary (R296): present clusters, the module's number in a
domain pause, the grit pair after the boundary actions. -/
structure Pause where
  clus : List Nat
  b : Nat
  wb : Option (Nat × Nat)
  st : Nat := 1
  p : Nat := 0
  foot : Nat := 0
  modnum : Option Nat := none
  seed : Nat := 0
  gstep : Nat := 0
deriving DecidableEq, Repr

/-- What reaches a check unit beside feeds: a START, a CMP, a write of one of its registers (R391 to R393). -/
inductive ChkOp where
  | start
  | compare
  | write (o v : Nat)
deriving DecidableEq, Repr

/-- A software check unit, beside its registers (R391 to R393): state, algorithm and fold taken at START, busy time in
1/30 of a kc at 940 MHz (one management cycle is 47 of these), what waits for the end of the feed. -/
structure Chk where
  wide : Bool := false
  acc : BitVec 64 := 0xFFFFFFFF#64
  busy : Nat := 0
  queue : List ChkOp := []
deriving DecidableEq, Repr

/-- What has happened to one W1C register in this kc (R12, R209): bits that hardware has set, those of them that were 0 (R453), bits
that a write has cleared, and the first capture of a record with the registers it takes (the register itself first); `late` while a record of an earlier kc keeps it out. -/
structure Caught where
  bits : Nat := 0
  risen : Nat := 0
  cleared : Nat := 0
  regs : List (Nat × Nat) := []
  late : Bool := false
deriving DecidableEq, Repr

def zeroMeas (_ : Nat) : List Byte := List.replicate 48 0
def noPme (_ : Nat) : Pme := {}
def idleStack (_ : Nat) : Stack := {}
def idlePort (_ : Nat) : Port := {}
def idleRing (_ : Nat) : Ring := {}
def idleChk (_ : Nat) : Chk := {}
def idleUnit (_ : Nat) : TUnit := {}
def idleCluster (_ : Nat) : Cluster := {}
def noWord (_ : Nat) : Option Word := none
def noFw (_ : Nat) : Option FwBank := none
def noWho (_ : Nat) : Option Who := none
def zeroBool (_ : Nat) : Bool := false
def noActs (_ : Nat) : List Nat := []
def noCaught (_ : Nat) : Caught := {}
def noCount (_ : Nat) : Nat × Nat := (0, 0)
def selfNat (k : Nat) : Nat := k

end Sys2Proof.Machine
end

