-- ==== Sys2Proof/Machine/State.lean ====
section
/-! DEFINITION. The state of the module, its faults and refusals, and the state right after power-on reset. -/

namespace Sys2Proof.Machine

/-- Why a command stops the model. -/
inductive Fault where
  /-- Raised by no meaning: every error the spec names shows in a register, an event or a receipt. Safe. -/
  | neverRaised
deriving DecidableEq, Repr

/-- Why a command is not carried out. -/
inductive Refusal where
  /-- An arm of `exec` that has no meaning yet. Safe. -/
  | notModelled (mnemonic : String)
  /-- Raised by `exec` meanings of itinerary instructions whose fields hold a reserved value: no itinerary holds such
  an instruction, since the load refuses the image (R31, R45, R241, R243). Safe. -/
  | refusedAtLoad (mnemonic : String)
deriving DecidableEq, Repr

/-- The module. -/
structure State where
  pending : List Instr
  grade : Grade
  -- registers (R10, R458): values, shadows written since the last latch (R280), those of them
  -- that a late stage has set aside at its last kc (R280), holding copies (R11)
  regs : SMap Word
  shadow : SMap (Option Word)
  snap : SMap (Option Word)
  latch : SMap (Option Word)
  -- of this kc: bits and records that hardware set, by W1C register (R12, R209); vectors whose unmasking sent a message (R383);
  -- a counter's value before the kc and what the kc has added to it (R460); EVT_SEQ at its start (R448); register bits (base, length,
  -- mask) and window slots (cluster, slot) that waybills have written (R360)
  caught : SMap Caught
  unmasked : List Nat
  counted : SMap (Nat × Nat)
  seqMark : Nat
  wbRegs : List (Nat × Nat × Nat)
  wbSlots : List (Nat × Nat)
  -- power: start-up phase 0 off, 1 to 5 A to E in progress, 6 finished; phase A done with the lever open; PSTATE transition
  -- in progress (target, stages stopped); die trip; resets still to act (R407); the die-temperature limit of the cap (R402)
  phase : Nat
  held : Bool
  trans : Option (Nat × Bool)
  tripped : Bool
  gated : SMap Bool
  kstepTo : Option Nat
  resets : List ResetDue
  draws : List Nat
  drawNow : Nat
  tdieLim : Option Nat
  warned : SMap Bool
  -- time
  kc : Nat
  late : Nat
  hung : Bool
  setpLate : Bool
  gstep : Bool
  -- clusters
  clusters : SMap Cluster
  preds : SMap Nat
  -- Loess
  loess : SMap Byte
  poison : SMap Bool
  sel : SMap Nat
  wr : SMap Bool
  pmes : SMap Pme
  dies : SMap Stack
  jobs : List Job
  jobOrd : Nat
  written : SMap (Option Who)
  notices : List Notice
  noted : List (Nat × Nat × Who)
  -- rations
  wheel : SMap Nat
  order : SMap (List Nat)
  starved : SMap Bool
  -- caravan
  ports : SMap Port
  cvn : Cvn
  relays : List RelaySt
  reds : List Red
  early : List (Nat × List Byte)
  tandem : SMap TUnit
  -- host and events
  teth : Teth
  rings : SMap Ring
  events : List Ev
  gap : Bool
  -- the rest
  pause : Option Pause
  checks : SMap Chk
  svc : Svc
  boot : Boot
  tap : Tap
  side : Side
  out : List Out
  fresh : Nat
  -- the cluster records this module has saved and the clusters they came from (R300)
  saved : List (List Byte × Cluster)
deriving DecidableEq, Repr

/-- The part whose reset the model starts from: an XA-2048 (R1, R24). -/
def resetGrade : Grade := .xa2048

/-- A management firmware bank as delivered (R435). -/
def deliveredBank (b : Nat) : FwBank :=
  { version := Config.fwVersion b, svn := min (Config.fwSvn b) 64, digest := (List.range 48).map (Config.bootDigest 1 b) }

/-- Right after power-on reset (R395, R404, R409): start-up phase A is in progress, no command waits. -/
def State.reset : State :=
  { pending := [], grade := resetGrade
    regs := [], shadow := [], snap := [], latch := [], caught := [], unmasked := [], counted := [], seqMark := 0, wbRegs := [], wbSlots := []
    phase := 1, held := false, trans := none, tripped := false, gated := [], kstepTo := none, resets := []
    draws := [], drawNow := 0, tdieLim := none, warned := []
    kc := 0, late := 0, hung := false, setpLate := false, gstep := false
    clusters := [], preds := []
    loess := [], poison := [], sel := [], wr := [], pmes := [], dies := []
    jobs := [], jobOrd := 0, written := [], notices := [], noted := []
    wheel := [], order := [], starved := []
    ports := [], cvn := {}, relays := [], reds := [], early := [], tandem := []
    teth := {}, rings := [], events := [], gap := false
    pause := none, checks := [], svc := { life := [(16, 1)] }, boot := { fw0 := deliveredBank 0, fw1 := deliveredBank 1 }, tap := {}, side := {}
    out := [], fresh := 0, saved := [] }

end Sys2Proof.Machine
end

