-- ==== Sys2Proof/Machine/Ops.lean ====
section
/-! DEFINITION. Named operations over the module's state: registers, presence and domains, events, interrupts, messages
to the host, side effects of tasks, Loess bytes, the hazard watch, receipts. -/

namespace Sys2Proof.Machine

/-! Registers (R10) -/

/-- A number with bits [lo + n - 1 : lo] replaced. -/
def putBits (x lo n v : Nat) : Nat := x - bits x lo n * 2 ^ lo + v % 2 ^ n * 2 ^ lo

/-- What the register at a management address holds. -/
def State.reg (s : State) (a : Nat) : Word := sget (regInit s.grade) s.regs a
def State.setReg (s : State) (a : Nat) (v : Word) : State := { s with regs := sput (regInit s.grade) s.regs a v }
def State.regN (s : State) (a : Nat) : Nat := (s.reg a).toNat
def State.setRegN (s : State) (a v : Nat) : State := s.setReg a (BitVec.ofNat 32 v)
def State.fld (s : State) (a lo n : Nat) : Nat := bits (s.regN a) lo n
def State.setFld (s : State) (a lo n v : Nat) : State := s.setRegN a (putBits (s.regN a) lo n v)

/-- A pair of registers as one 64-bit value (R11). -/
def State.reg64 (s : State) (a : Nat) : Nat := s.regN a + 2 ^ 32 * s.regN (a + 4)
def State.setReg64 (s : State) (a v : Nat) : State := (s.setRegN a (v % 2 ^ 32)).setRegN (a + 4) (v / 2 ^ 32)

/-- Hardware has added n to the counter at `a`, whose value was `old` (R460). -/
def State.noteCount (s : State) (a old n : Nat) : State :=
  if n = 0 then s
  else
    let k := sget noCount s.counted a
    { s with counted := sput noCount s.counted a (if k.2 = 0 then (old, n) else (k.1, k.2 + n)) }

/-- Counters that stop at their maximum. -/
def State.count (s : State) (a n : Nat) : State := (s.noteCount a (s.regN a) n).setRegN a (min (s.regN a + n) (2 ^ 32 - 1))
def State.count64 (s : State) (a n : Nat) : State :=
  (s.noteCount a (s.reg64 a) n).setReg64 a (min (s.reg64 a + n) (2 ^ 64 - 1))

/-- A kc begins: what the same-kc rules look at starts anew (R12, R84, R209, R360, R383, R448, R460). -/
def State.newKc (s : State) : State :=
  { s with caught := [], unmasked := [], wbRegs := [], wbSlots := [], counted := [], seqMark := s.regN 0x106014, events := s.events.filter (fun e => !e.gone) }

/-- Address of a register in a window. -/
def ca (n o : Nat) : Nat := (Win.cluster n).base + o
def ea (e o : Nat) : Nat := (Win.engine e).base + o
def sa (k o : Nat) : Nat := (Win.stack k).base + o
def pa (p o : Nat) : Nat := (Win.port p).base + o
def ra (r o : Nat) : Nat := (Win.ring r).base + o
def ha (u o : Nat) : Nat := (Win.check u).base + o

/-- A waybill has written bits of the registers from `a` on: a direct write of the same kc acts before it (R360). -/
def State.wbWrote (s : State) (a len mask : Nat) : State := { s with wbRegs := (a, len, mask) :: s.wbRegs }

/-- The bits of a register that waybills have written in this kc. -/
def State.wbMask (s : State) (a : Nat) : Nat :=
  s.wbRegs.foldl (fun m e => if e.1 ≤ a ∧ a < e.1 + e.2.1 then m ||| e.2.2 else m) 0

/-- GLB_STAGE (R263). -/
def State.stageNo (s : State) : Nat := s.reg64 0x400

/-! Units -/

def State.cl (s : State) (n : Nat) : Cluster := sget idleCluster s.clusters n
def State.setCl (s : State) (n : Nat) (c : Cluster) : State := { s with clusters := sput idleCluster s.clusters n c }
def State.die (s : State) (k : Nat) : Stack := sget idleStack s.dies k
def State.setDie (s : State) (k : Nat) (d : Stack) : State := { s with dies := sput idleStack s.dies k d }
def State.port (s : State) (p : Nat) : Port := sget idlePort s.ports p
def State.setPort (s : State) (p : Nat) (x : Port) : State := { s with ports := sput idlePort s.ports p x }
def State.ring (s : State) (r : Nat) : Ring := sget idleRing s.rings r
def State.setRing (s : State) (r : Nat) (x : Ring) : State := { s with rings := sput idleRing s.rings r x }
def State.pme (s : State) (p : Nat) : Pme := sget noPme s.pmes p
def State.setPme (s : State) (p : Nat) (x : Pme) : State := { s with pmes := sput noPme s.pmes p x }
def State.unit (s : State) (e : Nat) : TUnit := sget idleUnit s.tandem e
def State.setUnit (s : State) (e : Nat) (x : TUnit) : State := { s with tandem := sput idleUnit s.tandem e x }

/-! Presence (R4, R23, R291) and power domains (R396, R397) -/

/-- The footprint of 1,792 clusters is in force (R291). -/
def State.foot (s : State) : Bool := s.grade = .xa1792 || (s.reg 0x600).getLsbD 1

/-- Cluster rows present in each engine (R24, R306). -/
def State.rowCount (s : State) : Nat := if s.foot then 7 else 8

/-- Module cluster number n is present (R3, R4). -/
def State.present (s : State) (n : Nat) : Bool := decide (n < 2048) && decide (n % 128 / 16 < s.rowCount)

def State.presentCount (s : State) : Nat := s.rowCount * 256
def State.presentList (s : State) : List Nat := (List.range 2048).filter s.present

/-- PWR_STATUS.STATE (R412). -/
def State.pstate (s : State) : Nat := s.fld 0x200000 1 3
def State.failed (s : State) : Bool := decide (s.fld 0x200000 4 4 ≠ 0)
def State.ready (s : State) : Bool := (s.reg 0x200000).getLsbD 0

/-- Power domain k is on (R396 to R398). -/
def State.domainOn (s : State) (k : Nat) : Bool :=
  let up := decide (4 ≤ s.phase)
  let loess := up || s.boot.recovery
  let run := decide (s.pstate ≠ 2) && decide (s.pstate ≠ 3) &&
    (match s.trans with | some (_, stopped) => !stopped | none => true)
  let rowOn (d : Nat) : Bool := decide (d % 8 < s.rowCount) && !s.tripped && !(sget zeroBool s.gated d)
  if s.phase = 0 then false
  else if k = 177 then true
  else if k = 176 then up || s.failed || decide (s.trans = some (0, false))
  else if k < 128 then up && run && rowOn k
  else if k < 144 then up && run && (List.range 8).any (fun r => rowOn (8 * (k - 128) + r))
  else if k < 152 then loess && decide (s.pstate ≠ 2) && decide (s.pstate ≠ 3) && (run || decide (s.fld (sa (k - 144) 0) 0 3 ≠ 4))
  else if k < 160 then loess && decide (s.pstate ≠ 3)
  else if k < 176 then up && run && (s.reg (pa (k - 160) 4)).getLsbD 0
  else false

/-- Stages are counted (R263, R397). -/
def State.stagesRun (s : State) : Bool := decide (s.phase = 6) && decide (s.pstate ≠ 2) && decide (s.pstate ≠ 3) &&
  (match s.trans with | some (_, stopped) => !stopped | none => true)

/-- The last kc of a stage is under way or over (R407). -/
def State.lastKc (s : State) : Bool := s.stagesRun && decide (8191 ≤ s.kc)

/-- The window's power domain is on (R458, R459). -/
def State.winOn (s : State) (w : Win) : Bool :=
  match w with
  | .tether => s.domainOn 176
  | .cluster n => s.present n && s.domainOn (8 * (n / 128) + n % 128 / 16)
  | .engine e => s.domainOn (128 + e)
  | _ => s.domainOn 177

/-- Where a refused write of a window shows (R281). -/
def busyPlace (w : Win) : Nat × Nat :=
  match w with
  | .global => (0xFF0, 3)
  | .ration => (0x1FF0, 3)
  | .power => (0x200FF0, 3)
  | .stack k => (sa k 0xFF0, 3)
  | .cluster n => (ca n 0xFF0, 3)
  | .ring r => (ra r 0x24, 6)
  | .check u => (ha u 0x04, 3)
  | .service => (0x104004, 10)
  | .security => (0x105000, 11)
  | .events => (0x106000, 5)
  | _ => (0xFF0, 3)

/-! Bits and records that a W1C write clears (R12, R209) -/

/-- Hardware sets bits of a W1C register: a clear in the same kc leaves them set (R12). -/
def State.setBits (s : State) (a m : Nat) : State :=
  if m = 0 then s
  else
    let k := sget noCaught s.caught a
    { s.setRegN a (s.regN a ||| m) with
      caught := sput noCaught s.caught a { k with bits := k.bits ||| m, risen := k.risen ||| (m - (m &&& (s.regN a ||| k.cleared))) } }

/-- A write of 1 clears bits of a W1C register: hardware that sets them again in this kc does not change them (R12, R453). -/
def State.noteClear (s : State) (a m : Nat) : State :=
  let k := sget noCaught s.caught a
  { s with caught := sput noCaught s.caught a { k with cleared := k.cleared ||| m } }

/-- Hardware takes bits of a W1C register back. -/
def State.dropBits (s : State) (a m : Nat) : State :=
  let k := sget noCaught s.caught a
  { s.setReg a (s.reg a &&& ~~~(BitVec.ofNat 32 m)) with
    caught := sput noCaught s.caught a { k with bits := k.bits - (k.bits &&& m) } }

def State.putRegs (s : State) (rs : List (Nat × Nat)) : State := rs.foldl (fun s x => s.setRegN x.1 x.2) s

/-- Capture a record at the register `a` whose bit 0 is VALID (R209): while VALID is 1 it waits for a clear in this kc. Of the
captures of one kc the lowest rank is kept, the first where ranks are equal (R84, R305). -/
def State.capture (s : State) (rank : Nat → Nat) (a v : Nat) (rest : List (Nat × Nat)) : State :=
  let k := sget noCaught s.caught a
  let valid := (s.reg a).getLsbD 0
  let rs := (a, v) :: rest
  if k.regs.isEmpty then
    { (if valid then s else s.putRegs rs) with caught := sput noCaught s.caught a { k with regs := rs, late := valid } }
  else if rank v < rank (k.regs.headD (a, 0)).2 then
    { (if k.late then s else s.putRegs rs) with caught := sput noCaught s.caught a { k with regs := rs } }
  else s

/-- One rank for all captures: the first of a kc is kept. -/
def noRank (_ : Nat) : Nat := 0

/-- A write is refused: BUSYW (R12, R281). -/
def State.busyW (s : State) (w : Win) : State := s.setBits (busyPlace w).1 (2 ^ (busyPlace w).2)

/-! Messages to the host and interrupts (R376, R379, R382, R383) -/

/-- A message of the module's own waits for a Tether slot toward the host. -/
def State.toHost (s : State) (act : Nat) (m : HMsg) : State :=
  { s with teth := { s.teth with txq := s.teth.txq ++ [{ act := act, due := s.stageNo, msg := m }] } }

/-- Traffic from the host takes a Tether slot of its direction (R376): what it brings has its own command, its slot waits here. -/
def State.fromHost (s : State) (act : Nat) : State :=
  { s with teth := { s.teth with rxq := s.teth.rxq ++ [{ act := act, due := s.stageNo }] } }

/-- The completion of a host read: it bears the TAG of the request. -/
def State.complete (s : State) (space addr tag : Nat) (m : HMsg) : State :=
  { s with teth := { s.teth with txq := s.teth.txq ++
      [{ act := 1, due := s.stageNo, msg := m, addr := addr, space := space, tag := tag }] } }

/-- The TAG of the next host read whose flit has been received (R370). -/
def State.takeTag (s : State) : Nat × State :=
  (s.teth.tags.headD 0, { s with teth := { s.teth with tags := s.teth.tags.drop 1 } })

/-- The completion of a register read. -/
def State.completeWord (s : State) (a : Nat) (v : Word) : State :=
  let t := s.takeTag
  t.2.complete 2 a t.1 (.word v)

/-- The message of interrupt vector v (R382). -/
def State.irqMsg (s : State) (v : Nat) : HMsg :=
  .irq v (s.regN (0x600100 + 16 * v) + 2 ^ 32 * s.fld (0x600104 + 16 * v) 0 11) (s.reg (0x600108 + 16 * v))

/-- Vector v is triggered (R383). While the management firmware is switched, it waits for the new one (R430). -/
def State.trigger (s : State) (v : Nat) : State :=
  if s.boot.switching.isSome then { s with boot := { s.boot with irqs := s.boot.irqs ++ [v] } }
  else if (s.reg 0x600020).getLsbD v then s.setBits 0x600024 (2 ^ v)
  else if s.unmasked.contains v then s
  else s.toHost 7 (s.irqMsg v)

/-! Events (R445 to R449) -/

/-- CODE of the event with an index (R447). -/
def evCode (i : Nat) : Nat :=
  if i < 12 then 0x101 + i
  else if i < 15 then 0x201 + (i - 12)
  else if i < 22 then 0x301 + (i - 15)
  else if i = 22 then 0x401
  else if i < 32 then 0x501 + (i - 23)
  else if i < 37 then 0x601 + (i - 32)
  else if i < 45 then 0x701 + (i - 37)
  else 0x801

/-- Routes set for an event's index (R451, R457). -/
def State.route (s : State) (i : Nat) : Nat := s.fld (0x106040 + 4 * (i / 8)) (4 * (i % 8)) 4

/-- Routes a record uses: EV_CHK_MISMATCH takes route I only while IEN is 1 (R447). -/
def State.routeOf (s : State) (i u : Nat) : Nat :=
  if i = 36 ∧ !(s.reg (ha u 0)).getLsbD 1 then putBits (s.route i) 1 1 0 else s.route i

/-- Order of events raised in one kc (R448). -/
def evBefore (a b : Ev) : Bool :=
  let x := evCode a.ix
  let y := evCode b.ix
  decide (x < y) || (x = y && (decide (a.scls < b.scls) || (a.scls = b.scls && decide (a.unit ≤ b.unit))))

/-- Events in the order they take numbers in, with an event put into its place: the numbers stay in theirs, and among the records that
enter the queue the GAP mark. -/
def evInsert (e : Ev) : List Ev → List Ev
  | [] => [e]
  | x :: r =>
    if evBefore x e then x :: evInsert e r
    else if x.gone || e.gone then { e with seq := x.seq } :: evInsert { x with seq := e.seq } r
    else { e with seq := x.seq, flags := putBits e.flags 2 1 (bits x.flags 2 1) } ::
      evInsert { x with seq := e.seq, flags := putBits x.flags 2 1 (bits e.flags 2 1) } r

/-- A record numbered in this kc (R448). -/
def State.ofThisKc (s : State) (e : Ev) : Bool :=
  decide ((e.seq + 2 ^ 32 - s.seqMark) % 2 ^ 32 < (s.regN 0x106014 + 2 ^ 32 - s.seqMark) % 2 ^ 32)

/-- A raised event takes its place in the order of its kc (R448). -/
def State.queueEvent (s : State) (e : Ev) : State :=
  { s with
    events := s.events.filter (fun x => !s.ofThisKc x) ++ evInsert e (s.events.filter s.ofThisKc) }

/-- The kc of the stage an event bears (R445): after the last kc of a period has passed, that one. -/
def State.evKc (s : State) : Nat := min s.kc 8191

/-- Records in the queue (R449). -/
def State.queued (s : State) : List Ev := s.events.filter (fun e => !e.gone)

/-- Raise an event (R446, R448, R449). During a switch of the management firmware it waits in hardware: none is dropped (R430). -/
def State.raise (s : State) (i scls u d0 d1 : Nat) (isHeld : Bool := false) : State :=
  let st := s.stageNo
  if s.queued.any (fun e => e.ix = i && e.scls = scls && e.unit = u && e.stage = st) then
    { s with events := s.events.map (fun e =>
        if e.gone = false ∧ e.ix = i ∧ e.scls = scls ∧ e.unit = u ∧ e.stage = st then { e with rep := min (e.rep + 1) 0xFFFF } else e) }
  else
    let seq := s.regN 0x106014
    let s1 := s.setRegN 0x106014 (seq + 1)
    let unrouted := decide (s.routeOf i u = 0)
    let full := !unrouted && decide (256 ≤ s.queued.length) && s.boot.switching.isNone
    let s2 : State := if full then { s1.count 0x106018 1 with gap := true } else if unrouted then s1 else { s1 with gap := false }
    let fl := (if isHeld then 1 else 0) + (if 0 < s.late then 2 else 0) + (if s.gap && !unrouted && !full then 4 else 0)
    s2.queueEvent { ix := i, scls := scls, flags := fl, unit := u, kc := if isHeld then 0 else s.evKc
                    stage := st, seq := seq, d0 := d0 % 2 ^ 32, d1 := d1 % 2 ^ 32, gone := unrouted || full }

/-! Tether state and errors (R369, R375, R385) -/

/-- TTH_STATE.STATE. -/
def State.tth (s : State) : Nat := s.fld 0x600000 0 2

/-- Change TTH_STATE.STATE; a change triggers vector 17 (R382). -/
def State.setTth (s : State) (st : Nat) : State :=
  if s.tth = st then s else (s.setFld 0x600000 0 2 st).trigger 17

/-- A TTH_ERR capture (R375, R380, R385): while VALID is 1 only the event is raised. -/
def State.tthErr (s : State) (cause space addr : Nat) : State :=
  let s0 := s.capture noRank 0x600014 (1 + cause * 2 + space * 16)
    [(0x600018, addr % 2 ^ 32), (0x60001C, addr / 2 ^ 32 % 2 ^ 11)]
  let s1 := if (s.reg 0x600014).getLsbD 0 then s0 else s0.trigger 17
  s1.raise 35 7 0 (s1.regN 0x600014) (s1.regN 0x600018)

/-! Side effects of tasks (R198, R202, R209, R452, R453) -/

/-- Flags occur in a cluster (R15, R452, R453): one EV_ENG_FLAG a kc, with every bit of the engine that has changed to 1 in it. -/
def State.putFlags (s : State) (n : Nat) (f : Flg) (isHeld : Bool) : State :=
  if f = 0 then s
  else
    let e := n / 128
    let w := f.toNat
    let s3 := ((s.setBits (ca n 0x100) w).setBits (ea e 0) w).setBits 0x800 w
    let was := (sget noCaught s.caught (ea e 0)).risen
    let now := (sget noCaught s3.caught (ea e 0)).risen
    let en := s.regN (ea e 4)
    if now &&& en = 0 then s3
    else if was &&& en = 0 then s3.raise 11 2 e now 0 isHeld
    else { s3 with events := s3.events.map (fun x =>
             if x.ix = 11 ∧ x.unit = e ∧ s3.ofThisKc x then { x with d0 := now } else x) }

/-- The converter's copy of its flags (R52, R208). -/
def cvtBits (f : Flg) : Nat := f.toNat % 32 + (if f.getLsbD 6 then 32 else 0)

/-- A cluster is to stop at the end of the stage; the first cause is recorded (R242). -/
def State.stopCl (s : State) (n cause : Nat) : State :=
  let c := s.cl n
  if c.stopDue.isSome then s else s.setCl n { c with stopDue := some cause }

/-! Tandem (R301 to R305) -/

/-- TND_CTL.MODE (R301). -/
def State.tmode (s : State) : Nat := s.fld 0x700 0 2

/-- Order of the divergences of one kc (R305): CAUSE, then cluster identity. -/
def divRank (v : Nat) : Nat := bits v 1 3 * 2 ^ 11 + bits v 5 11

/-- A divergence (R305). -/
def State.diverge (s : State) (cause : Nat) (own : TRec) : State :=
  let k := own.k % 2 ^ 48
  let s2 := (s.count 0x71C 1).capture divRank 0x708
    (1 + cause * 2 + own.tile * 16 + own.cl * 32 + own.task % 2 ^ 16 * 2 ^ 16)
    [(0x70C, own.step % 2 ^ 16 + own.seq * 2 ^ 16), (0x710, k % 2 ^ 32), (0x714, k / 2 ^ 32), (0x718, own.stage % 2 ^ 32)]
  let s3 := s2.raise 22 0 0 (s2.regN 0x708) (s2.regN 0x70C)
  if (s3.reg 0x700).getLsbD 6 then
    s3.clusters.foldl (fun s e => if e.2.st = 2 then s.stopCl e.1 10 else s) s3
  else s3

/-- Compare two records of one cluster identity and SEQ (R304). -/
def State.compare (s : State) (own partner : TRec) : State :=
  let s1 := s.count64 0x720 1
  if own.check ≠ partner.check then s1.diverge 1 own
  else if own.k % 2 ^ 32 ≠ partner.k % 2 ^ 32 then s1.diverge 2 own
  else s1

/-- An own record reaches an engine's tandem unit (R304). -/
def State.tandemOwn (s : State) (e : Nat) (r : TRec) : State :=
  let u := s.unit e
  match u.partner.find? (fun x => x.cl = r.cl && x.seq = r.seq) with
  | some x => (s.setUnit e { u with partner := u.partner.erase x }).compare r x
  | none => s.setUnit e { u with own := u.own ++ [r] }

/-- A partner record reaches an engine's tandem unit (R304). -/
def State.tandemPartner (s : State) (e : Nat) (r : TRec) : State :=
  let u := s.unit e
  match u.own.find? (fun x => x.cl = r.cl && x.seq = r.seq) with
  | some x => (s.setUnit e { u with own := u.own.erase x }).compare x r
  | none => s.setUnit e { u with partner := u.partner ++ [r] }

/-- A record's 16 bytes (R303). -/
def TRec.bytes (r : TRec) : List Byte := leBytes 8 r.check ++ leBytes 4 (r.k % 2 ^ 32) ++ leBytes 2 r.seq ++ leBytes 2 r.cl

/-- A record waits for a slot of the partner port: up to 32 share one (R304, R313). -/
def State.sendRecord (s : State) (r : TRec) : State :=
  let p := s.fld 0x700 2 4
  let x := s.port p
  match x.txq.reverse with
  | t :: rest =>
    if t.kind = 3 ∧ t.data.length < 512 then
      s.setPort p { x with txq := rest.reverse ++ [{ t with data := t.data ++ r.bytes }] }
    else s.setPort p { x with txq := x.txq ++ [{ act := 2, kind := 3, data := r.bytes }] }
  | [] => s.setPort p { x with txq := [{ act := 2, kind := 3, data := r.bytes }] }

/-- The store converter has delivered all bytes of a READ or DRAIN of a tandem cluster (R303); `stage` is the drain's. -/
def State.tandemRecord (s : State) (n tile fmt task step k stage : Nat) (bs : List Byte) : State :=
  let mode := s.tmode
  if mode = 0 then s
  else
    let c := s.cl n
    let id := if mode = 2 then n % 1024 else n
    let fold := id + tile * 2 ^ 11 + fmt * 2 ^ 12 + step % 2 ^ 16 * 2 ^ 16 + task % 2 ^ 16 * 2 ^ 32 + c.tseq * 2 ^ 48
    let r : TRec := { cl := id, seq := c.tseq, check := (crc64 fold bs).toNat, k := k
                      stage := stage, task := task, step := step, tile := tile }
    let s1 := s.setCl n { c with tseq := (c.tseq + 1) % 2 ^ 16 }
    if mode = 1 then (s1.sendRecord r).tandemOwn (n / 128) r
    else if n < 1024 then s1.tandemOwn (n / 128) r
    else s1.tandemPartner (n / 128 - 8) r

/-- Values of a cluster's registers that its own state gives. -/
def tileState (c : Cluster) : Nat :=
  c.tile0.path + (if c.busy 0 then 8 else 0) + 16 * c.tile1.path + (if c.busy 1 then 128 else 0)

def glzEpochReg (c : Cluster) : Nat :=
  let b := c.gbank c.gactive
  c.gactive + (if b.fmt = 2 then 2 else 0) + (if c.gswitch then 4 else 0) + b.epoch % 2 ^ 16 * 2 ^ 16

/-- Order of the creations of one kc (R84): SRC, tile, row, column or lane. -/
def trapRank (v : Nat) : Nat := bits v 1 3 * 2 ^ 11 + bits v 8 1 * 2 ^ 10 + bits v 9 5 * 2 ^ 5 + bits v 14 5

/-- ACC_TRAP_INFO of a creation (R92). -/
def trapWord (src : TrapSrc) (op tile row col : Nat) : Nat :=
  1 + src.code * 2 + op * 2 ^ 4 + tile * 2 ^ 8 + row % 32 * 2 ^ 9 + col % 32 * 2 ^ 14

/-- QNT_SKEW_INFO of a fault (R147), and the order of the faults of one kc: CAUSE, operand, tile (R137). -/
def skewWord (cause tile opnd task : Nat) : Nat := 1 + cause * 2 + tile * 16 + opnd * 32 + task % 2 ^ 16 * 2 ^ 16
def skewRank (v : Nat) : Nat := bits v 1 3 * 4 + bits v 5 1 * 2 + bits v 4 1

/-- The trap record has been captured: EV_NAN_TRAP, and STOP (R84). -/
def State.trapTaken (s : State) (n : Nat) (isHeld : Bool) : State :=
  let s1 := s.raise 0 1 n (s.regN (ca n 0x120)) (s.regN (ca n 0x124)) isHeld
  if (s.reg (ca n 0x104)).getLsbD 1 then s1.stopCl n 4 else s1

/-- The details of this kc's event of a record follow the record at `a` and `a + 4` that a capture of lower rank of the kc has taken
over (R84, R137). -/
def State.recordEvent (s : State) (n ix a : Nat) : State :=
  { s with events := s.events.map (fun e =>
      if e.ix = ix ∧ e.unit = n ∧ e.stage = s.stageNo ∧ e.kc = s.evKc ∧ (sget noCaught s.caught a).late = false ∧
          (sget noCaught s.caught a).regs ≠ [] then
        { e with d0 := s.regN a, d1 := s.regN (a + 4) }
      else e) }

/-- A write of 1 to W1C bits of a register: what hardware has set in this kc stands, and a record that waited for VALID is
taken now (R12, R84, R209, R375). -/
def State.keepCaught (s : State) (w : Win) (a v : Nat) : State :=
  let k := sget noCaught s.caught a
  let again := v.testBit 0 && !k.regs.isEmpty
  let s1 := if again then s.putRegs k.regs else s
  let s2 : State := { s1.setRegN a (s1.regN a ||| k.bits) with
    caught := sput noCaught s1.caught a { k with late := k.late && !again } }
  if again && k.late then
    match w with
    | .cluster n => if a = ca n 0x120 then s2.trapTaken n false else s2
    | .tether => s2.trigger 17
    | _ => s2
  else s2

/-- Increments of QNT_SATCNTs have left its count: above the threshold, with drift detection on, PEND is set and the drift
reported once (R141). -/
def State.drift (s : State) (n slot : Nat) (isHeld : Bool) : State :=
  let v := s.regN (ca n (0x240 + 4 * slot))
  if s.regN (ca n 0x210) < v ∧ !(s.reg (ca n 0x224)).getLsbD slot ∧ (s.reg (ca n 0x200)).getLsbD 5 then
    (s.setBits (ca n 0x224) (2 ^ slot)).raise 3 1 n slot v isHeld
  else s

/-- The record and event of a failed job (R226, R236). -/
def State.jobFault (s : State) (k cause wid : Nat) (wb : Bool) (isHeld : Bool := false) : State :=
  let s1 := s.capture noRank (sa k 0x38) (1 + cause * 2 + wid * 16 + (if wb then 2 ^ 15 else 0)) []
  s1.raise 14 3 k (s1.regN (sa k 0x38)) 0 isHeld

/-- One side effect of a task takes effect in cluster n. DESIGN CHOICE (log entry 155): GLZ, RESTART and UNREC of a later hazard are set in
DRV_HAZ while VALID holds another hazard's record. -/
def applyAct (n : Nat) (isHeld : Bool) (s : State) (a : Act) : State :=
  match a with
  | .flags f => s.putFlags n f isHeld
  | .cvt st f =>
    let v := cvtBits f * (if st then 256 else 1)
    (s.setBits (ca n 0x40C) v).putFlags n (f &&& 0x5F#7) isHeld
  | .trap src op tile row col task step k =>
    if !(s.reg (ca n 0x104)).getLsbD 0 then s
    else
      let s1 := s.capture (if isHeld then noRank else trapRank) (ca n 0x120)
        (trapWord src op tile row col)
        [(ca n 0x124, task % 2 ^ 16 + step % 2 ^ 16 * 2 ^ 16), (ca n 0x128, k % 2 ^ 32), (ca n 0x12C, k / 2 ^ 32 % 2 ^ 16),
         (ca n 0x130, s.stageNo % 2 ^ 32)]
      if (s.reg (ca n 0x120)).getLsbD 0 then s1.recordEvent n 0 (ca n 0x120) else s1.trapTaken n isHeld
  | .skew cause tile opnd task data found =>
    let s2 := s.capture (if isHeld then noRank else skewRank) (ca n 0x21C) (skewWord cause tile opnd task)
      [(ca n 0x220, data % 2 ^ 16 + found % 2 ^ 16 * 2 ^ 16)]
    (s2.raise 2 1 n (s2.regN (ca n 0x21C)) (s2.regN (ca n 0x220)) isHeld).recordEvent n 2 (ca n 0x21C)
  | .drover cause desc origin task addr =>
    let s2 := s.capture noRank (ca n 0x410) (1 + cause * 2 + desc % 64 * 16 + origin * 2 ^ 10 + task % 2 ^ 16 * 2 ^ 16)
      [(ca n 0x414, addr % 2 ^ 32), (ca n 0x418, addr / 2 ^ 32 % 2 ^ 16)]
    s2.raise 7 1 n (s2.regN (ca n 0x410)) (s2.regN (ca n 0x414)) isHeld
  | .hazard region wkind wid page =>
    let s2 := (s.count (ca n 0x424) 1).capture noRank (ca n 0x41C)
      (1 + region % 64 * 2 + wkind * 2 ^ 7 + wid % 2 ^ 11 * 2 ^ 9) [(ca n 0x420, page)]
    s2.raise 8 1 n (s2.regN (ca n 0x41C)) (s2.regN (ca n 0x420)) isHeld
  | .hazBits m => s.setBits (ca n 0x41C) m
  | .glaze cause func task ev =>
    let s1 := s.capture noRank (ca n 0x314) (1 + cause * 2 + func % 32 * 2 ^ 8 + task % 2 ^ 16 * 2 ^ 16) []
    let d1 := if ev = 5 then 1 - (s.cl n).gactive else if ev = 6 then glzEpochReg (s.cl n) else 0
    s1.raise ev 1 n (s1.regN (ca n 0x314)) d1 isHeld
  | .accPath task => s.raise 1 1 n (tileState (s.cl n)) task isHeld
  | .specFault tile task =>
    let s1 := s.capture noRank (ca n 0xA30) (1 + tile * 2 + task % 2 ^ 16 * 2 ^ 16) []
    s1.raise 9 1 n (s1.regN (ca n 0xA30)) 0 isHeld
  | .count o m => s.count (ca n o) m
  | .sat slot m => (s.count (ca n (0x240 + 4 * slot)) m).drift n slot isHeld
  | .suspect m => s.setBits (ca n 0x430) m
  | .unsuspect m => s.dropBits (ca n 0x430) m
  | .count64 o m => s.count64 (ca n o) m
  | .tcount t old m => s.noteCount (ca n (0x108 + 8 * t)) old m
  | .job k cause => s.jobFault k cause n false isHeld
  | .stop cause => s.stopCl n cause
  | .tandem tile fmt task step k stage bs => s.tandemRecord n tile fmt task step k stage bs

/-- What R255 holds in a speculative task's slot; timing counts and speculation faults take effect at once. -/
def Act.heldBack (a : Act) : Bool :=
  match a with
  | .count64 .. | .tcount .. | .specFault .. => false
  | .stop c => decide (c ≠ 7)
  | _ => true

def Act.isStop (a : Act) : Bool := match a with | .stop _ => true | _ => false

/-- Whether an act captures the record that another does, and before it when both fall in one kc (R84, R137). -/
def Act.outranks (a b : Act) : Bool :=
  match a, b with
  | .trap x _ t r c .., .trap y _ u q d .. => decide (trapRank (trapWord x 0 t r c) < trapRank (trapWord y 0 u q d))
  | .skew c t o .., .skew d u p .. => decide (skewRank (skewWord c t o 0) < skewRank (skewWord d u p 0))
  | _, _ => false

/-- An act is held behind those of its kc, but before a capture that it outranks. -/
def holdAct (l : List Act) (a : Act) : List Act :=
  let head := l.takeWhile (fun b => !a.outranks b)
  head ++ a :: l.drop head.length

/-- A task slot whose side effects are held (R255): its task is speculative and has met no outcome yet. -/
def TSlot.holds (t : TSlot) : Bool := decide (3 ≤ t.st)

/-- Side effects of a task in slot `o` of cluster n: held while the task is speculative (R255). A held fault halts the
task. -/
def State.acts (s : State) (n : Nat) (o : Option Nat) (as : List Act) : State :=
  match o with
  | some i =>
    let t := (s.cl n).slot i
    if t.holds then
      let keep := as.filter Act.heldBack
      let now := as.filter (fun a => !a.heldBack)
      let c := s.cl n
      let s1 := if keep = [] then s else
        s.setCl n (c.setSlot i { t with now := keep.foldl holdAct t.now, halted := t.halted || keep.any Act.isStop })
      now.foldl (applyAct n false) s1
    else as.foldl (applyAct n false) s
  | none => as.foldl (applyAct n false) s

/-! Loess memory (R212, R215, R254) -/

/-- The canonical form of Loess memory: addresses strictly rising, no entry equal to what an unlisted address reads as. -/
def Memory.wf (m : SMap Byte) : Bool := swf zeroByte m

/-- Interleave: stack and local address of a module address (R212). -/
def State.place (s : State) (a : Nat) : Nat × Nat :=
  match s.fld 0x200 0 2 with
  | 0 => (bits a 9 3, bits a 12 28 * 512 + a % 512)
  | 1 => (2 * bits a 38 2 + bits a 9 1, bits a 10 28 * 512 + a % 512)
  | _ => (bits a 37 3, a % 2 ^ 37)

/-- The module address at a local address of a stack (R212). -/
def State.unplace (s : State) (k l : Nat) : Nat :=
  match s.fld 0x200 0 2 with
  | 0 => l / 512 * 4096 + k * 512 + l % 512
  | 1 => k / 2 * 2 ^ 38 + l / 512 * 1024 + k % 2 * 512 + l % 512
  | _ => k * 2 ^ 37 + l

/-- The granule that holds a logical granule's current contents (R254): SEL. -/
def State.selOf (s : State) (g : Nat) : Nat := sget selfNat s.sel g

/-- The provisional map entry in use whose logical range holds a granule (R240). -/
def State.pmeAt (s : State) (g : Nat) : Option Nat :=
  (s.pmes.find? (fun p => p.2.used && decide (p.2.lpage * 4096 ≤ g) && decide (g < (p.2.lpage + p.2.pages) * 4096))).map
    (fun p => p.1)

/-- The copy SEL does not name (R254). -/
def State.otherOf (s : State) (p g : Nat) : Nat :=
  let e := s.pme p
  if s.selOf g = g then e.spage * 4096 + (g - e.lpage * 4096) else g

/-- The physical granule a request reads: the owner of an open entry sees its own writes (R254). -/
def State.readGran (s : State) (g : Nat) (owner : Bool) : Nat :=
  match s.pmeAt g with
  | some p => if owner && sget zeroBool s.wr g then s.otherOf p g else s.selOf g
  | none => s.selOf g

/-- Whether a cluster's task reads and writes a logical granule as its owner (R254). -/
def State.owns (s : State) (cl task g : Nat) : Bool :=
  match s.pmeAt g with
  | some p => (s.pme p).opened && decide ((s.pme p).oclu = cl) && decide ((s.pme p).otask = task)
  | none => false

def nobody (_ : Nat) : Bool := false

/-- Bytes of Loess from an address on; `own` says which granules are read as their owner reads them (R254). -/
def State.loessBytes (s : State) (own : Nat → Bool) : Nat → Nat → Nat → List Byte
  | 0, _, _ => []
  | fuel + 1, a, n =>
    if n = 0 then []
    else
      let m := min n (512 - a % 512)
      sgets zeroByte s.loess (s.readGran (a / 512) (own (a / 512)) * 512 + a % 512) m ++
        s.loessBytes own fuel (a + m) (n - m)

def State.loessReadBy (s : State) (own : Nat → Bool) (a n : Nat) : List Byte := s.loessBytes own (n / 512 + 2) a n
def State.loessRead (s : State) (a n : Nat) : List Byte := s.loessReadBy nobody a n

/-- The first poisoned codeword of a range, as a physical codeword number (R219). -/
def State.poisonBy (s : State) (own : Nat → Bool) (a n : Nat) : Option Nat :=
  if n = 0 then none
  else
    (s.poison.find? (fun e =>
      (List.range ((a + n - 1) / 512 - a / 512 + 1)).any (fun i =>
        decide (s.readGran (a / 512 + i) (own (a / 512 + i)) = e.1 / 8) &&
        decide (a ≤ (a / 512 + i) * 512 + (e.1 % 8) * 64 + 63) &&
        decide ((a / 512 + i) * 512 + (e.1 % 8) * 64 < a + n)))).map (fun e => e.1)

def State.poisoned (s : State) (a n : Nat) : Bool := (s.poisonBy nobody a n).isSome

/-- Write whole bytes at a physical address. -/
def State.putBytes (s : State) (a : Nat) (bs : List Byte) : State :=
  { s with loess := sputs zeroByte s.loess a bs }

/-- Write masked bytes (R216) into one physical granule: address offsets in [0, 512). A codeword covered whole loses its
poison (R219). -/
def State.putGran (s : State) (g : Nat) (ws : List WByte) : State :=
  let old := sgets zeroByte s.loess (g * 512) 512
  let new := ws.foldl (fun l w => l.set (w.addr % 512) (maskByte w.mask (l.getD (w.addr % 512) 0) w.val)) old
  let whole (c : Nat) : Bool := (List.range 64).all (fun i => ws.any (fun w => w.addr % 512 = c * 64 + i && w.mask = 3#2))
  let s1 := s.putBytes (g * 512) new
  { s1 with poison := (List.range 8).foldl (fun m c => if whole c then serase m (g * 8 + c) else m) s1.poison }

/-- Write masked bytes into a logical granule: into the SEL copy, or, for its owner, into the other copy, which takes the
SEL copy's contents at the first write (R254). -/
def State.writeGran (s : State) (own : Bool) (g : Nat) (ws : List WByte) : State :=
  match s.pmeAt g with
  | some p =>
    if own then
      let o := s.otherOf p g
      let src := s.selOf g
      let s1 : State := if sget zeroBool s.wr g then s else
        { s.putBytes (o * 512) (sgets zeroByte s.loess (src * 512) 512) with
          poison := scopy s.poison (src * 8) (o * 8) 8
          wr := sput zeroBool s.wr g true }
      s1.putGran o ws
    else s.putGran (s.selOf g) ws
  | none => s.putGran (s.selOf g) ws

/-- Write whole bytes, granule by granule. -/
def State.loessWriteAux (s : State) (own : Nat → Bool) : Nat → Nat → List Byte → State
  | 0, _, _ => s
  | fuel + 1, a, bs =>
    if bs = [] then s
    else
      let m := min bs.length (512 - a % 512)
      let ws := (bs.take m).zipIdx.map (fun x => ({ addr := a % 512 + x.2, mask := 3#2, val := x.1 } : WByte))
      (s.writeGran (own (a / 512)) (a / 512) ws).loessWriteAux own fuel (a + m) (bs.drop m)

def State.loessWriteBy (s : State) (own : Nat → Bool) (a : Nat) (bs : List Byte) : State :=
  s.loessWriteAux own (bs.length / 512 + 2) a bs
def State.loessWrite (s : State) (a : Nat) (bs : List Byte) : State := s.loessWriteBy nobody a bs

/-! The hazard watch (R200, R201) -/

/-- A write by `who` is accepted in a page by stack k: WRITTEN is set by the first, every other cluster that watches the page there
gets one notice per page and writer (R200, R201). The bits of a page on a stack have the number 8 × page + k. -/
def State.noteWrite (s : State) (page k : Nat) (who : Who) : State :=
  let s1 := if (sget noWho s.written (8 * page + k)).isSome then s else
    { s with written := sput noWho s.written (8 * page + k) (some who) }
  let st := s.stageNo
  s1.clusters.foldl (fun s e =>
    let n := e.1
    let self := decide (who = { kind := 0, id := n })
    if !self && e.2.watches.any (fun w => !w.off && w.has page && !w.blind.contains k) &&
        !(s.noted.contains (n, page, who)) then
      { s with notices := s.notices ++ [{ cl := n, page := page, who := who, stage := st }]
               noted := (n, page, who) :: s.noted }
    else s) s1

/-- The pages of a byte range and the stacks it touches in each (R212): eight granules on end touch all that a page's interleave
has. -/
def State.pageStacks (s : State) (a n : Nat) : List (Nat × Nat) :=
  if n = 0 then []
  else (List.range ((a + n - 1) / 0x200000 - a / 0x200000 + 1)).flatMap (fun i =>
    let page := a / 0x200000 + i
    let lo := max (a / 512) (page * 4096)
    let hi := min ((a + n - 1) / 512) (page * 4096 + 4095)
    ((List.range (min 8 (hi - lo + 1))).map (fun j => (page, (s.place ((lo + j) * 512)).1))).eraseDups)

/-- The writes of a byte range. -/
def State.noteRange (s : State) (a n : Nat) (who : Who) : State :=
  (s.pageStacks a n).foldl (fun s p => s.noteWrite p.1 p.2 who) s

/-- A write of whole bytes by an agent, seen by the hazard watch (R381). -/
def State.agentWrite (s : State) (a : Nat) (bs : List Byte) (who : Who) : State :=
  (s.loessWrite a bs).noteRange a bs.length who

/-- The activity of a request (R269, R366): 8 recovery, 1 host and waybills, 2 deliveries, 3 speculative tasks, 0 foreground. -/
def Req.act (r : Req) : Nat :=
  if r.recov then 8
  else match r.src with
    | .host .. => 1
    | .car .. => 2
    | .way fg => if fg then 0 else 1
    | .job _ true => 1
    | .drover | .job _ false | .load _ => if r.spec then 3 else 0

/-- Who makes a request, as DRV_HAZ and LSM_UE_INFO name it (R209). -/
def Req.who (r : Req) : Who :=
  match r.src with
  | .host .. => { kind := 1 }
  | .car p .. => { kind := 2, id := p }
  | .way _ | .job _ true => { kind := 3 }
  | .drover | .job _ false | .load _ => { kind := 0, id := r.cl }

/-- A request counts against the memory ration of a cluster (R227, R273). -/
def Req.charged (r : Req) (n : Nat) : Bool := decide (r.who = { kind := 0, id := n }) && !r.recov

/-! Requests at the stacks (R212, R272) and slots of a port -/

/-- A request goes to its stack, where it waits for a slot (R212, R272). -/
def State.request (s : State) (r : Req) : State :=
  let k := (s.place r.addr).1
  s.setDie k { s.die k with waiting := (s.die k).waiting ++ [{ r with due := s.stageNo }] }

/-- The granules of byte ranges (address, length), each once. -/
def granules (rs : List (Nat × Nat)) : List Nat :=
  (rs.flatMap (fun r => if r.2 = 0 then [] else
    (List.range ((r.1 + r.2 - 1) / 512 - r.1 / 512 + 1)).map (fun i => r.1 / 512 + i))).eraseDups

/-- The granules of ranges take one slot each on the stacks they lie on (R227, R376): `r` stands for them there. -/
def State.claim (s : State) (r : Req) (rs : List (Nat × Nat)) : State :=
  let gs := (granules rs).map (fun g => (s.place (g * 512)).1)
  (List.range 8).foldl (fun s k =>
    let n := (gs.filter (fun x => decide (x = k))).length
    if n = 0 then s
    else s.setDie k { s.die k with waiting := (s.die k).waiting ++ [{ r with due := s.stageNo, n := n }] }) s

/-- Some slots are still to be taken for a source. -/
def State.waitsFor (s : State) (src : ReqSrc) : Bool := s.dies.any (fun d => d.2.waiting.any (fun r => decide (r.src = src)))

/-- Slots that a cluster's waiting requests are still to take. -/
def State.waitingOf (s : State) (n : Nat) : Nat :=
  s.dies.foldl (fun a e => a + ((e.2.waiting.filter (fun r => r.charged n)).map (fun r => r.n)).foldl (· + ·) 0) 0

/-- The lesser of two caps of which 0 means no cap. -/
def lesser (a b : Nat) : Nat := if a = 0 then b else if b = 0 then a else min a b

/-- The cap on the memory slots of a cluster in a stage (R273, R403): 0 for none. -/
def State.slotCap (s : State) : Nat := lesser (s.fld 0x1008 0 24) (s.fld 0x200014 0 24)

/-- The cluster has taken all the memory slots of its ration for the stage. -/
def State.slotsUsed (s : State) (n : Nat) : Bool := decide (s.slotCap ≠ 0) && decide (s.slotCap ≤ (s.cl n).slots)

/-- The cluster's memory ration for the stage is used up, by what it has taken and what waits (R273, R403). -/
def State.quotaFull (s : State) (n : Nat) : Bool :=
  decide (s.slotCap ≠ 0) && decide (s.slotCap ≤ (s.cl n).slots + s.waitingOf n)

/-- A slot waits for a grant on a port. -/
def State.sendSlot (s : State) (p act kind : Nat) (data : List Byte) : State :=
  let x := s.port p
  s.setPort p { x with txq := x.txq ++ [{ act := act, kind := kind, data := data }] }

/-- A control message of a TYPE, its fields by offset (R315). -/
def controlMsg (type : Nat) (fields : List (Nat × List Byte)) : List Byte :=
  fields.foldl (fun m f => m.take f.1 ++ f.2 ++ m.drop (f.1 + f.2.length)) (leBytes 2 type ++ List.replicate 510 0)

/-- Acknowledge a delivery (R315, R342). -/
def State.dackOut (s : State) (p dseq cl status : Nat) : State :=
  s.sendSlot p 2 4 (controlMsg 5 [(4, leBytes 2 1), (8, leBytes 2 dseq ++ leBytes 2 cl ++ leBytes 1 status)])

/-! Waybill receipts (R357) -/

def State.ringSize (s : State) (r : Nat) : Nat := 2 ^ s.fld (ra r 0) 1 4

/-- Write the receipt of waybill ix of ring r. -/
def State.receipt (s : State) (r ix seq opc status : Nat) (res : List Nat) (irq : Bool) : State :=
  let size := s.ringSize r
  let body := leBytes 4 seq ++ leBytes 2 opc ++ leBytes 1 status ++ leBytes 1 (1 - ix / size % 2) ++
    (List.range 5).flatMap (fun i => leBytes 4 (res.getD i 0))
  let bs := body ++ leBytes 4 (crc32c seq body).toNat
  let s1 := s.toHost 7 (.mem (s.reg64 (ra r 0x0C) + 32 * (ix % size)) bs)
  let s2 := s1.setRegN (ra r 0x1C) (s1.regN (ra r 0x1C) + 1)
  let s3 := s2.setRing r { s2.ring r with returned := ((s2.ring r).returned + 1) % 2 ^ 32 }
  if irq || (s3.reg (ra r 0)).getLsbD 5 then s3.trigger r else s3

/-- The receipt of a taken waybill: it leaves the list of taken ones. -/
def State.finish (s : State) (r : Nat) (w : Wb) (status : Nat) (res : List Nat) : State :=
  let g := s.ring r
  let s1 := s.setRing r { g with taken := g.taken.filter (fun x => x.ix ≠ w.ix) }
  s1.receipt r w.ix w.seq w.opc status res w.irq

def State.wb (s : State) (r : Nat) (ix : Nat) : Option Wb := (s.ring r).taken.find? (fun w => w.ix = ix)
def State.setWb (s : State) (r : Nat) (w : Wb) : State :=
  s.setRing r { s.ring r with taken := (s.ring r).taken.map (fun x => if x.ix = w.ix then w else x) }

/-- A free value that the model draws (log entry 5). -/
def State.draw (s : State) : State := { s with fresh := s.fresh + 1 }

/-- Parameters the converters take from the module (R53, R143). -/
def State.env (s : State) (n : Nat) : Env :=
  { seed := BitVec.ofNat 64 (s.reg64 0x100 + s.reg64 0x108), stage := s.stageNo, stat := (s.reg (ca n 0x200)).getLsbD 4 }

end Sys2Proof.Machine
end

