-- ==== Sys2Proof/WellFormed.lean ====
section
/-! DEFINITION. Which commands are well formed: field values the tables of R94 to R98, R121, R148, R149, R163 and R243 to
R247 have (causes 3 and 7 of R241 as far as one instruction shows them), and operand sizes of the other commands. -/

namespace Sys2Proof

/-- A positive, normal binary32 code (R163). -/
def posNormal (w : Word) : Bool :=
  let e := w.toNat / 2 ^ 23 % 256
  decide (w.toNat < 2 ^ 31) && decide (e ≠ 0) && decide (e ≠ 255)

/-- Group size of a grouped MOP (R121). -/
def MopF.group (f : MopF) : Nat := 32 * 2 ^ f.gs.toNat

/-- The path of the MOP is Q512: posit32 (R57). -/
def MopF.wide (f : MopF) : Bool := f.cls.toNat = 4

/-- K indices a weight set covers (R103). -/
def MopF.cover (f : MopF) : Nat := if f.cls.toNat = 0 ∧ f.opk.toNat = 0 then 64 else 32

/-- Field values of MOP (R94 to R96, R100, R121, R245). -/
def MopF.ok (f : MopF) : Bool :=
  let side := if f.wide then 16 else 32
  decide (f.opk.toNat ≤ 6) && decide (f.cls.toNat ≤ 7) &&
  (decide (f.opk.toNat = 0) || (decide (f.cls.toNat ≤ 2) && !f.gq)) &&
  (!f.stream || (decide (f.cls.toNat ≠ 4) && decide (f.cls.toNat ≠ 7))) &&
  decide (f.grp.toNat ≠ 3) && decide (f.gs.toNat ≠ 3) && decide (f.zpm.toNat ≠ 3) && decide (f.wsrc.toNat ≠ 3) &&
  (f.stream || decide (f.wsrc.toNat = 0)) &&
  decide (1 ≤ f.rows.toNat) && decide (f.rows.toNat ≤ side) && decide (1 ≤ f.cols.toNat) && decide (f.cols.toNat ≤ side) &&
  decide (1 ≤ f.k.toNat) &&
  (decide (f.wsrc.toNat = 0) || decide (f.k.toNat ≤ f.cover)) &&
  (!f.gq || (decide (f.cls.toNat ≤ 1) && decide (f.k.toNat % f.group = 0)))

/-- Output formats of READ and DRAIN (R246), rounding (R45). -/
def ReadF.ok (f : ReadF) : Bool :=
  (decide (f.fmt.toNat ≤ 7) || decide (f.fmt.toNat = 9) || decide (f.fmt.toNat = 10)) && decide (f.rnd.toNat ≠ 3)

/-- Formats and path of TLOAD (R79, R246). -/
def TloadF.ok (f : TloadF) : Bool :=
  decide (f.path.toNat ≠ 0) && (decide (f.fmt.toNat = 10) || (decide (f.fmt.toNat = 9) && decide (f.path.toNat = 5)))

/-- Function, formats and parameters of GLZ (R148, R149, R163, R247). -/
def GlzF.ok (f : GlzF) : Bool :=
  let fmt (c : BitVec 4) : Bool := decide (3 ≤ c.toNat) && decide (c.toNat ≤ 7)
  let stat := decide (f.gfn.toNat = 0x12) || decide (f.gfn.toNat = 0x13)
  decide (f.gfn.toNat ≤ 0x13) && fmt f.ifmt && fmt f.ofmt &&
  (decide (f.gfn.toNat = 0x10) || decide (f.idesc = 0)) &&
  (if stat then posNormal f.eps else decide (f.eps = 0))

/-- A well-formed command. -/
def Instr.wf : Instr → Bool
  | .loop _ _ count _ => decide (count ≠ 0)
  | .mop _ f => f.ok
  | .read _ f => f.ok
  | .drain _ f => f.ok
  | .tload _ f => f.ok
  | .glz _ f => f.ok
  | .gtload _ _ _ addr => decide (addr.toNat % 512 = 0)
  | .setp _ f => decide (f.off.toNat % 4 = 0)
  | .red _ f => decide (f.carry.toNat ≠ 3)
  | .spair _ f => decide (1 ≤ f.rows.toNat) && decide (f.rows.toNat ≤ 32) && decide (1 ≤ f.cols.toNat) && decide (f.cols.toNat ≤ 32)
  | .job _ joff => decide (joff.toNat % 64 = 0)
  | .caravanFrame _ _ f => decide (f.slots.length = 5) && f.slots.all (fun s => decide (s.length = 512))
  | .tetherFlit f => decide (f.length = 272)
  | .hostLoessRead addr len _ => decide (addr + len ≤ 2 ^ 43)
  | .hostLoessWrite addr data _ => decide (addr + data.length ≤ 2 ^ 43)
  | .waybillTake _ (some bs) _ _ => decide (bs.length = 64)
  | _ => true

end Sys2Proof
end

