-- ==== Sys2Proof/Machine/Itinerary.lean ====
section
/-! DEFINITION. The itinerary instructions that need no other unit than the cluster's own (R243 to R247), and the task
walk (R248 to R250). Instructions of the caravan and of bedrock jobs stand beside those units. -/

namespace Sys2Proof.Machine

/-! Issue -/

/-- The slot whose task runs a half (R250). -/
def Cluster.halfSlot (c : Cluster) (h : Half) : Option Nat :=
  let on (t : TSlot) : Bool := match h with | .access => t.accOn | .execute => t.execOn
  if on c.slot0 then some 0 else if on c.slot1 then some 1 else none

/-- The cluster's clock runs: its domain is on and the module is not paused by a stop of start-up (R396). -/
def State.clOn (s : State) (n : Nat) : Bool := s.winOn (.cluster n)

/-- The slot of the task a half of a running cluster may issue for: the half runs, does not wait for a boundary, and its
task is not halted by a held fault (R255). An execute half issues nothing while an array or glaze instruction has steps
left (R99, R165). In a cluster that settles at a pause neither half starts an instruction (R294). -/
def State.issuing (s : State) (n : Nat) (h : Half) : Option Nat :=
  let c := s.cl n
  let free : Bool := match h with | .access => true | .execute => c.mop.isNone && c.glz.isNone
  if c.st = 2 && s.clOn n && free && !c.pausing && !(c.half h).waitStage then
    (c.halfSlot h).bind (fun o => if (c.slot o).halted then none else some o)
  else none

/-- Move a half past the instruction it has issued. -/
def Cluster.pass1 (c : Cluster) (h : Half) : Cluster := c.setHalf h { c.half h with ix := (c.half h).ix + 1 }

/-- Issue one instruction of a half: `f` gets the slot and the cluster and answers the cluster after it with its side
effects, or none while the instruction must wait. -/
def State.issue (s : State) (n : Nat) (h : Half) (f : Nat → Cluster → Option (Cluster × List Act)) : State :=
  match s.issuing n h with
  | none => s
  | some o =>
    match f o (s.cl n) with
    | none => s
    | some r => (s.setCl n (r.1.pass1 h)).acts n (some o) r.2

/-! Done and the slots (R242, R250) -/

/-- All task entries have issued (R249). -/
def Cluster.walked (c : Cluster) : Bool := decide (c.sec.iters ≠ 0) && decide (c.sec.iters ≤ c.pass)

/-- A cluster is done when all task entries have issued and every task has finished (R242). -/
def Cluster.checkDone (c : Cluster) : Cluster :=
  if c.st = 2 && c.walked && decide (c.slot0.st = 0) && decide (c.slot1.st = 0) then { c with st := 4 } else c

def Cluster.freeSlot (c : Cluster) (o : Nat) : Cluster := (c.setSlot o {}).checkDone

/-- A half has ended (R250). -/
def TSlot.endHalf (t : TSlot) (h : Half) : TSlot :=
  match h with
  | .access => { t with accOn := false, accEnd := true }
  | .execute => { t with execOn := false, execEnd := true }

def TSlot.ended (t : TSlot) : Bool := t.accEnd && t.execEnd

/-- A half of the task in a slot ends: the slot is free, or waits for its outcome (R250, R260). -/
def Cluster.endHalf (c : Cluster) (o : Nat) (h : Half) : Cluster :=
  let t := (c.slot o).endHalf h
  if !t.ended then c.setSlot o t
  else if t.st = 2 then c.freeSlot o
  else if t.st = 3 then c.setSlot o { t with st := 4 }
  else c.setSlot o t

/-! Control instructions -/

/-- NOP (R243). -/
def execNop (cl : ClusterNo) (h : Half) (s : State) : Host.Outcome State Fault Refusal :=
  .next (s.issue cl h (fun _ c => some (c, [])))

/-- END (R250). -/
def execEndHalf (cl : ClusterNo) (h : Half) (s : State) : Host.Outcome State Fault Refusal :=
  .next (s.issue cl h (fun o c => some (c.endHalf o h, [])))

/-- LOOP (R244): the counter of its nesting level is kept by the LOOP's index. -/
def loopTo (c : Cluster) (h : Half) (count target : Nat) : Cluster :=
  let p := c.half h
  let n := sget zeroNat p.loops p.ix + 1
  if n < count then c.setHalf h { p with ix := target, loops := sput zeroNat p.loops p.ix n }
  else c.setHalf h { p with ix := p.ix + 1, loops := sput zeroNat p.loops p.ix 0 }

def execLoop (cl : ClusterNo) (h : Half) (count target : BitVec 16) (s : State) : Host.Outcome State Fault Refusal :=
  if !(Instr.loop cl h count target).wf then .refused (.refusedAtLoad "LOOP")
  else
    match s.issuing cl h with
    | none => .next s
    | some _ => .next (s.setCl cl (loopTo (s.cl cl) h count.toNat target.toNat))

/-- STAGEW (R243). -/
def execStagew (cl : ClusterNo) (h : Half) (s : State) : Host.Outcome State Fault Refusal :=
  .next (s.issue cl h (fun _ c => some (c.setHalf h { c.half h with waitStage := true }, [])))

/-! Array instructions -/

/-- MOP (R68, R81, R94, R245, R257). -/
def execMop (cl : ClusterNo) (f : MopF) (s : State) : Host.Outcome State Fault Refusal :=
  if !f.ok then .refused (.refusedAtLoad "MOP")
  else .next (s.issue cl .execute (fun o c =>
    let t := c.slot o
    mopIssue c f t.task c.exec.ix o t.holds))

/-- WLOAD (R106, R244): one set loads at a time. -/
def execWload (cl : ClusterNo) (desc : BitVec 6) (pack : Bool) (s : State) : Host.Outcome State Fault Refusal :=
  .next (s.issue cl .execute (fun o c =>
    if c.wload.isSome then none
    else some ({ c with wload := some { desc := desc.toNat, pack := pack, slot := o, task := (c.slot o).task } }, [])))

/-- SWAP (R107): the set must be loaded. -/
def execSwap (cl : ClusterNo) (s : State) : Host.Outcome State Fault Refusal :=
  .next (s.issue cl .execute (fun _ c => if c.wload.isSome then none else some ({ c with active := !c.active }, [])))

/-! Tile instructions -/

/-- Whether an instruction of slot o that names a tile must wait: the tile is read, drained or loaded (R68), or an
unresolved speculative task of the other slot wrote it (R257). -/
def tileWaits (t : Tile) (o : Nat) : Bool :=
  t.out.isSome || t.ld.isSome || (match t.spec with | some q => decide (q ≠ o) | none => false)

/-- An instruction of slot o other than a MOP waits for tile n also while a stream instruction has terms to add to it (R68). -/
def Cluster.tileWaits (c : Cluster) (n o : Nat) : Bool := Machine.tileWaits (c.tile n) o || c.accumulates n

/-- The elements that are out of range at resolution (R64), by row and column. -/
def outOfRange (t : Tile) : List (Nat × Nat) :=
  t.rows.flatMap (fun r => r.2.zipIdx.filterMap (fun x =>
    if resolveElem t.path x.1 = x.1 then none else some (r.1, x.2)))

/-- Resolution of a tile at a read, drain or reduction (R64, R67, R83 OP 0x3). -/
def resolveActs (t : Tile) (n task step : Nat) : List Act :=
  match outOfRange t with
  | [] => []
  | (r, j) :: _ =>
    [.flags (flagOvf ||| flagNar), .trap .array 3 n (cellIx t.path r) (cellIx t.path j) task step (t.count % 2 ^ 48)]

/-- READ and DRAIN (R67, R68, R137): the rows leave by TILE_DRAIN_ROW. -/
def readIssue (c : Cluster) (f : ReadF) (isDrain : Bool) (o : Nat) : Option (Cluster × List Act) :=
  let n := f.tile.val
  let t := c.tile n
  let k := c.slot o
  if c.tileWaits n o then none
  else if t.discard then some (c, [])
  else
    let out : ReadOut :=
      { drain := isDrain, fmt := f.fmt.toNat, rnd := f.rnd.toNat, satw := f.satw, site := f.site.toNat
        desc := f.desc.toNat, task := k.task, step := c.exec.ix, slot := o, k := t.count }
    some (c.setTile n { t.resolved with out := some out }, resolveActs t n k.task c.exec.ix)

def execRead (cl : ClusterNo) (f : ReadF) (s : State) : Host.Outcome State Fault Refusal :=
  if !f.ok then .refused (.refusedAtLoad "READ") else .next (s.issue cl .execute (fun o c => readIssue c f false o))

def execDrain (cl : ClusterNo) (f : ReadF) (s : State) : Host.Outcome State Fault Refusal :=
  if !f.ok then .refused (.refusedAtLoad "DRAIN") else .next (s.issue cl .execute (fun o c => readIssue c f true o))

/-- Elements of a tile load (R79). -/
def loadSize (c : Cluster) (t : Tile) (l : TileLoad) : Nat :=
  min (if l.wide ∧ t.path = 3 then 512 else 1024) (c.desc l.desc).total

/-- Write the codes of a load into a tile from element `pos` on (R78, R79). -/
def putLoaded (t : Tile) (wide : Bool) : Nat → List Nat → Tile × Flg
  | _, [] => (t, 0)
  | pos, x :: xs =>
    if wide && decide (t.path = 3) then
      match xs with
      | y :: ys =>
        let e := ofWide 3 (x % 2 ^ 256 + y % 2 ^ 256 * 2 ^ 256)
        let r := putLoaded (t.setElem (pos / 32) (pos % 32 / 2) e.1) wide (pos + 2) ys
        (r.1, e.2 ||| r.2)
      | [] => (t, 0)
    else
      let e : Elem × Flg := if wide then ofWide t.path x else (.num (signedOf 32 x), 0)
      let r := putLoaded (t.setElem (pos / 32) (pos % 32) e.1) wide (pos + 1) xs
      (r.1, e.2 ||| r.2)

/-- A tile load takes what its stream has queued (R79); it ends with its last element. -/
def tileFill (c : Cluster) (n : Nat) : Cluster × List Act :=
  let t := c.tile n
  match t.ld with
  | none => (c, [])
  | some l =>
    let q := min (queuedElems c l.desc) (loadSize c t l - l.pos)
    let q := if l.wide ∧ t.path = 3 then q / 2 * 2 else q
    match c.popFor l.desc q n with
    | none => (c, [])
    | some (xs, c1, a) =>
      let r := putLoaded t l.wide l.pos xs
      let ld := if loadSize c t l ≤ l.pos + q then none else some { l with pos := l.pos + q }
      (c1.setTile n { r.1 with ld := ld }, a ++ (if r.2 = 0 then [] else [.flags r.2]))

/-- TLOAD (R79, R81, R257). DESIGN CHOICE (log entry 153): a load leaves the tensor-scale latches of the tile as they are. -/
def tloadIssue (c : Cluster) (f : TloadF) (o : Nat) : Option (Cluster × List Act) :=
  let n := f.tile.val
  let t := c.tile n
  let k := c.slot o
  let wide := decide (f.fmt.toNat = 10)
  let path := f.path.toNat
  if c.tileWaits n o then none
  else if t.discard then some (c, [])
  else if k.holds ∧ t.path ≠ 0 ∧ t.spec ≠ some o then some (c, [.specFault n k.task, .stop 7])
  else if !wide ∧ t.path ≠ 0 ∧ t.path ≠ path then some (c, [.accPath k.task, .stop 6])
  else
    let t1 := { t with path := path, ld := some { wide := wide, desc := f.desc.toNat }
                       spec := if k.holds then some o else t.spec }
    some (tileFill (c.setTile n t1) n)

def execTload (cl : ClusterNo) (f : TloadF) (s : State) : Host.Outcome State Fault Refusal :=
  if !f.ok then .refused (.refusedAtLoad "TLOAD") else .next (s.issue cl .execute (fun o c => tloadIssue c f o))

/-- CLEAR (R246). -/
def execClear (cl : ClusterNo) (tile : Fin 2) (s : State) : Host.Outcome State Fault Refusal :=
  .next (s.issue cl .execute (fun o c =>
    let t := c.tile tile
    if c.tileWaits tile o then none
    else if t.discard then some (c, [])
    else some (c.setTile tile t.emptied, [])))

/-! Glaze and module instructions -/

/-- The evaluators are shared (R164, R167): GLZ_CTL.RATE, or G1 mode whatever it holds. -/
def State.glzShared (s : State) (n : Nat) : Bool :=
  let c := s.cl n
  (s.reg (ca n 0x300)).getLsbD 0 || decide ((c.gbank c.gactive).fmt = 2)

/-- GLZ (R148, R149, R167, R182): a function the active bank cannot perform does not execute; the first vector asks again, of the
bank it binds (`vectorEntry`). -/
def glzIssue (c : Cluster) (f : GlzF) (o : Nat) : Option (Cluster × List Act) :=
  let k := c.slot o
  let cause := glzRefuse (c.gbank c.gactive) f
  if cause ≠ 0 then some (c, [.glaze cause f.gfn.toNat k.task 4, .stop 5])
  else if glzTotal f = 0 then some (c, [])
  else some ({ c with glz := some { f := f, task := k.task, step := c.exec.ix, slot := o, spec := k.holds } }, [])

def execGlz (cl : ClusterNo) (f : GlzF) (s : State) : Host.Outcome State Fault Refusal :=
  if !f.ok then .refused (.refusedAtLoad "GLZ") else .next (s.issue cl .execute (fun o c => glzIssue c f o))

/-- A bank other than the active one still serves an instruction bound to it (GLZ_BANKn.OLD, R177, R181). -/
def Cluster.old (c : Cluster) (b : Nat) : Bool :=
  decide (b ≠ c.gactive) && (match c.glz with | some r => decide (r.bank = some b) | none => false)

/-- The cause and address of the first granule of a range that fails a region check (R198). -/
def checkRange (g : Region) (addr n : Nat) (write spec : Bool) : Option (Nat × Nat) :=
  if n = 0 then none
  else
    let ok (a : Nat) : Bool := decide (g.check (a : Int) write spec = 0)
    let page0 := addr / 0x200000
    let pages := (List.range ((addr + n - 1) / 0x200000 - page0 + 1)).map (fun i =>
      if i = 0 then addr / 512 * 512 else (page0 + i) * 0x200000)
    (pages.find? (fun a => !ok a)).map (fun (a : Nat) => (g.check (a : Int) write spec, a))

/-- Region n of the cluster's table (R197). -/
def State.region (s : State) (cl n : Nat) : Region :=
  regionOf (s.regN (ca cl (0x800 + 8 * n)) + 2 ^ 32 * s.regN (ca cl (0x804 + 8 * n)))

/-- Whether a new table load is refused: the inactive bank is loading or an earlier request waits (R177). -/
def Cluster.gbusy (c : Cluster) : Bool := c.gload.isSome || c.gwait.isSome

/-- Take a table load request: it starts, or waits for OLD to clear (R174, R177). DESIGN CHOICE (log entry 154): while a bank loads, GLZ_BANKn
shows EPOCH and FMT of what it held. -/
def Cluster.requestLoad (c : Cluster) (l : GLoad) : Cluster :=
  let b := 1 - c.gactive
  if c.old b then { c with gwait := some l }
  else ({ c with gload := some l } : Cluster).setGbank b { c.gbank b with state := 1 }

/-- GSWITCH (R176). -/
def execGswitch (cl : ClusterNo) (s : State) : Host.Outcome State Fault Refusal :=
  .next (s.issue cl .execute (fun _ c => some ({ c with gswitch := true }, [])))

/-- GSTEP (R56): the stage is marked. -/
def execGstep (cl : ClusterNo) (s : State) : Host.Outcome State Fault Refusal :=
  match s.issuing cl .execute with
  | none => .next s
  | some _ => .next { s.issue cl .execute (fun _ c => some (c, [])) with gstep := true }

/-- WADV (R139). -/
def execWadv (cl : ClusterNo) (s : State) : Host.Outcome State Fault Refusal :=
  .next (s.issue cl .execute (fun _ c => some ({ c with wadv := true }, [])))

/-- The outcome of a SETP's comparison (R247). -/
def setpValue (c : Cluster) (f : SetpF) : Bool :=
  let x := signedOf 32 (leNat (c.stg f.off.toNat 4))
  let i := signedOf 32 f.imm.toNat
  match f.cmp.toNat with
  | 0 => decide (x = i)
  | 1 => decide (x ≠ i)
  | 2 => decide (x < i)
  | _ => decide (i ≤ x)

/-- A predicate becomes pending, or takes the AND with what it holds; the second SETP of a stage, and only that, raises
EV_PRED_MULTI (R251). A predicate is 0 unresolved, 1 pending false, 3 pending true, 4 more once the event is raised. -/
def State.setPred (s : State) (cl p : Nat) (v : Bool) : State :=
  let old := sget zeroNat s.preds p
  let late := s.setpLate || decide (8127 < s.kc)
  let new := (if v && decide (old % 4 ≠ 1) then 3 else 1) + (if old = 0 then 0 else 4)
  let s1 := { s with preds := sput zeroNat s.preds p new, setpLate := late }
  if old = 0 ∨ 4 ≤ old then s1 else s1.raise 10 1 cl p 0

/-- SETP (R251). -/
def execSetp (cl : ClusterNo) (f : SetpF) (s : State) : Host.Outcome State Fault Refusal :=
  if f.off.toNat % 4 ≠ 0 then .refused (.refusedAtLoad "SETP")
  else
    match s.issuing cl .execute with
    | none => .next s
    | some _ =>
      .next ((s.issue cl .execute (fun _ c => some (c, []))).setPred cl f.pred.toNat (setpValue (s.cl cl) f))

/-! Access instructions -/

/-- Start a descriptor's stream from its first element (R190, R136). -/
def Cluster.startStrm (c : Cluster) (dn stage o : Nat) : Cluster :=
  let d := c.desc dn
  let t : Strm := { run := true, task := (c.slot o).task, slot := c.specSlot o, ptr := d.base, began := stage }
  let c0 := (List.range 16).foldl (fun c k => if (c.tag k).old ∧ (c.tag k).desc = dn then c.setTag k {} else c) c
  let c1 := { c0.setStrm dn t with gbase := serase c0.gbase dn }
  if d.kind = 1 ∧ d.scm then
    let p := serase c1.popped (bits d.aux 0 6)
    { c1 with popped := if d.aux.testBit 14 then serase p (bits d.aux 8 6) else p }
  else c1

/-- The streams of an SPAIR (R244, R245). -/
def SpairF.descs (f : SpairF) : List Nat :=
  [f.descA.toNat, f.descW.toNat] ++ (if f.mva then [f.mdescA.toNat] else []) ++ (if f.mvw then [f.mdescW.toNat] else [])

/-- STREAM (R190, R244): waits while the stream runs. -/
def execStream (cl : ClusterNo) (desc : BitVec 6) (s : State) : Host.Outcome State Fault Refusal :=
  .next (s.issue cl .access (fun o c =>
    if (c.strm desc.toNat).run then none
    else
      let c1 := c.startStrm desc.toNat s.stageNo o
      some ({ c1 with pairs := c1.pairs.filter (fun p => !((SpairF.descs p.f).contains desc.toNat)) }, [])))

/-- SPAIR (R245). -/
def execSpair (cl : ClusterNo) (f : SpairF) (s : State) : Host.Outcome State Fault Refusal :=
  if !(Instr.spair cl f).wf then .refused (.refusedAtLoad "SPAIR")
  else .next (s.issue cl .access (fun o c =>
    if (SpairF.descs f).any (fun d => (c.strm d).run) then none
    else
      let c1 := (SpairF.descs f).foldl (fun c d => c.startStrm d s.stageNo o) c
      let keep := c1.pairs.filter (fun p => !((SpairF.descs p.f).any (fun d => (SpairF.descs f).contains d)))
      some ({ c1 with pairs := keep ++ [{ f := f }] }, [])))

/-- WAITS (R244). -/
def execWaits (cl : ClusterNo) (desc : BitVec 6) (s : State) : Host.Outcome State Fault Refusal :=
  .next (s.issue cl .access (fun _ c => if (c.strm desc.toNat).run then none else some (c, [])))

/-! The task walk (R248 to R250) -/

/-- Base stage of the next entry (R249). -/
def Cluster.base (c : Cluster) : Nat :=
  if c.next < c.sec.loopTo then c.start else c.start + c.sec.loopBase + c.pass * c.sec.loopStages

/-- The walk goes on to the next entry (R249). -/
def Cluster.advance (c : Cluster) : Cluster :=
  if c.next + 1 < c.sec.ntask then { c with next := c.next + 1 }
  else { c with next := c.sec.loopTo, pass := c.pass + 1 }

/-- The first free task slot. -/
def Cluster.freeSlotNo (c : Cluster) : Option Nat :=
  if c.slot0.st = 0 then some 0 else if c.slot1.st = 0 then some 1 else none

/-- Open the provisional map entries a speculative task owns (R254, R262). -/
def State.openPmes (s : State) (n task : Nat) : State :=
  { s with pmes := s.pmes.map (fun p =>
      if p.2.used ∧ p.2.oclu = n ∧ p.2.otask = task then (p.1, { p.2 with opened := true }) else p) }

/-- A speculative task may not issue: the module has voted PAUSEOK and waits for the decision (R328). -/
def State.specWaits (s : State) : Bool :=
  s.cvn.decision.isNone && (match s.cvn.own with | some (_, p) => p | none => false)

/-- TASK_ISSUE (R249); a task that issues after its stage has slipped (R289). While the module straggles no task issues
(R327). -/
def execTaskIssue (cl : ClusterNo) (s : State) : Host.Outcome State Fault Refusal :=
  let c := s.cl cl
  let e := c.taskE c.next
  match c.freeSlotNo with
  | none => .next s
  | some o =>
    if c.st = 2 && s.clOn cl && !c.pausing && !s.cvn.straggling && !(decide (e.mode = 2) && s.specWaits) && !c.walked &&
        decide (c.base + e.stage ≤ s.stageNo) then
      let t : TSlot :=
        { st := e.mode + (if e.mode = 0 then 2 else if e.mode = 1 then 0 else 1), task := c.next, mode := e.mode
          sense := e.sense, pred := e.pred, wbase := e.wbase, wsize := e.wsize, ord := c.ord
          accIx := e.acc, execIx := e.exec, base := c.base }
      let c1 := ({ c with ord := c.ord + 1 } : Cluster).setSlot o t
      let s0 := if c.base + e.stage < s.stageNo then s.count 0x608 1 else s
      let s1 := s0.setCl cl c1.advance
      .next (if e.mode = 2 then s1.openPmes cl c.next else s1)
    else .next s

/-- The half of the task in a slot has ended or never runs. -/
def TSlot.halfEnded (t : TSlot) (h : Half) : Bool := match h with | .access => t.accEnd | .execute => t.execEnd
def TSlot.halfOn (t : TSlot) (h : Half) : Bool := match h with | .access => t.accOn | .execute => t.execOn

/-- The slot of the first issued task whose half has not ended. -/
def Cluster.nextHalf (c : Cluster) (h : Half) : Option Nat :=
  let waits (o : Nat) : Bool := decide ((c.slot o).st ≠ 0) && decide ((c.slot o).st ≠ 6) && !(c.slot o).halfEnded h
  if waits 0 && waits 1 then (if c.slot0.ord < c.slot1.ord then some 0 else some 1)
  else if waits 0 then some 0 else if waits 1 then some 1 else none

/-- TASK_HALF_START (R250, R252): a gated task that waits keeps those behind it waiting. -/
def execTaskHalfStart (cl : ClusterNo) (h : Half) (s : State) : Host.Outcome State Fault Refusal :=
  let c := s.cl cl
  match c.nextHalf h with
  | none => .next s
  | some o =>
    let t := c.slot o
    if c.st = 2 && s.clOn cl && !c.pausing && decide (t.st ≠ 1) && !t.halfOn h && !t.halted then
      let ix := match h with | .access => t.accIx | .execute => t.execIx
      let t1 := match h with | .access => { t with accOn := true } | .execute => { t with execOn := true }
      .next (s.setCl cl ((c.setSlot o t1).setHalf h { ix := ix }))
    else .next s

end Sys2Proof.Machine
end

