-- ==== Sys2Proof/Machine/ArrayCmds.lean ====
section
/-! DEFINITION. Steps of the array, the weight banks, the manifest lane and the drain port (R69, R100, R104, R106, R130). -/

namespace Sys2Proof.Machine

/-- A cluster's units work while it runs or has finished its tasks, and its domain is on. -/
def State.works (s : State) (n : Nat) : Bool := (decide ((s.cl n).st = 2) || decide ((s.cl n).st = 4)) && s.clOn n

/-- The slot whose speculative task a side effect belongs to, if that task still holds it. -/
def Cluster.owner (c : Cluster) (o task : Nat) : Option Nat :=
  if (c.slot o).st ≠ 0 ∧ (c.slot o).task = task then some o else none

/-- The task whose step this is stands halted by a held fault (R255). -/
def Cluster.halts (c : Cluster) (o : Option Nat) : Bool :=
  match o with
  | some i => (c.slot i).halted
  | none => false

/-- One step of a unit of a working cluster: `f` answers none while the step does not come about. -/
def State.unitStep (s : State) (n : Nat) (o : Option Nat) (f : Cluster → Option (Cluster × List Act)) : State :=
  if s.works n && !(s.cl n).halts o then
    match f (s.cl n) with
    | none => s
    | some r => (s.setCl n r.1).acts n o r.2
  else s

/-- The slot of the array instruction in progress. -/
def Cluster.mopOwner (c : Cluster) : Option Nat := c.mop.bind (fun m => c.owner m.slot m.task)

/-- OUTER_PRODUCT_STEP (R100). -/
def execOuterProductStep (cl : ClusterNo) (s : State) : Host.Outcome State Fault Refusal :=
  .next (s.unitStep cl (s.cl cl).mopOwner outerStep)

/-- Marks as a consumer of this cluster finds them (R210): those of DRV_SUSPECT and those held in its slots (R255). -/
def State.suspects (s : State) (n : Nat) : Nat :=
  let c := s.cl n
  (c.slot0.held ++ c.slot0.now ++ c.slot1.held ++ c.slot1.now).foldl (fun v a => match a with
    | .suspect m => v ||| m
    | .unsuspect m => v - (v &&& m)
    | _ => v) (s.regN (ca n 0x430))

/-- Side effects of several instructions of a cluster, each for the slot of its task. -/
def State.runActs (s : State) (n : Nat) (as : List RunAct) : State :=
  as.foldl (fun s x => s.acts n ((s.cl n).owner x.1 x.2.1) [x.2.2]) s

/-- STREAM_TOKEN_STEP (R104). Tokens already in the array go on when the task that has sent them stands halted; none enters (R255). -/
def execStreamTokenStep (cl : ClusterNo) (s : State) : Host.Outcome State Fault Refusal :=
  let c := s.cl cl
  if !s.works cl then .next s
  else match tokenStep c (s.suspects cl) (c.halts c.mopOwner) with
    | none => .next s
    | some r => .next ((s.setCl cl r.1).runActs cl r.2)

/-- The slot of the task whose WLOAD or MOP loads a weight set. -/
def Cluster.loadOwner (c : Cluster) : Option Nat := c.loading.bind (fun w => c.owner w.slot w.task)

/-- WEIGHT_ROW_LOAD (R106). -/
def execWeightRowLoad (cl : ClusterNo) (s : State) : Host.Outcome State Fault Refusal :=
  .next (s.unitStep cl (s.cl cl).loadOwner weightRow)

/-- MANIFEST_LANE_ACCEPT (R130). -/
def execManifestLaneAccept (cl : ClusterNo) (s : State) : Host.Outcome State Fault Refusal :=
  .next (s.unitStep cl ((s.cl cl).laneRun.bind (fun m => (s.cl cl).owner m.slot m.task)) laneAccept)

/-- The elements of one row of a tile as the drain port delivers them: exact value and code (R67, R69, R78). -/
def drainElems (t : Tile) (r : ReadOut) : List (Val × Nat) :=
  let side := tileSide t.path
  (List.range side).flatMap (fun j =>
    let e := resolveElem t.path (t.elem r.next j)
    if r.fmt = 10 then
      let w := wideOf t.path e
      if t.path = 3 then [(elemVal t true e, w % 2 ^ 256), (.zero false, w / 2 ^ 256)] else [(elemVal t true e, w)]
    else [(elemVal t false e, 0)])

/-- The row the store converter takes; `tnd`: the tandem check follows it. -/
def drainConv (c : Cluster) (t : Tile) (r : ReadOut) (tnd : Bool) : ConvRow :=
  { desc := r.desc, src := if r.fmt = 10 then .wide else (fmtOf r.fmt).getD .bin32, round := decide (r.fmt ≠ 10)
    rnd := r.rnd, satw := r.satw, site := r.site, elems := drainElems t r, task := r.task, step := r.step, tnd := tnd
    slot := (c.owner r.slot r.task).bind (fun o => c.specSlot o) }

/-- INT32 elements of an I64 tile out of range (R77). -/
def outInt32 (t : Tile) (r : ReadOut) : Nat :=
  if t.path = 5 ∧ r.fmt = 9 then
    ((t.row r.next).filter (fun e => decide (e.units < -((2 ^ 31 : Nat) : Int)) || decide (((2 ^ 31 : Nat) : Int) ≤ e.units))).length
  else 0

/-- Elements that a read delivers to the store converter. -/
def readTotal (t : Tile) (r : ReadOut) : Nat :=
  let side := tileSide t.path
  side * side * (if t.path = 3 ∧ r.fmt = 10 then 2 else 1)

/-- The drain port delivers the next row (R69); the last row ends the read, and a drain then empties the tile (R67). `tnd`:
tandem mode is on; then the first row takes the check unit, which another read may hold (R388), if the engine's record queue
has `room` (R304). -/
def drainRow (c : Cluster) (n : Nat) (stage : Nat) (tnd room : Bool) : Option (Cluster × List Act) :=
  let t := c.tile n
  match t.out with
  | none => none
  | some r =>
    let last := decide (tileSide t.path ≤ r.next + 1)
    let begins := tnd && decide (r.next = 0)
    if r.red.isSome || !convRoom c || (begins && (c.tchk.isSome || !room)) then none
    else
      let chk := if begins then
          some { tile := n, fmt := r.fmt, task := r.task, step := r.step, slot := r.slot, k := r.k, left := readTotal t r : TChk }
        else c.tchk
      let mine := match chk with | some x => decide (x.tile = n) && decide (x.task = r.task) && decide (x.step = r.step) | none => false
      let chk1 := if last && mine then chk.map (fun x => { x with stage := stage }) else chk
      let x := drainConv c t r mine
      let m := outInt32 t r
      let t1 := { t with out := some { r with next := r.next + 1 } }
      let t2 := if !last then t1 else if r.drain then { t1.emptied with out := none } else { t1 with out := none }
      some (({ c with conv := c.conv ++ [x], tchk := chk1 } : Cluster).setTile n t2,
        if m = 0 then [] else [.count (0x118 + 4 * n) m])

/-- Tandem records of an engine's clusters that are in the making or held by a speculative task (R255, R303). -/
def State.recordsDue (s : State) (e : Nat) : Nat :=
  s.clusters.foldl (fun a x =>
    if x.1 / 128 = e then
      let h (t : TSlot) : Nat := (t.held.filter (fun y => match y with | .tandem .. => true | _ => false)).length
      a + (if x.2.tchk.isSome then 1 else 0) + h x.2.slot0 + h x.2.slot1
    else a) 0

/-- The queue of 512 that a cluster's next record goes to has room (R304): in MODE 2 a mirror's records are the partner records of
its primary's engine. -/
def State.recordRoom (s : State) (n : Nat) : Bool :=
  let e := n / 128
  let have_ := if s.tmode = 2 ∧ 1024 ≤ n then (s.unit (e - 8)).partner.length else (s.unit e).own.length
  decide (have_ + s.recordsDue e < 512)

/-- TILE_DRAIN_ROW (R69). -/
def execTileDrainRow (cl : ClusterNo) (tile : Fin 2) (s : State) : Host.Outcome State Fault Refusal :=
  let o := ((s.cl cl).tile tile).out.bind (fun r => (s.cl cl).owner r.slot r.task)
  .next (s.unitStep cl o (fun c => drainRow c tile s.stageNo (decide (s.tmode ≠ 0)) (s.recordRoom cl)))

end Sys2Proof.Machine
end

