-- ==== Sys2Proof/Machine/Ecc.lean ====
section
/-! DEFINITION. Row activations of the stacks (R222, R223) and what the ECC decoder meets in the codewords a reader takes or a partial
write reads (R216 to R219). -/

namespace Sys2Proof.Machine

/-- A stack takes and serves requests (R230, R234): STATE is ready. In recovery the package that UPDATE verifies is read from Loess memory
(R365, R438): the stacks serve there too. -/
def State.stackReady (s : State) (k : Nat) : Bool := (decide (s.fld (sa k 0) 0 3 = 2) || s.boot.recovery) && s.domainOn (144 + k)

/-! Row activations (R222, R223) -/

def rowKey (l : Nat) : Nat := bits l 9 4 * 2 ^ 22 + bits l 15 22

/-- An activation of the row a local address lies in (R222). -/
def State.activate (s : State) (k l : Nat) : State :=
  let s1 := s.count64 (sa k 0x30) 1
  let d := s1.die k
  let row := bits l 15 22
  let chan := bits l 9 4
  match d.mits.find? (fun m => decide (m.row = row) && decide (m.chan = chan)) with
  | some _ =>
    s1.setDie k { d with mits := d.mits.map (fun m =>
      if m.row = row ∧ m.chan = chan then { m with further := m.further + 1 } else m) }
  | none =>
    let n := sget zeroNat d.rows (rowKey l) + 1
    let d1 := { d with rows := sput zeroNat d.rows (rowKey l) n }
    if s.fld (sa k 0x24) 0 16 ≤ n then
      (s1.setDie k { d1 with mits := d1.mits ++ [{ chan := chan, row := row, due := s.stageNo }] }).count (sa k 0x28) 1
    else s1.setDie k d1

/-- Activations of a row wait for its mitigation refresh (R223). -/
def Stack.rowWaits (d : Stack) (l : Nat) : Bool :=
  d.mits.any (fun m => decide (m.row = bits l 15 22) && decide (m.chan = bits l 9 4) && decide (256 ≤ m.further))

/-- A row that has taken 256 further activations is counted once (R223). -/
def State.throttle (s : State) (k chan row : Nat) : State :=
  let d := s.die k
  let hit (m : Mit) : Bool := decide (m.row = row) && decide (m.chan = chan) && decide (256 ≤ m.further) && !m.throttled
  if d.mits.any hit then
    let d1 := { d with mits := d.mits.map (fun m => if hit m then { m with throttled := true } else m) }
    ((s.setDie k d1).count (sa k 0x2C) 1).raise 13 3 k row 0
  else s

/-- The granules of ranges are read or written: one activation each (R222). -/
def State.touch (s : State) (rs : List (Nat × Nat)) : State :=
  (granules rs).foldl (fun s g => let p := s.place (g * 512); s.activate p.1 p.2) s

/-- A stack performs what it has accepted: it is ready, or is entering HOLD (R230, R234). -/
def State.stackServes (s : State) (k : Nat) : Bool :=
  (decide (s.fld (sa k 0) 0 3 = 2) || decide (s.fld (sa k 0) 0 3 = 3) || s.boot.recovery) && s.domainOn (144 + k)

/-- The stacks a byte range touches: those of its first granules, and of the first ones in each part of the address space that an
interleave gives to other stacks (R212). -/
def State.stacksOf (s : State) (a n : Nat) : List Nat :=
  let near := (List.range 8).map (fun i => a + 512 * i)
  let far := (List.range 8).flatMap (fun i => [i * 2 ^ 37, i * 2 ^ 37 + 512])
  (((near ++ far ++ [a + n - 1]).filter (fun x => decide (a ≤ x) && decide (x < a + n))).map (fun x => (s.place x).1)).eraseDups

/-- A granule lies in one of some byte ranges. -/
def inRanges (rs : List (Nat × Nat)) (g : Nat) : Bool :=
  rs.any (fun r => decide (r.2 ≠ 0) && decide (r.1 / 512 ≤ g) && decide (g ≤ (r.1 + r.2 - 1) / 512))

/-- No granule of the ranges lies in a row that waits for its mitigation refresh (R222, R223): a row holds four granules. -/
def State.rowsFree (s : State) (rs : List (Nat × Nat)) : Bool :=
  s.dies.all (fun d => d.2.mits.all (fun m => decide (m.further < 256) ||
    (List.range 4).all (fun j => !inRanges rs (s.unplace d.1 (m.row * 2 ^ 15 + j * 2 ^ 13 + m.chan * 2 ^ 9) / 512))))

/-- No request accepted before touches a granule of the ranges (R215). -/
def State.clearOf (s : State) (rs : List (Nat × Nat)) : Bool :=
  s.dies.all (fun d => d.2.accepted.all (fun q => !inRanges rs (q.addr / 512)))

/-- What has its slots may be performed in the ranges: their stacks serve, no row of theirs waits, nothing earlier touches them
(R215, R223, R230). -/
def State.reachable (s : State) (rs : List (Nat × Nat)) : Bool :=
  rs.all (fun r => (s.stacksOf r.1 r.2).all s.stackServes) && s.rowsFree rs && s.clearOf rs

/-- The management block may read or write a range: its stacks are ready, no row of it waits, no request accepted before touches it
(R215, R223, R230). -/
def State.rangeUp (s : State) (a n : Nat) : Bool :=
  (s.stacksOf a n).all s.stackReady && s.rowsFree [(a, n)] && s.clearOf [(a, n)]

/-- Traffic of the management block in ranges of Loess: its activations and the slots it takes (R222, R366). -/
def State.mgmtTraffic (s : State) (fg : Bool) (rs : List (Nat × Nat)) : State :=
  (s.touch rs).claim { write := false, src := .way fg } rs

/-- The bytes of a codeword become free values (R217). -/
def State.freeCodeword (s : State) (cw : Nat) : State :=
  { s.putBytes (cw * 64) ((List.range 64).map (fun i => Config.ecc s.fresh i)) with fresh := s.fresh + 1 }

/-- A codeword is found uncorrectable (R219): `src` and `who` as LSM_UE_INFO codes them. -/
def State.uncorrectable (s : State) (cw src who : Nat) : State :=
  let p := s.place (cw * 64)
  let k := p.1
  let s1 := ({ s with poison := sput zeroBool s.poison cw true } : State).count (sa k 0x18) 1
  let s2 := s1.capture noRank (sa k 0x1C) (1 + src * 2 + who % 2 ^ 13 * 8) [(sa k 0x20, p.2 / 64)]
  s2.raise 12 3 k (s2.regN (sa k 0x1C)) (s2.regN (sa k 0x20))

/-- A requester as bits [15:3] of LSM_UE_INFO. -/
def Who.code (w : Who) : Nat := w.kind + 4 * w.id

/-- The decoder meets a codeword (R217 to R219); `newer`: a write to it has been accepted since (R218). -/
def State.eccCase (s : State) (cw src who : Nat) (newer : Bool) (c : EccCase) : State :=
  if sget zeroBool s.poison cw then s
  else
    let k := (s.place (cw * 64)).1
    let back (s : State) : State := if newer then s else
      s.setDie k { s.die k with retry := (s.die k).retry + 1 }
    match c with
    | .clean => s
    | .corrected => back (s.count (sa k 0x14) 1)
    | .detected => s.uncorrectable cw src who
    | .miscorrected => back ((s.freeCodeword cw).count (sa k 0x14) 1)
    | .silent => s.freeCodeword cw

/-- The decoder meets the codeword that holds address 64 × cw for a reader. -/
def State.eccAt (s : State) (own : Nat → Bool) (cw src who : Nat) (c : EccCase) : State :=
  s.eccCase (s.readGran (cw / 8) (own (cw / 8)) * 8 + cw % 8) src who false c

/-- A codeword holds a byte of a range. -/
def touches (a n cw : Nat) : Bool := decide (n ≠ 0) && decide (cw * 64 < a + n) && decide (a < cw * 64 + 64)

/-- A write of a range covers a part of a codeword (R216). -/
def partly (a n cw : Nat) : Bool := touches a n cw && !(decide (a ≤ cw * 64) && decide (cw * 64 + 64 ≤ a + n))

/-- The decoder meets the codewords of ranges that an agent reads (R219); `ecc` names codewords by address / 64. -/
def State.eccReads (s : State) (rs : List (Nat × Nat)) (who : Who) (ecc : List (Nat × EccCase)) : State :=
  ecc.foldl (fun s e => if rs.any (fun r => touches r.1 r.2 e.1) then s.eccAt nobody e.1 0 who.code e.2 else s) s

/-- The decoder meets the codewords that an agent's write covers in part (R216, R219). -/
def State.eccEdges (s : State) (a n : Nat) (who : Who) (ecc : List (Nat × EccCase)) : State :=
  ecc.foldl (fun s e => if partly a n e.1 then s.eccAt nobody e.1 1 who.code e.2 else s) s

/-- The management block as a requester (R366, LSM_UE_INFO.WKIND 3). -/
def mgmtWho : Who := { kind := 3 }

end Sys2Proof.Machine
end

