-- ==== Sys2Proof/Machine/GlazeCmds.lean ====
section
/-! DEFINITION. Steps of the glaze unit and its table loads (R164, R172 to R177). -/

namespace Sys2Proof.Machine

/-- A table load of an itinerary that has started since `before`: its granules wait for their slots (R227, R269). -/
def State.claimLoad (s before : State) (n : Nat) : State :=
  match (before.cl n).gload, (s.cl n).gload with
  | none, some l => if l.wb.isSome then s else s.claim { cl := n, write := false, src := .load n } [(l.addr, 8320)]
  | _, _ => s

/-- GLAZE_VECTOR_ENTRY (R164, R175). In shared or G1 rate the vector takes the evaluators of granted slots, which the
grants of the cluster's glaze wheel have counted: one for each 8 of its valid lanes, in every pass of a row. -/
def execGlazeVectorEntry (cl : ClusterNo) (s : State) : Host.Outcome State Fault Refusal :=
  let c := s.cl cl
  let o := c.glz.bind (fun r => c.owner r.slot r.task)
  let need := if s.glzShared cl then (c.glz.map glzSlots).getD 0 else 0
  if c.gslots < need then .next s
  else
    .next (s.unitStep cl o (fun c =>
      (vectorEntry c).map (fun r => ({ r.1 with gslots := 0 }, r.2))))

/-- GTLOAD (R174, R177, R198). Its cluster's drover sends no Loess request beyond its ration or while the module straggles (R273,
R327). -/
def execGtload (cl : ClusterNo) (region : BitVec 6) (epoch : BitVec 16) (addr : BitVec 40) (s : State) :
    Host.Outcome State Fault Refusal :=
  if addr.toNat % 512 ≠ 0 then .refused (.refusedAtLoad "GTLOAD")
  else if s.quotaFull cl || s.cvn.straggling then .next s
  else
    let bad := checkRange (s.region cl region.toNat) addr.toNat 8320 false false
    let refused := (s.issuing cl .execute).isSome && (s.cl cl).gbusy && bad.isNone
    let s1 := s.issue cl .execute (fun o c =>
      match bad with
      | some (cause, a) => some (c, [.drover cause region.toNat 2 (c.slot o).task a, .stop 2])
      | none =>
        if c.gbusy then some (c, [])
        else some (c.requestLoad { addr := addr.toNat, epoch := epoch.toNat, task := (c.slot o).task }, []))
    .next (if refused then s1.busyW (.cluster cl) else s1.claimLoad s cl)

/-- GLAZE_LOAD_START (R177). -/
def execGlazeLoadStart (cl : ClusterNo) (s : State) : Host.Outcome State Fault Refusal :=
  let c := s.cl cl
  match c.gwait with
  | none => .next s
  | some l =>
    if c.old (1 - c.gactive) || c.gload.isSome || !s.clOn cl || (l.wb.isNone && (s.quotaFull cl || s.cvn.straggling)) then .next s
    else .next ((s.setCl cl (({ c with gwait := none } : Cluster).requestLoad l)).claimLoad s cl)

/-- The image a load has written, checked (R172): the bank afterwards. -/
def loadedBank (epoch : Nat) (bs : List Byte) : GBank :=
  let img (i : Nat) : Byte := bs.getD i 0
  let fmt := imageCheck img (crc32c 0 (bs.drop 32)).toNat
  if fmt = 0 then {} else { state := 2, epoch := epoch, fmt := fmt, img := sputs zeroByte [] 0 bs }

/-- The end of a table load (R172, R174): the bank is ready, or empty with cause 3. -/
def State.putBank (s : State) (n : Nat) (l : GLoad) (img : List Byte) : State :=
  let c := s.cl n
  let bank := loadedBank l.epoch img
  let s1 := s.setCl n (({ c with gload := none } : Cluster).setGbank (1 - c.gactive) bank)
  if bank.fmt = 0 then applyAct n false s1 (.glaze 3 0 0 5) else s1

/-- The image of an itinerary's load is read (R215, R222). A poisoned image is delivered to no one (R219): the bank is empty and
the cluster stops. -/
def State.loadDone (s : State) (n : Nat) (l : GLoad) : State :=
  let s1 := s.touch [(l.addr, 8320)]
  let c := s1.cl n
  if s1.poisoned l.addr 8320 then
    (s1.setCl n (({ c with gload := none } : Cluster).setGbank (1 - c.gactive) {})).stopCl n 8
  else s1.putBank n l (s1.loessRead l.addr 8320)

/-- The receipt of a GLOAD once every bank of its set is loaded (R365): REFUSED names the banks that failed R172. -/
def State.loadReceipt (s : State) (l : GLoad) : State :=
  match l.wb with
  | none => s
  | some (r, ix, _) =>
    match s.wb r ix with
    | none => s
    | some w =>
      let left := s.clusters.any (fun e =>
        let mine (x : Option GLoad) : Bool := match x.bind (fun x => x.wb) with
          | some w => decide (w.1 = r) && decide (w.2.1 = ix)
          | none => false
        mine e.2.gload || mine e.2.gwait)
      let bad := w.clus.filter (fun n => let c := s.cl n; decide ((c.gbank (1 - c.gactive)).state ≠ 2))
      if left then s
      else match bad with
        | [] => s.finish r w 0 [w.clus.length]
        | n :: _ => s.finish r w 0x0A [bad.length, n]

/-- The granules of an itinerary's load have taken their slots and may be read (R215, R223, R230). -/
def State.loadReady (s : State) (n : Nat) (l : GLoad) : Bool :=
  !s.waitsFor (.load n) && s.reachable [(l.addr, 8320)]

/-- GLAZE_LOAD_DONE (R174): `ecc` is what the decoder meets in the image; a waybill has read its image before (R367). -/
def execGlazeLoadDone (cl : ClusterNo) (ecc : List (Nat × EccCase)) (s : State) : Host.Outcome State Fault Refusal :=
  match (s.cl cl).gload with
  | none => .next s
  | some l =>
    if !s.clOn cl then .next s
    else match l.wb with
      | some (_, _, img) => .next ((s.putBank cl l img).loadReceipt l)
      | none =>
        if !s.loadReady cl l then .next s
        else .next ((s.eccReads [(l.addr, 8320)] { kind := 0, id := cl.val } ecc).loadDone cl l)

end Sys2Proof.Machine
end

