-- ==== Sys2Proof/Machine/DroverCmds.lean ====
section
/-! DEFINITION. The drover's steps: converters, store pops, granules, tags, the hazard watch, zeroing of a window
(R187, R192 to R203, R256, R341). -/

namespace Sys2Proof.Machine

/-! Converters and queues -/

/-- Whose side effects a stream's are. -/
def Cluster.strmOwner (c : Cluster) (dn : Nat) : Option Nat :=
  (c.strm dn).slot.bind (fun o => c.owner o (c.strm dn).task)

/-- A tile load takes what its stream has just queued (R79). -/
def fillTiles (r : Cluster × List Act) (dn : Nat) : Cluster × List Act :=
  let fill (r : Cluster × List Act) (n : Nat) : Cluster × List Act :=
    match (r.1.tile n).ld with
    | some l => if l.desc = dn then let q := tileFill r.1 n; (q.1, r.2 ++ q.2) else r
    | none => r
  fill (fill r 0) 1

/-- LOAD_QUEUE_PUSH (R187, R194). -/
def execLoadQueuePush (cl : ClusterNo) (desc : BitVec 6) (s : State) : Host.Outcome State Fault Refusal :=
  let dn := desc.toNat
  .next (s.unitStep cl ((s.cl cl).strmOwner dn) (fun c => (loadPush c dn (s.env cl)).map (fun r => fillTiles r dn)))

/-- STORE_QUEUE_PUSH (R187). -/
def execStoreQueuePush (cl : ClusterNo) (s : State) : Host.Outcome State Fault Refusal :=
  let c := s.cl cl
  let o := (convNext c).bind (fun x => x.slot.bind (fun o => c.owner o x.task))
  .next (s.unitStep cl o (fun c => storePush c (s.env cl)))

/-- STORE_QUEUE_POP (R187). -/
def execStoreQueuePop (cl : ClusterNo) (s : State) : Host.Outcome State Fault Refusal :=
  let c := s.cl cl
  let o := c.storeQ.head?.bind (fun e => c.strmOwner e.desc)
  .next (s.unitStep cl o storePop)

/-! Hazards (R200 to R203) -/

/-- Restart a copy stream after a hazard of a stage (R203): its tags drop their data, it goes back to where it stood at the start
of that stage and copies again, also when it had ended in it; its watch is armed again. `now` is the stage that runs. -/
def restartCopy (c : Cluster) (dn stage now : Nat) : Cluster :=
  let t := c.strm dn
  let pos := if t.began = stage then 0 else if stage = now then t.stagePos else t.lastPos
  let c1 := (List.range 16).foldl (fun c n =>
    let g := c.tag n
    if g.st ≠ 0 ∧ !g.write ∧ !g.ahead ∧ g.desc = dn then
      if g.st = 3 then c.dropTag n else c.setTag n { g with drop := true }
    else if g.old ∧ g.desc = dn then c.setTag n { g with old := false }
    else c) c
  let c2 : Cluster := { c1 with watches := c1.watches.map (fun (w : Watch) => if w.desc = dn then { w with done := false, off := false } else w) }
  c2.setStrm dn { t with run := true, pos := pos, iss := pos, qbuf := [], raw := [], restarted := some stage, again := max t.again t.iss }

/-- What a hazard of a stage does to one watching stream (R202, R203): copy streams with RESTART restart once, later users
of the elements are marked. -/
def hazardStream (r : Cluster × List Act) (dn stage now : Nat) : Cluster × List Act :=
  let c := r.1
  let t := c.strm dn
  let d := c.desc dn
  if 64 ≤ dn then r
  else if d.kind = 3 ∧ d.restart then
    if t.restarted = some stage then (c, r.2 ++ [.hazBits 0x400000, .stop 11])
    else (restartCopy c dn stage now, r.2 ++ [.hazBits 0x200000])
  else
    let seen := (c.took.filter (fun x => x.2 = (dn, stage))).map (fun x => x.1)
    ({ c with hazards := (dn, stage) :: c.hazards },
      r.2 ++ seen.map (fun w => if w = 4 then Act.hazBits 0x100000 else Act.suspect (2 ^ w)))

/-- Whose side effects a hazard of a watch is: those of the speculative task that armed it, while it is unresolved (R255). -/
def State.watchOwner (s : State) (n : Nat) (w : Watch) : Option Nat := w.slot.bind (fun o => (s.cl n).owner o w.task)

/-- A hazard at a cluster for one page and writer (R201, R202). The hazard's record names the first watch that no held task has
armed, if there is one; what follows for a stream falls to the stream's own task, once, however many watches its runs have armed. -/
def State.hazard (s : State) (n page : Nat) (who : Who) (stage : Nat) : State :=
  let ws := (s.cl n).watches.filter (fun w => w.has page && decide (w.since ≤ stage) && (!w.off || decide (stage < s.stageNo)))
  let free (w : Watch) : Bool := match s.watchOwner n w with | some o => !((s.cl n).slot o).holds | none => true
  match (ws.find? free).orElse (fun _ => ws.head?) with
  | none => s
  | some w =>
    let s1 := s.acts n (s.watchOwner n w) [Act.hazard w.region who.kind who.id page]
    let firsts := ws.zipIdx.filter (fun x => !(ws.take x.2).any (fun w => decide (w.desc = x.1.desc)))
    (firsts.map (fun x => x.1)).foldl (fun s w =>
      let r := hazardStream (s.cl n, []) w.desc stage s.stageNo
      (s.setCl n r.1).acts n (s.watchOwner n w) r.2) s1

/-- Arm a watch on the pages of a region (R200, R201). -/
def State.arm (s : State) (n : Nat) (w : Watch) : State :=
  let c := s.cl n
  let s1 := s.setCl n { c with watches := { w with since := s.stageNo } :: c.watches }
  let hits := s1.written.filter (fun e => w.has (e.1 / 8))
  hits.foldl (fun s e =>
    match e.2 with
    | some who => if who = { kind := 0, id := n } ∨ s.noted.contains (n, e.1 / 8, who) then s
        else ({ s with noted := (n, e.1 / 8, who) :: s.noted } : State).hazard n (e.1 / 8) who s.stageNo
    | none => s) s1

/-- HAZARD_NOTICE (R201, R202): the oldest notice under way to the cluster arrives. -/
def execHazardNotice (cl : ClusterNo) (s : State) : Host.Outcome State Fault Refusal :=
  match s.notices.find? (fun x => x.cl = cl.val) with
  | none => .next s
  | some x => .next (({ s with notices := s.notices.erase x } : State).hazard cl x.page x.who x.stage)

/-! Granules (R192, R193, R198, R199) -/

/-- A tag to use: a free one, or one whose run-ahead granule has landed and is given up. -/
def Cluster.tagToUse (c : Cluster) : Option (Nat × Cluster) :=
  match c.freeTag with
  | some k => some (k, c)
  | none => ((List.range 16).find? (fun k => (c.tag k).ahead && decide ((c.tag k).st = 3))).map (fun k => (k, c.dropTag k))

/-- A failed demand check (R198). -/
def State.drvFault (s : State) (n dn cause addr : Nat) : State :=
  let c := s.cl n
  let t := c.strm dn
  (s.setCl n (c.setStrm dn { t with halted := true })).acts n (c.strmOwner dn)
    [.drover cause dn 0 t.task addr, .stop 2]

/-- A stream's task is speculative now (R255). -/
def Cluster.strmSpec (c : Cluster) (dn : Nat) : Bool :=
  match c.strmOwner dn with
  | some o => (c.slot o).holds
  | none => false

/-- The relay window a page lies in, in a mustered domain (R341). -/
def State.relayOf (s : State) (page : Nat) : Option Relay :=
  if s.fld 0x500000 0 2 = 2 then
    s.cvn.book.bind (fun b => b.relays.find? (fun w =>
      decide (w.src = s.fld 0x500000 4 9) && decide (w.lpage ≤ page) && decide (page < w.lpage + w.pages)))
  else none

/-- The port of this module whose peer is a module (R329). -/
def State.portTo (s : State) (m : Nat) : Option Nat :=
  s.cvn.book.bind (fun b =>
    ((b.mods.getD (s.fld 0x500000 4 9) []).zipIdx.find? (fun x => decide (x.1.role ≠ 0) && decide (x.1.peer = m))).map (fun x => x.2))

/-- Runs of bytes at consecutive addresses, at most 496 long (R341). -/
def byteRuns : List (Nat × Byte) → List (Nat × List Byte)
  | [] => []
  | (a, v) :: r =>
    match byteRuns r with
    | (b, vs) :: q => if b = a + 1 ∧ vs.length < 496 then (a, v :: vs) :: q else (a, [v]) :: (b, vs) :: q
    | [] => [(a, [v])]

/-- The whole bytes of a masked write; what stands beside a lone nibble is a free value of its address, the same in every run. -/
def wholeBytes (ws : List WByte) : List (Nat × Byte) :=
  (ws.foldl (fun (m : List (Nat × Byte × BitVec 2)) w =>
    match m.find? (fun x => x.1 = w.addr) with
    | some x => (m.erase x) ++ [(w.addr, maskByte w.mask x.2.1 w.val, x.2.2 ||| w.mask)]
    | none => m ++ [(w.addr, w.val, w.mask)]) []).map (fun x =>
      (x.1, maskByte x.2.2 (Config.relayNibble x.1) x.2.1))

/-- A relay store leaves as delivery slots on the port to its destination (R341). -/
def State.relayStore (s : State) (n k : Nat) (w : Relay) (ws : List WByte) : State :=
  match s.portTo w.dst with
  | none => s
  | some p =>
    let runs := byteRuns (wholeBytes ws)
    let x := s.port p
    let slots := runs.zipIdx.map (fun r =>
      let dst := r.1.1 - w.lpage * 0x200000 + w.dpage * 0x200000
      ({ act := 2, kind := 2
         data := leBytes 5 dst ++ leBytes 2 r.1.2.length ++ [0] ++ leBytes 2 ((s.cvn.dseq + r.2) % 2 ^ 16) ++
           leBytes 2 n ++ leBytes 4 0 ++ r.1.2 } : TxSlot))
    let seqs := (List.range runs.length).map (fun i => (s.cvn.dseq + i) % 2 ^ 16)
    let s1 := s.setPort p { x with txq := x.txq ++ slots }
    { s1 with
      cvn := { s1.cvn with dseq := (s1.cvn.dseq + runs.length) % 2 ^ 16 }
      relays := s1.relays ++ [{ cl := n, tag := k, seqs := seqs, port := p }] }

/-- A logical granule lies in a provisional map entry that names a cluster's task as its owner (R253). -/
def State.ownPme (s : State) (n task g : Nat) : Bool :=
  match s.pmeAt g with
  | some p => decide ((s.pme p).oclu = n) && decide ((s.pme p).otask = task)
  | none => false

/-- The next granule of a store stream (R193, R195, R198, R341, R343). -/
def State.issueWrite (s : State) (n dn : Nat) : State :=
  let c := s.cl n
  let t := c.strm dn
  match t.wbuf with
  | [] => s
  | b :: _ =>
    let g := b.addr / 512 * 512
    let ws := t.wbuf.takeWhile (fun w => w.addr / 512 * 512 = g)
    let d := c.desc dn
    let spec := c.strmSpec dn
    let check := (s.region n d.region).check (g : Int) true spec
    let cause := if check = 0 ∧ spec ∧ !s.ownPme n t.task (g / 512) then 3 else check
    if cause ≠ 0 then s.drvFault n dn cause g
    else match c.tagToUse with
      | none => s
      | some (k, c0) =>
        let relay := s.relayOf (g / 0x200000)
        if relay.isSome && (s.cvn.voted || t.lateRelay) then
          if t.lateRelay then s
          else
            let s1 := (s.setCl n (c.setStrm dn { t with lateRelay := true })).count 0x50001C 1
            s1.raise 31 1 n (s1.regN 0x50001C) 0
        else
          let c1 := dropLanded c0 g
          let tag : Tag := { st := 1, write := true, gran := g, desc := dn, region := d.region, stage := s.stageNo
                             slot := t.slot }
          let c2 := (c1.setTag k tag).take 4 1
          let s1 := s.setCl n (c2.setStrm dn { c2.strm dn with wbuf := t.wbuf.drop ws.length })
          match relay with
          | some w => s1.relayStore n k w ws
          | none => s1.request { cl := n, tag := k, write := true, addr := g, bytes := ws, spec := spec, task := t.task }

/-- The granule `j` further along STRIDE0 than a stream's last (R199). -/
def aheadGran (d : Desc) (j : Nat) : Int :=
  let last := d.nibble (d.total - 1) / 2
  let step : Int := (d.strides.headD 0) * ((d.memFmt.bits : Nat) : Int) / 8
  let dir : Int := if step < 0 then -1 else 1
  if step.natAbs ≤ 512 then granOf last + dir * 512 * j else granOf (last + step * j)

/-- A granule holds bytes that a descriptor reads or writes (R199): its elements, its scale entries with their group sums, or its
manifest records at their greatest length. -/
def Desc.covers (d : Desc) (g : Int) : Bool :=
  let span (a n : Nat) : Bool := decide ((a : Int) < g + 512) && decide (g < ((a + n : Nat) : Int))
  let w : Int := ((d.memFmt.bits / 4 : Nat) : Int)
  !d.space && (
    if d.kind = 2 then
      if d.subq then span d.base (10 * d.total)
      else span d.base (d.total * (if d.zm then 2 else 1)) || (decide (d.aux ≠ 0) && span d.aux (2 * d.total))
    else reaches ((d.strides.zip d.counts).reverse.map (fun p => (w * p.1, p.2))) (2 * (d.base : Int)) (2 * g - w + 1) (2 * g + 1023))

/-- The descriptors a dynamic store writes its scale entries and records through (R195). -/
def Desc.links (d : Desc) : List Nat :=
  if d.kind = 1 ∧ d.scm then bits d.aux 0 6 :: (if d.mf && d.aux.testBit 14 then [bits d.aux 8 6] else []) else []

/-- A current descriptor covers a granule (R199): that of a stream that runs, or one linked to it. -/
def Cluster.coversNow (c : Cluster) (g : Int) : Bool :=
  c.streams.any (fun e => e.2.run && (e.1 :: (c.desc e.1).links).any (fun x => (c.desc x).covers g))

/-- A run-ahead fetch (R199): only of a granule that no current descriptor covers. -/
def State.issueAhead (s : State) (n dn : Nat) : State :=
  let c := s.cl n
  let t := c.strm dn
  let d := c.desc dn
  if (d.kind ≠ 0 ∧ d.kind ≠ 3) ∨ d.strides.headD 0 = 0 ∨ s.fld (ca n 0x400) 0 3 ≤ t.ahead then s
  else
    let g := aheadGran d (t.ahead + 1)
    let c1 := c.setStrm dn { t with ahead := t.ahead + 1 }
    if c.coversNow g then s.setCl n c1
    else if (s.region n d.region).check g false false ≠ 0 then (s.setCl n c1).count (ca n 0x42C) 1
    else if (List.range 16).any (fun k => (c.tag k).write && decide ((c.tag k).gran = g.toNat) && decide ((c.tag k).st ≠ 0)) then s
    else match c.freeTag with
      | none => s
      | some k =>
        let tag : Tag := { st := 1, gran := g.toNat, desc := dn, region := d.region, ahead := true, stage := s.stageNo
                           slot := t.slot }
        (((s.setCl n ((c1.setTag k tag).take 4 1)).count (ca n 0x428) 1).request
          { cl := n, tag := k, write := false, addr := g.toNat, spec := c.strmSpec dn, task := t.task })

/-- The next granule of a load, scale or copy stream (R193, R198, R199, R200): asked for, taken over from run-ahead, or still in the
landing slot it came to. -/
def State.issueRead (s : State) (n dn : Nat) : State :=
  let c := s.cl n
  let t := c.strm dn
  let d := c.desc dn
  if !t.run || d.space || decide (d.kind = 1) then s
  else
    let m := firstMissing c dn d t d.total 16400 (max t.iss t.pos)
    match m.2 with
    | none => if d.total ≤ m.1 then s.issueAhead n dn else s
    | some g =>
      let spec := c.strmSpec dn
      let rg := s.region n d.region
      let cause := rg.check g false spec
      if cause ≠ 0 then s.drvFault n dn cause (g % (2 ^ 48 : Nat)).toNat
      else
        let a := g.toNat
        let held := (List.range 16).any (fun k => (c.tag k).write && decide ((c.tag k).gran = a) && decide ((c.tag k).st ≠ 0))
        let upto := lastUse c dn d t d.total g 16400 m.1
        let arm (s : State) : State :=
          if rg.hw && !t.fetched then
            s.arm n { desc := dn, region := d.region, page := rg.base, pages := rg.pages, slot := t.slot, task := t.task }
          else s
        let mark (c : Cluster) : Cluster := c.setStrm dn { t with iss := m.1, fetched := true }
        if held then s
        else match c.aheadFor d.region a with
          | some k =>
            let g0 := c.tag k
            if g0.poison then
              (s.setCl n ((c.dropTag k).setStrm dn { t with halted := true })).acts n (c.strmOwner dn) [.stop 8]
            else arm (s.setCl n (mark (c.setTag k { g0 with desc := dn, ahead := false, upto := upto })))
          | none => match c.oldTag dn a with
          | some k => arm (s.setCl n (mark ((c.setTag k { c.tag k with st := 3, old := false, upto := upto, slot := t.slot }).take 4 1)))
          | none => match c.tagToUse with
            | none => s
            | some (k, c0) =>
              let tag : Tag := { st := 1, gran := a, desc := dn, region := d.region, upto := upto, stage := s.stageNo
                                 slot := t.slot }
              (arm (s.setCl n (mark ((c0.setTag k tag).take 4 1)))).request
                { cl := n, tag := k, write := false, addr := a, spec := spec, task := t.task
                  recov := t.restarted.isSome && decide (m.1 < t.again) }

/-- GRANULE_ISSUE (R193, R198). While its module straggles a drover issues nothing (R327). -/
def execGranuleIssue (cl : ClusterNo) (desc : BitVec 6) (s : State) : Host.Outcome State Fault Refusal :=
  let t := (s.cl cl).strm desc.toNat
  if !s.works cl || t.halted || s.cvn.straggling || s.quotaFull cl then .next s
  else if t.wbuf ≠ [] then .next (s.issueWrite cl desc.toNat)
  else .next (s.issueRead cl desc.toNat)

/-- GRANULE_LAND (R192, R219). -/
def execGranuleLand (cl : ClusterNo) (tag : Fin 16) (s : State) : Host.Outcome State Fault Refusal :=
  let c := s.cl cl
  let g := c.tag tag
  if g.st ≠ 2 ∨ g.write ∨ !s.clOn cl then .next s
  else if g.drop then .next (s.setCl cl (c.dropTag tag))
  else if g.poison ∧ !g.ahead then
    .next ((s.setCl cl ((c.dropTag tag).setStrm g.desc { c.strm g.desc with halted := true })).acts cl
      (c.strmOwner g.desc) [.stop 8])
  else
    let c1 := (c.setTag tag { g with st := 3, data := [] }).setStg (0x6000 + 512 * tag.val) g.data
    .next (s.setCl cl (if g.poison then c1.setTag tag { g with st := 3, data := [] } else c1))

/-- WRITE_ACK (R192, R196). -/
def execWriteAck (cl : ClusterNo) (tag : Fin 16) (s : State) : Host.Outcome State Fault Refusal :=
  let c := s.cl cl
  let g := c.tag tag
  if g.st ≠ 2 ∨ !g.write ∨ !s.clOn cl then .next s
  else .next (s.setCl cl (endStore (c.dropTag tag) g.desc))

/-- SPEC_ZERO_DONE (R256): the window reads zero and the slot is free. -/
def execSpecZeroDone (cl : ClusterNo) (slot : Fin 2) (s : State) : Host.Outcome State Fault Refusal :=
  let c := s.cl cl
  let t := c.slot slot
  if t.st ≠ 6 then .next s
  else
    let c1 := { c with staging := sclear c.staging (t.wbase * 1024) (t.wsize * 1024) }
    .next ((((s.setCl cl (c1.freeSlot slot)).count (ca cl 0xA20) 1).count64 (ca cl 0xA28) t.kc))

end Sys2Proof.Machine
end

