-- ==== Sys2Proof/Machine/LoessCmds.lean ====
section
/-! DEFINITION. The bedrock dies: granule requests, patrol scrub, row activations, memory slots, bedrock jobs
(R214 to R227, R272). -/

namespace Sys2Proof.Machine

/-! Rows (R222, R223) -/

/-- RH_THROTTLE (R223). -/
def execRhThrottle (k : Fin 8) (chan : Fin 16) (row : BitVec 22) (s : State) : Host.Outcome State Fault Refusal :=
  .next (s.throttle k chan.val row.toNat)

/-- ROW_REFRESH (R222). -/
def execRowRefresh (k : Fin 8) (chan : Fin 16) (row : BitVec 22) (s : State) : Host.Outcome State Fault Refusal :=
  let d := s.die k
  .next (s.setDie k { d with rows := serase d.rows (chan.val * 2 ^ 22 + row.toNat) })

/-- PERIODIC_CALIBRATION (R275): the management block schedules calibration traffic of a stack. -/
def execPeriodicCalibration (k : Fin 8) (s : State) : Host.Outcome State Fault Refusal :=
  let d := s.die k
  .next (s.setDie k { d with cal := d.cal ++ [s.stageNo] })

/-! Granule requests (R215, R216) -/

/-- The i-th accepted request of a stack may be performed: none accepted earlier touches its granule, its row does not
wait (R215, R223). -/
def Stack.performs (d : Stack) (i l : Nat) (r : Req) : Bool :=
  !((d.accepted.take i).any (fun q => decide (q.addr / 512 = r.addr / 512))) && !d.rowWaits l

/-- A write accepted after request i covers a byte of a codeword (R218). -/
def Stack.newer (d : Stack) (i addr c : Nat) : Bool :=
  (d.accepted.drop (i + 1)).any (fun q => q.write && decide (q.addr / 512 = addr / 512) &&
    q.bytes.any (fun w => decide (w.addr % 512 / 64 = c)))

/-- Drop request i of a stack. -/
def State.dropAccepted (s : State) (k i : Nat) : State :=
  let d := s.die k
  s.setDie k { d with accepted := d.accepted.eraseIdx i }

/-- The tag of a request now holds what the stack answers (R192). -/
def State.answerTag (s : State) (r : Req) (data : List Byte) (poison : Bool) : State :=
  let c := s.cl r.cl
  let t := c.tag r.tag
  s.setCl r.cl (c.setTag r.tag { t with st := 2, data := data, poison := poison })

/-- A request reads its granule as the owner of an open provisional entry (R254). -/
def State.reqOwns (s : State) (r : Req) : Bool := r.spec && s.owns r.cl r.task (r.addr / 512)

/-- A codeword of its granule that a read takes: every one for a drover, those of its bytes for the host. -/
def Req.takes (r : Req) (c : Nat) : Bool :=
  decide (r.addr % 512 < c * 64 + 64) && decide (c * 64 < r.addr % 512 + r.len)

/-- What the decoder finds in the codewords of its granule when a request is performed: what the command says and what came
with the access (R218). -/
def Req.finds (r : Req) (ecc : List (Fin 8 × EccCase)) : List (Nat × EccCase) :=
  ecc.map (fun e => (e.1.val, e.2)) ++
  (r.found.filter (fun e => decide (e.1 / 8 = r.addr / 512))).map (fun e => (e.1 % 8, e.2))

/-- A read is performed (R215, R217 to R219, R254, R375): the drover's tag or the host's completion gets the bytes. -/
def State.performRead (s : State) (k i : Nat) (r : Req) (ecc : List (Fin 8 × EccCase)) : State :=
  let pg := s.readGran (r.addr / 512) (s.reqOwns r)
  let s1 := (r.finds ecc).foldl (fun s e =>
    if r.takes e.1 then s.eccCase (pg * 8 + e.1) 0 r.who.code ((s.die k).newer i r.addr e.1) e.2 else s) s
  let data := sgets zeroByte s1.loess (pg * 512 + r.addr % 512) r.len
  let bad := (List.range 8).any (fun c => r.takes c && sget zeroBool s1.poison (pg * 8 + c))
  let s2 := (s1.dropAccepted k i).activate k (s.place r.addr).2
  match r.src with
  | .host _ tag => if bad then (s2.tthErr 2 1 r.addr).complete 1 r.addr tag .error else s2.complete 1 r.addr tag (.data data)
  | _ => s2.answerTag r (if bad then [] else data) bad

/-- The delivery a part of which has been written is answered once no part of it waits (R342). -/
def State.carDone (s : State) (src : ReqSrc) : State :=
  match src with
  | .car p dseq cl a n =>
    if s.dies.any (fun d => (d.2.waiting ++ d.2.accepted).any (fun q => decide (q.src = src))) then s
    else s.dackOut p dseq cl (if s.poisoned a n then 1 else 0)
  | _ => s

/-- A write is performed (R215, R216, R219, R254): a drover's is acknowledged at its tag, a delivery in a DACK. -/
def State.performWrite (s : State) (k i : Nat) (r : Req) (ecc : List (Fin 8 × EccCase)) : State :=
  let own := s.reqOwns r
  let pg := s.readGran (r.addr / 512) own
  let part (c : Nat) : Bool :=
    r.bytes.any (fun w => decide (w.addr % 512 / 64 = c)) &&
    !((List.range 64).all (fun b => r.bytes.any (fun w => decide (w.addr % 512 = c * 64 + b) && decide (w.mask = 3#2))))
  let s1 := (r.finds ecc).foldl (fun s e =>
    if part e.1 then s.eccCase (pg * 8 + e.1) 1 r.who.code true e.2 else s) s
  let s2 := ((s1.writeGran own (r.addr / 512) r.bytes).dropAccepted k i).activate k (s.place r.addr).2
  match r.src with
  | .drover => s2.answerTag r [] false
  | _ => s2.carDone r.src

/-- LOESS_READ (R215, R217 to R219, R254). -/
def execLoessRead (k : Fin 8) (i : Nat) (ecc : List (Fin 8 × EccCase)) (s : State) : Host.Outcome State Fault Refusal :=
  let d := s.die k
  match d.accepted[i]? with
  | none => .next s
  | some r =>
    if r.write || !d.performs i (s.place r.addr).2 r || !s.domainOn (144 + k.val) then .next s
    else .next (s.performRead k i r ecc)

/-- A stack performs its i-th accepted request, a write (R215, R216, R219, R254). -/
def State.writeAt (s : State) (k i : Nat) (ecc : List (Fin 8 × EccCase)) : State :=
  let d := s.die k
  match d.accepted[i]? with
  | none => s
  | some r =>
    if !r.write || !d.performs i (s.place r.addr).2 r || !s.domainOn (144 + k) then s
    else s.performWrite k i r ecc

/-! Memory slots (R268 to R274) -/

/-- A slot goes to the first waiting request of an activity whose cluster has not used up its memory ration (R272, R273): the stack
accepts it, or has taken one more of the slots it stands for. -/
def State.acceptReq (s : State) (k act : Nat) : Option State :=
  let d := s.die k
  match d.waiting.find? (fun r => decide (r.act = act) && (!r.charged r.cl || !s.slotsUsed r.cl)) with
  | none => none
  | some r =>
    let left := if 1 < r.n then d.waiting.map (fun q => if q = r then { r with n := r.n - 1 } else q) else d.waiting.erase r
    let real := match r.src with | .drover | .host .. | .car .. => true | _ => false
    let s1 := s.setDie k { d with waiting := left, accepted := if real then d.accepted ++ [r] else d.accepted }
    let c := s1.cl r.cl
    let s2 := if r.charged r.cl then s1.setCl r.cl { c with slots := c.slots + 1 } else s1
    some (if real && r.write && !r.bytes.isEmpty && !s.reqOwns r then s2.noteWrite (r.addr / 0x200000) k r.who else s2)

/-- Patrol scrub reads the next granule of a stack (R220, R221). -/
def State.scrubStep (s : State) (k : Nat) (ecc : List (Fin 8 × EccCase)) : Option State :=
  let d := s.die k
  let pos := s.fld (sa k 0x0C) 0 28
  match d.scrubDue with
  | [] => none
  | _ :: rest =>
    if d.rowWaits (pos * 512) then none else
    let g := s.unplace k (pos * 512) / 512
    let s1 := ecc.foldl (fun s e => s.eccCase (g * 8 + e.1.val) 2 Config.scrubRequester
      (d.accepted.any (fun q => q.write && decide (q.addr / 512 = g) &&
        q.bytes.any (fun w => decide (w.addr % 512 / 64 = e.1.val)))) e.2) s
    let s2 := s1.setDie k { s1.die k with scrubDue := rest }
    let s3 := if pos + 1 = 2 ^ 28 then (s2.setFld (sa k 0x0C) 0 28 0).count (sa k 0x10) 1
      else s2.setFld (sa k 0x0C) 0 28 (pos + 1)
    some (s3.activate k (pos * 512))

/-- One row of the first queued mitigation refresh (R222). -/
def State.wearStep (s : State) (k : Nat) : Option State :=
  let d := s.die k
  match d.mits with
  | [] => none
  | m :: rest =>
    if 1 < m.left then some (s.setDie k { d with mits := { m with left := m.left - 1 } :: rest })
    else some (s.setDie k { d with mits := rest, rows := serase d.rows (m.chan * 2 ^ 22 + m.row) })

/-- Recovery traffic of a stack (R274): write-backs, then refetches. -/
def State.retryStep (s : State) (k : Nat) : Option State :=
  let d := s.die k
  if 0 < d.retry then some (s.setDie k { d with retry := d.retry - 1 })
  else s.acceptReq k 8

/-- What an activity has waiting at a stack takes a slot (R269). No telemetry record goes to Loess memory (log entry 117). -/
def State.memoryStep (s : State) (k : Nat) (ecc : List (Fin 8 × EccCase)) (act : Nat) : Option State :=
  match act with
  | 0 | 1 | 2 | 3 => s.acceptReq k act
  | 4 => s.scrubStep k ecc
  | 5 =>
    let d := s.die k
    if d.cal = [] then none else some (s.setDie k { d with cal := d.cal.drop 1 })
  | 6 => s.wearStep k
  | 8 => s.retryStep k
  | _ => none

/-- Number of a wheel (R285), key of one of its instances. -/
def wheelNo : Wheel → Nat
  | .memory => 0
  | .link => 1
  | .tether => 2
  | .glaze => 3

def wheelKey (w : Wheel) (unit : Nat) : Nat := wheelNo w * 4096 + unit

/-- Slots of one stage or extension period (R268). -/
def slotsIn (w : Wheel) (step : Nat) : Nat :=
  match w with
  | .memory => if step = 0 then 34042 else if step = 1 then 45390 else 68085
  | .link => if step = 0 then 3404 else if step = 1 then 4539 else 6808
  | .tether => if step = 0 then 4357 else if step = 1 then 5809 else 8714
  | .glaze => 8192

/-- PWR_CLK.STEP: the kiln clock step in force. -/
def State.clkStep (s : State) : Nat := s.fld 0x200030 0 2

/-- The owner of slot n of a wheel (R270). -/
def State.slotOwner (s : State) (w : Wheel) (n : Nat) : Nat :=
  s.fld (0x1200 + 0x200 * wheelNo w + 4 * (n % 1024 / 8)) (4 * (n % 8)) 4

/-- Activities a slot of an owner is offered to, in order (R272). -/
def offered (owner : Nat) (order : List Nat) : List Nat :=
  let glean := 8 :: order ++ [4, 6, 5, 7, 1, 2]
  if owner ≤ 7 then owner :: glean
  else if owner = 9 then order ++ glean
  else glean

/-- The first activity that takes the slot. -/
def firstTaker (f : Nat → Option State) : List Nat → Option State
  | [] => none
  | a :: r => match f a with
    | some s => some s
    | none => firstTaker f r

/-- Escalated activities of an instance in their order (R276). -/
def State.orderOf (s : State) (w : Wheel) (unit : Nat) : List Nat := sget noActs s.order (wheelKey w unit)

/-- Offer the next slot of an instance (R270, R272): `f` says what an activity does with it, `idle` what a slot nothing takes
does. -/
def State.offer (s : State) (w : Wheel) (unit : Nat) (f : State → Nat → Option State) (idle : State → State) : State :=
  let n := sget zeroNat s.wheel (wheelKey w unit)
  if slotsIn w s.clkStep ≤ n then s
  else
    let s1 := { s with wheel := sput zeroNat s.wheel (wheelKey w unit) (n + 1) }
    (firstTaker (f s1) (offered (s.slotOwner w n) (s.orderOf w unit))).getD (idle s1)

/-! Bedrock jobs (R224 to R227) -/

/-- Jobs of an issuer that are outstanding. -/
def State.jobsOf (s : State) (src : JobSrc) : List Job := s.jobs.filter (fun j => j.src = src)

/-- The first address of a range, page by page, outside the provisional entries of a cluster's task (R253). -/
def State.strayPage (s : State) (n task : Nat) (e : Nat × Nat) : Option Nat :=
  if e.2 = 0 then none
  else
    let page0 := e.1 / 0x200000
    ((List.range ((e.1 + e.2 - 1) / 0x200000 - page0 + 1)).map (fun i =>
      if i = 0 then e.1 / 512 * 512 else (page0 + i) * 0x200000)).find? (fun a => !s.ownPme n task (a / 512))

/-- The first check of R226 a job fails: cause, region, address. -/
def State.jobCheck (s : State) (n : Nat) (bs : List Byte) (d : JobD) (spec : Bool) (task : Nat) : Option (Nat × Nat × Nat) :=
  let chk (reg : Nat) (e : Nat × Nat) (w : Bool) : Option (Nat × Nat × Nat) :=
    (checkRange (s.region n reg) e.1 e.2 w spec).map (fun x => (x.1, reg, x.2))
  if d.reserved || !d.shapeOk then
    some (Config.jobRefusal 0 bs % 8, Config.jobRefusal 1 bs % 64, Config.jobRefusal 2 bs % 2 ^ 40)
  else (chk d.sreg d.srcExt false).orElse (fun _ =>
    (chk d.ireg d.idxExt false).orElse (fun _ => (chk d.dreg d.dstExt true).orElse (fun _ =>
      if spec then (s.strayPage n task d.dstExt).map (fun a => (3, d.dreg, a)) else none)))

/-- The source reads of a job arm watches like a read stream (R227); a watch of a job bears the number 64 or above. -/
def State.armJob (s : State) (n : Nat) (j : Job) : State :=
  let g := s.region n j.d.sreg
  if g.hw && decide (0 < j.d.srcExt.2) then
    s.arm n { desc := 64 + j.ord, region := j.d.sreg, page := g.base, pages := g.pages
              slot := if j.spec then some j.slot else none, task := j.task }
  else s

/-- The byte ranges that a job reads and writes: index table, source rows, destination rows. A GATHER's source rows are those its
index table names now (R225). -/
def State.jobRanges (s : State) (own : Nat → Bool) (d : JobD) : List (Nat × Nat) :=
  match d.op with
  | 1 =>
    (if d.nx = 0 ∨ d.ny = 0 then [] else
      (List.range (32 * d.ny)).map (fun r => (d.src + r * d.spitch, 32 * d.nx * d.esz)) ++
      (List.range (32 * d.nx)).map (fun c => (d.dst + c * d.dpitch, 32 * d.ny * d.esz)))
  | 2 =>
    let row (i : Nat) : List (Nat × Nat) :=
      let j := signedOf 32 (leNat (s.loessReadBy own (d.idx + 4 * i) 4))
      if j < 0 ∨ (d.nrows : Int) ≤ j then [] else [(d.src + j.toNat * d.spitch, d.rowBytes)]
    d.idxExt :: ((List.range d.nx).flatMap row ++ (List.range d.nx).map (fun i => (d.dst + i * d.dpitch, d.rowBytes)))
  | _ => [d.dstExt]

/-- The granules a job reads and writes as their owner (R254). -/
def State.jobOwner (s : State) (j : Job) (g : Nat) : Bool :=
  match j.src with
  | .cluster n => j.spec && s.owns n j.task g
  | .waybill .. => false

/-- What stands at the stacks for a job's granules: its cluster's foreground traffic, or a speculative task's; a waybill's is the
management block's (R227, R253, R366). -/
def Job.req (j : Job) : Req :=
  match j.src with
  | .cluster n => { cl := n, write := false, spec := j.spec, task := j.task, src := .job j.ord false }
  | .waybill .. => { write := false, src := .job j.ord true }

/-- A job is sent to the bedrock dies: its granules wait for their slots (R227). -/
def State.sendJob (s : State) (j : Job) : State :=
  ({ s with jobs := s.jobs ++ [j], jobOrd := s.jobOrd + 1 } : State).claim j.req (s.jobRanges (s.jobOwner j) j.d)

/-- JOB (R226, R227, R253, R273, R327). -/
def execJob (cl : ClusterNo) (joff : BitVec 17) (s : State) : Host.Outcome State Fault Refusal :=
  if joff.toNat % 64 ≠ 0 then .refused (.refusedAtLoad "JOB")
  else
    match s.issuing cl .access with
    | none => .next s
    | some o =>
      if 2 ≤ (s.jobsOf (.cluster cl)).length ∨ s.quotaFull cl ∨ s.cvn.straggling then .next s
      else
        let c := s.cl cl
        let t := c.slot o
        let bs := c.stg joff.toNat 64
        let d := jobOf bs
        let s1 := s.setCl cl (c.pass1 .access)
        match s.jobCheck cl bs d t.holds t.task with
        | some (cause, reg, a) => .next (s1.acts cl (some o) [.drover cause reg 1 t.task a, .stop 2])
        | none =>
          let j : Job := { src := .cluster cl, d := d, ord := s.jobOrd, spec := t.holds, slot := o, task := t.task }
          .next ((s1.sendJob j).armJob cl j)

/-- What a running job has done: the state, the byte runs written and read, the cause it stopped with and the stack that found
it. -/
structure JobRun where
  s : State
  runs : List (Nat × Nat) := []
  reads : List (Nat × Nat) := []
  cause : Nat := 0
  dieNo : Nat := 0

/-- Write a run of bytes as a job. -/
def JobRun.write (r : JobRun) (own : Nat → Bool) (a : Nat) (bs : List Byte) : JobRun :=
  { r with s := r.s.loessWriteBy own a bs, runs := (a, bs.length) :: r.runs }

/-- Stop on a poisoned codeword of a source range (R219). -/
def JobRun.guarded (r : JobRun) (own : Nat → Bool) (rs : List (Nat × Nat)) (k : JobRun → JobRun) : JobRun :=
  if r.cause ≠ 0 then r
  else match rs.findSome? (fun x => r.s.poisonBy own x.1 x.2) with
    | some cw => { r with cause := 4, dieNo := (r.s.place (cw * 64)).1 }
    | none => k { r with reads := rs ++ r.reads }

/-- One 32 by 32 block of a TRANSPOSE (R225). -/
def jobBlock (d : JobD) (own : Nat → Bool) (r : JobRun) (b : Nat × Nat) : JobRun :=
  let e := d.esz
  let rows := (List.range 32).map (fun i => d.src + (32 * b.1 + i) * d.spitch + 32 * b.2 * e)
  r.guarded own (rows.map (fun a => (a, 32 * e))) (fun r =>
    let data := rows.map (fun a => r.s.loessReadBy own a (32 * e))
    (List.range 32).foldl (fun r c =>
      r.write own (d.dst + (32 * b.2 + c) * d.dpitch + 32 * b.1 * e)
        (data.flatMap (fun row => (row.drop (c * e)).take e))) r)

/-- One row of a GATHER (R225). -/
def jobRow (d : JobD) (own : Nat → Bool) (r : JobRun) (i : Nat) : JobRun :=
  r.guarded own [(d.idx + 4 * i, 4)] (fun r =>
    let j := signedOf 32 (leNat (r.s.loessReadBy own (d.idx + 4 * i) 4))
    if j < 0 ∨ (d.nrows : Int) ≤ j then { r with cause := 3, dieNo := (r.s.place (d.idx + 4 * i)).1 }
    else
      let a := d.src + j.toNat * d.spitch
      r.guarded own [(a, d.rowBytes)] (fun r => r.write own (d.dst + i * d.dpitch) (r.s.loessReadBy own a d.rowBytes)))

/-- Codewords a job has covered whole lose their poison (R219, R225). -/
def JobRun.cleanse (r : JobRun) (own : Nat → Bool) : State :=
  let covered (a : Nat) : Bool := r.runs.any (fun x => decide (x.1 ≤ a) && decide (a < x.1 + x.2))
  let clean := r.s.poison.filter (fun e =>
    !(r.runs.any (fun x => (List.range (x.2 / 64 + 2)).any (fun i =>
      let a := (x.1 / 64 + i) * 64
      decide (r.s.readGran (a / 512) (own (a / 512)) * 8 + a % 512 / 64 = e.1) &&
      (List.range 64).all (fun b => covered (a + b))))))
  { r.s with poison := clean }

/-- Run a job to its end (R225, R226). -/
def State.runJob (s : State) (j : Job) : JobRun :=
  let d := j.d
  let own := s.jobOwner j
  let r0 : JobRun := { s := s }
  let r := match d.op with
    | 1 => (List.range d.ny).foldl (fun r y => (List.range d.nx).foldl (fun r x => jobBlock d own r (y, x)) r) r0
    | 2 => (List.range d.nx).foldl (fun r i => jobRow d own r i) r0
    | _ => (List.range d.nx).foldl (fun r i => r.write own (d.dst + 64 * i)
        ((List.range 8).flatMap (fun _ => leBytes 8 d.idx))) r0
  { r with s := r.cleanse own }

/-- The writer a job's writes bear (R227): its cluster, or the management block. -/
def Job.who (j : Job) : Who :=
  match j.src with
  | .cluster n => { kind := 0, id := n }
  | .waybill .. => { kind := 3 }

/-- The logical pages a job has written that its issuer does not own provisionally. -/
def State.noteRuns (s : State) (j : Job) (runs : List (Nat × Nat)) : State :=
  if j.spec then s
  else
    let pages := (runs.flatMap (fun r => s.pageStacks r.1 r.2)).eraseDups
    pages.foldl (fun s p => s.noteWrite p.1 p.2 j.who) s

/-- A codeword, numbered by its module address, lies in the source or index range of a job. -/
def Job.reads (j : Job) (cw : Nat) : Bool :=
  let hit (e : Nat × Nat) : Bool := decide (e.1 < cw * 64 + 64) && decide (cw * 64 < e.1 + e.2)
  hit j.d.srcExt || hit j.d.idxExt

/-- The granules of a job have taken their slots, no request accepted before touches one of them, no row of theirs waits
(R215, R223, R227, R230). -/
def State.jobReady (s : State) (j : Job) : Bool :=
  !s.waitsFor j.req.src && s.reachable (s.jobRanges (s.jobOwner j) j.d)

/-- A job runs to its end (R225 to R227). -/
def State.workJob (s : State) (j : Job) : State :=
  let r := s.runJob j
  let s1 := (r.s.noteRuns j r.runs).touch (r.reads ++ r.runs)
  let n := (r.runs.map (fun y => y.2)).foldl (· + ·) 0
  { s1 with jobs := s1.jobs.map (fun x =>
      if x.ord = j.ord then { x with done := true, cause := r.cause, dieNo := r.dieNo, bytes := n } else x) }

/-- BEDROCK_JOB (R225 to R227): a cluster's jobs run one at a time, in issue order. -/
def execBedrockJob (src : JobSrc) (ecc : List (Nat × EccCase)) (s : State) : Host.Outcome State Fault Refusal :=
  match s.jobsOf src with
  | [] => .next s
  | j :: _ =>
    if j.done || !s.jobReady j then .next s
    else .next ((ecc.foldl (fun s e => if j.reads e.1 then s.eccAt (s.jobOwner j) e.1 3 j.who.code e.2 else s) s).workJob j)

/-- JOB_COMPLETE (R226, R227, R365): a waybill's job has its receipt written, REFUSED with the cause, or MEMERR. -/
def execJobComplete (src : JobSrc) (s : State) : Host.Outcome State Fault Refusal :=
  match s.jobsOf src with
  | [] => .next s
  | j :: _ =>
    if !j.done then .next s
    else
      let s1 := { s with jobs := s.jobs.filter (fun x => x.ord ≠ j.ord) }
      match src with
      | .cluster n =>
        let c := s1.cl n
        let s2 := s1.setCl n { c with watches := c.watches.map (fun w =>
          if w.desc = 64 + j.ord then { w with done := true } else w) }
        if j.cause = 0 then .next s2
        else .next (s2.acts n ((s2.cl n).owner j.slot j.task) [.job j.dieNo j.cause, .stop 8])
      | .waybill r i =>
        let s2 := if j.cause = 0 then s1 else s1.jobFault j.dieNo j.cause 0 true
        match s2.wb r i.toNat with
        | none => .next s2
        | some w => .next (s2.finish r w (if j.cause = 0 then 0 else if j.cause = 4 then 0x0C else 0x0A)
            (if j.cause = 0 then [j.d.op] else if j.cause = 4 then [j.bytes % 2 ^ 32, j.bytes / 2 ^ 32] else [j.cause]))

end Sys2Proof.Machine
end

