-- ==== Sys2Proof/Machine/Caravan.lean ====
section
/-! DEFINITION. Caravan links: frames, credits, port states, the route book, votes and muster messages
(12_caravan_links_and_ring_reduction.md, R308 to R331). -/

namespace Sys2Proof.Machine

/-! Ports (R317) -/

def State.lnk (s : State) (p : Nat) : Nat := s.fld (pa p 0) 0 3

/-- Put a port into a state with a cause. -/
def State.setLnk (s : State) (p st cause : Nat) : State := (s.setFld (pa p 0) 0 3 st).setFld (pa p 0) 3 3 cause

/-- Own module number, domain state, domain mustered (R346). -/
def State.modnum (s : State) : Nat := s.fld 0x500000 4 9
def State.dstate (s : State) : Nat := s.fld 0x500000 0 2
def State.mustered (s : State) : Bool := decide (s.dstate = 2)

/-- Ticks of one kc (R319). -/
def State.ticksPerKc (s : State) : Nat := if s.clkStep = 0 then 3 else if s.clkStep = 1 then 4 else 6

/-- CVN_TIME. -/
def State.cvnTime (s : State) : Nat := s.reg64 0x50000C

/-! The route book (R329 to R331) -/

/-- The route book bytes hold; `bs` are the whole book. -/
def bookOf (bs : List Byte) : Book :=
  let g := leAt bs
  let nmod := g 6 2
  let mods := (List.range nmod).map (fun m => (List.range 16).map (fun p =>
    let o := 32 + 64 * m + 4 * p
    ({ peer := g o 2, pport := g (o + 2) 1, role := g (o + 3) 1 } : PortE)))
  let rings := (List.range 8).foldl (fun (a : List (Nat × List Nat) × Nat) _ =>
    let n := g a.2 2
    (a.1 ++ [(g (a.2 + 2) 2, (List.range n).map (fun i => g (a.2 + 4 + 2 * i) 2))],
      a.2 + (4 + 2 * n + 7) / 8 * 8)) (([] : List (Nat × List Nat)), 32 + 64 * nmod)
  { rbid := g 8 8, lead := g 16 2, stepk := g 18 1, depth := g 19 1, voteKc := g 20 2
    mods := mods, rings := rings.1
    relays := (List.range (g 22 2)).map (fun i =>
      let o := rings.2 + 16 * i
      ({ src := g o 2, dst := g (o + 2) 2, lpage := g (o + 4) 4, dpage := g (o + 8) 4, pages := g (o + 12) 4 } : Relay)) }

def Book.portsOf (b : Book) (m : Nat) : List PortE := b.mods.getD m []

/-- Two modules are peers on some port. -/
def Book.adjacent (b : Book) (m n : Nat) : Bool := (b.portsOf m).any (fun e => decide (e.role ≠ 0) && decide (e.peer = n))

/-- A ring entry (R330, R331). -/
def Book.ringOk (b : Book) (r : Nat × List Nat) : Bool :=
  let m := r.2.length
  r.2.all (fun x => decide (x < b.mods.length)) && decide (r.2.eraseDups.length = m) &&
  (decide (m ≤ 1) || (List.range m).all (fun i => b.adjacent (r.2.getD i 0) (r.2.getD ((i + 1) % m) 0)))

/-- A relay window (R341). -/
def Book.relayOk (b : Book) (w : Relay) : Bool :=
  decide (w.src < b.mods.length) && decide (w.dst < b.mods.length) && b.adjacent w.src w.dst &&
  decide (1 ≤ w.pages) && decide (w.lpage + w.pages ≤ 2 ^ 19) && decide (w.dpage + w.pages ≤ 2 ^ 19) &&
  decide ((b.relays.filter (fun x => decide (x.src = w.src) && decide (x.lpage < w.lpage + w.pages) &&
    decide (w.lpage < x.lpage + x.pages))).length = 1)

/-- R331: both ends of every port entry agree. -/
def Book.endsOk (b : Book) : Bool :=
  b.mods.zipIdx.all (fun m => m.1.zipIdx.all (fun e =>
    if e.1.role = 0 then decide (e.1.peer = 0xFFFF)
    else
      let o := (b.portsOf e.1.peer).getD e.1.pport { peer := 0xFFFF, pport := 0, role := 0 }
      decide (e.1.peer < b.mods.length) && decide (e.1.role ≤ 3) && decide (e.1.pport < 16) && decide (o.peer = m.2) &&
      decide (o.pport = e.2) &&
      (match e.1.role with | 1 => decide (o.role = 2) | 2 => decide (o.role = 1) | _ => decide (o.role = 3))))

/-- R331: every module but the lead has exactly one parent. -/
def Book.parentsOk (b : Book) : Bool :=
  b.mods.zipIdx.all (fun m => decide ((m.1.filter (fun e => decide (e.role = 1))).length = if m.2 = b.lead then 0 else 1))

/-- R331, with the ranges of R329. -/
def bookOk (bs : List Byte) : Bool :=
  let g := leAt bs
  let b := bookOf bs
  decide (bs.take 4 = [0x52#8, 0x42#8, 0x4B#8, 0x43#8]) && decide (g 4 2 = 1) && decide (1 ≤ g 6 2) && decide (g 6 2 ≤ 512) &&
  decide (g 22 2 ≤ 1024) && decide (b.lead < g 6 2) && decide (b.stepk ≤ 2) && decide (g 24 8 = 0) && b.endsOk && b.parentsOk &&
  b.rings.all b.ringOk && b.relays.all b.relayOk

/-- Hops from a module to the lead along parents; none beyond `fuel`. -/
def Book.hops (b : Book) : Nat → Nat → Option Nat
  | 0, m => if m = b.lead then some 0 else none
  | n + 1, m =>
    if m = b.lead then some 0
    else match (b.portsOf m).find? (fun e => decide (e.role = 1)) with
      | some e => (b.hops n e.peer).map (· + 1)
      | none => none

def State.myPorts (s : State) : List PortE :=
  match s.cvn.book with
  | some b => b.portsOf s.modnum
  | none => []

/-- The ports of this module with a role: 1 parent, 2 child (R329). -/
def State.rolePorts (s : State) (role : Nat) : List Nat :=
  (s.myPorts.zipIdx.filter (fun e => decide (e.1.role = role))).map (fun e => e.2)

def State.children (s : State) : List Nat := s.rolePorts 2
def State.parent (s : State) : Option Nat := (s.rolePorts 1).head?
def State.leads (s : State) : Bool := match s.cvn.book with | some b => decide (b.lead = s.modnum) | none => false

/-! Sending (R310 to R315) -/

def padSlot (bs : List Byte) : List Byte := bs ++ List.replicate (512 - bs.length) 0

/-- The control word of a frame without its CRC: bits [43:0] (R311). -/
def controlLow (fseq ack : Nat) (nak : Bool) (cred : Nat) (kinds : List Nat) : Nat :=
  fseq + ack * 2 ^ 8 + (if nak then 2 ^ 16 else 0) + cred * 2 ^ 17 +
    (kinds.zipIdx.foldl (fun a k => a + k.1 * 2 ^ (24 + 4 * k.2)) 0)

/-- The frame CRC (R389). -/
def frameCrc (slots : List (List Byte)) (low : Nat) : Nat := (crc32c (low % 256) (slots.flatten ++ leBytes 6 (low % 2 ^ 44))).toNat

/-- Send a frame of five slots with fresh ACK, CRED, VB and CRC (R311, R312). The CRED of a frame of which the peer may have taken an
earlier copy repeats the credits of that copy: they are returned once (DEDUCED from R278 and R314). -/
def State.emitFrame (s : State) (p : Nat) (f : SentFrame) : State :=
  let x := s.port p
  let cred := if f.again then f.cred else min x.credOut 127
  let low := controlLow f.fseq x.good x.naking cred (f.slots.map (fun t => t.kind))
  let data := f.slots.map (fun t => padSlot t.data)
  let word := low + frameCrc data low * 2 ^ 44 + x.vout * 2 ^ 76
  { s.setPort p { x with credOut := if f.again then x.credOut else x.credOut - cred, sent := x.sent ++ [{ f with cred := cred }] } with
    out := s.out ++ [.frame p (BitVec.ofNat 80 word) data] }

/-- T_tx goes into a TIME message as its frame leaves (R320). -/
def stampTime (t : Nat) (x : TxSlot) : TxSlot :=
  if x.kind = 4 ∧ leAt x.data 0 2 = 1 then { x with data := x.data.take 8 ++ leBytes 8 t ++ x.data.drop 16 } else x

/-- An IDENT message (R315): it passes before the credits of a port are set (R318), and takes none. -/
def isIdent (kind : Nat) (data : List Byte) : Bool := decide (kind = 4) && decide (leAt data 0 2 = 2)

/-- A LEAVE message (R420): it passes on a port that quiesces (R419). -/
def isLeave (kind : Nat) (data : List Byte) : Bool := decide (kind = 4) && decide (leAt data 0 2 = 6)

/-- Frames not acknowledged (R312). -/
def Port.unacked (x : Port) : Nat := x.sent.length + x.replay.length

/-- A slot takes the next place of the frame being filled; the fifth sends it. -/
def State.fillSlot (s : State) (p : Nat) (t : TxSlot) : State :=
  let x := s.port p
  let x1 := { x with issued := if t.kind = 0 || isIdent t.kind t.data then x.issued else (x.issued + 1) % 2 ^ 32 }
  if x.frame.length < 4 then s.setPort p { x1 with frame := x.frame ++ [t] }
  else
    let slots := (x.frame ++ [t]).map (stampTime s.cvnTime)
    (s.setPort p { x1 with frame := [], next := (x.next + 1) % 256 }).emitFrame p { fseq := x.next, slots := slots }

/-- A port sends new slots: it carries frames, none waits to be sent again, fewer than 128 are unacknowledged. -/
def State.sends (s : State) (p : Nat) : Bool :=
  let st := s.lnk p
  let x := s.port p
  (decide (st = 2) || decide (st = 1) || decide (st = 5)) && s.domainOn (160 + p) && decide (x.replay = []) &&
  decide (x.unacked < 128) && !x.frozen

/-- What an activity has waiting at a port takes a slot (R269, R272, R274, R314). In training only IDENT passes (R317, R318). -/
def State.linkStep (s : State) (p act : Nat) : Option State :=
  let x := s.port p
  let fresh : Option State :=
    if s.sends p && (!x.quiesce || decide (s.lnk p ≠ 2) || x.txq.any (fun t => isLeave t.kind t.data)) && (decide (s.lnk p ≠ 2) || decide ((x.issued + 2 ^ 32 - x.returned) % 2 ^ 32 < x.total)) then
      (x.txq.find? (fun t => decide (t.act = act) && (isIdent t.kind t.data || (decide (s.lnk p = 2) &&
          (!x.quiesce || isLeave t.kind t.data))))).map (fun t => (s.setPort p { x with txq := x.txq.erase t }).fillSlot p t)
    else none
  if act = 8 then
    match x.replay with
    | f :: rest =>
      if x.rslot < 4 then some (s.setPort p { x with rslot := x.rslot + 1 })
      else
        let s1 := (s.setPort p { x with rslot := 0, replay := rest }).emitFrame p f
        let y := s1.port p
        some ((s1.setPort p { y with sent := y.sent.map (fun g => if g.fseq = f.fseq then { g with again := true } else g) }).count
          (pa p 0x14) 1)
    | [] => fresh
  else fresh

/-- A link slot nothing takes stays idle; idle slots fill frames too. -/
def State.linkIdle (s : State) (p : Nat) : State :=
  if s.sends p then s.fillSlot p { act := 15, kind := 0, data := [] } else s

/-! Votes (R324 to R328) -/

/-- A decision goes down the tree. -/
def State.setDecision (s : State) (take pause : Bool) : State :=
  let v := 1 + (if take then 2 else 0) + (if pause then 4 else 0)
  let s1 := { s with cvn := { s.cvn with decision := some (take, pause) } }
  s1.children.foldl (fun s p => s.setPort p { s.port p with vout := v }) s1

/-- Pass the vote up once it is complete, or decide as the lead (R326). -/
def State.passVote (s : State) : State :=
  match s.cvn.own with
  | none => s
  | some o =>
    let vins := s.children.map (fun p => (s.port p).vin)
    if s.cvn.decision.isSome || vins.any (fun v => v % 2 = 0) then s
    else
      let c := o.1 && vins.all (fun v => v.testBit 1)
      let k := o.2 && vins.all (fun v => v.testBit 2)
      if s.leads then s.setDecision c (c && k)
      else match s.parent with
        | some p => s.setPort p { s.port p with vout := 1 + (if c then 2 else 0) + (if k then 4 else 0) }
        | none => s

def State.voteKc (s : State) : Nat := match s.cvn.book with | some b => b.voteKc | none => 0

/-- VB bits of a good frame (R325, R326). Votes and decisions of a period pass after its vote point: bits that come before, or a
decision before the own vote, are those of the last period, still in flight. -/
def State.takeVb (s : State) (p vb : Nat) : State :=
  if !s.mustered || vb % 2 = 0 then s
  else if s.parent = some p then
    if s.cvn.decision.isSome || !s.cvn.voted then s
    else (s.setPort p { s.port p with vin := vb }).setDecision (vb.testBit 1) (vb.testBit 2)
  else if s.kc < 8192 - s.voteKc then s
  else (s.setPort p { s.port p with vin := vb }).passVote

/-! Port state changes (R316 to R318) -/

/-- Tandem mode over this port ends its active state (R305 cause 4). -/
def State.tandemPortLost (s : State) (p : Nat) : State :=
  if s.tmode = 1 ∧ s.fld 0x700 2 4 = p then
    let own := (s.tandem.flatMap (fun u => u.2.own)).head?.getD { cl := 0, seq := 0, check := 0, k := 0, stage := s.stageNo }
    s.diverge 4 own
  else s

/-- The waybill and the port operation of a PORT waybill that acts on a port (R365). -/
def portOp (w : Wb) : Nat := w.params.getD 0 0 / 16 % 4
def portNo (w : Wb) : Nat := w.params.getD 0 0 % 16

/-- Receipts of the PORT waybills that wait for a port's state (R365). -/
def State.portReceipts (s : State) (p : Nat) : State :=
  (List.range 16).foldl (fun s r =>
    (s.ring r).taken.foldl (fun s w =>
      if w.opc = 0x601 ∧ w.phase = 2 ∧ portNo w = p then
        let st := s.lnk p
        let goal := match portOp w with | 0 => 3 | 3 => 0 | _ => 2
        if st = goal then s.finish r w 0 [s.regN (pa p 0)]
        else if st = 4 then s.finish r w 0x0A [s.fld (pa p 0) 3 3]
        else s
      else s) s) s

/-- A port fails: slots not yet delivered are lost, the ledger freezes (R316). -/
def State.portDown (s : State) (p cause : Nat) : State :=
  let x := s.port p
  let was := s.lnk p
  let s1 := (s.setPort p { rx := x.rx, frozen := true, total := x.total, issued := x.issued, returned := x.returned }).setLnk p 4 cause
  let s2 := if cause = 4 then s1.raise 23 4 p (s1.regN (pa p 0)) 0 else s1
  (if was = 2 then s2.tandemPortLost p else s2).portReceipts p

/-- The IDENT a port sends in training (R315, R318). -/
def State.identMsg (s : State) (p : Nat) : List Byte :=
  controlMsg 2 [(8, leBytes 8 Config.serial.toNat), (24, leBytes 2 s.modnum), (26, leBytes 1 p), (27, leBytes 1 s.clkStep)]

/-- Training begins (R318): RECAL when other ports run. Slots received before and not taken are lost and the ledger starts afresh
(R316), reduction chunks held for their RED return no credit to it; slots that wait for a grant go on waiting. -/
def State.train (s : State) (p : Nat) (recal : Bool) : State :=
  let others := (List.range 16).any (fun q => decide (q ≠ p) && decide (s.lnk q = 2))
  let st := if recal && others then 5 else 1
  let wait := (s.port p).txq.filter (fun t => !isIdent t.kind t.data)
  let early := s.early.map (fun e => if e.1 = p then (16, e.2) else e)
  (({ s with early := early } : State).setPort p { txq := { act := 2, kind := 4, data := s.identMsg p } :: wait }).setLnk p st 0

/-- LINK_DOWN (R316): a lane has lost lock for more than 1 µs. -/
def execLinkDown (p : Fin 16) (s : State) : Host.Outcome State Fault Refusal :=
  let st := s.lnk p
  if st = 2 ∨ st = 1 ∨ st = 5 then .next (s.portDown p 4) else .next s

/-- LEAVE (R420). -/
def State.leaveMsg (s : State) (reason : Nat) : List Byte :=
  let own := if s.dstate = 1 ∨ s.dstate = 2 then s.modnum else 0
  controlMsg 6 [(8, leBytes 8 Config.serial.toNat), (24, leBytes 2 own), (26, leBytes 1 reason)]

/-- A port leaves in phase 4 of the service sequence (R419, R422): LEAVE takes its next slot, and it is quiesced. -/
def State.leavePort (s : State) (p : Nat) : State :=
  let x := s.port p
  let m : TxSlot := { act := 2, kind := 4, data := s.leaveMsg (if (s.reg 0x104004).getLsbD 6 then 2 else 1) }
  let s1 := if s.sends p && decide ((x.issued + 2 ^ 32 - x.returned) % 2 ^ 32 < x.total) then s.fillSlot p m
    else s.setPort p { x with txq := m :: x.txq }
  s1.setPort p { s1.port p with quiesce := true }

/-- TRAINING_COMPLETE (R314, R318): a round trip above 640 ns, 1,804.8 ticks, is a failure with cause 3. -/
def execTrainingComplete (p : Fin 16) (r : TrainEnd) (s : State) : Host.Outcome State Fault Refusal :=
  let st := s.lnk p
  if st ≠ 1 ∧ st ≠ 5 then .next s
  else match r with
    | .failed c => .next (s.portDown p (if c.toNat = 4 then 1 else c.toNat))
    | .ok rtt =>
      let s1 := s.setRegN (pa p 0x0C) rtt.toNat
      if 1804 < rtt.toNat then .next (s1.portDown p 3)
      else
        let x := s1.port p
        let x1 := { x with txq := x.txq.filter (fun t => !isIdent t.kind t.data)
                           rx := x.rx.filter (fun m => !isIdent m.1 m.2) }
        let s2 := ((s1.setPort p x1).setLnk p 2 0).portReceipts p
        .next (if s2.fld 0x104004 0 3 = 4 then s2.leavePort p else s2)

/-- QUIESCE_COMPLETE (R317): every frame is acknowledged, every credit returned. -/
def execQuiesceComplete (p : Fin 16) (s : State) : Host.Outcome State Fault Refusal :=
  let x := s.port p
  if s.lnk p = 2 ∧ x.quiesce ∧ !(x.txq.any (fun t => isLeave t.kind t.data)) ∧ x.frame.all (fun t => t.kind = 0) ∧ x.sent = [] ∧ x.replay = [] ∧
      x.issued = x.returned ∧ x.rx = [] ∧ x.credOut = 0 then
    .next (((((s.setPort p { x with quiesce := false, frame := [] }).setLnk p 3 0).tandemPortLost p)).portReceipts p)
  else .next s

/-! Frames received (R311, R312) -/

/-- Drop the frames an ACK covers from the unacknowledged ones. -/
def ackFrames (ack : Nat) (fs : List SentFrame) : List SentFrame :=
  if fs.any (fun f => f.fseq = ack) then (fs.dropWhile (fun f => f.fseq ≠ ack)).drop 1 else fs

/-- ACK and NAK of a good frame (R311, R312): on NAK every unacknowledged frame is sent again, oldest first. Where the first of them
has been sent once, the peer has discarded them all and their credits are to be returned again; where it has been sent again before,
the NAK may be older than that, and the peer may take what it carried (R314). -/
def Port.acked (x : Port) (ack : Nat) (nak : Bool) : Port :=
  let inReplay := x.replay.any (fun f => f.fseq = ack)
  let x1 := if inReplay then { x with sent := [], replay := ackFrames ack x.replay, rslot := 0 }
    else { x with sent := ackFrames ack x.sent }
  if !nak then { x1 with nakRun := 0 }
  else
    let run := if x.nakFor = ack ∧ x.nakRun ≠ 0 then x.nakRun + 1 else 1
    let sure := match x1.sent with | f :: _ => !f.again | [] => false
    { x1 with
      nakFor := ack, nakRun := run, sent := []
      replay := (if sure then x1.sent else x1.sent.map (fun f => { f with again := true })) ++ x1.replay
      rslot := if x1.sent = [] then x1.rslot else 0
      credOut := if sure then x1.credOut + (x1.sent.map (fun f => f.cred)).foldl (· + ·) 0 else x1.credOut }

/-- CARAVAN_FRAME (R311, R312, R314, R325). -/
def execCaravanFrame (p : Fin 16) (fec : FecCase) (f : Frame) (s : State) : Host.Outcome State Fault Refusal :=
  let st := s.lnk p
  if (st ≠ 2 ∧ st ≠ 1 ∧ st ≠ 5) ∨ f.slots.length ≠ 5 ∨ f.slots.any (fun b => b.length ≠ 512) then .next s
  else
    let w := f.control.toNat
    let kinds := (List.range 5).map (fun i => bits w (24 + 4 * i) 4)
    let s1 := (s.count (pa p 0x18) fec.corrected).count (pa p 0x1C) fec.uncorrectable
    let crcBad := decide (bits w 44 32 ≠ frameCrc f.slots (w % 2 ^ 44))
    let s2 := if crcBad then s1.count (pa p 0x20) 1 else s1
    let x := s2.port p
    if crcBad || decide (0 < fec.uncorrectable) || kinds.any (fun k => decide (4 < k)) then
      .next (s2.setPort p { x with naking := true })
    else
      let x1 := x.acked (bits w 8 8) (w.testBit 16)
      let x2 := if w % 256 = (x.good + 1) % 256 then
          { x1 with
            good := w % 256, naking := false, returned := (x1.returned + bits w 17 7) % 2 ^ 32
            rx := x1.rx ++ (kinds.zip f.slots).filter (fun k => decide (k.1 ≠ 0)) }
        else x1
      let s3 := (s2.setPort p x2).takeVb p (bits w 76 4)
      .next (if 16 ≤ x2.nakRun then s3.portDown p 4 else s3)

/-- Take the first received slot of a port that `f` allows; its buffer is free and its credit goes back (R314). -/
def State.takeRx (s : State) (p : Nat) (f : Nat × List Byte → Bool) : Option (List Byte × State) :=
  let x := s.port p
  (x.rx.find? f).map (fun m =>
    (m.2, s.setPort p { x with rx := x.rx.erase m, credOut := x.credOut + (if isIdent m.1 m.2 then 0 else 1) }))

/-- The first control message of a TYPE. -/
def State.takeControl (s : State) (p type : Nat) : Option (List Byte × State) :=
  s.takeRx p (fun m => decide (m.1 = 4) && decide (leAt m.2 0 2 = type))

/-- IDENT_MESSAGE (R318): the peer's kiln step must equal the own one. -/
def execIdentMessage (p : Fin 16) (s : State) : Host.Outcome State Fault Refusal :=
  if s.lnk p ≠ 1 ∧ s.lnk p ≠ 5 then .next s
  else match s.takeControl p 2 with
    | none => .next s
    | some (m, s1) =>
      let s2 := s1.setRegN (pa p 8) (leAt m 24 2 % 512 + leAt m 26 1 % 16 * 2 ^ 9 + 2 ^ 13)
      .next (if leAt m 27 1 = s.clkStep then s2 else s2.portDown p 2)

/-- LEAVE (R420). -/
def execLeave (p : Fin 16) (s : State) : Host.Outcome State Fault Refusal :=
  match s.takeControl p 6 with
  | none => .next s
  | some (m, s1) =>
    .next ((s1.setPort p { s1.port p with quiesce := true }).raise 24 4 p (leAt m 26 1) (leAt m 24 2))

/-! Caravan time (R320) -/

/-- Signed ticks of LNK_DELAY_ADJ, and the one-way delay of a port in half ticks (R318). -/
def State.delay2 (s : State) (p : Nat) : Int := (s.fld (pa p 0x0C) 0 16 : Int) + 2 * signedOf 16 (s.fld (pa p 0x10) 0 16)

/-- CVN_OFFSET's value. -/
def offsetReg (o : Int) : Nat := if -32768 ≤ o ∧ o < 32768 then bitsOf 16 o else Config.wideOffset o % 2 ^ 16

/-! Muster (R322, R323) -/

/-- A muster fails (R322): its waybill is answered. -/
def State.musterFail (s : State) (cause : Nat) : State :=
  let s1 := (s.setFld 0x500000 0 2 3).setFld 0x500000 13 4 cause
  let s2 := s1.raise 26 0 0 (s1.regN 0x500000) 0
  let s3 := { s2 with cvn := { s2.cvn with wb := none, t0 := none } }
  match s.cvn.wb with
  | none => s3
  | some (r, ix) => match s3.wb r ix with
    | some w => s3.finish r w 0x0A [cause]
    | none => s3

/-- T0: the first own period edge at least 100 µs, 282,000 ticks, ahead (R323). -/
def State.pickT0 (s : State) : Nat :=
  let period := 8192 * s.ticksPerKc
  let edge := s.cvnTime + (8192 - s.kc) * s.ticksPerKc
  edge + (s.cvnTime + 282000 - edge + period - 1) / period * period

def musterMsg (type rbid s0 x : Nat) : List Byte :=
  controlMsg type [(8, leBytes 8 rbid), (16, leBytes 8 s0), (24, if type = 4 then leBytes 8 x else leBytes 2 x)]

/-- GO goes down the tree with T0. -/
def State.passGo (s : State) (t0 : Nat) : State :=
  let s1 := { s with cvn := { s.cvn with t0 := some t0 } }
  match s.cvn.book with
  | some b => s1.children.foldl (fun s p => s.sendSlot p 2 4 (musterMsg 4 b.rbid s.cvn.s0 t0)) s1
  | none => s1

/-- READY goes up once the module is locked and every child is ready; the lead picks T0 (R323). -/
def State.musterStep (s : State) : State :=
  match s.cvn.book with
  | none => s
  | some b =>
    let subs := s.children.map (fun p => sget zeroNat s.cvn.subs p)
    let locked := s.leads || (s.reg 0x500000).getLsbD 2
    if s.dstate ≠ 1 || s.cvn.readySent || !locked || subs.any (fun n => n = 0) then s
    else
      let total := subs.foldl (· + ·) 1
      let s1 := { s with cvn := { s.cvn with readySent := true } }
      if s.leads then (if total = b.mods.length then s1.passGo s1.pickT0 else { s1 with cvn := { s1.cvn with readySent := false } })
      else match s.parent with
        | some p => s1.sendSlot p 2 4 (musterMsg 3 b.rbid s.cvn.s0 total)
        | none => s1

/-- TIME (R320): the offset of a TIME message from the parent; lock after 16 in a row within one tick. -/
def execTime (p : Fin 16) (trx : BitVec 64) (s : State) : Host.Outcome State Fault Refusal :=
  match s.takeControl p 1 with
  | none => .next s
  | some (m, s1) =>
    if s.parent ≠ some p.val then .next s1
    else
      let diff : Int := (trx.toNat : Int) - (leAt m 8 8 : Nat)
      let two := 2 * diff - s.delay2 p
      let off := two / 2
      let near := decide (-2 ≤ two) && decide (two ≤ 2)
      let run := if near then min (s.cvn.lockRun + 1) 16 else 0
      let s2 := { s1 with cvn := { s1.cvn with lockRun := run, missed := 0 } }
      let s3 := s2.setRegN 0x500014 (offsetReg off)
      .next ((if 16 ≤ run then s3.setFld 0x500000 2 1 1 else s3).musterStep)

/-- CVN_UNLOCK (R320). -/
def execCvnUnlock (s : State) : Host.Outcome State Fault Refusal :=
  if 16 ≤ s.cvn.missed ∧ (s.reg 0x500000).getLsbD 2 then
    let s1 := (({ s with cvn := { s.cvn with lockRun := 0 } } : State).setFld 0x500000 2 1 0)
    .next (s1.raise 25 0 0 (s1.regN 0x500000) 0)
  else .next s

/-- READY_MESSAGE (R323): a different RBID is cause 2 of R322. -/
def execReadyMessage (p : Fin 16) (s : State) : Host.Outcome State Fault Refusal :=
  if s.dstate ≠ 1 then .next s
  else match s.takeControl p 3, s.cvn.book with
    | some (m, s1), some b =>
      if leAt m 8 8 ≠ b.rbid then .next (s1.musterFail 2)
      else if !(s.children.contains p.val) then .next s1
      else .next (({ s1 with cvn := { s1.cvn with subs := sput zeroNat s1.cvn.subs p (leAt m 24 2) } } : State).musterStep)
    | _, _ => .next s

/-- GO (R323): a GO that arrives after T0 fails the muster with cause 8. -/
def execGo (p : Fin 16) (s : State) : Host.Outcome State Fault Refusal :=
  if s.dstate ≠ 1 then .next s
  else match s.takeControl p 4, s.cvn.book with
    | some (m, s1), some b =>
      if s.parent ≠ some p.val then .next s1
      else if leAt m 8 8 ≠ b.rbid then .next (s1.musterFail 2)
      else if leAt m 24 8 < s.cvnTime then .next (s1.musterFail 8)
      else .next (s1.passGo (leAt m 24 8))
    | _, _ => .next s

/-- MUSTER_TIMEOUT (R322): no lock within 2 ms, or more than 100 ms in all. -/
def execMusterTimeout (noLock : Bool) (s : State) : Host.Outcome State Fault Refusal :=
  if s.dstate ≠ 1 then .next s
  else if noLock then
    if s.leads || (s.reg 0x500000).getLsbD 2 then .next s else .next (s.musterFail 5)
  else .next (s.musterFail 8)

/-! Deliveries and tandem records (R304, R341, R342) -/

/-- Bytes for one granule of a delivery on port p wait at their stack (R342). -/
def State.deliver (s : State) (p dseq cl start n a : Nat) (bs : List Byte) (ecc : List (Nat × EccCase)) : State :=
  if bs = [] then s
  else s.request { write := true, addr := a, src := .car p dseq cl start n, found := ecc
                   bytes := bs.zipIdx.map (fun x => { addr := a + x.2, mask := 3#2, val := x.1 }) }

/-- DELIVERY (R342): a slot received becomes a CAR request on each granule it touches, and is answered when they are performed; one
that no window takes is answered at once. -/
def execDelivery (p : Fin 16) (ecc : List (Nat × EccCase)) (s : State) : Host.Outcome State Fault Refusal :=
  match s.takeRx p (fun m => decide (m.1 = 2)) with
  | none => .next s
  | some (m, s1) =>
    let a := leAt m 0 5
    let dseq := leAt m 8 2
    let cl := leAt m 10 2
    let data := (m.drop 16).take (leAt m 5 2)
    let n := data.length
    let inWin (w : Relay) : Bool :=
      decide (w.dst = s.modnum) && decide (w.dpage * 0x200000 ≤ a) && decide (a + n ≤ (w.dpage + w.pages) * 0x200000)
    let ok := match s.cvn.book with | some b => s.mustered && b.relays.any inWin | none => false
    if !ok then .next (s1.dackOut p dseq cl 2)
    else if n = 0 then .next (s1.dackOut p dseq cl 0)
    else
      let k := 512 - a % 512
      .next ((s1.deliver p dseq cl a n a (data.take k) ecc).deliver p dseq cl a n (a + k) (data.drop k) ecc)

/-- One entry of a DACK: a delivery of a relay store is answered (R342). -/
def State.dackEntry (s : State) (p dseq cl status : Nat) : State :=
  let c := s.cl cl
  let s1 := if status = 1 then (s.raise 30 1 cl dseq p).stopCl cl 8
    else if status = 2 then (s.raise 7 1 cl (s.regN (ca cl 0x410)) (s.regN (ca cl 0x414))).stopCl cl 2 else s
  match s1.relays.find? (fun r => decide (r.cl = cl) && decide (r.port = p) && r.seqs.contains dseq) with
  | none => s
  | some r =>
    let seqs := r.seqs.erase dseq
    let rest := s1.relays.erase r
    if seqs ≠ [] then { s1 with relays := rest ++ [{ r with seqs := seqs, status := max r.status status }] }
    else
      let t := c.tag r.tag
      ({ s1 with relays := rest } : State).setCl cl ((s1.cl cl).setTag r.tag { t with st := 2 })

/-- DACK (R315, R342). -/
def execDack (p : Fin 16) (s : State) : Host.Outcome State Fault Refusal :=
  match s.takeControl p 5 with
  | none => .next s
  | some (m, s1) =>
    .next ((List.range (min (leAt m 4 2) 60)).foldl (fun s i =>
      s.dackEntry p (leAt m (8 + 8 * i) 2) (leAt m (10 + 8 * i) 2) (leAt m (12 + 8 * i) 1)) s1)

/-- The records of a slot (R303): an unused place holds zeros. -/
def recordsOf (m : List Byte) : List TRec :=
  (List.range 32).filterMap (fun i =>
    let b := (m.drop (16 * i)).take 16
    if b.all (fun x => x = 0) then none
    else some { cl := leAt b 14 2 % 2048, seq := leAt b 12 2, check := leAt b 0 8, k := leAt b 8 4 })

/-- TANDEM_RECORDS (R304): while a partner queue it needs is full, the slot keeps its credit. -/
def execTandemRecords (p : Fin 16) (s : State) : Host.Outcome State Fault Refusal :=
  if s.tmode ≠ 1 ∨ s.fld 0x700 2 4 ≠ p.val then .next s
  else match s.takeRx p (fun m => decide (m.1 = 3)) with
    | none => .next s
    | some (m, s1) =>
      let rs := recordsOf m
      let full (e : Nat) : Bool :=
        decide (512 < (s.unit e).partner.length + (rs.filter (fun r => decide (r.cl / 128 = e))).length)
      if (List.range 16).any (fun e => rs.any (fun r => decide (r.cl / 128 = e)) && full e) then .next s
      else .next (rs.foldl (fun s r => s.tandemPartner (r.cl / 128) r) s1)

/-- TANDEM_TIMEOUT (R305 cause 3): own records whose partner has not come after TIMEOUT boundaries. -/
def execTandemTimeout (e : Fin 16) (s : State) : Host.Outcome State Fault Refusal :=
  let u := s.unit e
  let late (r : TRec) : Bool := decide (r.stage + s.fld 0x700 8 8 ≤ s.stageNo)
  if s.tmode = 0 then .next s
  else
    let s1 := s.setUnit e { u with own := u.own.filter (fun r => !late r) }
    .next ((u.own.filter late).foldl (fun s r => s.diverge 3 r) s1)

end Sys2Proof.Machine
end

