-- ==== Sys2Proof/Machine/Reduction.lean ====
section
/-! DEFINITION. Ring reduction (R332 to R340). -/

namespace Sys2Proof.Machine

/-! Values on the ring (R335, R336) -/

/-- The exact sum of what came in and the own value; infinity plus the opposite infinity is NaN with INV. -/
def redAdd (a b : Val) : Val × Flg :=
  match a, b with
  | .nar, _ => (.nar, 0)
  | .nan, _ => (.nan, 0)
  | _, .nar => (.nar, 0)
  | _, .nan => (.nan, 0)
  | .inf x, .inf y => if x = y then (.inf x, 0) else (.nan, flagInv)
  | .inf x, _ => (.inf x, 0)
  | _, .inf y => (.inf y, 0)
  | .zero x, .zero y => (.zero (x && y), 0)
  | x, y => (Val.ofRat (x.real + y.real), 0)

def isNaNVal (v : Val) : Bool := match v with | .nan | .nar => true | _ => false

/-- Strip factors of two from an integer: the odd part and how many. -/
def oddPart : Nat → Int → Int × Nat
  | 0, i => (i, 0)
  | n + 1, i => if i ≠ 0 ∧ i % 2 = 0 then let r := oddPart n (i / 2); (r.1, r.2 + 1) else (i, 0)

/-- W and OFF of a value (R336). -/
def exactForm (v : Val) : Int × Int :=
  match v with
  | .zero _ => (0, 0)
  | .fin q =>
    let r := oddPart 4096 q.num
    (r.1, (r.2 : Int) - (Nat.log2 q.den : Int))
  | .nar => (1, -32768)
  | .nan => (2, -32768)
  | .inf neg => (if neg then 4 else 3, -32768)

/-- The value of W and OFF. -/
def exactVal (w off : Int) : Val :=
  if off = -32768 then
    if w = 1 then .nar else if w = 3 then .inf false else if w = 4 then .inf true else .nan
  else Val.ofRat ((w : Rat) * pow2 off)

/-- An integer lies in n-bit two's complement. -/
def fitsIn (n : Nat) (i : Int) : Bool := decide (-((2 ^ (n - 1) : Nat) : Int) ≤ i) && decide (i < ((2 ^ (n - 1) : Nat) : Int))

/-- Round to the top 256 bits with RNE (R336): the form and whether it was rounded. -/
def narrowForm (f : Int × Int) : (Int × Int) × Bool :=
  if fitsIn 256 f.1 then (f, false)
  else
    let sh := Nat.log2 f.1.natAbs + 1 - 255
    let d : Int := ((2 ^ sh : Nat) : Int)
    let lo := f.1 / d
    let r := f.1 - lo * d
    let up := decide (d < 2 * r) || (decide (2 * r = d) && decide (lo % 2 ≠ 0))
    let o := oddPart 4096 (if up then lo + 1 else lo)
    ((o.1, f.2 + (sh : Int) + (o.2 : Int)), true)

/-! Chunks (R333, R334) -/

/-- Bits of an element, elements of a slot, by CFMT (R333). -/
def chunkBits (cfmt dbits : Nat) : Nat := match cfmt with | 0 => 16 | 1 => 32 | 2 => 112 | 3 => 272 | _ => dbits
def chunkPer (cfmt dbits : Nat) : Nat := match cfmt with | 0 => 252 | 1 => 126 | 2 => 36 | 3 => 14 | _ => 504 * 8 / max dbits 1

/-- Pack elements of n bits, ascending. -/
def packItems (n : Nat) (xs : List Nat) : List Byte :=
  let v := xs.zipIdx.foldl (fun a x => a + x.1 % 2 ^ n * 2 ^ (n * x.2)) 0
  leBytes ((xs.length * n + 7) / 8) v

def unpackItems (n cnt : Nat) (bs : List Byte) : List Nat :=
  let v := leNat bs
  (List.range cnt).map (fun i => bits v (n * i) n)

/-- First element of chunk k, and its elements (R334). -/
def chunkLo (e m k : Nat) : Nat := e * k / m
def chunkLen (e m k : Nat) : Nat := chunkLo e m (k + 1) - chunkLo e m k

/-- The 8 B header of a reduction slot (R333). -/
def chunkHead (cl ring phase k ix cfmt dfmt rseq : Nat) : List Byte :=
  leBytes 8 (cl + ring * 2 ^ 11 + phase * 2 ^ 14 + k * 2 ^ 15 + ix * 2 ^ 25 + cfmt * 2 ^ 33 + dfmt * 2 ^ 36 + rseq * 2 ^ 40)

/-- The ring a RED of this module names: RSTAGES and its members; outside a domain it has one member (R338). -/
def State.redRing (s : State) (ring : Nat) : Option (Nat × List Nat) :=
  if !s.mustered then some (1, [s.modnum])
  else match s.cvn.book with
    | some b =>
      let r := b.rings.getD ring (0, [])
      if r.2.contains s.modnum then some r else none
    | none => none

def ringPos (members : List Nat) (m : Nat) : Nat := (members.findIdx? (fun x => x = m)).getD 0

/-- Send elements of chunk k to the next position; slots beyond those of the window form are recovery traffic (R336). -/
def State.sendChunk (s : State) (r : Red) (members : List Nat) (phase k cfmt dfmt dbits : Nat) (items : List Nat) : State :=
  let m := members.length
  let pos := ringPos members s.modnum
  match s.portTo (members.getD ((pos + 1) % m) 0) with
  | none => s
  | some p =>
    let n := chunkBits cfmt dbits
    let per := chunkPer cfmt dbits
    let plain := (items.length + 35) / 36
    (List.range ((items.length + per - 1) / per)).foldl (fun s i =>
      s.sendSlot p (if cfmt = 3 ∧ plain ≤ i then 8 else 0) 1
        (chunkHead r.cl r.ring phase k i cfmt dfmt r.rseq ++ packItems n ((items.drop (i * per)).take per))) s

/-! One module's part (R332 to R339) -/

def sameRed (a b : Red) : Bool := decide (a.cl = b.cl) && decide (a.ring = b.ring) && decide (a.rseq = b.rseq)
def State.setRed (s : State) (r : Red) : State := { s with reds := s.reds.map (fun x => if sameRed x r then r else x) }
def State.dropRed (s : State) (r : Red) : State := { s with reds := s.reds.filter (fun x => !sameRed x r) }
def State.redOf (s : State) (cl ring rseq : Nat) : Option Red :=
  s.reds.find? (fun x => decide (x.cl = cl) && decide (x.ring = ring) && decide (x.rseq = rseq))

/-- A fault of a reduction (R340, R348): the tile stays busy. -/
def State.redFault (s : State) (cl ring cause : Nat) : State :=
  let s1 := s.capture noRank 0x500030 (1 + cause * 2 + ring * 2 ^ 4 + cl * 2 ^ 7) []
  (s1.raise 29 1 cl (s1.regN 0x500030) 0).stopCl cl 9

/-- Record that a value sent became NaN or NaR (R339, R348). -/
def State.redNan (s : State) (r : Red) (step elem origin : Nat) : State :=
  let s1 := s.capture noRank 0x500028 (1 + r.ring * 2 + step * 2 ^ 4 + elem * 2 ^ 13) [(0x50002C, r.cl + origin * 2 ^ 11)]
  s1.raise 28 1 r.cl (s1.regN 0x500028) (s1.regN 0x50002C)

/-- The format reduced elements reach the store converter in: the carriage format, or DESC's format. -/
def redSrc (c : Cluster) (r : Red) : Fmt :=
  if r.carry = 0 then .posit16 else if r.carry = 1 then .bin32 else (c.desc r.desc).dstFmt

/-- Reduced elements go to the store converter in element order; after the last the tile waits until they are stored (R332). -/
def State.redStore (s : State) (r : Red) : State :=
  let e := r.own.length
  let c := s.cl r.cl
  let go := (List.range ((e + 31) / 32)).foldl (fun (a : Cluster × Nat) _ =>
    let row := (List.range 32).filterMap (fun i => sget (fun _ => none) r.got (a.2 + i))
    if a.2 < e ∧ row.length = min 32 (e - a.2) then
      let x : ConvRow := { desc := r.desc, src := redSrc c r, round := false, elems := row, task := r.task, step := r.step }
      ({ a.1 with conv := a.1.conv ++ [x] }, a.2 + row.length)
    else a) (c, r.stored)
  if e ≤ go.2 then
    let t := go.1.tile r.tile
    (s.setCl r.cl (go.1.setTile r.tile { t with out := t.out.map (fun o => { o with next := 1 }) })).dropRed r
  else (s.setCl r.cl go.1).setRed { r with stored := go.2 }

/-- Chunk k's results are here: value and code by element. -/
def State.redResult (s : State) (r : Red) (m k : Nat) (xs : List (Val × Nat)) : State :=
  let lo := chunkLo r.own.length m k
  let got := xs.zipIdx.foldl (fun g x => sput (fun _ => none) g (lo + x.2) (some x.1)) r.got
  s.redStore { r with got := got }

/-- What a position makes of one element: the value it sends, its code in the carriage or its form, flags, whether it
was rounded in exact carriage. -/
structure Hop where
  v : Val
  code : Nat := 0
  form : Int × Int := (0, 0)
  fl : Flg := 0
  inexact : Bool := false

def redHop (carry : Nat) (incoming : Option Val) (own : Val) : Hop :=
  let a : Val × Flg := match incoming with
    | some x => redAdd x own
    | none => (own, 0)
  if carry < 2 then
    let f : Fmt := if carry = 0 then .posit16 else .bin32
    let m := encodeVal f rneCtl a.1
    { v := (decodeVal f m.code).1, code := m.code, fl := a.2 ||| m.flags }
  else
    let n := narrowForm (exactForm a.1)
    { v := if n.2 then exactVal n.1.1 n.1.2 else a.1, form := n.1, fl := a.2 ||| flagIf n.2 flagInx, inexact := n.2 }

/-- Chunk k reaches this position, or starts here (R334 to R337). -/
def State.redChunk (s : State) (r : Red) (members : List Nat) (k : Nat) (incoming : Option (List Val)) : State :=
  let m := members.length
  let pos := ringPos members s.modnum
  let step := (pos + m - k) % m
  let lo := chunkLo r.own.length m k
  let own := (r.own.drop lo).take (chunkLen r.own.length m k)
  let hops := own.zipIdx.map (fun x => redHop r.carry (incoming.map (fun l => l.getD x.2 (.zero false))) x.1)
  let env := s.env r.cl
  let c := s.cl r.cl
  let d := c.desc r.desc
  let s1 := s.putFlags r.cl (hops.foldl (fun f h => f ||| h.fl) 0) false
  let s2 := s1.count 0x500024 (hops.filter (fun h => h.inexact)).length
  let s3 := hops.zipIdx.foldl (fun s h =>
    let was := match incoming with | some l => isNaNVal (l.getD h.2 (.zero false)) | none => false
    if isNaNVal h.1.v && !was then s.redNan r step (lo + h.2) (members.getD k 0) else s) s2
  if step + 1 = m then
    if r.carry < 2 then
      let codes := hops.map (fun h => h.code)
      let s4 := if m = 1 then s3 else s3.sendChunk r members 1 k r.carry d.dst d.dstFmt.bits codes
      s4.redResult r m k (hops.map (fun h => (h.v, h.code)))
    else
      let made := hops.zipIdx.map (fun h => encodeVal d.dstFmt (d.ctl env.seed ((r.base + lo + h.2) % max d.total 1)) h.1.v)
      let s4 := s3.putFlags r.cl (madeFlags made) false
      let s5 := if m = 1 then s4 else s4.sendChunk r members 1 k 4 d.dst d.dstFmt.bits (made.map (fun x => x.code))
      s5.redResult r m k (made.map (fun x => ((decodeVal d.dstFmt x.code).1, x.code)))
  else if r.carry < 2 then s3.sendChunk r members 0 k r.carry d.dst d.dstFmt.bits (hops.map (fun h => h.code))
  else
    let win := hops.all (fun h => fitsIn 96 h.form.1)
    let n := if win then 96 else 256
    s3.sendChunk r members 0 k (if win then 2 else 3) d.dst d.dstFmt.bits
      (hops.map (fun h => bitsOf n h.form.1 + bitsOf 16 h.form.2 * 2 ^ n))

/-- A gathered chunk arrives: it is stored and goes on to the next position but one before its final module (R337). -/
def State.redGather (s : State) (r : Red) (members : List Nat) (k cfmt : Nat) (items : List Nat) : State :=
  let m := members.length
  let pos := ringPos members s.modnum
  let d := (s.cl r.cl).desc r.desc
  let f := redSrc (s.cl r.cl) r
  let s1 := if (pos + 2) % m = k % m then s else s.sendChunk r members 1 k cfmt d.dst d.dstFmt.bits items
  s1.redResult r m k (items.map (fun x => ((decodeVal f x).1, x)))

/-- Elements of a reduce slot as values. -/
def chunkVals (cfmt : Nat) (items : List Nat) : List Val :=
  items.map (fun x =>
    match cfmt with
    | 0 => (decodeVal .posit16 x).1
    | 1 => (decodeVal .bin32 x).1
    | 2 => exactVal (signedOf 96 (x % 2 ^ 96)) (signedOf 16 (x / 2 ^ 96))
    | _ => exactVal (signedOf 256 (x % 2 ^ 256)) (signedOf 16 (x / 2 ^ 256)))

/-- CFMT a RED accepts in a phase (R333, R337). -/
def cfmtOk (carry phase cfmt : Nat) : Bool :=
  if carry < 2 then decide (cfmt = carry)
  else if phase = 1 then decide (cfmt = 4) else decide (cfmt = 2) || decide (cfmt = 3)

/-- A reduction slot meets its RED: once all slots of its chunk are here, the chunk is taken. -/
def State.redPart (s : State) (r : Red) (h : Nat) (body : List Byte) : State :=
  let phase := bits h 14 1
  let k := bits h 15 10
  let cfmt := bits h 33 3
  let d := (s.cl r.cl).desc r.desc
  match s.redRing r.ring with
  | none => s
  | some (_, members) =>
    let m := members.length
    if !cfmtOk r.carry phase cfmt || decide (bits h 36 4 ≠ d.dst) then (s.dropRed r).redFault r.cl r.ring 3
    else if m ≤ k then s
    else
      let key := (k * 2 + phase) * 8 + cfmt
      let len := chunkLen r.own.length m k
      let per := chunkPer cfmt d.dstFmt.bits
      let want := (len + per - 1) / per
      let parts := (r.parts.filter (fun x => !(decide (x.1 = key) && decide (x.2.1 = bits h 25 8)))) ++ [(key, bits h 25 8, body)]
      let mine := parts.filter (fun x => x.1 = key)
      if (List.range want).all (fun i => mine.any (fun x => x.2.1 = i)) then
        let n := chunkBits cfmt d.dstFmt.bits
        let items := (List.range want).flatMap (fun i =>
          match mine.find? (fun x => x.2.1 = i) with
          | some x => unpackItems n (min per (len - i * per)) (x.2.2.take 504)
          | none => [])
        let r1 := { r with parts := parts.filter (fun x => x.1 ≠ key) }
        let s1 := s.setRed r1
        if phase = 0 then s1.redChunk r1 members k (some (chunkVals cfmt items))
        else s1.redGather r1 members k cfmt items
      else s.setRed { r with parts := parts }

/-- Return the credit of a reduction slot whose buffer is free (R314); 16 stands for a port that has been trained since. -/
def State.giveSlot (s : State) (p : Nat) : State := if 16 ≤ p then s else s.setPort p { s.port p with credOut := (s.port p).credOut + 1 }

/-- A reduction slot of a port: it meets its RED, waits for it, or comes too late (R333, R340). -/
def State.redSlot (s : State) (p : Nat) (m : List Byte) : State :=
  let h := leNat (m.take 8)
  let cl := bits h 0 11
  let ring := bits h 11 3
  let rseq := bits h 40 16
  match s.redOf cl ring rseq with
  | some r => (s.giveSlot p).redPart r h (m.drop 8)
  | none =>
    let behind := (sget zeroNat (s.cl cl).rseq ring + 2 ^ 16 - rseq) % 2 ^ 16
    if 1 ≤ behind ∧ behind ≤ 2 ^ 15 then (s.giveSlot p).redFault cl ring 4
    else { s with early := s.early ++ [(p, m)] }

/-- REDUCTION_CHUNK (R335). -/
def execReductionChunk (p : Fin 16) (s : State) : Host.Outcome State Fault Refusal :=
  let x := s.port p
  match x.rx.find? (fun m => decide (m.1 = 1)) with
  | none => .next s
  | some m => .next ((s.setPort p { x with rx := x.rx.erase m }).redSlot p m.2)

/-- The exact values a tile contributes, in element order (R110, R332). -/
def redOwn (t : Tile) : List Val :=
  let side := tileSide t.path
  (List.range side).flatMap (fun r => (List.range side).map (fun j => elemVal t false (resolveElem t.path (t.elem r j))))

/-- The position in the tensor of descriptor `dn` of the next element bound for it (R53): behind those pushed, those with the
store converter and those that earlier REDs still hold. -/
def State.storeNext (s : State) (cl dn : Nat) : Nat :=
  let c := s.cl cl
  let conv := c.conv.foldl (fun n r => if r.desc = dn then n + r.elems.length else n) 0
  let reds := s.reds.foldl (fun n r => if r.cl = cl ∧ r.desc = dn then n + (r.own.length - r.stored) else n) 0
  (c.storeIx dn + conv + reds) % max (c.desc dn).total 1

/-- RED starts (R332, R334, R338): the module is the origin of the chunk of its own position. -/
def State.redStart (s : State) (cl o : Nat) (f : RedF) (rstages : Nat) (members : List Nat) : State :=
  let c := s.cl cl
  let t := c.tile f.tile
  let ring := f.ring.toNat
  let rseq := sget zeroNat c.rseq ring
  let k := c.slot o
  let r : Red :=
    { cl := cl, tile := f.tile, ring := ring, carry := f.carry.toNat, desc := f.desc.toNat, rseq := rseq
      last := s.stageNo + (rstages - 1), own := redOwn t, base := s.storeNext cl f.desc.toNat, task := k.task, step := c.exec.ix }
  let out : ReadOut :=
    { drain := true, red := some (ring, rseq), fmt := 0, rnd := 0, satw := false, site := 0, desc := f.desc.toNat
      task := k.task, step := c.exec.ix, slot := o, k := t.count }
  let c1 := { (c.setTile f.tile { t.resolved with out := some out }).pass1 .execute with rseq := sput zeroNat c.rseq ring ((rseq + 1) % 2 ^ 16) }
  let s1 := (s.setCl cl c1).acts cl (some o) (resolveActs t f.tile k.task c.exec.ix)
  let s2 := ({ s1 with reds := s1.reds ++ [r] } : State).redChunk r members (ringPos members s.modnum) none
  let mine (x : Nat × List Byte) : Bool :=
    let h := leNat (x.2.take 8)
    decide (bits h 0 11 = cl) && decide (bits h 11 3 = ring) && decide (bits h 40 16 = rseq)
  let early := s2.early.filter mine
  early.foldl (fun s x => s.redSlot x.1 x.2) { s2 with early := s2.early.filter (fun x => !mine x) }

/-- RED (R332, R340): a fault leaves the tile busy. -/
def execRed (cl : ClusterNo) (f : RedF) (s : State) : Host.Outcome State Fault Refusal :=
  if f.carry.toNat = 3 then .refused (.refusedAtLoad "RED")
  else
    match s.issuing cl .execute with
    | none => .next s
    | some o =>
      let c := s.cl cl
      let t := c.tile f.tile
      let busy : ReadOut :=
        { drain := true, red := some (f.ring.toNat, 2 ^ 16), fmt := 0, rnd := 0, satw := false, site := 0, desc := 0 }
      let fault (cause : Nat) : State :=
        (s.setCl cl ((c.setTile f.tile { t with out := some busy }).pass1 .execute)).redFault cl f.ring.toNat cause
      if c.tileWaits f.tile o then .next s
      else if t.discard then .next (s.setCl cl (c.pass1 .execute))
      else match s.redRing f.ring.toNat with
        | none => .next (fault 1)
        | some (rstages, members) =>
          if t.path = 3 ∧ f.carry.toNat = 2 then .next (fault 2)
          else .next (s.redStart cl o f rstages members)

end Sys2Proof.Machine
end

