-- ==== Sys2Proof/Machine/Reset.lean ====
section
/-! DEFINITION. Resets (R14, R404 to R408): register fields by reset class, cluster resets, engine, warm, module and
power-on resets. -/

namespace Sys2Proof.Machine

/-- The kinds of reset (R404). -/
inductive RKind where
  | por
  | mod
  | warm
  | eng
  | clu
deriving DecidableEq, Repr

/-! Registers (R14, R461) -/

/-- Whether a field keeps its value through a reset of its window: its class, by R461. -/
def RClass.kept (c : RClass) (k : RKind) : Bool :=
  match c, k with
  | _, .por => false
  | .por, _ => true
  | _, .mod => false
  | .zero, _ => false
  | .itin, .clu => false
  | .warm, .warm => false
  | _, _ => true

/-- Registers that show what sensors and contacts measure: no reset changes them (R405, R412, R426, R454). -/
def sensed (w : Win) (o : Nat) : Bool :=
  match w with
  | .power => decide (0x1C ≤ o) && decide (o ≤ 0x28)
  | .service => o = 0x14 || o = 0x88
  | .events => decide (0x104 ≤ o) && decide (o ≤ 0x144)
  | _ => false

/-- SVC_STATUS.LEVER is sensed (R431). -/
def sensedFld (w : Win) (o : Nat) (f : Fld) : Bool := decide (w = .service) && decide (o = 4) && decide (f.lo = 9)

/-- Descriptor, region and task registers, which a cluster reset zeroes with staging (R408). -/
def zeroedByClu (w : Win) (o : Nat) : Bool :=
  match w with
  | .cluster _ => decide (0x800 ≤ o) && decide (o < 0xA00)
  | _ => false

/-- A register's value after a reset of its window. -/
def regAfter (g : Grade) (k : RKind) (w : Win) (o v : Nat) : Nat :=
  if sensed w o then v
  else if k = .clu ∧ zeroedByClu w o then 0
  else (fldsOf g w o).foldl (fun a f =>
    putBits a f.lo f.len (if f.cls.kept k || sensedFld w o f then bits v f.lo f.len else f.init)) 0

/-- Reset the registers of the windows in scope; their holding copies go, so that a read returns the value after the reset (R459). -/
def State.resetRegs (s : State) (k : RKind) (inScope : Win → Bool) : State :=
  { s with
    latch := s.latch.filter (fun e => match winOf e.1 with | some w => !inScope w | none => true)
    regs := s.regs.filterMap (fun e =>
      match winOf e.1 with
      | none => some e
      | some w =>
        if inScope w then
          let v := BitVec.ofNat 32 (regAfter s.grade k w (e.1 - w.base) e.2.toNat)
          if v = regInit s.grade e.1 then none else some (e.1, v)
        else some e) }

/-- Forget the shadows of a window: each equals its live field again (R280). -/
def State.dropShadows (s : State) (inScope : Win → Bool) : State :=
  let keep (e : Nat × Option Word) : Bool := match winOf e.1 with | some w => !inScope w | none => true
  { s with shadow := s.shadow.filter keep, snap := s.snap.filter keep }

/-! One cluster (R405) -/

/-- A drover request of cluster n. -/
def Req.ofCl (r : Req) (n : Nat) : Bool := decide (r.src = .drover) && decide (r.cl = n)

/-- The mitigation refreshes that rows of a stack wait for run, before a reset's quieting activates them (R223). -/
def State.runRefresh (s : State) (k : Nat) (waits : Mit → Bool) : State :=
  let due := (s.die k).mits.filter (fun m => decide (256 ≤ m.further) && waits m)
  let s1 := due.foldl (fun s m => s.throttle k m.chan m.row) s
  let d := s1.die k
  let rows := due.foldl (fun a m => serase a (m.chan * 2 ^ 22 + m.row)) d.rows
  s1.setDie k { d with mits := d.mits.filter (fun m => !due.any (fun x => decide (x.row = m.row) && decide (x.chan = m.chan))), rows := rows }

/-- A stack performs an accepted request during a reset's quieting, after the refresh its row waits for (R223). -/
def State.settleReq (s : State) (k j : Nat) (q : Req) : State :=
  let l := (s.place q.addr).2
  let s1 := if (s.die k).rowWaits l then s.runRefresh k (fun m => decide (m.row = bits l 15 22) && decide (m.chan = bits l 9 4)) else s
  if q.write then s1.performWrite k j q [] else s1.performRead k j q []

/-- What a stack has accepted in ranges is performed, in the order of its acceptance (R215). -/
def State.settleRanges (s : State) (k : Nat) (rs : List (Nat × Nat)) : State :=
  (s.die k).accepted.foldl (fun s q =>
    if inRanges rs (q.addr / 512) then
      match (s.die k).accepted.findIdx? (fun x => decide (x = q)) with
      | some j => s.settleReq k j q
      | none => s
    else s) s

/-- The first accepted request of a cluster is done with: a read is dropped, a write performed; what the stack has accepted before it for
the same granule comes first (R215). -/
def State.settleOne (n k : Nat) (s : State) : State :=
  let d := s.die k
  match d.accepted.find? (fun r => r.ofCl n) with
  | none => s
  | some r =>
    let at_ (q : Req) : Bool := if r.write then decide (q.addr / 512 = r.addr / 512) else q.ofCl n
    match d.accepted.findIdx? at_ with
    | none => s
    | some j =>
      let q := d.accepted.getD j r
      if !q.write && q.ofCl n then s.dropAccepted k j else s.settleReq k j q

/-- The stores of a cluster that wait or are accepted at a stack are performed and acknowledged; its reads are dropped, and what waits
there for its jobs and table loads (R405 step 1). -/
def State.quietDie (s : State) (n k : Nat) : State :=
  let d := s.die k
  let mine (r : Req) : Bool := decide (r.who = { kind := 0, id := n })
  let puts := d.waiting.filter (fun r => r.ofCl n && r.write)
  let s1 := s.setDie k { d with waiting := d.waiting.filter (fun r => !mine r), accepted := d.accepted ++ puts }
  let s2 := puts.foldl (fun s r => if r.bytes.isEmpty || s.reqOwns r then s else s.noteWrite (r.addr / 0x200000) k r.who) s1
  (List.range (d.accepted.length + puts.length)).foldl (fun s _ => State.settleOne n k s) s2

/-- A job that cluster n issued. -/
def Job.ofCl (j : Job) (n : Nat) : Bool := match j.src with | .cluster c => decide (c.val = n) | .waybill .. => false

/-- A cluster's job runs to its end and is acknowledged (R405 step 1), after what its stacks have accepted there and the refreshes that
its rows wait for (R215, R223). What a speculative task's job would record goes with the task (R255). -/
def State.quietJob (n : Nat) (s : State) (j : Job) : State :=
  let rs := s.jobRanges (s.jobOwner j) j.d
  let ready := (List.range 8).foldl (fun s k => (s.settleRanges k rs).runRefresh k (fun m =>
    (List.range 4).any (fun i => inRanges rs (s.unplace k (m.row * 2 ^ 15 + i * 2 ^ 13 + m.chan * 2 ^ 9) / 512)))) s
  let s1 := if j.done then s else ready.workJob j
  let j1 := (s1.jobs.find? (fun x => decide (x.ord = j.ord))).getD j
  let t := (s1.cl n).slot j.slot
  if j1.cause = 0 || (j.spec && t.holds && decide (t.task = j.task)) then s1 else s1.jobFault j1.dieNo j1.cause n false

def State.quietJobs (s : State) (n : Nat) : State :=
  let s1 := (s.jobs.filter (fun j => j.ofCl n)).foldl (State.quietJob n) s
  { s1 with jobs := s1.jobs.filter (fun j => !j.ofCl n) }

/-- The provisional map entries of a cluster's speculative tasks close without a commit (R256 steps 4, 5). -/
def State.closePmes (s : State) (n task : Nat) : State :=
  let mine (e : Pme) : Bool := e.used && decide (e.oclu = n) && decide (e.otask = task)
  let gone := s.pmes.filter (fun p => mine p.2)
  { s with
    wr := gone.foldl (fun m p => sclear m (p.2.lpage * 4096) (p.2.pages * 4096)) s.wr
    pmes := s.pmes.map (fun p => if mine p.2 then (p.1, { p.2 with opened := false }) else p) }

/-- The cluster's own state after a reset: staging kept but under CLU, running becomes stopped but under CLU; a table load in
progress leaves its bank empty (R180, R408). -/
def Cluster.afterReset (c : Cluster) (k : RKind) : Cluster :=
  let c0 : Cluster :=
    { glz0 := c.glz0, glz1 := c.glz1, gactive := c.gactive, wins := c.wins, fill := c.fill, rseq := c.rseq, tseq := c.tseq
      slots := c.slots }
  let c1 : Cluster := if c.gload.isSome then c0.setGbank (1 - c.gactive) {} else c0
  if k = .clu then c1
  else
    { c1 with
      staging := c.staging, sec := c.sec, start := c.start, stopAt := c.stopAt, issued := c.issued, returned := c.issued
      st := if c.st = 2 then 3 else c.st
      stopc := if c.st = 2 then 12 else c.stopc }

/-- Entries of the provisional map that belong to a cluster's itinerary go with it (R262). -/
def State.freePmes (s : State) (n : Nat) : State :=
  { s with pmes := s.pmes.filter (fun p => decide (p.2.oclu ≠ n)) }

/-- R405 on one cluster. -/
def State.resetCl (s : State) (k : RKind) (n : Nat) : State :=
  let s1 := (List.range 8).foldl (fun s d => s.quietDie n d) s
  let s2 := s1.quietJobs n
  let c := s2.cl n
  let s3 := [c.slot0, c.slot1].foldl (fun s t => if t.holds then s.closePmes n t.task else s) s2
  let s4 : State := { s3 with
    relays := s3.relays.filter (fun r => decide (r.cl ≠ n))
    reds := s3.reds.map (fun r => if r.cl = n then { r with rseq := 2 ^ 16 } else r)
    notices := s3.notices.filter (fun x => decide (x.cl ≠ n)) }
  let s5 := s4.setCl n (c.afterReset k)
  let s6 := s5.resetRegs k (fun w => w = .cluster n)
  if k = .clu then s6.freePmes n else s6

/-! Waybills that a reset ends (R363, R406) -/

/-- A cluster set and a list meet. -/
def meets (a b : List Nat) : Bool := a.any (fun x => b.contains x)

/-- Opcodes of RESET_ENGINE and RESET_CLUSTER, which no reset of theirs ends. -/
def resetOpc (o : Nat) : Bool := o = 0x104 || o = 0x105

/-- Started waybills that name a cluster of the set end with ABORTED. -/
def State.abortNaming (s : State) (ns : List Nat) (reason : Nat) : State :=
  (List.range 16).foldl (fun s r =>
    (s.ring r).taken.foldl (fun s w =>
      if 1 ≤ w.phase ∧ !resetOpc w.opc ∧ meets w.clus ns then s.finish r w 0x0F [reason] else s) s) s

/-- A pause that names a cluster of the set ends. -/
def State.breakPause (s : State) (ns : List Nat) : State :=
  match s.pause with
  | none => s
  | some p =>
    if !meets p.clus ns then s
    else if p.st = 3 then
      let left := p.clus.filter (fun n => !ns.contains n)
      if left = [] then { s with pause := none } else { s with pause := some { p with clus := left } }
    else
      let s1 := p.clus.foldl (fun s n => s.setCl n { s.cl n with pausing := false }) s
      { s1 with pause := none }

/-- RTN_STATUS.MISMATCH (R282): evaluated again; a change to 1 raises EV_RTN_MISMATCH. -/
def State.evalMismatch (s : State) : State :=
  let bad := s.clusters.any (fun e => decide (1 ≤ e.2.st) && decide (e.2.sec.rtnId ≠ s.regN 0x1000))
  let was := (s.reg 0x1004).getLsbD 0
  let s1 := s.setFld 0x1004 0 1 (if bad then 1 else 0)
  let odd := (s.clusters.find? (fun e => decide (1 ≤ e.2.st) && decide (e.2.sec.rtnId ≠ s.regN 0x1000))).map (fun e => e.2.sec.rtnId)
  if bad && !was then s1.raise 19 0 0 (s1.regN 0x1000) (odd.getD 0) else s1

/-- A CLU reset of the clusters of a list. -/
def State.resetClusters (s : State) (ns : List Nat) : State :=
  let s1 := (s.abortNaming ns 2).breakPause ns
  (ns.foldl (fun s n => s.resetCl .clu n) s1).evalMismatch

/-- Clusters of an engine that are present. -/
def State.engClusters (s : State) (e : Nat) : List Nat := ((List.range 128).map (fun c => 128 * e + c)).filter s.present

/-- An ENG reset (R404, R405). -/
def State.resetEngine1 (s : State) (e : Nat) : State :=
  let ns := s.engClusters e
  let s1 := (s.abortNaming ns 1).breakPause ns
  let s2 := ns.foldl (fun s n => s.resetCl .eng n) s1
  (s2.setUnit e {}).resetRegs .eng (fun w => w = .engine e)

/-! The caravan domain is left (R406, R365 DISBAND) -/

/-- The module is alone: its book, votes and reductions are gone, its trained ports stay. -/
def State.leaveDomain (s : State) : State :=
  let s1 := s.early.foldl (fun s e => s.giveSlot e.1) s
  let s2 : State := { s1 with cvn := {}, early := [], reds := [] }
  let s3 := (List.range 16).foldl (fun s p => s.setPort p { s.port p with vin := 0, vout := 0 }) s2
  ((s3.setFld 0x500000 0 2 0).setFld 0x500000 2 2 0).setReg64 0x500004 0

/-! Module-wide resets -/

/-- Every other waybill taken and without a receipt ends (R406). -/
def State.abortTaken (s : State) (but : Option (Nat × Nat)) : State :=
  (List.range 16).foldl (fun s r =>
    (s.ring r).taken.foldl (fun s w => if but = some (r, w.ix) then s else s.finish r w 0x0F [3]) s) s

/-- PWR_EFFCAP.EFF is reset to the grade maximum, which is 760 W under the pin (R402, R412). -/
def State.effReset (s : State) : State := if s.foot then s.setFld 0x200010 0 16 760 else s

/-- Every backlog counts its age anew (R275, R285): RTN_AGEa read 0 after a reset. -/
def State.ageless (s : State) : State :=
  let now := s.stageNo
  { s with
    teth := { s.teth with txq := s.teth.txq.map (fun t => { t with due := now }), rxq := s.teth.rxq.map (fun t => { t with due := now }) }
    dies := s.dies.map (fun d => (d.1, { d.2 with
      waiting := d.2.waiting.map (fun r => { r with due := now }), scrubDue := d.2.scrubDue.map (fun _ => now)
      cal := d.2.cal.map (fun _ => now), mits := d.2.mits.map (fun m => { m with due := now }) })) }

/-- A WARM reset (R404 to R406), which empties the tandem units with the engine windows; `but` is the RESET_WARM waybill. -/
def State.warmReset (s : State) (but : Option (Nat × Nat)) : State :=
  let s1 := s.abortTaken but
  let jobs := s1.jobs.filter (fun j => match j.src with | .cluster _ => true | .waybill .. => false)
  let s2 := s1.presentList.foldl (fun s n => s.resetCl .warm n) { s1 with jobs := jobs }
  let s3 := s2.leaveDomain
  let s4 := s3.resetRegs .warm (fun w => match w with | .cluster _ => false | _ => true)
  let s5 : State := { s4 with
    preds := [], pause := none, order := [], starved := [], setpLate := false, relays := [], tandem := []
    svc := { life := s4.svc.life, uv := s4.svc.uv, beyond := s4.svc.beyond, tripped := s4.svc.tripped, asked := s4.svc.asked } }
  ((s5.setFld 0x200008 0 2 3).effReset.ageless).evalMismatch

/-- What POR and MOD leave alike: all state but fuses, flash, what is measured and what the module has sent. -/
def State.afreshKeeping (s : State) (k : RKind) (phase : Nat) : State :=
  let r := s.resetRegs k (fun _ => true)
  { State.reset with
    pending := s.pending, grade := s.grade, out := s.out, fresh := s.fresh, saved := s.saved, phase := phase
    regs := r.regs
    svc := { life := s.svc.life, uv := s.svc.uv, beyond := s.svc.beyond }
    boot := { s.boot with meas := [], switching := none, irqs := [], recovery := false }
    side := if k = .por then { s.side with eid := 0, dyn := 0, recv := none } else { s.side with eid := 0, rstLow := false }
    tap := if k = .por then {} else { s.tap with waiting := false } }

/-- POR (R404, R409): start-up phase A. -/
def State.porReset (s : State) : State := s.afreshKeeping .por 1

/-- MOD (R404, R408): start-up phase B; the interleave mode for the next initialisation comes into force (R213), the
footprint is as its pin (R306), the cap setting no more than it allows (R291). `cause` is PWR_RSTCAUSE.KIND. -/
def State.modReset (s : State) (cause : Nat) : State :=
  let next := s.fld 0x200 2 2
  let pin := s.fld 0x600 0 1
  let s1 := s.afreshKeeping .mod 2
  let s2 := ((s1.setFld 0x200 0 2 next).setFld 0x600 1 1 pin).setFld 0x200008 0 2 cause
  (if s2.foot then s2.setFld 0x20000C 0 16 760 else s2).effReset

/-- An ENG reset of the engines of a mask whose common domain is on (R404, R407). -/
def State.resetEngines (s : State) (mask : Nat) : State :=
  (List.range 16).foldl (fun s e => if mask.testBit e && s.domainOn (128 + e) then s.resetEngine1 e else s) s

/-- A reset acts. -/
def State.resetNow (s : State) (d : ResetDue) : State :=
  match d with
  | .eng m => s.resetEngines m
  | .mod c => s.modReset c

/-- A reset that arrives in the last kc of a stage acts from kc 0 of the next one (R407); one that waits for the acknowledgement of its
write acts when the kc ends (R404). -/
def State.resetOr (s : State) (d : ResetDue) (acked : Bool) : State :=
  if s.lastKc || !acked then { s with resets := s.resets ++ [d] } else s.resetNow d

/-- Resets that were put off act; a module reset governs (R407). -/
def State.dueResets (s : State) : State :=
  let s0 : State := { s with resets := [] }
  match s.resets.find? (fun d => match d with | .mod _ => true | .eng _ => false) with
  | some d => s0.resetNow d
  | none => s.resets.foldl State.resetNow s0

end Sys2Proof.Machine
end

