-- ==== Sys2Proof/Machine/Ed25519.lean ====
section
/-! DEFINITION. Ed25519 in its pure form (R432, R433, R440), as RFC 8032 defines it: key from seed, signature, verification. -/

namespace Sys2Proof.Machine

/-- b ^ e modulo m, for an e of at most `fuel` bits. -/
def powMod (m : Nat) : Nat → Nat → Nat → Nat
  | 0, _, _ => 1 % m
  | n + 1, b, e =>
    let h := powMod m n (b * b % m) (e / 2)
    if e % 2 = 1 then h * b % m else h

/-- The field's prime and the order of the base point. -/
def edP : Nat := 2 ^ 255 - 19
def edL : Nat := 2 ^ 252 + 27742317777372353535851937790883648493

def edInv (x : Nat) : Nat := powMod edP 256 x (edP - 2)

/-- The curve's d: -121665/121666. -/
def edD : Nat := (edP - 121665) * edInv 121666 % edP

/-- A point: x = X/Z, y = Y/Z, x y = T/Z. -/
structure EdPoint where
  x : Nat
  y : Nat
  z : Nat
  t : Nat
deriving DecidableEq, Repr

def edZero : EdPoint := { x := 0, y := 1, z := 1, t := 0 }

def edAdd (a b : EdPoint) : EdPoint :=
  let p := edP
  let m := (a.y + p - a.x) * (b.y + p - b.x) % p
  let n := (a.y + a.x) * (b.y + b.x) % p
  let c := 2 * edD * a.t * b.t % p
  let d := 2 * a.z * b.z % p
  let e := n + p - m
  let f := d + p - c
  let g := d + c
  let h := n + m
  { x := e * f % p, y := g * h % p, t := e * h % p, z := f * g % p }

/-- k times a point, for a k of at most `fuel` bits. -/
def edMul : Nat → Nat → EdPoint → EdPoint
  | 0, _, _ => edZero
  | n + 1, k, q =>
    let r := edMul n (k / 2) (edAdd q q)
    if k % 2 = 1 then edAdd r q else r

def edSame (a b : EdPoint) : Bool := decide (a.x * b.z % edP = b.x * a.z % edP) && decide (a.y * b.z % edP = b.y * a.z % edP)

/-- The point with an ordinate and the parity of its abscissa. -/
def edFrom (y odd : Nat) : Option EdPoint :=
  let p := edP
  let u := (y * y + p - 1) % p
  let v := (edD * y % p * y + 1) % p
  let x0 := u * v % p * v % p * v % p * powMod p 256 (u * powMod p 3 v 7 % p) ((p - 5) / 8) % p
  let w := v * x0 % p * x0 % p
  let x := if w = u then some x0 else if w = (p - u) % p then some (x0 * powMod p 256 2 ((p - 1) / 4) % p) else none
  match x with
  | none => none
  | some x =>
    if p ≤ y ∨ (x = 0 ∧ odd = 1) then none
    else
      let x1 := if x % 2 = odd then x else p - x
      some { x := x1, y := y, z := 1, t := x1 * y % p }

def edDecode (bs : List Byte) : Option EdPoint := let n := leNat (bs.take 32); edFrom (n % 2 ^ 255) (n / 2 ^ 255 % 2)

def edEncode (a : EdPoint) : List Byte :=
  let i := edInv a.z
  leBytes 32 (a.y * i % edP + a.x * i % edP % 2 * 2 ^ 255)

/-- The base point: y = 4/5, x even. -/
def edBase : EdPoint := (edFrom (4 * edInv 5 % edP) 0).getD edZero

/-- The secret scalar of a seed. -/
def edScalar (seed : List Byte) : Nat :=
  let n := leNat ((sha512 seed).take 32)
  n % 2 ^ 254 / 8 * 8 + 2 ^ 254

/-- The public key of a seed. -/
def edPublic (seed : List Byte) : List Byte := edEncode (edMul 256 (edScalar seed) edBase)

/-- The number that binds a signature to key and message. -/
def edHash (r key msg : List Byte) : Nat := leNat (sha512 (r ++ key ++ msg)) % edL

/-- The signature of a message. -/
def edSign (seed msg : List Byte) : List Byte :=
  let a := edScalar seed
  let r := leNat (sha512 ((sha512 seed).drop 32 ++ msg)) % edL
  let big := edEncode (edMul 256 r edBase)
  big ++ leBytes 32 ((r + edHash big (edPublic seed) msg * a) % edL)

/-- A signature verifies: 8 S B = 8 R + 8 k A. -/
def edVerify (key msg sig : List Byte) : Bool :=
  let s := leNat ((sig.drop 32).take 32)
  match edDecode key, edDecode sig with
  | some a, some r =>
    decide (s < edL) && decide (sig.length = 64) && decide (key.length = 32) &&
    edSame (edMul 4 8 (edMul 256 s edBase)) (edMul 4 8 (edAdd r (edMul 256 (edHash (sig.take 32) key msg) a)))
  | _, _ => false

end Sys2Proof.Machine
end

