-- ==== Sys2Proof/Machine/Keccak.lean ====
section
/-! DEFINITION. SHAKE128 and SHAKE256 as FIPS 202 defines them, which ML-DSA-65 uses (R433, R440). -/

namespace Sys2Proof.Machine

/-- Lane (x, y) of a state of 25 lanes. -/
def lane (a : List (BitVec 64)) (x y : Nat) : BitVec 64 := a.getD (x % 5 + 5 * (y % 5)) 0

/-- Bit t of the round constants: the register of x^8 + x^6 + x^5 + x^4 + 1 after t steps. -/
def keccakLfsr : Nat → Nat
  | 0 => 1
  | n + 1 => let r := 2 * keccakLfsr n; if 256 ≤ r then (r - 256) ^^^ 0x71 else r

def keccakConst (round : Nat) : BitVec 64 :=
  (List.range 7).foldl (fun c j => if keccakLfsr (j + 7 * round) % 2 = 1 then c ||| (1#64 <<< (2 ^ j - 1)) else c) 0

def keccakConsts : List (BitVec 64) := (List.range 24).map keccakConst

/-- Where rotation step t stands: from (1, 0), (x, y) goes to (y, 2x + 3y). -/
def keccakWalk : Nat → Nat × Nat
  | 0 => (1, 0)
  | n + 1 => let p := keccakWalk n; (p.2, (2 * p.1 + 3 * p.2) % 5)

/-- The rotation of lane (x, y). -/
def keccakRot (x y : Nat) : Nat :=
  match (List.range 24).find? (fun t => decide (keccakWalk t = (x, y))) with
  | some t => (t + 1) * (t + 2) / 2 % 64
  | none => 0

def keccakRots : List Nat := (List.range 25).map (fun i => keccakRot (i % 5) (i / 5))

def keccakTheta (a : List (BitVec 64)) : List (BitVec 64) :=
  let c := (List.range 5).map (fun x => (List.range 5).foldl (fun v y => v ^^^ lane a x y) 0)
  a.zipIdx.map (fun e => e.1 ^^^ c.getD ((e.2 + 4) % 5) 0 ^^^ (c.getD ((e.2 + 1) % 5) 0).rotateLeft 1)

/-- Lanes are rotated and moved: (x, y) goes to (y, 2x + 3y). -/
def keccakRhoPi (a : List (BitVec 64)) : List (BitVec 64) :=
  let r := (a.zip keccakRots).map (fun e => e.1.rotateLeft e.2)
  (List.range 25).map (fun i => lane r (i % 5 + 3 * (i / 5)) (i % 5))

def keccakChi (a : List (BitVec 64)) : List (BitVec 64) :=
  (List.range 25).map (fun i => lane a i (i / 5) ^^^ (~~~(lane a (i % 5 + 1) (i / 5)) &&& lane a (i % 5 + 2) (i / 5)))

def keccakRound (a : List (BitVec 64)) (c : BitVec 64) : List (BitVec 64) :=
  match keccakChi (keccakRhoPi (keccakTheta a)) with
  | x :: r => (x ^^^ c) :: r
  | [] => []

def keccakF (a : List (BitVec 64)) : List (BitVec 64) := keccakConsts.foldl keccakRound a

/-- A block of `rate` bytes goes in. -/
def keccakTake (a : List (BitVec 64)) (blk : List Byte) : List (BitVec 64) :=
  keccakF (a.zipIdx.map (fun e => e.1 ^^^ BitVec.ofNat 64 (leNat ((blk.drop (8 * e.2)).take 8))))

def keccakAbsorb (rate : Nat) : Nat → List (BitVec 64) → List Byte → List (BitVec 64)
  | 0, a, _ => a
  | n + 1, a, bs => keccakAbsorb rate n (keccakTake a (bs.take rate)) (bs.drop rate)

/-- The next n blocks that come out. -/
def keccakSqueeze (rate : Nat) : Nat → List (BitVec 64) → List Byte
  | 0, _ => []
  | n + 1, a => (a.flatMap (fun w => leBytes 8 w.toNat)).take rate ++ keccakSqueeze rate n (keccakF a)

/-- An extendable output with the suffix and padding of SHAKE, n bytes of it. -/
def shake (rate : Nat) (msg : List Byte) (n : Nat) : List Byte :=
  let k := msg.length % rate
  let pad := if k + 1 = rate then [0x9F#8] else 0x1F#8 :: List.replicate (rate - k - 2) 0#8 ++ [0x80#8]
  let all := msg ++ pad
  let a := keccakAbsorb rate (all.length / rate) (List.replicate 25 0) all
  (keccakSqueeze rate ((n + rate - 1) / rate) a).take n

def shake128 (msg : List Byte) (n : Nat) : List Byte := shake 168 msg n
def shake256 (msg : List Byte) (n : Nat) : List Byte := shake 136 msg n

end Sys2Proof.Machine
end

