-- ==== Sys2Proof/Machine/MlDsa.lean ====
section
/-! DEFINITION. ML-DSA-65 in its pure form with an empty context (R432, R433, R440), as FIPS 204 defines it: keys from a seed, signature,
verification. -/

namespace Sys2Proof.Machine

/-! Polynomials of 256 coefficients modulo q -/

def dsaQ : Nat := 8380417

/-- The 8 bits of a number in reverse. -/
def rev8 (n : Nat) : Nat := (List.range 8).foldl (fun r i => r + n / 2 ^ i % 2 * 2 ^ (7 - i)) 0

/-- The power of 1753 at node m of the transform, and its inverse. -/
def dsaZeta (m : Nat) : Nat := powMod dsaQ 10 1753 (rev8 m)
def dsaZetaInv (m : Nat) : Nat := powMod dsaQ 10 1753 (512 - rev8 m)

def polyAdd (a b : List Nat) : List Nat := List.zipWith (fun x y => (x + y) % dsaQ) a b
def polySub (a b : List Nat) : List Nat := List.zipWith (fun x y => (x + dsaQ - y) % dsaQ) a b
def polyMul (a b : List Nat) : List Nat := List.zipWith (fun x y => x * y % dsaQ) a b
def polyScale (k : Nat) (a : List Nat) : List Nat := a.map (fun x => k * x % dsaQ)
def polyZero : List Nat := List.replicate 256 0

/-- The transform below node m, `lev` levels of it. -/
def nttAt : Nat → Nat → List Nat → List Nat
  | 0, _, a => a
  | lev + 1, m, a =>
    let n := a.length / 2
    let h := polyScale (dsaZeta m) (a.drop n)
    nttAt lev (2 * m) (polyAdd (a.take n) h) ++ nttAt lev (2 * m + 1) (polySub (a.take n) h)

def nttInvAt : Nat → Nat → List Nat → List Nat
  | 0, _, a => a
  | lev + 1, m, a =>
    let n := a.length / 2
    let l := nttInvAt lev (2 * m) (a.take n)
    let h := nttInvAt lev (2 * m + 1) (a.drop n)
    polyAdd l h ++ polyScale (dsaZetaInv m) (polySub l h)

def ntt (a : List Nat) : List Nat := nttAt 8 1 a
def nttInv (a : List Nat) : List Nat := polyScale 8347681 (nttInvAt 8 1 a)

/-- A vector of transforms times a matrix of them. -/
def matVec (m : List (List (List Nat))) (v : List (List Nat)) : List (List Nat) :=
  m.map (fun row => (row.zip v).foldl (fun s e => polyAdd s (polyMul e.1 e.2)) polyZero)

/-- The value of a residue nearest to 0. -/
def centred (x : Nat) : Int := if 2 * x ≤ dsaQ then x else (x : Int) - dsaQ
def residue (x : Int) : Nat := (x % (dsaQ : Int)).toNat
/-- No coefficient is as large as a bound. -/
def within (bound : Nat) (v : List (List Nat)) : Bool := v.all (fun a => a.all (fun x => decide ((centred x).natAbs < bound)))

/-! Bits and bytes -/

/-- The numbers of w bits each, packed from the least significant bit on. -/
def packBits (w : Nat) (xs : List Nat) : List Byte := leBytes (w * xs.length / 8) (xs.foldr (fun x n => x % 2 ^ w + 2 ^ w * n) 0)

def takeBits (w : Nat) : Nat → Nat → List Nat
  | 0, _ => []
  | n + 1, v => v % 2 ^ w :: takeBits w n (v / 2 ^ w)

def unpackBits (w n : Nat) (bs : List Byte) : List Nat := takeBits w n (leNat bs)

/-! Sampling -/

/-- Coefficients from three bytes each, those below q. -/
def rejThree : List Byte → List Nat
  | a :: b :: c :: r =>
    let z := a.toNat + 256 * b.toNat + 65536 * (c.toNat % 128)
    if z < dsaQ then z :: rejThree r else rejThree r
  | _ => []

/-- The matrix: 6 rows of 5 transforms. Ten blocks of output stand for as much as it takes. -/
def expandA (rho : List Byte) : List (List (List Nat)) :=
  (List.range 6).map (fun r => (List.range 5).map (fun s => (rejThree (shake128 (rho ++ leBytes 1 s ++ leBytes 1 r) 1680)).take 256))

/-- Coefficients from -4 to 4 of half bytes, those below 9. -/
def rejHalf (bs : List Byte) : List Nat :=
  bs.flatMap (fun b => ([b.toNat % 16, b.toNat / 16].filter (fun z => decide (z < 9))).map (fun (z : Nat) => residue (4 - (z : Int))))

def expandS (seed : List Byte) (r : Nat) : List Nat := (rejHalf (shake256 (seed ++ leBytes 2 r) 816)).take 256

/-- One step of the shuffle: position i takes what stands at j, which takes a sign. -/
def ballStep (c : List Nat) (i j : Nat) (minus : Bool) : List Nat :=
  (c.set i (c.getD j 0)).set j (if minus then dsaQ - 1 else 1)

/-- The shuffle from position i on. -/
def ballFrom (signs : Nat) : Nat → Nat → List Byte → List Nat → List Nat
  | 0, _, _, c => c
  | n + 1, i, bs, c =>
    let r := bs.dropWhile (fun b => decide (i < b.toNat))
    ballFrom signs n (i + 1) (r.drop 1) (ballStep c i (r.headD 0).toNat (signs.testBit (i + 49 - 256)))

/-- The challenge of a seed: 49 coefficients of 1 or -1. -/
def sampleInBall (seed : List Byte) : List Nat :=
  let bs := shake256 seed 1088
  ballFrom (leNat (bs.take 8)) 49 207 (bs.drop 8) polyZero

/-- The mask vector of a signing round. -/
def expandMask (seed : List Byte) (round : Nat) : List (List Nat) :=
  (List.range 5).map (fun r => (unpackBits 20 256 (shake256 (seed ++ leBytes 2 (round + r)) 640)).map
    (fun (v : Nat) => residue (2 ^ 19 - (v : Int))))

/-! Rounding -/

/-- x modulo an even a, from -a/2 + 1 to a/2. -/
def modCentred (x a : Nat) : Int := if x % a ≤ a / 2 then (x % a : Nat) else (x % a : Nat) - (a : Int)

def power2Round (x : Nat) : Nat × Int := let r := modCentred x 8192; (((x : Int) - r).toNat / 8192, r)

def decompose (x : Nat) : Nat × Int :=
  let r := modCentred x 523776
  if (x : Int) - r = dsaQ - 1 then (0, r - 1) else (((x : Int) - r).toNat / 523776, r)

def useHint (h x : Nat) : Nat :=
  let d := decompose x
  if h = 1 then (if 0 < d.2 then (d.1 + 1) % 16 else (d.1 + 15) % 16) else d.1

def highEncode (w : List (List Nat)) : List Byte := w.flatMap (packBits 4)

/-! Keys -/

structure DsaKey where
  rho : List Byte
  k : List Byte
  s1 : List (List Nat)
  s2 : List (List Nat)
  t0 : List (List Nat)
  pub : List Byte
deriving DecidableEq, Repr

/-- Keys from a seed of 32 bytes. -/
def mlKeys (seed : List Byte) : DsaKey :=
  let h := shake256 (seed ++ leBytes 1 6 ++ leBytes 1 5) 128
  let rho := h.take 32
  let sp := (h.drop 32).take 64
  let s1 := (List.range 5).map (expandS sp)
  let s2 := (List.range 6).map (fun r => expandS sp (r + 5))
  let t := List.zipWith (fun a b => polyAdd (nttInv a) b) (matVec (expandA rho) (s1.map ntt)) s2
  { rho := rho, k := h.drop 96, s1 := s1, s2 := s2
    t0 := t.map (fun a => a.map (fun x => residue (power2Round x).2))
    pub := rho ++ t.flatMap (fun a => packBits 10 (a.map (fun x => (power2Round x).1))) }

def mlPublic (seed : List Byte) : List Byte := (mlKeys seed).pub

/-- What a message is hashed to under a public key: pure form, empty context. -/
def mlMu (pub msg : List Byte) : List Byte := shake256 (shake256 pub 64 ++ [0#8, 0#8] ++ msg) 64

/-! Hints -/

/-- 55 positions and 6 running counts. -/
def hintPack (h : List (List Nat)) : List Byte :=
  let ones := h.map (fun a => (List.range 256).filter (fun i => decide (a.getD i 0 = 1)))
  let all := ones.flatten
  (all ++ List.replicate (55 - all.length) 0).flatMap (leBytes 1) ++
    (List.range 6).flatMap (fun i => leBytes 1 ((ones.take (i + 1)).flatten.length))

/-- The positions of one polynomial rise. -/
def rising : List Nat → Bool
  | a :: b :: r => decide (a < b) && rising (b :: r)
  | _ => true

def hintUnpack (bs : List Byte) : Option (List (List Nat)) :=
  let y := bs.map (fun b => b.toNat)
  let cut (i : Nat) : Nat := if i = 0 then 0 else y.getD (54 + i) 0
  let part (i : Nat) : List Nat := (y.drop (cut i)).take (cut (i + 1) - cut i)
  if (List.range 6).all (fun i => decide (cut i ≤ cut (i + 1)) && decide (cut (i + 1) ≤ 55) && rising (part i)) &&
      ((y.take 55).drop (cut 6)).all (fun b => decide (b = 0)) then
    some ((List.range 6).map (fun i => (List.range 256).map (fun j => if (part i).contains j then 1 else 0)))
  else none

/-! Signatures -/

/-- A signature of 3,309 bytes verifies. -/
def mlVerify (pub msg sig : List Byte) : Bool :=
  let seed := sig.take 48
  let z := (List.range 5).map (fun i => (unpackBits 20 256 ((sig.drop (48 + 640 * i)).take 640)).map (fun (v : Nat) => residue (2 ^ 19 - (v : Int))))
  match hintUnpack ((sig.drop 3248).take 61) with
  | none => false
  | some h =>
    let t1 := (List.range 6).map (fun i => ntt ((unpackBits 10 256 ((pub.drop (32 + 320 * i)).take 320)).map (fun x => x * 8192 % dsaQ)))
    let c := ntt (sampleInBall seed)
    let w := List.zipWith (fun a t => nttInv (polySub a (polyMul c t))) (matVec (expandA (pub.take 32)) (z.map ntt)) t1
    let w1 := List.zipWith (fun a b => List.zipWith useHint a b) h w
    decide (pub.length = 1952) && decide (sig.length = 3309) && within (2 ^ 19 - 196) z &&
      decide (seed = shake256 (mlMu pub msg ++ highEncode w1) 48)

/-- One signing round; none when it is rejected. -/
def mlRound (key : DsaKey) (mu seed : List Byte) (round : Nat) : Option (List Byte) :=
  let y := expandMask seed round
  let w := (matVec (expandA key.rho) (y.map ntt)).map nttInv
  let ct := shake256 (mu ++ highEncode (w.map (fun a => a.map (fun x => (decompose x).1)))) 48
  let c := ntt (sampleInBall ct)
  let times (v : List (List Nat)) : List (List Nat) := v.map (fun a => nttInv (polyMul c (ntt a)))
  let z := List.zipWith polyAdd y (times key.s1)
  let r := List.zipWith polySub w (times key.s2)
  let ct0 := times key.t0
  let h := List.zipWith (fun a b => List.zipWith (fun x t =>
    if (decompose ((x + t) % dsaQ)).1 = (decompose x).1 then 0 else 1) a b) r ct0
  let low := r.map (fun a => a.map (fun x => residue (decompose x).2))
  if within (2 ^ 19 - 196) z && within (261888 - 196) low && within 261888 ct0 && decide ((h.flatten.filter (fun (x : Nat) => decide (x = 1))).length ≤ 55) then
    some (ct ++ z.flatMap (fun a => packBits 20 (a.map (fun x => (2 ^ 19 - centred x).toNat))) ++ hintPack h)
  else none

/-- The signature of a message by the key of a seed, with 32 random bytes. A round is accepted once in five; 814 are tried. -/
def mlSign (seed rnd msg : List Byte) : List Byte :=
  let key := mlKeys seed
  let mu := mlMu key.pub msg
  let mask := shake256 (key.k ++ rnd ++ mu) 64
  ((List.range 814).findSome? (fun i => mlRound key mu mask (5 * i))).getD (List.replicate 3309 0#8)

end Sys2Proof.Machine
end

