-- ==== Sys2Proof/Machine/Sign.lean ====
section
/-! DEFINITION. Signature blocks and measurements (18_boot_identity_attestation.md, R432 to R434, R441). -/

namespace Sys2Proof.Machine

def asciiBytes (t : String) : List Byte := t.toList.map (fun c => BitVec.ofNat 8 c.toNat)

/-- LABEL of a KEYSET, zero-padded (R432). -/
def labelOf (keyset : Nat) : List Byte :=
  let l := asciiBytes (match keyset with
    | 0 => "LSX-FIRMWARE" | 1 => "LSX-ITINERARY" | 2 => "LSX-ATTEST" | _ => "LSX-ENDORSE")
  l ++ List.replicate (16 - l.length) 0#8

/-- The 72 bytes of a block that both algorithms sign (R432, R433). -/
def sigHead (keyset : Nat) (signed : List Byte) : List Byte :=
  [0x53#8, 0x49#8, 0x47#8, 0x42#8] ++ leBytes 2 1 ++ leBytes 1 keyset ++ leBytes 1 0 ++ labelOf keyset ++ sha384 signed

/-- A signature block over some bytes, by the key pairs of two seeds (R432). -/
def sigBlock (keyset : Nat) (signed ed ml rnd : List Byte) : List Byte :=
  let head := sigHead keyset signed
  head ++ edPublic ed ++ mlPublic ml ++ edSign ed head ++ mlSign ml rnd head ++ List.replicate 3 0#8

/-- The unrevoked fused root slot with a key hash (R434). -/
def State.rootSlot (s : State) (h : List Byte) : Option Nat :=
  (List.range 4).find? (fun i => Config.rootFused i && !s.boot.revoked.testBit i && decide ((List.range 48).map (Config.rootHash i) = h))

/-- SEC_OWNHASH as 48 bytes. -/
def State.ownHash (s : State) : List Byte := (List.range 12).flatMap (fun w => leBytes 4 (s.regN (0x105010 + 4 * w)))

/-- R433 cause 2: the key hash is usable. -/
def State.keyUsable (s : State) (keyset : Nat) (h : List Byte) : Bool :=
  match keyset with
  | 0 => (s.rootSlot h).isSome
  | 1 => decide (s.ownHash = h) && s.ownHash.any (fun b => b ≠ 0)
  | _ => false

/-- Public keys of a signature block, whose hash R433 names. -/
def sigKeys (blk : List Byte) : List Byte := (blk.drop 72).take 1984

/-- R433: the cause of the first failing check, 0 when all pass. `good` is the state of the enclosing package or image,
`svnLow` that its SVN is below its counter. -/
def State.sigCause (s : State) (keyset : Nat) (good : Bool) (blk signed : List Byte) (svnLow : Bool) : Nat :=
  if !good ∨ blk.length ≠ 5432 ∨ blk.take 4 ≠ [0x53#8, 0x49#8, 0x47#8, 0x42#8] ∨ leAt blk 4 2 ≠ 1 ∨ leAt blk 7 1 ≠ 0 ∨
      leAt blk 5429 3 ≠ 0 then 1
  else if leAt blk 6 1 ≠ keyset ∨ (blk.drop 8).take 16 ≠ labelOf keyset then 7
  else if !s.keyUsable keyset (sha384 (sigKeys blk)) then 2
  else if (blk.drop 24).take 48 ≠ sha384 signed then 3
  else if !edVerify ((blk.drop 72).take 32) (blk.take 72) ((blk.drop 2056).take 64) then 4
  else if !mlVerify ((blk.drop 104).take 1952) (blk.take 72) ((blk.drop 2120).take 3309) then 5
  else if svnLow then 6
  else 0

/-- A verification failed (R444). -/
def State.authFail (s : State) : State := s.count 0x105074 1

/-- Extend measurement `slot` by a digest (R441). -/
def State.measure (s : State) (slot : Nat) (d : List Byte) : State :=
  { s with boot := { s.boot with meas := sput zeroMeas s.boot.meas slot (sha384 (sget zeroMeas s.boot.meas slot ++ d)) } }

/-- Byte offset of the first poisoned codeword in a range of Loess (R219). -/
def State.firstPoison (s : State) (a n : Nat) : Option Nat :=
  if n = 0 then none
  else ((List.range ((a + n - 1) / 64 - a / 64 + 1)).find? (fun i => s.poisoned ((a / 64 + i) * 64) 64)).map
    (fun i => (a / 64 + i) * 64 - a)

end Sys2Proof.Machine
end

