-- ==== Sys2Proof/Machine/Image.lean ====
section
/-! DEFINITION. Itinerary images: format, the checks of R241, and loading (09_itineraries_and_tasks.md R237 to R242,
R253, R254; R302, R443). -/

namespace Sys2Proof.Machine

/-! Image format (R237 to R240) -/

/-- An itinerary image: bytes 0 to LENGTH - 1. -/
structure Img where
  bs : List Byte
deriving DecidableEq, Repr

def Img.g (i : Img) (o n : Nat) : Nat := leAt i.bs o n
def Img.len (i : Img) : Nat := i.g 20 4
def Img.id (i : Img) : Nat := i.g 8 8
def Img.nsect (i : Img) : Nat := i.g 32 2
def Img.npme (i : Img) : Nat := i.g 34 2
def Img.isSigned (i : Img) : Bool := (i.g 6 2).testBit 0
def Img.routed (i : Img) : Bool := (i.g 6 2).testBit 1
def Img.dirAt (i : Img) (k : Nat) : Nat := i.g 36 4 + 8 * k
def Img.secAt (i : Img) (k : Nat) : Nat := i.g (i.dirAt k) 4
def Img.secNo (i : Img) (k : Nat) : Nat := i.g (i.dirAt k + 4) 2
def Img.sects (i : Img) : List Nat := List.range i.nsect

/-- The header of a section (R238). -/
def Img.sec (i : Img) (k : Nat) : Section :=
  let o := i.secAt k
  { imgId := i.id, rtnId := i.g 28 4, ntask := i.g (o + 2) 2, loopTo := i.g (o + 4) 2, nexec := i.g (o + 6) 2, nacc := i.g (o + 8) 2
    ndesc := i.g (o + 10) 1, nreg := i.g (o + 11) 1, iters := i.g (o + 12) 4, loopBase := i.g (o + 16) 4
    loopStages := i.g (o + 20) 4 }

/-- Where a section's parts begin: descriptors, regions, itinerary area. -/
def Img.descAt (i : Img) (k : Nat) : Nat := i.secAt k + 64
def Img.regAt (i : Img) (k : Nat) : Nat := i.descAt k + 64 * (i.sec k).ndesc
def Img.areaAt (i : Img) (k : Nat) : Nat := i.regAt k + 8 * (i.sec k).nreg
def Img.secLen (i : Img) (k : Nat) : Nat := 64 + 64 * (i.sec k).ndesc + 8 * (i.sec k).nreg + (i.sec k).area

def Img.descBytes (i : Img) (k d : Nat) : List Byte := (i.bs.drop (i.descAt k + 64 * d)).take 64
def Img.desc (i : Img) (k d : Nat) : Desc := descOf (i.descBytes k d)
def Img.reg (i : Img) (k r : Nat) : Nat := i.g (i.regAt k + 8 * r) 8
def Img.region (i : Img) (k r : Nat) : Region := regionOf (i.reg k r)
def Img.areaBytes (i : Img) (k : Nat) : List Byte := (i.bs.drop (i.areaAt k)).take (i.sec k).area
def Img.task (i : Img) (k t : Nat) : TaskE := taskOf ((i.bs.drop (i.areaAt k + 16 * t)).take 16)

/-- A program's words (R238): the execute program, then the access program. -/
def Img.progAt (i : Img) (k : Nat) (h : Half) : Nat :=
  i.areaAt k + 16 * (i.sec k).ntask + (match h with | .execute => 0 | .access => 16 * (i.sec k).nexec)
def Img.progLen (i : Img) (k : Nat) (h : Half) : Nat := match h with | .execute => (i.sec k).nexec | .access => (i.sec k).nacc
def Img.words (i : Img) (k : Nat) (h : Half) : List Nat := (List.range (i.progLen k h)).map (fun x => i.g (i.progAt k h + 16 * x) 16)

def clNo (n : Nat) : ClusterNo := ⟨n % 2048, Nat.mod_lt _ (by decide)⟩

def Img.insns (i : Img) (k : Nat) (h : Half) : List (Option Instr) := (i.words k h).map (insnOf (clNo (i.secNo k)) h)

/-- A provisional map entry of an image (R240). -/
structure PmeE where
  num : Nat
  otask : Nat
  oclu : Nat
  pages : Nat
  lpage : Nat
  spage : Nat
  rsvd : Bool
deriving DecidableEq, Repr

def Img.pme (i : Img) (p : Nat) : PmeE :=
  let o := i.g 40 4 + 16 * p
  { num := i.g o 1, otask := i.g (o + 2) 2, oclu := i.g (o + 4) 2, pages := i.g (o + 6) 2, lpage := i.g (o + 8) 4
    spage := i.g (o + 12) 4, rsvd := decide (i.g (o + 1) 1 ≠ 0 ∨ 2 ^ 19 ≤ i.g (o + 8) 4 ∨ 2 ^ 19 ≤ i.g (o + 12) 4) }
def Img.pmes (i : Img) : List PmeE := (List.range i.npme).map i.pme

/-! The checks of R241, one cause at a time: the section and the entry concerned, when the check fails -/

/-- Section and entry of a refusal. -/
abbrev LoadAt := Nat × Nat

/-- A refusal of cause c that concerns no section, or a section as a whole. -/
def nowhere (c : Nat) : LoadAt := (Config.loadNowhere c, Config.loadNowhere c)
def secOnly (c k : Nat) : LoadAt := (k, Config.loadNowhere c)

def Img.within (i : Img) (o n : Nat) : Bool := decide (256 ≤ o) && decide (o + n ≤ i.len)

/-- Cause 1. -/
def Img.fail1 (i : Img) : Option LoadAt :=
  if i.bs.take 4 ≠ [0x49#8, 0x54#8, 0x4E#8, 0x58#8] ∨ i.g 4 2 ≠ 1 ∨ i.len < 256 ∨ i.bs.length ≠ i.len ∨
      i.g 16 4 ≠ (crc32c 0 (i.bs.drop 32)).toNat ∨ i.nsect = 0 ∨ 2048 < i.nsect ∨ 256 < i.npme ∨
      !i.within (i.g 36 4) (8 * i.nsect) ∨ (i.npme ≠ 0 ∧ !i.within (i.g 40 4) (16 * i.npme)) ∨
      (i.routed ∧ !i.within (i.g 44 4) (i.g 48 4)) then some (nowhere 1)
  else (i.sects.find? (fun k => !i.within (i.secAt k) 64 || !i.within (i.secAt k) (i.secLen k))).map (secOnly 1)

/-- The mirror of a cluster (R302). -/
def mirrorOf (n : Nat) : Nat := n + 1024

/-- Cause 2; `set` are the clusters named, `mode2` that TND_CTL.MODE is 2. -/
def Img.fail2 (i : Img) (s : State) (set : List Nat) (mode2 : Bool) : Option LoadAt :=
  let runs (n : Nat) : Bool := decide ((s.cl n).st = 2)
  let hit := i.sects.find? (fun k =>
    let n := i.secNo k
    !s.present n || (List.range k).any (fun j => decide (i.secNo j = n)) || decide (i.g (i.secAt k) 2 ≠ n) ||
    (mode2 && (decide (1024 ≤ n) || (set.contains n && runs (mirrorOf n)))) || (set.contains n && runs n))
  match hit with
  | some k => some (secOnly 2 k)
  | none => if s.presentCount < i.g 24 4 ∨ set.any runs then some (nowhere 2) else none

/-- An instruction with a reserved field value (cause 3): codes that the tables mark reserved. -/
def reservedCode (c : Nat) : Bool := (fmtOf c).isNone

def insnReserved (x : Instr) : Bool :=
  match x with
  | .mop _ f => decide (f.opk.toNat = 7) || reservedCode f.cls.toNat || decide (f.grp.toNat = 3) || decide (f.gs.toNat = 3) ||
      decide (f.zpm.toNat = 3) || decide (f.wsrc.toNat = 3)
  | .read _ f | .drain _ f => reservedCode f.fmt.toNat || decide (f.rnd.toNat = 3)
  | .tload _ f => reservedCode f.fmt.toNat || decide (f.path.toNat = 0)
  | .red _ f => decide (f.carry.toNat = 3)
  | .glz _ f => decide (0x14 ≤ f.gfn.toNat) || reservedCode f.ifmt.toNat || reservedCode f.ofmt.toNat
  | _ => false

/-- OPC values of each program (R243). -/
def opcListed (h : Half) (opc : Nat) : Bool :=
  [0x00, 0x01, 0x02, 0x03].contains opc ||
  (match h with
    | .execute => [0x10, 0x11, 0x12, 0x20, 0x21, 0x22, 0x23, 0x30, 0x31, 0x32, 0x40, 0x41, 0x42, 0x43].contains opc
    | .access => [0x80, 0x81, 0x82, 0x83].contains opc)

/-- A word with reserved bits set or a reserved field value. -/
def wordReserved (n : ClusterNo) (h : Half) (w : Nat) : Bool :=
  match insnOf n h w with
  | some x => insnReserved x
  | none => opcListed h (w % 256)

/-- The first index of a list at which a check fails. -/
def badIx {α : Type} (l : List α) (f : α → Bool) : Option Nat := l.findIdx? f

def Desc.reserved (d : Desc) : Bool := reservedCode d.src || reservedCode d.dst || decide (d.rnd = 3) || decide (d.rsvd ≠ 0)

/-- Section header fields outside their ranges (R238): cause 7 (DEDUCED). -/
def Img.headRange (i : Img) (k : Nat) : Bool :=
  let c := i.sec k
  decide (c.ntask = 0) || decide (1024 < c.ntask) || decide (c.ntask ≤ c.loopTo) || decide (c.nexec = 0) || decide (c.nacc = 0) ||
  decide (64 < c.ndesc) || decide (64 < c.nreg) || decide (c.loopStages = 0)

/-- Reserved bytes of a section header and a directory entry (R237, R238). -/
def Img.headReserved (i : Img) (k : Nat) : Bool := decide (i.g (i.secAt k + 24) 40 ≠ 0) || decide (i.g (i.dirAt k + 6) 2 ≠ 0)

/-- Cause 3. -/
def Img.fail3 (i : Img) : Option LoadAt :=
  if 4 ≤ i.g 6 2 ∨ i.g 56 200 ≠ 0 ∨ (!i.routed ∧ i.g 44 4 ≠ 0) ∨ (!i.isSigned ∧ i.g 52 4 ≠ 0) then some (nowhere 3)
  else match badIx i.pmes (fun p => p.rsvd) with
    | some p => some (Config.loadNowhere 3, p)
    | none =>
      i.sects.findSome? (fun k =>
        let c := i.sec k
        if i.headReserved k then some (secOnly 3 k)
        else
          let n := clNo (i.secNo k)
          let bad : Option Nat :=
            (badIx ((List.range c.ndesc).map (i.desc k)) Desc.reserved).orElse fun _ =>
            (badIx ((List.range c.nreg).map (i.region k)) (fun r => r.rsvd)).orElse fun _ =>
            (badIx ((List.range c.ntask).map (i.task k)) (fun t => t.rsvd || decide (t.mode = 3))).orElse fun _ =>
            (badIx (i.words k .execute) (wordReserved n .execute)).orElse fun _ =>
            badIx (i.words k .access) (wordReserved n .access)
          bad.map (fun e => (k, e)))

/-- Cause 4: R191, and staging streams below the itinerary area. -/
def Img.fail4 (i : Img) : Option LoadAt :=
  i.sects.findSome? (fun k =>
    (badIx ((List.range (i.sec k).ndesc).map (i.desc k)) (fun d => !d.ok (i.sec k).area)).map (fun e => (k, e)))

/-- Two page ranges meet. -/
def pagesMeet (a n b m : Nat) : Bool := decide (a < b + m) && decide (b < a + n)

/-- Provisional map entries that stay in use when the clusters of a list are loaded. -/
def State.otherPmes (s : State) (gone : List Nat) : List (Nat × Pme) := s.pmes.filter (fun p => p.2.used && !gone.contains p.2.oclu)

/-- Cause 5: R197, and a region that reaches a shadow range. -/
def Img.fail5 (i : Img) (s : State) (gone : List Nat) : Option LoadAt :=
  let shadows := i.pmes.map (fun p => (p.spage, p.pages)) ++ (s.otherPmes gone).map (fun p => (p.2.spage, p.2.pages))
  i.sects.findSome? (fun k =>
    (badIx ((List.range (i.sec k).nreg).map (i.region k)) (fun r =>
      !r.ok || (r.v && shadows.any (fun x => pagesMeet r.base r.pages x.1 x.2)))).map (fun e => (k, e)))

/-- The entry's ranges are ill placed: outside Loess, or its own ranges meet. -/
def PmeE.bad (p : PmeE) : Bool :=
  decide (p.pages = 0) || decide (4096 < p.pages) || decide (2 ^ 19 < p.lpage + p.pages) || decide (2 ^ 19 < p.spage + p.pages) ||
  pagesMeet p.lpage p.pages p.spage p.pages

/-- Two entries' ranges meet. -/
def pmesMeet (a b : Nat × Nat × Nat) : Bool :=
  pagesMeet a.1 a.2.2 b.1 b.2.2 || pagesMeet a.1 a.2.2 b.2.1 b.2.2 || pagesMeet a.2.1 a.2.2 b.1 b.2.2 || pagesMeet a.2.1 a.2.2 b.2.1 b.2.2

/-- Cause 6. `half` is the number of provisional pages the image may have. -/
def Img.fail6 (i : Img) (s : State) (gone : List Nat) (halves : Nat) : Option LoadAt :=
  let others := s.otherPmes gone
  let mine (p : PmeE) : Bool := gone.contains p.oclu
  let span (p : PmeE) : Nat × Nat × Nat := (p.lpage, p.spage, p.pages)
  let bad := (i.pmes.zipIdx).find? (fun x =>
    PmeE.bad x.1 || (mine x.1 && others.any (fun o => decide (o.1 = x.1.num) || pmesMeet (span x.1) (o.2.lpage, o.2.spage, o.2.pages))) ||
    (i.pmes.take x.2).any (fun q => decide (q.num = x.1.num) || pmesMeet (span x.1) (span q)))
  let total := (i.pmes.map (fun p => p.pages)).foldl (· + ·) 0
  let loaded := halves * ((i.pmes.filter mine).map (fun p => p.pages)).foldl (· + ·) 0 + (others.map (fun o => o.2.pages)).foldl (· + ·) 0
  match bad with
  | some x => some (Config.loadNowhere 6, x.2)
  | none =>
    if 4096 < halves * total ∨ 4096 < loaded then some (nowhere 6)
    else i.sects.findSome? (fun k =>
      (badIx ((List.range (i.sec k).nreg).map (i.region k)) (fun r =>
        r.v && r.prov && !i.pmes.any (fun p => decide (p.lpage = r.base) && decide (p.pages = r.pages)))).map (fun e => (k, e)))

/-! Cause 7 -/

/-- Descriptors an instruction names. -/
def insnDescs (x : Instr) : List Nat :=
  match x with
  | .mop _ f => f.sa.toNat :: (if f.wsrc.toNat = 0 then [f.sb.toNat] else [])
  | .wload _ d _ => [d.toNat]
  | .read _ f | .drain _ f => [f.desc.toNat]
  | .tload _ f => [f.desc.toNat]
  | .glz _ f => [f.sa.toNat, f.desc.toNat] ++ (if f.gfn.toNat = 0x10 then [f.idesc.toNat] else [])
  | .red _ f => [f.desc.toNat]
  | .stream _ d | .waits _ d => [d.toNat]
  | .spair _ f => SpairF.descs f
  | _ => []

/-- Staging bytes [lo, lo + n - 1] lie within the scratch ranges. -/
def scratchSpan (area lo n : Nat) : Bool := decide (n = 0) || inScratch area lo ((lo + n : Nat) - 1 : Int)

/-- R48, R94, R106, R149, R161, R189, R244, R302, R332 for one instruction at index x of a program. DESIGN CHOICES: the class of a set that
WLOAD has loaded is not held against the CLS of a MOP that uses it (log entry 145); SATW of a READ or DRAIN is not held against R117, which
speaks of descriptors (log entry 146). -/
def Img.insnBad (i : Img) (k x : Nat) (mode : Nat) (e : Instr) : Bool :=
  let c := i.sec k
  let dst (d : BitVec 6) : Nat := (i.desc k d.toNat).dst
  !e.wf || (insnDescs e).any (fun d => decide (c.ndesc ≤ d)) ||
  (match e with
    | .mop _ f => decide (dst f.sa ≠ f.cls.toNat) || (decide (f.wsrc.toNat = 0) && decide (dst f.sb ≠ f.cls.toNat))
    | .wload _ d pack =>
      decide ((i.desc k d.toNat).total % (if pack then 64 else 32) ≠ 0) || decide (16 < (i.desc k d.toNat).dstFmt.bits)
    | .read _ f | .drain _ f => !(i.desc k f.desc.toNat).takes ((fmtOf f.fmt.toNat).getD .bin32)
    | .loop _ _ _ t => decide (x ≤ t.toNat)
    | .glz _ f => (decide (f.gfn.toNat = 0x10) && decide ((i.desc k f.idesc.toNat).src ≠ 9 ∨ (i.desc k f.idesc.toNat).dst ≠ 9)) ||
        !(i.desc k f.desc.toNat).takes ((fmtOf f.ofmt.toNat).getD .bin32)
    | .gtload _ r _ a => decide (c.nreg ≤ r.toNat) || (decide (mode = 2) && a.getLsbD 39)
    | .setp _ f => !scratchSpan c.area f.off.toNat 4 || (decide (mode = 2) && f.pred.getLsbD 7)
    | .job _ j => !scratchSpan c.area j.toNat 64
    | .red _ f => decide (mode ≠ 0) || decide (7 < dst f.desc)
    | _ => false)

/-- The part of a program that a task entry runs: from the first index its loops reach to the first END. -/
def bodyOf (p : List (Option Instr)) (entry : Nat) : List Instr :=
  let stop := match (p.drop entry).findIdx? (fun x => match x with | some (.endHalf ..) => true | _ => false) with
    | some d => entry + d
    | none => p.length
  let lower (lo : Nat) : Nat := (List.range (stop - lo)).foldl (fun m d =>
    match p.getD (lo + d) none with | some (.loop _ _ _ t) => min m t.toNat | _ => m) lo
  let lo := lower (lower (lower (lower entry)))
  ((p.drop lo).take (stop - lo)).filterMap id

/-- Instructions a speculative task must not hold (R253). -/
def specBarred (x : Instr) : Bool :=
  match x with
  | .gtload .. | .gswitch _ | .gstep _ | .wadv _ | .setp .. | .red .. => true
  | _ => false

/-- The task owns the provisional region a descriptor names. -/
def Img.ownsRegion (i : Img) (k t r : Nat) : Bool :=
  let g := i.region k r
  g.prov && i.pmes.any (fun p => decide (p.oclu = i.secNo k) && decide (p.otask = t) && decide (p.lpage = g.base) &&
      decide (p.pages = g.pages))

/-- Bytes [lo, hi] of staging lie in a task's window. -/
def inWindow (e : TaskE) (lo hi : Int) : Bool := decide ((1024 * e.wbase : Nat) ≤ lo) && decide (hi < (1024 * (e.wbase + e.wsize) : Nat))

/-- A descriptor's own writes stay where a speculative task may write (R253). -/
def Img.specDescOk (i : Img) (k t : Nat) (e : TaskE) (d : Desc) : Bool :=
  !d.stat &&
  (match d.kind with
    | 1 => if d.space then inWindow e (d.extent.1 / 2) (d.extent.2 / 2) else i.ownsRegion k t d.region
    | 3 => inWindow e (d.aux : Int) ((d.aux : Int) + ((d.total * d.dstFmt.bits + 7) / 8 : Nat) - 1)
    | _ => true)

/-- The streams a dynamic store links (R195). -/
def linkedDescs (d : Desc) : List Nat :=
  if d.kind = 1 ∧ d.scm then bits d.aux 0 6 :: (if d.aux.testBit 14 then [bits d.aux 8 6] else []) else []

/-- A linked descriptor's bytes are written by its store. -/
def asStore (d : Desc) : Desc := { d with kind := 1 }

/-- A non-speculative store into a provisional region (R254). -/
def Img.provStore (i : Img) (k : Nat) (d : Desc) : Bool := decide (d.kind = 1) && !d.space && (i.region k d.region).prov

/-- The job block that a JOB of a speculative task names, as it stands in scratch, has its destination outside the task's provisional
region (R253). A block that breaks R224 or R225 waits for the check at issue (R226). -/
def Img.specJobBad (i : Img) (k t : Nat) (block : Nat → List Byte) (x : Instr) : Bool :=
  match x with
  | .job _ j =>
    let d := jobOf (block j.toNat)
    let g := i.region k d.dreg
    !d.reserved && d.shapeOk && !(i.ownsRegion k t d.dreg && decide (g.base * 0x200000 ≤ d.dstExt.1) &&
      decide (d.dstExt.1 + d.dstExt.2 ≤ (g.base + g.pages) * 0x200000))
  | _ => false

/-- Whether a task entry breaks a rule (R248, R250, R253, R254, R302); `block` gives the 64 bytes of scratch at an offset. -/
def Img.taskBad (i : Img) (k t : Nat) (mode : Nat) (block : Nat → List Byte) : Bool :=
  let c := i.sec k
  let e := i.task k t
  let body := bodyOf (i.insns k .execute) e.exec ++ bodyOf (i.insns k .access) e.acc
  let ds := (body.flatMap insnDescs).map (i.desc k)
  let links := (ds.flatMap linkedDescs).map (fun d => asStore (i.desc k d))
  decide (c.nexec ≤ e.exec) || decide (c.nacc ≤ e.acc) || decide (16 < e.wsize) ||
  (decide (mode = 2) && decide (e.mode ≠ 0) && decide (128 ≤ e.pred)) ||
  (if e.mode = 2 then
      !scratchSpan c.area (1024 * e.wbase) (1024 * e.wsize) || body.any specBarred || body.any (i.specJobBad k t block) ||
          (ds ++ links).any (fun d => !i.specDescOk k t e d)
    else decide (e.wsize ≠ 0) || (ds ++ links).any (i.provStore k))

/-- Bit 39 in use (R302). -/
def Img.usesTop (i : Img) (k : Nat) : Bool :=
  (List.range (i.sec k).ndesc).any (fun d =>
    let x := i.desc k d
    (!x.space && decide (2 ^ 39 ≤ x.base)) || (decide (x.kind = 2) && decide (2 ^ 39 ≤ x.aux))) ||
  (List.range (i.sec k).nreg).any (fun r => let g := i.region k r; g.v && decide (2 ^ 18 < g.base + g.pages))

/-- Cause 7. -/
def Img.fail7 (i : Img) (s : State) (mode : Nat) : Option LoadAt :=
  match (if mode = 2 then badIx i.pmes (fun p => decide (128 ≤ p.num) || decide (2 ^ 18 < p.lpage + p.pages) ||
      decide (2 ^ 18 < p.spage + p.pages))
    else none) with
  | some p => some (Config.loadNowhere 7, p)
  | none =>
    i.sects.findSome? (fun k =>
      let prog (h : Half) : Option Nat := badIx ((i.insns k h).zipIdx) (fun x =>
        match x.1 with | none => true | some e => i.insnBad k x.2 mode e)
      let bad : Option Nat :=
        (badIx (List.range (i.sec k).ntask) (fun t => i.taskBad k t mode (fun o => (s.cl (i.secNo k)).stg o 64))).orElse fun _ =>
        (prog .execute).orElse fun _ => prog .access
      if i.headRange k then some (secOnly 7 k)
      else match bad with
        | some e => some (k, e)
        | none => if mode = 2 ∧ i.usesTop k then some (secOnly 7 k) else none)

/-! Cause 8 -/

/-- LOOP instructions whose block holds the instruction at an index. -/
def loopDepth (p : List (Option Instr)) (x : Nat) : Nat :=
  ((p.zipIdx).filter (fun y => match y.1 with | some (.loop _ _ _ t) => decide (t.toNat ≤ x) && decide (x ≤ y.2) | _ => false)).length

def hasEnd (p : List (Option Instr)) (entry : Nat) : Bool :=
  (p.drop entry).any (fun x => match x with | some (.endHalf ..) => true | _ => false)

def Img.fail8 (i : Img) : Option LoadAt :=
  i.sects.findSome? (fun k =>
    let deep (h : Half) : Bool := (List.range (i.progLen k h)).any (fun x => decide (4 < loopDepth (i.insns k h) x))
    if 0x8000 < (i.sec k).area ∨ deep .execute ∨ deep .access then some (secOnly 8 k)
    else
      (badIx ((List.range (i.sec k).ntask).map (i.task k)) (fun t =>
        !hasEnd (i.insns k .execute) t.exec || !hasEnd (i.insns k .access) t.acc)).map (fun e => (k, e)))

/-! Cause 9 (R443) -/

/-- The R433 cause of an image's signature; none when it is accepted. An absent signature where the policy requires one shows some cause of
R433: a free value from 1 to 7 (R443). -/
def Img.fail9 (i : Img) (s : State) (sig : List Byte) : Option LoadAt :=
  if !i.isSigned then
    if (s.reg 0x105008).getLsbD 0 then some (0xFFFFFFFF, 1 + Config.loadNowhere 9 % 7) else none
  else
    let c := s.sigCause 1 true sig i.bs false
    if c = 0 then none else some (0xFFFFFFFF, c)

/-- The sections of an image that a list of cluster numbers names. -/
def Img.chosen (i : Img) (names : List Nat) : List Nat := i.sects.filter (fun k => names.contains (i.secNo k))

/-- All checks of R241 in the order of their causes. -/
def Img.check (i : Img) (s : State) (set : List Nat) (sig : List Byte) : Option (Nat × LoadAt) :=
  let mode := s.tmode
  let ns := (i.chosen set).map i.secNo
  let gone := if mode = 2 then ns ++ ns.map mirrorOf else ns
  let tag (c : Nat) (x : Option LoadAt) : Option (Nat × LoadAt) := x.map (fun e => (c, e))
  (tag 1 i.fail1).orElse fun _ => (tag 2 (i.fail2 s set (decide (mode = 2)))).orElse fun _ => (tag 3 i.fail3).orElse fun _ =>
  (tag 4 i.fail4).orElse fun _ => (tag 5 (i.fail5 s gone)).orElse fun _ =>
  (tag 6 (i.fail6 s gone (if mode = 2 then 2 else 1))).orElse fun _ => (tag 7 (i.fail7 s mode)).orElse fun _ =>
  (tag 8 i.fail8).orElse fun _ => (tag 9 (i.fail9 s sig)).orElse fun _ =>
  if i.g 28 4 ≠ s.regN 0x1000 then some (10, nowhere 10) else none

/-! Loading (R241, R242, R302) -/

/-- A cluster without an itinerary, its tiles, banks and glaze tables kept. -/
def Cluster.idled (c : Cluster) : Cluster :=
  let quiet (t : Tile) : Tile := { t with out := none, ld := none, spec := none }
  { tile0 := quiet c.tile0, tile1 := quiet c.tile1, bankA := c.bankA, bankB := c.bankB, active := c.active
    glz0 := c.glz0, glz1 := c.glz1, gactive := c.gactive, gload := c.gload, gwait := c.gwait, gswitch := c.gswitch
    wins := c.wins, fill := c.fill, staging := c.staging, rseq := c.rseq, tseq := c.tseq, slots := c.slots, dhold := c.dhold
    issued := c.issued, returned := c.issued }

/-- The itinerary of cluster n goes: its stores and jobs are performed, its provisional entries freed. -/
def State.forget (s : State) (n : Nat) : State :=
  let s1 := (List.range 8).foldl (fun s d => s.quietDie n d) s
  let s2 := s1.quietJobs n
  let c := s2.cl n
  let s3 := [c.slot0, c.slot1].foldl (fun s t => if t.holds then s.closePmes n t.task else s) s2
  let s4 : State := { s3 with
    relays := s3.relays.filter (fun r => decide (r.cl ≠ n))
    reds := s3.reds.map (fun r => if r.cl = n then { r with rseq := 2 ^ 16 } else r)
    notices := s3.notices.filter (fun x => decide (x.cl ≠ n)) }
  (s4.setCl n c.idled).freePmes n

/-- UNLOAD on one cluster (R365). -/
def State.unload (s : State) (n : Nat) : State := s.forget n

def orByte (bs : List Byte) (i : Nat) (m : Byte) : List Byte := bs.set i (bs.getD i 0 ||| m)

/-- R302: what the loader changes for the mirror. -/
def mirrorDesc (bs : List Byte) : List Byte :=
  let d := descOf bs
  let b1 := if d.space then bs else orByte bs 4 0x80#8
  if d.kind = 2 ∧ !d.subq ∧ !d.space then (if d.aux = 0 then b1 else orByte b1 60 0x80#8) else b1
def mirrorReg (x : Nat) : Nat := x ||| 2 ^ 30
def mirrorWord (h : Half) (bs : List Byte) : List Byte :=
  match h, (bs.getD 0 0).toNat with
  | .execute, 0x42 => orByte bs 1 0x80#8
  | .execute, 0x31 => orByte bs 8 0x80#8
  | _, _ => bs
def mirrorTask (bs : List Byte) : List Byte := if (taskOf bs).mode = 0 then bs else orByte bs 5 0x80#8

def Img.mirrorArea (i : Img) (k : Nat) : List Byte :=
  let c := i.sec k
  let at16 (x : Nat) : List Byte := (i.bs.drop (i.areaAt k + 16 * x)).take 16
  (List.range (c.ntask + c.nexec + c.nacc)).flatMap (fun x =>
    if x < c.ntask then mirrorTask (at16 x)
    else if x < c.ntask + c.nexec then mirrorWord .execute (at16 x)
    else mirrorWord .access (at16 x))

/-- Load section k into cluster n, as its mirror when `m`. -/
def State.loadSection (s : State) (i : Img) (k n : Nat) (m : Bool) : State :=
  let sec := i.sec k
  let c0 := s.cl n
  let c1 := (List.range sec.ndesc).foldl (fun (c : Cluster) d =>
    c.setStg (0xF000 + 64 * d) (if m then mirrorDesc (i.descBytes k d) else i.descBytes k d)) c0
  let c2 := c1.setStg (0x20000 - sec.area) (if m then i.mirrorArea k else i.areaBytes k)
  let s1 := s.setCl n { c2 with st := 1, stopc := 0, sec := sec }
  (List.range 64).foldl (fun s r =>
    let x := if sec.nreg ≤ r then 0 else if m then mirrorReg (i.reg k r) else i.reg k r
    (s.setRegN (ca n (0x800 + 8 * r)) (x % 2 ^ 32)).setRegN (ca n (0x804 + 8 * r)) (x / 2 ^ 32)) s1

/-- Install the provisional map entries whose owner is a cluster of the list. -/
def State.loadPmes (s : State) (i : Img) (ns : List Nat) (m : Bool) : State :=
  i.pmes.foldl (fun s p =>
    if ns.contains p.oclu then
      let up := if m then 2 ^ 18 else 0
      s.setPme (p.num + (if m then 128 else 0))
        { used := true, img := i.id, otask := p.otask, oclu := if m then mirrorOf p.oclu else p.oclu, pages := p.pages
          lpage := p.lpage + up, spage := p.spage + up }
    else s) s

/-- How a load ends. -/
inductive LoadEnd where
  | poison (done : Nat)
  | refused (cause : Nat) (place : LoadAt)
  | done (s : State) (sections : Nat) (imgId : Nat)
deriving DecidableEq, Repr

/-- The bytes of the image at a Loess address; none when its LENGTH runs outside Loess. -/
def State.imageAt (s : State) (addr : Nat) : Img :=
  let len := leNat (s.loessRead (addr + 20) 4)
  { bs := if 2 ^ 40 < addr + len then [] else s.loessRead addr len }

/-- The decoder meets the header of an image, then the rest of it and its signature block, as the load reads them (R219). -/
def State.eccImage (s : State) (addr : Nat) (ecc : List (Nat × EccCase)) : State :=
  let s1 := s.eccReads [(addr, 256)] mgmtWho ecc
  let i := s1.imageAt addr
  let rest := ecc.filter (fun e => !touches addr 256 e.1)
  s1.eccReads [(addr, i.bs.length), (addr + i.g 52 4, if i.isSigned then 5432 else 0)] mgmtWho rest

/-- The state once the chosen sections are loaded, in both halves of a doubled module (R241, R303). -/
def State.loadChosen (s : State) (i : Img) (names : List Nat) : State :=
  let ks := i.chosen names
  let ns := ks.map i.secNo
  let two := decide (s.tmode = 2)
  let s1 := (ns ++ (if two then ns.map mirrorOf else [])).foldl State.forget s
  let s2 := ks.foldl (fun s k => s.loadSection i k (i.secNo k) false) s1
  let s3 := if two then ks.foldl (fun s k => s.loadSection i k (mirrorOf (i.secNo k)) true) s2 else s2
  let s4 := s3.loadPmes i ns false
  let s5 := if two then s4.loadPmes i ns true else s4
  (s5.measure 6 (sha384 i.bs)).evalMismatch

/-- Load the sections that a set names from the image at an address (R241, R367, R443). -/
def State.loadImage (s : State) (addr : Nat) (set : List Nat) (all : Bool) : LoadEnd :=
  if 2 ^ 40 < addr + 256 then .refused 1 (nowhere 1)
  else
    let i := s.imageAt addr
    let sigAt := i.g 52 4
    let sig := if i.isSigned && decide (addr + sigAt + 5432 ≤ 2 ^ 40) then s.loessRead (addr + sigAt) 5432 else []
    let dirty := (s.firstPoison addr (max 256 i.bs.length)).orElse fun _ =>
      if sig = [] then none else (s.firstPoison (addr + sigAt) 5432).map (fun o => sigAt + o)
    match dirty with
    | some d => .poison d
    | none =>
      let names := if all then i.sects.map i.secNo else set
      match i.check s names sig with
      | some (c, e) => .refused c e
      | none =>
        .done (s.loadChosen i names) (i.chosen names).length i.id

end Sys2Proof.Machine
end

