-- ==== Sys2Proof/Machine/Ports.lean ====
section
/-! DEFINITION. Commands to a caravan port: LNK_CTL, cage latches, autotraining (R317, R425 to R428). -/

namespace Sys2Proof.Machine

/-- LNK_CTL.QUIESCE (R317): from now on no slot is granted. -/
def State.portQuiesce (s : State) (p : Nat) : State :=
  if s.lnk p = 2 then s.setPort p { s.port p with quiesce := true } else s

/-- LNK_CTL.RETRAIN (R317): from QUIESCED or DOWN. -/
def State.portRetrain (s : State) (p : Nat) : State :=
  if (s.lnk p = 3 ∨ s.lnk p = 4) ∧ s.domainOn (160 + p) then s.train p true else s

/-- LNK_CTL.ENABLE set to 1 (R317): the port is powered and trained. Before start-up phase D it is only noted (R409). -/
def State.portEnable (s : State) (p : Nat) : State :=
  let s1 := s.setFld (pa p 4) 0 1 1
  if s.lnk p = 0 ∧ s1.domainOn (160 + p) then s1.train p false else s1

/-- A port's domain goes off (R317): what it held is lost. -/
def State.portOff (s : State) (p : Nat) : State :=
  let was := s.lnk p
  let x := s.port p
  let s1 := (s.setPort p { total := x.total, issued := x.issued, returned := x.returned, frozen := true,
                           pattern := x.pattern }).setLnk p 0 0
  (if was = 2 then s1.tandemPortLost p else s1).portReceipts p

/-- LNK_CTL.ENABLE set to 0. -/
def State.portDisable (s : State) (p : Nat) : State := (s.portOff p).setFld (pa p 4) 0 1 0

/-- A port trains by itself (R425): AUTOTRAIN and ENABLE are 1, its state is QUIESCED or DOWN. -/
def State.autotrain (s : State) (p : Nat) : State :=
  if (s.reg 0x104000).getLsbD 6 && (s.reg (pa p 4)).getLsbD 0 then s.portRetrain p else s

/-- TRAINING_PATTERN_DETECT (R425): the latch is closed. -/
def execTrainingPatternDetect (p : Fin 16) (s : State) : Host.Outcome State Fault Refusal :=
  .next (if (s.reg 0x104014).getLsbD p then s.autotrain p else s)

/-- One mating of a connector (R427, R428): 0 to 15 a cage, 16 the main connector. -/
def State.mate (s : State) (c : Nat) : State :=
  let life := min (sget zeroNat s.svc.life c + 1) (2 ^ 32 - 1)
  let s1 := ({ s with svc := { s.svc with life := sput zeroNat s.svc.life c life } } : State)
  let s2 := if c < 16 then s1.count (0x104040 + 4 * c) 1 else s1
  if life = (if c < 16 then 450 else 180) then s2.raise 44 0 0 c life else s2

/-- CAGE_LATCH_CLOSE (R425, R427). In OFF the sensor alone changes: a mating counts while the module is powered. -/
def execCageLatchClose (p : Fin 16) (s : State) : Host.Outcome State Fault Refusal :=
  if (s.reg 0x104014).getLsbD p then .next s
  else if s.phase = 0 then .next (s.setFld 0x104014 p 1 1)
  else .next (((s.setFld 0x104014 p 1 1).mate p).autotrain p)

/-- CAGE_LATCH_OPEN (R426): early on an active or training port, which is quiesced at once; one that trains reaches ACTIVE with no slot
granted. -/
def execCageLatchOpen (p : Fin 16) (s : State) : Host.Outcome State Fault Refusal :=
  if !(s.reg 0x104014).getLsbD p then .next s
  else if s.phase = 0 then .next (s.setFld 0x104014 p 1 0)
  else
    let s1 := s.setFld 0x104014 p 1 0
    let st := s.lnk p
    if st = 1 ∨ st = 2 ∨ st = 5 then
      let s2 := s1.setBits 0x104018 (2 ^ p.val)
      .next ((({ s2 with svc := { s2.svc with violated := true } } : State).raise 43 0 0 (s2.regN 0x104018) 0).setPort p { s2.port p with quiesce := true })
    else .next s1

end Sys2Proof.Machine
end

