-- ==== Sys2Proof/Machine/RegRead.lean ====
section
/-! DEFINITION. What a read of a register returns (R10 to R13, R280, R459) and the reads that have an effect (R11, R144, R368). -/

namespace Sys2Proof.Machine

/-! Registers whose value other state gives -/

/-- GLB_IDENT (R24). -/
def State.identReg (s : State) : Nat := match s.grade with | .xa2048 => 0x108A2048 | .xa1792 => 0x107A1792

/-- GLB_PREDSTATEn (R262). -/
def State.predReg (s : State) (n : Nat) : Nat :=
  (List.range 16).foldl (fun a m => a + sget zeroNat s.preds (16 * n + m) % 4 * 4 ^ m) 0

/-- Granules of an entry with WR set (R262). -/
def State.wrCount (s : State) (e : Pme) : Nat := (swindow s.wr (e.lpage * 4096) (e.pages * 4096)).length

/-- GLB_PMESTAT (R262). -/
def State.pmeReg (s : State) : Nat :=
  let e := s.pme (s.fld 0x380 0 8)
  if e.used then 1 + (if e.opened then 2 else 0) + s.wrCount e * 4 else 0

/-- A ledger's five counts (R277): TOTAL, FREE, HELD, ISSUED, RETURNED. -/
structure Ledger where
  total : Nat := 0
  free : Nat := 0
  held : Nat := 0
  issued : Nat := 0
  returned : Nat := 0
deriving DecidableEq, Repr

def ledgerOf (total issued returned : Nat) : Ledger :=
  let h := (issued + 2 ^ 32 - returned) % 2 ^ 32
  { total := total, free := total - h, held := h, issued := issued, returned := returned }

/-- The module ledger LDG_SEL names (R286). -/
def State.ledger (s : State) (id : Nat) : Ledger :=
  if id < 16 then let p := s.port id; ledgerOf p.total p.issued p.returned
  else if id = 16 then ledgerOf (s.fld 0x600004 0 11) s.teth.issued s.teth.returned
  else if 32 ≤ id ∧ id < 48 then let g := s.ring (id - 32); ledgerOf (s.ringSize (id - 32)) g.issued g.returned
  else {}

/-- Totals of a cluster's ledgers (R287). -/
def clTotal (l : Nat) : Nat := match l with | 0 => 128 | 1 => 64 | 2 => 256 | 3 => 64 | _ => 16

def Cluster.ledger (c : Cluster) (l : Nat) : Ledger :=
  ledgerOf (clTotal l) (sget zeroNat c.issued l) (sget zeroNat c.returned l)

/-- GLB_FOOT (R306). -/
def State.footReg (s : State) : Nat :=
  (if s.grade = .xa1792 then 1 else s.fld 0x600 0 1) + (if s.foot then 2 else 0) + s.rowCount * 4

/-- GLB_PAUSE (R306): STATE; STAGE is stored. -/
def State.pauseReg (s : State) : Nat := (match s.pause with | some p => p.st | none => 0) + s.fld 0x604 16 16 * 2 ^ 16

/-- TND_STATUS (R307). -/
def State.tandemReg (s : State) : Nat :=
  let own := s.tandem.foldl (fun a e => max a e.2.own.length) 0
  let prt := s.tandem.foldl (fun a e => max a e.2.partner.length) 0
  own % 2 ^ 10 + prt % 2 ^ 10 * 2 ^ 10 + (if s.tmode = 1 ∧ s.lnk (s.fld 0x700 2 4) = 2 then 2 ^ 20 else 0)

/-! Backlog ages (R275) -/

/-- Boundaries since the oldest of some due stages. -/
def ageOf (now : Nat) (due : List Nat) : Nat := due.foldl (fun a d => max a (now - d)) 0

/-- AGE of an activity on an instance of a wheel (R275). -/
def State.age (s : State) (w : Wheel) (unit a : Nat) : Nat :=
  match w with
  | .memory =>
    let d := s.die unit
    if a = 1 then ageOf s.stageNo ((d.waiting.filter (fun r => r.act = 1)).map (fun r => r.due))
    else if a = 4 then ageOf s.stageNo d.scrubDue
    else if a = 5 then ageOf s.stageNo d.cal
    else if a = 6 then ageOf s.stageNo (d.mits.map (fun m => m.due))
    else 0
  | .tether =>
    ageOf s.stageNo (if unit = 0 then (s.teth.txq.filter (fun t => t.act = a)).map (fun t => t.due)
      else (s.teth.rxq.filter (fun t => t.act = a)).map (fun t => t.due))
  | _ => 0

/-- Instances of a wheel at which HOST, SCRUB, CAL, WEAR or TELEM may wait (R269). -/
def agedUnits (w : Wheel) : List Nat := match w with | .memory => List.range 8 | .tether => [0, 1] | _ => []

def agedActs (w : Wheel) : List Nat := match w with | .memory => [1, 4, 5, 6, 7] | .tether => [1, 7] | _ => []

/-- RTN_AGEa (R285). -/
def State.ageReg (s : State) (a : Nat) : Nat :=
  [Wheel.memory, .tether].foldl (fun m w =>
    if (agedActs w).contains a then (agedUnits w).foldl (fun m u => max m (s.age w u a)) m else m) 0 |> fun n => min n 0xFFFF

/-- RTN_STATUS.ESC (R285). -/
def State.escReg (s : State) : Nat :=
  (List.range 15).foldl (fun v a => if s.order.any (fun e => e.2.contains a) then v + 2 ^ (1 + a) else v) 0

/-! Cluster registers -/

/-- ARR_STATUS (R113). -/
def arrReg (c : Cluster) : Nat :=
  let now := match c.runs.getLast? with
    | none => 0
    | some m => (if m.f.stream then 2 else 1) + m.f.opk.toNat * 32
  now + (if c.active then 4 else 0) + (if c.loading.isSome then 8 else 0) + (if c.wave.any (fun x => x.isSome) then 16 else 0)

/-- GLZ_BANKn (R181). -/
def bankReg (c : Cluster) (n : Nat) : Nat :=
  let b := c.gbank n
  b.epoch % 2 ^ 16 + b.state * 2 ^ 16 + b.fmt * 2 ^ 18 + (if c.old n then 2 ^ 20 else 0)

/-- GLZ_SLOTMAP (R182): the TABLE codes of the active native image. -/
def slotmapReg (c : Cluster) : Nat :=
  let b := c.gbank c.gactive
  if b.fmt = 1 then leNat ((List.range 4).map (fun s => b.byte (32 + 24 * s))) else 0

/-- DRV_STATUS and DRV_TAGS (R207). -/
def drvStatusReg (c : Cluster) : Nat :=
  c.loadQ.length % 2 ^ 8 + c.storeQ.length % 2 ^ 7 * 2 ^ 8 + c.scaleQ.length % 2 ^ 9 * 2 ^ 15 + c.manQ.length % 2 ^ 7 * 2 ^ 24
def drvTagsReg (c : Cluster) : Nat :=
  (List.range 16).foldl (fun v n =>
    let t := c.tag n
    if t.st = 0 then v else v + 2 ^ n + (if t.write then 2 ^ (16 + n) else 0)) 0

/-- QNT_TSAn and QNT_TSWn: 0 while the tile is empty (R147). -/
def tscaleReg (c : Cluster) (i : Nat) : Nat :=
  let t := c.tile (i / 2)
  if t.path = 0 then 0 else if i % 2 = 0 then t.tsa else t.tsw

/-- ITN_SLOTn (R260). -/
def slotReg (t : TSlot) : Nat := if t.st = 0 then 0 else t.task % 2 ^ 16 + t.st * 2 ^ 16

/-- The window entry QNT_WINDOW selects (R144). -/
def winKey (sel : Nat) : Nat := sel % 16 * 16 + sel / 16 % 16

/-- A cluster register whose value the cluster's state gives; none for a stored one. `v` is the word stored at the offset, `sel`
QNT_WINDOW, `dsel` DRV_DESCSEL. -/
def Cluster.live (c : Cluster) (o v sel dsel : Nat) : Option Nat :=
  if o = 0x108 ∨ o = 0x110 then some ((c.tile (if o = 0x108 then 0 else 1)).count % 2 ^ 32)
  else if o = 0x10C ∨ o = 0x114 then some ((c.tile (if o = 0x10C then 0 else 1)).count / 2 ^ 32 % 2 ^ 16)
  else if o = 0x134 then some (tileState c)
  else if o = 0x180 then some (arrReg c)
  else if o = 0x204 then some (putBits v 8 5 (sget zeroNat c.fill (v % 16)))
  else if o = 0x208 then some (sget noWin c.wins (winKey sel)).1
  else if o = 0x20C then some (sget noWin c.wins (winKey sel)).2
  else if 0x228 ≤ o ∧ o ≤ 0x234 then some (tscaleReg c ((o - 0x228) / 4))
  else if o = 0x300 then some (putBits v 1 1 (if c.gswitch then 1 else 0))
  else if o = 0x304 then some (glzEpochReg c)
  else if o = 0x308 ∨ o = 0x30C then some (bankReg c ((o - 0x308) / 4))
  else if o = 0x310 then some (slotmapReg c)
  else if o = 0x318 then some ((c.gbank c.gactive).imgId % 2 ^ 32)
  else if o = 0x31C then some ((c.gbank c.gactive).imgId / 2 ^ 32)
  else if o = 0x404 then some (drvStatusReg c)
  else if o = 0x408 then some (drvTagsReg c)
  else if 0x480 ≤ o ∧ o < 0x4C0 then some (leNat (c.stg (0xF000 + 64 * (dsel % 64) + (o - 0x480)) 4))
  else if o = 0xA00 then some (c.st + c.stopc * 8)
  else if o = 0xA04 then some (c.next % 2 ^ 16)
  else if o = 0xA08 then some (c.pass % 2 ^ 32)
  else if o = 0xA0C then some (slotReg c.slot0)
  else if o = 0xA10 then some (slotReg c.slot1)
  else if o = 0xA14 then some (c.sec.imgId % 2 ^ 32)
  else if o = 0xA18 then some (c.sec.imgId / 2 ^ 32)
  else if 0xB00 ≤ o ∧ o < 0xB50 then
    let l := c.ledger ((o - 0xB00) / 16)
    some (if o % 16 = 0 then l.total + l.held % 2 ^ 16 * 2 ^ 16 else if o % 16 = 4 then l.free
      else if o % 16 = 8 then l.issued else l.returned)
  else none

/-! Check units (R387, R391 to R393) -/

/-- CHK_RESULTu: the check of the bytes fed so far. -/
def Chk.result (c : Chk) : Nat :=
  if c.wide then (~~~c.acc).toNat else (~~~(c.acc.setWidth 32)).toNat

/-! Live values -/

/-- PWR_DOMAINk. -/
def State.domainReg (s : State) (k : Nat) : Nat :=
  (List.range 32).foldl (fun v j => if s.domainOn (32 * k + j) then v + 2 ^ j else v) 0

/-- MGT_STATUS.RUN (R462): the firmware takes waybills from the end of Tether training on. -/
def State.mgtRuns (s : State) : Bool :=
  s.phase ≠ 0 && (s.ready || decide (5 ≤ s.phase) || decide (s.tth = 1)) && s.boot.switching.isNone && !s.boot.recovery

/-- The register's live value, its domain being on. -/
def State.live (s : State) (a : Nat) : Nat :=
  let v := s.regN a
  match winOf a with
  | none => 0
  | some w =>
    let o := a - w.base
    match w with
    | .global =>
      if o = 0 then s.identReg
      else if 0x300 ≤ o ∧ o < 0x340 then s.predReg ((o - 0x300) / 4)
      else if o = 0x384 then s.pmeReg
      else if 0x504 ≤ o ∧ o ≤ 0x514 then
        let l := s.ledger (s.fld 0x500 0 6)
        if o = 0x504 then l.total else if o = 0x508 then l.free else if o = 0x50C then l.held
        else if o = 0x510 then l.issued else l.returned
      else if o = 0x600 then s.footReg
      else if o = 0x604 then s.pauseReg
      else if o = 0x704 then s.tandemReg
      else v
    | .ration =>
      if o = 4 then v % 2 + s.escReg
      else if 0x80 ≤ o ∧ o < 0xA8 then s.ageReg ((o - 0x80) / 4)
      else v
    | .mgmt =>
      if o = 0 then
        (if s.mgtRuns then 1 else 0) + (if s.boot.act then 2 else 0)
      else if o = 4 then (if s.boot.act then s.boot.fw1 else s.boot.fw0).version.toNat
      else 0
    | .ring r => if o = 0x24 then putBits v 3 3 ((s.ring r).taken.filter (fun w => decide (1 ≤ w.phase))).length else v
    | .check u =>
      let c := sget idleChk s.checks u
      if o = 4 then putBits v 0 1 (if 0 < c.busy then 1 else 0)
      else if o = 0x24 then c.result % 2 ^ 32
      else if o = 0x28 then (if c.wide then c.result / 2 ^ 32 else 0)
      else v
    | .service => if o = 0x88 then sget zeroNat s.svc.life (min (s.fld 0x104084 0 5) 17) else v
    | .security =>
      if o = 0 then (putBits (putBits v 0 1 (if s.boot.act then 1 else 0)) 3 4 s.boot.revoked)
      else if o = 4 then (List.range 4).foldl (fun x i => x + sget zeroNat s.boot.cnt i * 256 ^ i) 0
      else if 0x44 ≤ o ∧ o < 0x74 then leAt (sget zeroMeas s.boot.meas (s.fld 0x105040 0 3)) (o - 0x44) 4
      else v
    | .events => if o = 0x1C then s.queued.length else v
    | .power => if 0x40 ≤ o ∧ o ≤ 0x54 then s.domainReg ((o - 0x40) / 4) else v
    | .port p => if o = 0 ∧ !s.domainOn (160 + p) then putBits v 0 3 0 else v
    | .stack k =>
      if o = 0 then
        (if !s.domainOn (152 + k) then putBits v 0 3 0 else v)
      else v
    | .cluster n => ((s.cl n).live o v (s.regN (ca n 0x204)) (s.fld (ca n 0x440) 0 6)).getD v
    | .engine _ =>
      if (s.reg (w.base + 0x400)).getLsbD 0 ∧ 0x410 ≤ o ∧ o < 0x478 then
        if o = 0x410 then s.regN (w.base + 0x478) else if o = 0x414 then s.regN (w.base + 0x47C) else 0
      else v
    | _ => v

/-! Reads -/

/-- Bits of the RWA fields of a register. -/
def rwaMask (fs : List Fld) : Nat := (fs.filter (fun f => f.acc = .rwa)).foldl (fun a f => putBits a f.lo f.len (2 ^ f.len - 1)) 0

/-- Bits of a number where a mask is 1 taken from `x`, elsewhere from `v`. -/
def mixBits (m x v : Nat) : Nat := (x &&& m) ||| (v &&& ((2 ^ 32 - 1) ^^^ m))

/-- ARM_CTL of a window that holds RWA fields (R279, R412). -/
def armOf (w : Win) : Option Nat :=
  match w with
  | .global | .ration | .power => some (w.base + 0xFF0)
  | .stack _ => some (w.base + 0xFF0)
  | .cluster _ => some (w.base + 0xFF0)
  | _ => none

/-- The shadow of a register: what software has written since the field last latched, or the live value (R280). -/
def State.shadowOf (s : State) (a : Nat) : Nat :=
  match sget noWord s.shadow a, sget noWord s.snap a with
  | some v, _ => v.toNat
  | none, some v => v.toNat
  | none, none => s.regN a

/-- WO fields read 0 (R12). -/
def woMask (fs : List Fld) : Nat := (fs.filter (fun f => f.acc = .wo)).foldl (fun a f => putBits a f.lo f.len (2 ^ f.len - 1)) 0

/-- What a 32-bit read of a management address returns, holding copies apart. -/
def State.readReg (s : State) (a : Nat) : Word :=
  match winOf a with
  | none => 0
  | some w =>
    let fs := fldsOf s.grade w (a - w.base)
    if fs = [] || !s.winOn w then 0
    else
      let v := s.live a
      let v1 := match armOf w with
        | some c => if (s.reg c).getLsbD 7 then mixBits (rwaMask fs) (s.shadowOf a) v else v
        | none => v
      BitVec.ofNat 32 (mixBits (woMask fs) 0 v1)

/-- A register's window exists and its domain is on. -/
def State.addrOn (s : State) (a : Nat) : Bool := match winOf a with | some w => s.winOn w | none => false

/-- A read of a register by the host: a holding copy is returned once (R11); a window that is off reads 0 (R459). -/
def State.hostRead (s : State) (a : Nat) : Word × State :=
  match sget noWord s.latch a with
  | some v => (if s.addrOn a then v else 0, { s with latch := sput noWord s.latch a none })
  | none => (s.readReg a, s)

/-- Hold a copy of a register for its next read (R11). -/
def State.hold (s : State) (a : Nat) : State := { s with latch := sput noWord s.latch a (some (s.readReg a)) }

/-- The answer to a host's register read (R374, R376). -/
def State.answerRead (s : State) (a : Nat) : State :=
  let r := s.hostRead a
  r.2.completeWord a r.1

/-! Writes by access type (R12, R13) -/

def maskOf (fs : List Fld) : Nat := fs.foldl (fun a f => putBits a f.lo f.len (2 ^ f.len - 1)) 0

/-- The value of a register of RW, RWS and W1C fields after a write. -/
def plainValue (fs : List Fld) (old v : Nat) : Nat :=
  let rw := maskOf (fs.filter (fun f => f.acc = .rw || f.acc = .rws))
  let w1c := maskOf (fs.filter (fun f => f.acc = .w1c))
  let clear := w1c &&& v
  mixBits rw v old ^^^ (old &&& clear)

/-- The low word of the pair of counters a register belongs to, if any (R11). -/
def regPair (w : Win) (a : Nat) : Option Nat :=
  let o := a - w.base
  if pairLow w o then some a else if decide (4 ≤ o) && pairLow w (o - 4) then some (a - 4) else none

/-- A written QNT_SATCNTs that this kc's increments have raised: drift is judged of the sum (R141). -/
def State.redrift (s : State) (w : Win) (o : Nat) : State :=
  match w with
  | .cluster n => if 0x240 ≤ o ∧ o < 0x280 then s.drift n ((o - 0x240) / 4) false else s
  | _ => s

/-- A written counter: what hardware has added to it in this kc is added to the value written (R460). -/
def State.recount (s : State) (w : Win) (a v : Nat) : State :=
  if !(fldsOf s.grade w (a - w.base)).any (fun f => decide (f.acc = .rw) && decide (f.len = 32)) then s
  else
    let p := (regPair w a).getD a
    let k := sget noCount s.counted p
    let base := if regPair w a = none then v % 2 ^ 32
      else if p = a then k.1 / 2 ^ 32 * 2 ^ 32 + v % 2 ^ 32 else k.1 % 2 ^ 32 + v % 2 ^ 32 * 2 ^ 32
    if k.2 = 0 then s
    else
      let s1 : State := { s with counted := sput noCount s.counted p (base, k.2) }
      if regPair w a = none then (s1.setRegN a (min (base + k.2) (2 ^ 32 - 1))).redrift w (a - w.base)
      else s1.setReg64 p (min (base + k.2) (2 ^ 64 - 1))

/-- A write with no more effect than its fields' access types give it; RWA fields take the value in their shadow. -/
def State.plainWrite (s : State) (w : Win) (a v : Nat) : State :=
  let fs := fldsOf s.grade w (a - w.base)
  let rwa := rwaMask fs
  let s0 := (s.setRegN a (plainValue fs (s.regN a) v)).recount w a v
  let clear := maskOf (fs.filter (fun f => f.acc = .w1c)) &&& v
  let s1 := if clear = 0 then s0 else (s0.keepCaught w a v).noteClear a (clear &&& s.regN a)
  if rwa = 0 then s1
  else { s1 with shadow := sput noWord s1.shadow a (some (BitVec.ofNat 32 (mixBits rwa v (s.shadowOf a)))) }

/-- Write all fields but those in `no`, which are refused. -/
def State.writeBut (s : State) (w : Win) (a v no : Nat) : State :=
  let s1 := s.plainWrite w a (mixBits no (s.regN a) v)
  if no = 0 then s1 else s1.busyW w

end Sys2Proof.Machine
end

