-- ==== Sys2Proof/Machine/Power.lean ====
section
/-! DEFINITION. Power states (R397 to R399), the power input (R395, R402) and the parts of start-up that other units use. -/

namespace Sys2Proof.Machine

/-! Taken waybills that wait -/

/-- Every taken waybill in ascending ring, then index (R359). -/
def State.eachWb (s : State) (f : State → Nat → Wb → State) : State :=
  (List.range 16).foldl (fun s r => (s.ring r).taken.foldl (fun s w => f s r w) s) s

/-- PSTATE receipts once the state is reached (R365). -/
def State.pstateReached (s : State) (st : Nat) : State :=
  let s1 : State := { s.setFld 0x200000 1 3 st with trans := none }
  s1.eachWb (fun s r w => if w.opc = 0xA00 ∧ w.phase = 2 then s.finish r w 0 [st] else s)

/-! What switching off loses (R408) -/

def isClusterOf (ns : List Nat) (w : Win) : Bool := match w with | .cluster n => ns.contains n | _ => false
def isEngine (w : Win) : Bool := match w with | .engine _ => true | _ => false
def isStack (w : Win) : Bool := match w with | .stack _ => true | _ => false

/-- A cluster as switch-on leaves it: its POR values and the default glaze image in flash (R398, R408, R429). -/
def State.newCluster (s : State) : Cluster :=
  match s.boot.glz with
  | none => {}
  | some (bs, _) =>
    let fmt := imageCheck (fun i => bs.getD i 0) (crc32c 0 (bs.drop 32)).toNat
    { glz0 := { state := 3, epoch := 1, fmt := fmt, img := sputs zeroByte [] 0 bs } }

/-- Clusters whose domain goes off come back with their power-on values and the default glaze image (R398, R408). -/
def State.dropClusters (s : State) (ns : List Nat) : State :=
  let s1 := ns.foldl (fun s n => (s.forget n).setCl n s.newCluster) s
  (s1.resetRegs .por (isClusterOf ns)).dropShadows (isClusterOf ns)

/-- The row domain of a cluster (R396). -/
def rowOf (n : Nat) : Nat := n / 128 * 8 + n % 128 / 16

/-- The clusters of a row's domain. -/
def rowClusters (d : Nat) : List Nat := (List.range 16).map (fun i => d / 8 * 128 + d % 8 * 16 + i)

/-- Clusters are powered: bank 0 receives the default glaze image that the flash holds then (R398, R399, R429). -/
def State.freshGlaze (s : State) (ns : List Nat) : State :=
  if s.boot.glz.isSome then ns.foldl (fun s n => s.setCl n s.newCluster) s else s

/-- Gated rows among `ds` are switched on (R398). -/
def State.rowsOn (s : State) (ds : List Nat) : State :=
  let on := ds.filter (fun d => sget zeroBool s.gated d)
  let s1 := s.freshGlaze (on.flatMap rowClusters)
  { s1 with gated := on.foldl serase s1.gated }

/-- Clear every pending ARM (R408). -/
def State.clearArms (s : State) : State :=
  { s with regs := s.regs.filterMap (fun e =>
      match winOf e.1 with
      | some w =>
        if armOf w = some e.1 then
          let v := BitVec.ofNat 32 (putBits e.2.toNat 2 1 0)
          if v = regInit s.grade e.1 then none else some (e.1, v)
        else some e
      | none => some e) }

/-- The compute domains and the ports go off (R397, R399); no cluster holds an image any more (R282). -/
def State.computeOff (s : State) : State :=
  let s1 := (s.dropClusters s.presentList).resetRegs .por isEngine
  let s2 := (List.range 16).foldl (fun s p => s.portOff p) { s1 with tandem := [], preds := [], pause := none, gated := [] }
  s2.leaveDomain.clearArms.evalMismatch

/-! HOLD (R229, R399) -/

def State.stackState (s : State) (k : Nat) : Nat := s.fld (sa k 0) 0 3
def State.setStack (s : State) (k st : Nat) : State := s.setFld (sa k 0) 0 3 st

/-- A stack starts to enter HOLD: accepted requests complete first. -/
def State.stackIn (s : State) (k : Nat) : State :=
  if s.stackState k = 2 then (s.setStack k 3).setDie k { s.die k with heldFrom := s.stageNo } else s

/-- A stack starts to leave HOLD, unless it waits for the next ARM (R231). -/
def State.stackOut (s : State) (k : Nat) : State := if s.stackState k = 4 && !(s.die k).needArm then s.setStack k 5 else s

/-- The module-wide transition ends with the last stack. On the way out, ports whose ENABLE is 1 are trained; a stack whose own
LSM_CTL.HOLD is 1 stays in HOLD. -/
def State.settleTrans (s : State) : State :=
  let all (f : Nat → Bool) : Bool := (List.range 8).all f
  match s.trans with
  | some (2, true) => if all (fun k => let x := s.stackState k; x = 4 || x = 6 || x = 7) then s.pstateReached 2 else s
  | some (0, true) =>
    if all (fun k => let x := s.stackState k; x = 2 || x = 4 || x = 6 || x = 7) then
      let s1 : State := { ((s.pstateReached 0).freshGlaze s.presentList).newKc with
        kc := 0, late := 0, hung := false, wheel := [] }
      (List.range 16).foldl (fun s p => if (s.reg (pa p 4)).getLsbD 0 then s.portEnable p else s) s1
    else s
  | _ => s

def State.enterHold (s : State) : State :=
  let s1 : State := { s.computeOff.setFld 0x200000 1 3 4 with trans := some (2, true) }
  ((List.range 8).foldl State.stackIn s1).settleTrans

def State.leaveHold (s : State) : State :=
  let s1 : State := { s.setFld 0x200000 1 3 4 with trans := some (0, true) }
  ((List.range 8).foldl (fun s k => if (s.reg (sa k 4)).getLsbD 0 then s else s.stackOut k) s1).settleTrans

/-! STANDBY (R397, R399, R408) -/

def State.enterStandby (s : State) : State :=
  let s1 := s.computeOff
  let s2 := (s1.resetRegs .mod isStack).dropShadows isStack
  let s3 : State := { s2 with
    loess := [], poison := [], sel := [], wr := [], pmes := [], dies := [], jobs := [], written := [], notices := [], noted := [] }
  s3.pstateReached 3

/-- Phases C to E of start-up run again, in the interleave mode of GLB_ILV.NEXT. -/
def State.leaveStandby (s : State) : State :=
  let s1 := (s.setFld 0x200 0 2 (s.fld 0x200 2 2)).setFld 0x200000 1 3 4
  -- a start-up that was stopped before its phase B goes back to it
  { s1.newKc with phase := if s.boot.meas = [] then 2 else 3, trans := some (0, false), kc := 0, late := 0, hung := false,
                  wheel := [] }

/-! Power input and trip (R395, R402) -/

/-- POWER_APPLIED: a power-on reset; the main connector counts a mating (R427), the straps are sampled with SB_RST_N (R467). -/
def execPowerApplied (s : State) (smbus : Bool := false) (strap : Fin 8 := 0) (rstLow : Bool := false) : Host.Outcome State Fault Refusal :=
  if s.phase ≠ 0 then .next s
  else
    let s1 := s.porReset.mate 16
    .next { s1 with side := { s1.side with smbus := smbus, strap := strap.val, rstLow := rstLow } }

/-- UNDERVOLTAGE: once per excursion. -/
def execUndervoltage (s : State) : Host.Outcome State Fault Refusal :=
  if s.phase = 0 || s.svc.uv then .next s
  else .next (({ s with svc := { s.svc with uv := true } } : State).raise 37 0 0 (s.regN 0x20001C) 0)


/-- DIE_TRIP: cluster rows and engine commons go off at once. -/
def execDieTrip (s : State) : Host.Outcome State Fault Refusal :=
  if s.phase = 0 || s.tripped then .next s
  else .next (({ s with tripped := true, svc := { s.svc with tripped := true } } : State).raise 38 0 0 (s.regN 0x200024) 0)

/-- MODULE_RESET: the sideband contact, or PWR_RESET with its KEY (R404). The release of SB_RST_N that was low at power-on is one too,
phase A having ended (R467); with the lever open start-up stays at the end of phase A (R424). -/
def execModuleReset (contact : Bool) (s : State) : Host.Outcome State Fault Refusal :=
  if s.phase = 0 then .next s
  else if contact && s.side.rstLow && !s.held then .next { s with side := { s.side with rstLow := false } }
  else
    let s1 := s.resetOr (.mod (if contact then 1 else 2)) true
    .next (if s.held && !(s.reg 0x104004).getLsbD 9 then { s1 with phase := 1, held := true } else s1)

end Sys2Proof.Machine
end

