-- ==== Sys2Proof/Machine/SaveImage.lean ====
section
/-! DEFINITION. Save images (11_determinism_and_tandem.md, R295 to R300): what SAVE writes and RESTORE reads. -/

namespace Sys2Proof.Machine

/-! LOOP levels (R244, R298) -/

/-- Word i of a program in place: the execute program, then the access program. -/
def Cluster.progWord (c : Cluster) (h : Half) (i : Nat) : Nat :=
  leNat (c.stg (c.sec.at (c.sec.ntask + (match h with | .execute => 0 | .access => c.sec.nexec) + i)) 16)

/-- The LOOPs whose block holds an index, outermost first: index, COUNT, TARGET. -/
def Cluster.loopsAt (c : Cluster) (h : Half) (ix : Nat) : List (Nat × Nat × Nat) :=
  let len := match h with | .execute => c.sec.nexec | .access => c.sec.nacc
  ((List.range len).filterMap (fun j =>
    let w := c.progWord h j
    if bits w 0 8 = 2 ∧ bits w 24 16 ≤ ix ∧ ix ≤ j then some (j, bits w 8 16, bits w 24 16) else none)).reverse

/-- LOOP levels 0 to 3 of a half: remaining count and TARGET. -/
def Cluster.levels (c : Cluster) (h : Half) (ix : Nat) : List Byte :=
  let ls := c.loopsAt h ix
  (List.range 4).flatMap (fun k => match ls[k]? with
    | some l => leBytes 2 (l.2.1 - sget zeroNat (c.half h).loops l.1) ++ leBytes 2 l.2.2
    | none => leBytes 4 0)

/-- Loop counters that a save image's levels give. -/
def Cluster.loopsOf (c : Cluster) (h : Half) (ix : Nat) (bs : List Byte) : SMap Nat :=
  ((c.loopsAt h ix).zipIdx).foldl (fun m l =>
    if l.2 < 4 then sput zeroNat m l.1.1 (l.1.2.1 - leAt bs (4 * l.2) 2) else m) []

/-- The index a half issues next: of the task it runs, else of the one it starts next. -/
def Cluster.nextIx (c : Cluster) (h : Half) : Nat :=
  match c.halfSlot h with
  | some _ => (c.half h).ix
  | none => match c.nextHalf h with
    | some o => (match h with | .execute => (c.slot o).execIx | .access => (c.slot o).accIx)
    | none => (c.half h).ix

/-! Queue banks and landing slots (R186 to R189) -/

/-- Fill to n bytes with bytes that hold nothing. -/
def padStale (d n : Nat) (bs : List Byte) : List Byte := bs ++
    (List.range (n - bs.length)).map (fun i => Config.staleByte d (bs.length + i))

/-- A ring of `depth` entries of `size` bytes, its head at `head`. -/
def queueBank (d depth size head : Nat) (es : List (List Byte)) : List Byte :=
  (List.range depth).flatMap (fun i => padStale (d + i) size (es.getD ((i + depth - head % depth) % depth) []))

/-- Entry j of a queue bank. -/
def bankEntry (bs : List Byte) (depth size head j : Nat) : List Byte := (bs.drop (size * ((head + j) % depth))).take size

def ScaleEntry.bytes (e : ScaleEntry) : List Byte :=
  (if e.head then leBytes 4 e.scale else leBytes 1 e.scale ++ leBytes 1 (bitsOf 8 e.zp) ++ leBytes 2 (bitsOf 16 e.sum)) ++
    leBytes 2 e.seq ++ leBytes 2 (if e.head then 1 else 0)

def scaleOf (bs : List Byte) : ScaleEntry :=
  if leAt bs 6 2 % 2 = 1 then { head := true, scale := leAt bs 0 4, seq := leAt bs 4 2 }
  else { head := false, scale := leAt bs 0 1, zp := signedOf 8 (leAt bs 1 1), sum := signedOf 16 (leAt bs 2 2), seq := leAt bs 4 2 }

/-- A manifest entry: the record padded to four entries, its group number (R129, R188). -/
def ManEntry.bytes (e : ManEntry) : List Byte :=
  leBytes 2 (e.vals.length + (if e.posit then 8 else 0)) ++ (List.range 4).flatMap (fun i => leBytes 2 (e.vals.getD i 0)) ++
    leBytes 2 e.seq ++ leBytes 4 0

def manOf (bs : List Byte) : ManEntry :=
  let h := leAt bs 0 2
  { posit := h.testBit 3, vals := (List.range (min (h % 8) 4)).map (fun i => leAt bs (2 + 2 * i) 2), seq := leAt bs 10 2 }

/-- Heads of the trail queues: each queue's ring has moved by as many entries as have been popped. -/
def Cluster.heads (c : Cluster) : List Nat :=
  [(0, 128), (1, 64), (2, 256), (3, 64)].map (fun q => sget zeroNat c.returned q.1 % q.2)

/-- Load entries as the image holds them: what consumers have popped and not used stands before the entries that wait. -/
def Cluster.loadHeld (c : Cluster) : List LoadEntry := (c.hand ++ c.loadQ).take 128

/-- Staging as the save image holds it: queue banks, landing slots, the rest. -/
def Cluster.stagingImage (c : Cluster) (d : Nat) : List Byte :=
  let hs := c.heads
  let land (n : Nat) : List Byte := c.stg (0x6000 + 512 * n) 512
  queueBank d 128 128 (hs.getD 0 0) (c.loadHeld.map (fun e => packItems (c.desc e.desc).dstFmt.bits e.elems)) ++
    queueBank (d + 128) 64 128 (hs.getD 1 0) (c.storeQ.map (fun e => packItems (c.desc e.desc).dstFmt.bits e.elems)) ++
    (List.range 16).flatMap land ++
    queueBank (d + 192) 256 8 (hs.getD 2 0) (c.scaleQ.map ScaleEntry.bytes) ++
    queueBank (d + 448) 64 16 (hs.getD 3 0) (c.manQ.map ManEntry.bytes) ++ c.stg 0x8C00 (0x20000 - 0x8C00)

/-! Records (R297, R298) -/

/-- A tile as wide reads (R110): its elements resolve first, so no wrapped sum is written (R64, R80). -/
def Tile.image (t : Tile) : List Byte :=
  let n := tileSide t.path
  let w := if t.path = 3 then 64 else 32
  let bs := (List.range n).flatMap (fun r => (List.range n).flatMap (fun j => leBytes w (wideOf t.path (resolveElem t.path (t.elem r j)))))
  bs ++ List.replicate (32768 - bs.length) 0

def Bank.image (b : Bank) : List Byte :=
  (List.range 32).flatMap (fun i => (List.range 32).flatMap (fun j => leBytes 2 ((sget zeroRow b.rows i).getD j 0#16).toNat))

def GBank.span (b : GBank) (o n : Nat) : List Byte := (List.range n).map (fun i => b.byte (o + i))

/-- The record header. -/
def Cluster.recHead (c : Cluster) (n : Nat) : List Byte :=
  let a := c.glz0
  let b := c.glz1
  leBytes 2 n ++ leBytes 1 (a.state + a.fmt * 4 + b.state * 16 + b.fmt * 64) ++ leBytes 1 c.gactive ++ leBytes 2 a.epoch ++
      leBytes 2 b.epoch ++
    leBytes 8 0 ++ a.span 0 16 ++ a.span 32 96 ++ b.span 0 16 ++ b.span 32 96 ++ List.replicate 16 0

/-- A task slot in the sequencer block. -/
def TSlot.image (t : TSlot) : List Byte :=
  let waits := if t.st = 1 ∨ t.st = 3 ∨ t.st = 4 then 1 else 0
  leBytes 2 t.task ++ leBytes 1 t.st ++ leBytes 1 ((if t.accEnd then 1 else 0) + (if t.execEnd then 2 else 0)) ++ leBytes 4 waits ++
    leBytes 8 t.base

/-- The sequencer block. -/
def Cluster.sequencer (c : Cluster) : List Byte :=
  let held := [c.loadHeld.length, c.storeQ.length, c.scaleQ.length, c.manQ.length]
  let bs := leBytes 2 (c.nextIx .execute) ++ leBytes 2 (c.nextIx .access) ++ c.levels .execute (c.nextIx .execute) ++
    c.levels .access (c.nextIx .access) ++ c.slot0.image ++ c.slot1.image ++
    (c.heads.zip held).flatMap (fun x => leBytes 2 x.1 ++ leBytes 2 x.2) ++
    (List.range 16).flatMap (fun n => leBytes 8 (if (c.tag n).st = 0 then 0 else (c.tag n).gran)) ++
    (List.range 64).flatMap (fun d => leBytes 6 (c.strm d).pos ++ leBytes 2 ((c.strm d).iss - (c.strm d).pos)) ++
    leBytes 2 (match c.wload with | some l => l.row | none => 0) ++ leBytes 2 (if c.active then 1 else 0)
  bs ++ List.replicate (1024 - bs.length) 0

/-- A cluster record. -/
def State.record (s : State) (n : Nat) : List Byte :=
  let c := s.cl n
  let win (k e : Nat) : List Byte := let w := sget noWin c.wins (k * 16 + e); leBytes 4 w.1 ++ leBytes 4 w.2
  c.recHead n ++ (List.range 960).flatMap (fun i => leBytes 4 (s.live (ca n (4 * i)))) ++
    (List.range 16).flatMap (fun k => (List.range 16).flatMap (win k)) ++
    (List.range 16).flatMap (fun k => leBytes 1 (sget zeroNat c.fill k)) ++ List.replicate 1008 0 ++ c.sequencer ++
    c.stagingImage (s.fresh * 2 ^ 32 + n * 1024) ++ c.tile0.image ++ c.tile1.image ++ c.bankA.image ++ c.bankB.image ++
    c.glz0.span 128 8192 ++ c.glz1.span 128 8192

def recSize : Nat := 225280

/-- A save image with CHECK zero. -/
def State.saveBody (s : State) (p : Pause) : List Byte :=
  let ns := s.presentList.filter (fun n => p.clus.contains n)
  let first := s.cl (ns.headD 0)
  let head := [0x53#8, 0x41#8, 0x56#8, 0x58#8] ++ leBytes 2 1 ++ leBytes 2 (if p.modnum.isSome then 1 else 0) ++
      leBytes 8 first.sec.imgId ++
    leBytes 8 p.p ++ leBytes 4 ns.length ++ leBytes 4 recSize ++ leBytes 4 s.identReg ++ leBytes 4 p.foot ++
    leBytes 1 (s.fld 0x200 0 2) ++ leBytes 1 s.clkStep ++ leBytes 2 (p.modnum.getD 0) ++ leBytes 4 (s.regN 0x1000) ++
    leBytes 8 p.seed ++ leBytes 8 p.gstep ++ (List.range 8).flatMap (fun i => leBytes 4 (s.regN (0x340 + 4 * i))) ++
    leBytes 8 (4096 + ns.length * recSize) ++ leBytes 8 0 ++ List.replicate 144 0
  let eng (e : Nat) : List Byte := leBytes 4 (s.regN (ea e 0x400)) ++ leBytes 4 0 ++
      (List.range 28).flatMap (fun i => leBytes 4 (s.regN (ea e (0x410 + 4 * i)))) ++
    List.replicate 8 0
  head ++ (List.range 16).flatMap eng ++ List.replicate 1792 0 ++ ns.flatMap s.record

/-- A save image (R296) and its CHECK. -/
def State.saveImage (s : State) (p : Pause) : List Byte × Nat :=
  let body := s.saveBody p
  let check := (crc64 0 body).toNat
  (body.take 104 ++ leBytes 8 check ++ body.drop 112, check)

/-- The records of a save image are remembered with the clusters they came from (R300). -/
def State.noteSaved (s : State) (p : Pause) : State :=
  { s with saved := s.saved ++ (s.presentList.filter (fun n => p.clus.contains n)).map (fun n => (s.record n, s.cl n)) }

/-! RESTORE (R299, R300) -/

/-- A glaze bank from its record: the two bytes that hold no image check are computed again. -/
def gbankOf (st fmt epoch : Nat) (head tables : List Byte) : GBank :=
  let tail := head.drop 16 ++ tables
  let crc := (crc32c 0 tail).toNat
  let img := head.take 16 ++ (if fmt = 2 then (leBytes 4 crc).reverse else leBytes 4 crc) ++ List.replicate 12 0 ++ tail
  if st = 0 then {} else { state := st, epoch := epoch, fmt := fmt, img := sputs zeroByte [] 0 img }

def tileOf (path count tsa tsw : Nat) (bs : List Byte) : Tile :=
  let n := tileSide path
  let w := if path = 3 then 64 else 32
  let t : Tile := { path := path, count := count, tsa := tsa, tsw := tsw }
  if path = 0 then t
  else (List.range n).foldl (fun t r => t.setRow r
    ((List.range 32).map (fun j => if j < n then (ofWide path (leAt bs (w * (n * r + j)) w)).1 else .empty))) t

/-- A weight bank; how many of its rows hold a set, their packing and the stream they came from have no place in the image. -/
def wbankOf (free : Nat → Nat) (bs : List Byte) : Bank :=
  { rows := (List.range 32).foldl (fun m i => sput zeroRow m i
      ((List.range 32).map (fun j => BitVec.ofNat 16 (leAt bs (2 * (32 * i + j)) 2)))) []
    held := free 0 % 33, pack := decide (free 1 % 2 = 1), desc := free 2 % 64, gbase := if free 3 = 0 then none else some (free 3) }

/-- A task slot from the sequencer block; the younger of two is the one the walk issued last. -/
def slotOf (c : Cluster) (bs : List Byte) (last : Nat) : TSlot :=
  let t := leAt bs 0 2
  let st := leAt bs 2 1
  let e := c.taskE t
  if st = 0 then {}
  else
    { st := st, task := t, mode := e.mode, sense := e.sense, pred := e.pred, wbase := e.wbase, wsize := e.wsize
      ord := if t = last then 1 else 0, accIx := e.acc, execIx := e.exec, accEnd := (leAt bs 3 1).testBit 0
      execEnd := (leAt bs 3 1).testBit 1, base := leAt bs 8 8 }

/-- The entry issued before the next one. -/
def Cluster.lastEntry (c : Cluster) : Nat :=
  if c.next = c.sec.loopTo ∧ 0 < c.pass then c.sec.ntask - 1 else c.next - 1

/-- Start the halves of restored slots: the older task whose half has not ended runs. -/
def Cluster.startHalves (c : Cluster) : Cluster :=
  [Half.execute, .access].foldl (fun c h =>
    match c.nextHalf h with
    | none => c
    | some o =>
      let t := c.slot o
      if t.st = 1 then c
      else c.setSlot o (match h with | .execute => { t with execOn := true } | .access => { t with accOn := true })) c

/-- The start stage that a slot's base shows (R249). -/
def Cluster.startOf (c : Cluster) (t : TSlot) : Nat :=
  if t.task < c.sec.loopTo then t.base
  else t.base - c.sec.loopBase - (if t.task < c.next then c.pass else c.pass - 1) * c.sec.loopStages

/-- The cluster that the bytes of a record restore (R299). The register words are written beside it. `free` gives what has no place in the
image: streams and lengths of queue entries, streams of tags, whether a stream runs. Entries held beyond the ledger's count have been
popped: they are in their consumers' hands (R278). -/
def Cluster.restoreBytes (c : Cluster) (r : List Byte) : Cluster :=
  let free := Config.restored r
  let word (o : Nat) : Nat := leAt r (0x100 + o) 4
  let q := (r.drop 0x1C00).take 1024
  let stg := (r.drop 0x2000).take 0x20000
  let head (i : Nat) : Nat := leAt q (68 + 4 * i) 2
  let num (i : Nat) : Nat := leAt q (70 + 4 * i) 2
  let c0 : Cluster := { sec := c.sec, rseq := c.rseq, slots := c.slots }
  let c1 := (c0.setStg 0x8C00 (stg.drop 0x8C00)).setStg 0x6000 ((stg.drop 0x6000).take 0x2000)
  let c2 : Cluster := { c1 with
    tile0 := tileOf (word 0x134 % 8) (word 0x108 + 2 ^ 32 * word 0x10C) (word 0x228) (word 0x22C) (r.drop 0x22000)
    tile1 := tileOf (bits (word 0x134) 4 3) (word 0x110 + 2 ^ 32 * word 0x114) (word 0x230) (word 0x234) (r.drop 0x2A000)
    bankA := wbankOf free (r.drop 0x32000), bankB := wbankOf (fun i => free (4 + i)) (r.drop 0x32800)
    active := decide (leAt q 726 2 % 2 = 1)
    glz0 := gbankOf (bits (leAt r 2 1) 0 2) (bits (leAt r 2 1) 2 2) (leAt r 4 2) ((r.drop 16).take 112) ((r.drop 0x33000).take 8192)
    glz1 := gbankOf (bits (leAt r 2 1) 4 2) (bits (leAt r 2 1) 6 2) (leAt r 6 2) ((r.drop 128).take 112) ((r.drop 0x35000).take 8192)
    gactive := leAt r 3 1 % 2, gswitch := (word 0x300).testBit 1
    wins := (List.range 256).foldl (fun m k => sput noWin m k (leAt r (0x1000 + 8 * k) 4, leAt r (0x1004 + 8 * k) 4)) []
    fill := (List.range 16).foldl (fun m k => sput zeroNat m k (leAt r (0x1800 + k) 1)) []
    scaleQ := (List.range (num 2)).map (fun j => { scaleOf (bankEntry (stg.drop 0x8000) 256 8 (head 2) j) with
      desc := free (6000 + 2 * j) % 64, stage := free (6001 + 2 * j) })
    manQ := (List.range (num 3)).map (fun j => { manOf (bankEntry (stg.drop 0x8800) 64 16 (head 3) j) with
      desc := free (7000 + 2 * j) % 64, stage := free (7001 + 2 * j) })
    issued := (List.range 5).foldl (fun m l => sput zeroNat m l (word (0xB08 + 16 * l))) []
    returned := (List.range 5).foldl (fun m l => sput zeroNat m l (word (0xB0C + 16 * l))) []
    next := word 0xA04 % 2 ^ 16, pass := word 0xA08, ord := 2, st := 3, stopc := 1 }
  let elems (o j h : Nat) (depth d n : Nat) : List Nat := unpackItems (c2.desc d).dstFmt.bits n (bankEntry (stg.drop o) depth 128 h j)
  let loads : List LoadEntry := (List.range (num 0)).map (fun j =>
    let d := free (1000 + 4 * j) % 64
    { desc := d, stage := free (1001 + 4 * j), elems := elems 0 j (head 0) 128 d (free (1002 + 4 * j) % 33) })
  let popped := num 0 - (c2.ledger 0).held
  let c3 : Cluster := { c2 with
    hand := loads.take popped, loadQ := loads.drop popped
    storeQ := (List.range (num 1)).map (fun j =>
      let d := free (2000 + 4 * j) % 64
      { desc := d, first := free (2001 + 4 * j), elems := elems 0x4000 j (head 1) 64 d (free (2002 + 4 * j) % 33) })
    streams := (List.range 64).foldl (fun m d =>
      let pos := leAt q (212 + 8 * d) 6
      sput idleStrm m d { run := decide (free (3000 + d) % 2 = 1), pos := pos, iss := pos + leAt q (218 + 8 * d) 2,
                          headed := decide (pos ≠ 0) }) []
    tags := (List.range 16).foldl (fun m n =>
      let g := leAt q (84 + 8 * n) 8
      if g = 0 then m else
        let d := free (4000 + n) % 64
        sput Sys2Proof.Machine.freeTag m n { st := 3, gran := g, desc := d, region := (c2.desc d).region, upto := free (4100 + n) }) []
    slot0 := slotOf c2 (q.drop 36) c2.lastEntry
    slot1 := slotOf c2 (q.drop 52) c2.lastEntry
    exec := { ix := leAt q 0 2, loops := c2.loopsOf .execute (leAt q 0 2) (q.drop 4) }
    acc := { ix := leAt q 2 2, loops := c2.loopsOf .access (leAt q 2 2) (q.drop 20) } }
  let c4 := c3.startHalves
  { c4 with start := if c4.slot0.st ≠ 0 then c4.startOf c4.slot0 else if c4.slot1.st ≠ 0 then c4.startOf c4.slot1 else free 5000 }

/-- The cluster a record restores (R299): the cluster as it was saved, where the record is one this module has saved, so that the run goes on
as if it had never paused (R300); else what the bytes give. The itinerary is the one loaded, the ledgers of links and quotas its own. -/
def Cluster.restore (c : Cluster) (r : List Byte) (was : Option Cluster) : Cluster :=
  match was with
  | some k => { k with sec := c.sec, rseq := c.rseq, slots := c.slots, st := 3, stopc := 1 }
  | none => c.restoreBytes r

/-- Write the register words of a record, RO fields included. -/
def State.restoreRegs (s : State) (n : Nat) (r : List Byte) : State :=
  (List.range 960).foldl (fun s i =>
    let fs := fldsCluster (4 * i)
    if fs = [] then s
    else s.setRegN (ca n (4 * i)) (fs.foldl (fun a f => putBits a f.lo f.len (bits (leAt r (0x100 + 4 * i) 4) f.lo f.len)) 0)) s

/-- How a restore ends. -/
inductive RestoreEnd where
  | poison (done : Nat)
  | refused (cause record : Nat)
  | done (s : State) (records : Nat)
deriving DecidableEq, Repr

/-- The decoder meets the header of a saved image, then its records (R219). -/
def State.eccSaved (s : State) (addr : Nat) (ecc : List (Nat × EccCase)) : State :=
  let s1 := s.eccReads [(addr, 4096)] mgmtWho ecc
  s1.eccReads [(addr, 4096 + leAt (s1.loessRead addr 4096) 24 4 * recSize)] mgmtWho (ecc.filter (fun e => !touches addr 4096 e.1))

/-- Record k of a saved image. -/
def savedRec (bs : List Byte) (k : Nat) : List Byte := (bs.drop (4096 + k * recSize)).take recSize

/-- The cluster of a record is restored; it stands at the stage the image was saved at. -/
def State.restoreRec (s : State) (bs : List Byte) (k : Nat) : State :=
  let r := savedRec bs k
  let n := leAt r 0 2
  let was := (s.saved.find? (fun e => decide (e.1 = r))).map (fun e => e.2)
  (s.setCl n { (s.cl n).restore r was with stopAt := leAt bs 16 8 }).restoreRegs n r

/-- The state once a saved image is restored: records, then what its header keeps of the module. -/
def State.restoreAll (s : State) (bs : List Byte) : State :=
  let s1 := (List.range (leAt bs 24 4)).foldl (fun s k => s.restoreRec bs k) s
  let s2 := (s1.setReg64 0x100 (leAt bs 48 8)).setReg64 0x108 (leAt bs 56 8)
  let s3 : State := { s2 with
    shadow := [0x100, 0x104, 0x108, 0x10C].foldl (fun m a => sput noWord m a none) s2.shadow
    snap := [0x100, 0x104, 0x108, 0x10C].foldl (fun m a => sput noWord m a none) s2.snap }
  let s4 := (List.range 8).foldl (fun s i => s.setRegN (0x340 + 4 * i) (leAt bs (64 + 4 * i) 4)) (s3.setFld 0xFF0 2 1 0)
  (List.range 16).foldl (fun s e =>
    (List.range 28).foldl (fun s i => s.setRegN (ea e (0x410 + 4 * i)) (leAt bs (264 + 128 * e + 4 * i) 4))
      (s.setRegN (ea e 0x400) (leAt bs (256 + 128 * e) 4 % 2))) s4

/-- The clusters of the records of a saved image. -/
def savedClusters (bs : List Byte) : List Nat := (List.range (leAt bs 24 4)).map (fun k => leAt (savedRec bs k) 0 2)

/-- The first check a read saved image fails (R299): its cause and record. -/
def State.restoreBars (s : State) (bs : List Byte) : Option (Nat × Nat) :=
  let ns := savedClusters bs
  let absent := ns.findIdx (fun n => !s.present n)
  let other := ns.findIdx (fun n => decide ((s.cl n).st ≠ 1) || decide ((s.cl n).sec.imgId ≠ leAt bs 8 8))
  if (crc64 0 (bs.take 104 ++ List.replicate 8 0#8 ++ bs.drop 112)).toNat ≠ leAt bs 104 8 then some (1, 0)
  else if absent < ns.length then some (2, absent)
  else if other < ns.length then some (3, other)
  else none

/-- RESTORE (R299): checks first; P of the image becomes P' of its clusters. -/
def State.restoreImage (s : State) (addr : Nat) : RestoreEnd :=
  let h := s.loessRead addr 4096
  let nclu := leAt h 24 4
  let len := 4096 + nclu * recSize
  match s.firstPoison addr 4096 with
  | some d => .poison d
  | none =>
    if h.take 4 ≠ [0x53#8, 0x41#8, 0x56#8, 0x58#8] ∨ leAt h 4 2 ≠ 1 ∨ nclu = 0 ∨ 2048 < nclu ∨ leAt h 28 4 ≠ recSize ∨ leAt h 96 8 ≠ len ∨
        2 ^ 40 < addr + len then .refused 1 0
    else match s.firstPoison addr len with
      | some d => .poison d
      | none =>
        let bs := s.loessRead addr len
        match s.restoreBars bs with
        | some (c, k) => .refused c k
        | none => .done (s.restoreAll bs) nclu

end Sys2Proof.Machine
end

