-- ==== Sys2Proof/Machine/Service.lean ====
section
/-! DEFINITION. Service: bezel, sequence, forced quiesce, insertion (17_service_and_live_change.md, R413 to R431). -/

namespace Sys2Proof.Machine

def State.svcPhase (s : State) : Nat := s.fld 0x104004 0 3
def State.setSvcPhase (s : State) (p : Nat) : State := s.setFld 0x104004 0 3 p
/-- Set bit b of SVC_STATUS. -/
def State.svcBit (s : State) (b v : Nat) : State := s.setFld 0x104004 b 1 v
def State.svcEvent (s : State) (i : Nat) : State := s.raise i 0 0 (s.regN 0x104004) 0
def State.svcSave (s : State) : Bool := (s.reg 0x104000).getLsbD 4

/-- A started PSTATE, UPDATE or FWSWITCH puts a request off (R423), as a transition of the power state does. -/
def State.busyBig (s : State) : Bool :=
  s.boot.switching.isSome || (List.range 16).any (fun r => (s.ring r).taken.any (fun w =>
    decide (1 ≤ w.phase) && (w.opc = 0xA00 || w.opc = 0x900 || w.opc = 0x901)))

/-- Running clusters stop at the end of the stage, with STOPC 1. -/
def State.stopRunning (s : State) : State := s.presentList.foldl (fun s n => if (s.cl n).st = 2 then s.stopCl n 1 else s) s

/-- Phase 4 (R419): every ACTIVE port sends LEAVE and is quiesced. -/
def State.startDrain (s : State) : State :=
  (List.range 16).foldl (fun s p => if s.lnk p = 2 then s.leavePort p else s) (s.setSvcPhase 4)

/-- Every port has been served in phase 4: it is QUIESCED, DOWN or OFF (R417, R419). -/
def State.portsServed (s : State) : Bool :=
  decide (s.svcPhase = 4) && (List.range 16).all (fun p => let st := s.lnk p; decide (st = 0) || decide (st = 3) || decide (st = 4))

/-- The ports have been served: the module is alone (R419). -/
def State.drainStep (s : State) : State := if s.portsServed && decide (s.dstate ≠ 0) then s.leaveDomain else s

/-- A module reset is in progress (R404, R423): start-up runs again after one. -/
def State.modResetRuns (s : State) : Bool := decide (s.phase ≠ 6) && !s.ready && !s.failed && (decide (s.fld 0x200008 0 2 = 1) || decide (s.fld 0x200008 0 2 = 2))

/-- A service request (R417, R423). -/
def State.svcRequest (s : State) : State :=
  if s.modResetRuns && decide (s.svcPhase = 0) then { s with svc := { s.svc with asked := true } }
  else if (s.phase ≠ 6 && !s.ready) || decide (s.svcPhase ≠ 0) || s.svc.forcedDue then s
  else if s.busyBig || s.trans.isSome then { s with svc := { s.svc with asked := true } }
  else
    let s0 := (((s.svcBit 3 0).svcBit 4 0).svcBit 5 0).svcBit 6 0
    let s1 : State := { s0 with svc := { s0.svc with asked := false, saving := false } }
    if s.pstate = 2 ∨ s.pstate = 3 then (if s.svcSave then s1.svcBit 4 1 else s1).startDrain
    else (s1.setSvcPhase 1).svcEvent 39

/-- A request that was put off is taken (R423). -/
def State.svcRetry (s : State) : State := if s.svc.asked && !s.busyBig && s.trans.isNone then s.svcRequest else s

/-- A cancel (R421). -/
def State.svcCancel (s : State) : State :=
  let ph := s.svcPhase
  if s.svc.forcedDue then s
  else if 1 ≤ ph ∧ ph ≤ 3 then
    let s1 := (s.svcEvent 40).setSvcPhase 0
    let keep := match s1.pause with | some p => if s.svc.saving && decide (p.st = 1) && p.wb.isNone then none else some p | none => none
    { s1 with pause := keep, svc := { s1.svc with saving := false } }
  else if ph = 5 then ((s.svcEvent 40).setSvcPhase 0).leaveStandby
  else s

/-- A forced quiesce begins (R422). With no engine on, phase 4 follows at once; on the way out of STANDBY it waits for the first
boundary after it. -/
def State.svcForce (s : State) : State :=
  if (s.phase ≠ 6 && !s.ready) || decide (4 ≤ s.svcPhase) || s.svc.forcedDue then s
  else
    let s1 := (s.svcBit 6 1).svcEvent 41
    if s.pstate = 2 ∨ s.pstate = 3 then s1.startDrain else { s1 with svc := { s1.svc with forcedDue := true, asked := false } }

/-- The ENG resets of a forced quiesce, then phase 4. -/
def State.forcedReset (s : State) : State :=
  if !s.svc.forcedDue then s
  else
    let s1 : State := { s with svc := { s.svc with forcedDue := false, saving := false } }
    ((List.range 16).foldl State.resetEngine1 s1).startDrain

/-- The end of phase 1, at a boundary that has just been taken (R417, R418). A pause of a module alone that still waits for its boundary
takes this one, with every running cluster in it; one that settles or is complete is the one that is saved. -/
def State.svcBoundary (s : State) : State :=
  if s.svcPhase ≠ 1 then s
  else
    let s1 := s.setSvcPhase 2
    let runs := s.presentList.filter (fun n => decide ((s.cl n).st = 2))
    if !s.svcSave then s1.stopRunning
    else if s.pause.isNone && runs.isEmpty then s1.svcBit 4 1
    else if s.mustered || s.pause.any (fun p => decide (p.st ≠ 1)) then { s1 with svc := { s1.svc with saving := true } }
    else match s.pause with
    | some p =>
      { s1 with pause := some { p with clus := (p.clus ++ runs).eraseDups, b := s.stageNo }, svc := { s1.svc with saving := true } }
    | none => { s1 with pause := some { clus := runs, b := s.stageNo, wb := none }, svc := { s1.svc with saving := true } }

/-! Button (R413, R414) -/

/-- BUTTON_PRESS: the release of a press of `ms` milliseconds; one shorter than the 20 ms of the debounce is none (R413). A press of 8 s
has acted at its 8 s mark. -/
def execButtonPress (ms : Nat) (s : State) : Host.Outcome State Fault Refusal :=
  if s.phase = 0 || decide (ms < 20) then .next s
  else
    let s0 := s.svcBit 8 0
    let s1 : State := { s0 with svc := { s0.svc with flashed := false } }
    if ms < 1000 then .next { s1 with svc := { s1.svc with identify := true } }
    else if 8000 ≤ ms then .next s1
    else if (s1.reg 0x104000).getLsbD 5 then
      .next ((s1.svcBit 7 1).svcEvent 39)
    else if s1.svcPhase = 0 then .next s1.svcRequest else .next s1.svcCancel

/-- BUTTON_HELD_1S: the bar flashes blue once, until the button is released; not under LOCK, which ignores the press. -/
def execButtonHeld1s (s : State) : Host.Outcome State Fault Refusal :=
  if s.phase = 0 then .next s
  else .next { s.svcBit 8 1 with svc := { s.svc with flashed := !(s.reg 0x104000).getLsbD 5 } }

/-- An 8 s press has stopped start-up (R423). -/
def State.startStopped (s : State) : State :=
  let s1 := ({ s with phase := 6, held := false, svc := { s.svc with forcedDue := false } } : State).enterStandby
  (s1.setSvcPhase 5).svcEvent 42

/-- BUTTON_HELD_8S: a forced quiesce; before READY start-up ends with its current phase, at once where the lever holds it at the end of
phase A (R423, R424). -/
def execButtonHeld8s (s : State) : Host.Outcome State Fault Refusal :=
  if s.phase = 0 then .next s
  else
    let s1 := s.svcBit 8 1
    .next (if s.phase = 6 || s.ready then s1.svcForce else if s.held then s1.startStopped else { s1 with svc := { s1.svc with forcedDue := true } })

/-- IDENTIFY_END: 5 s have passed. -/
def execIdentifyEnd (s : State) : Host.Outcome State Fault Refusal := .next { s with svc := { s.svc with identify := false } }

/-! Sequence -/

/-- SVC_STOPPED: the end of phase 2 (R417, R418). A set that has paused is saved first, clusters that still run beside it being stopped
before; then phase 3 runs. -/
def execSvcStopped (s : State) : Host.Outcome State Fault Refusal :=
  if s.svcPhase ≠ 2 || s.svc.forcedDue then .next s
  else if s.svc.saving then
    match s.pause with
    | some p =>
      if p.st ≠ 3 then .next s
      else if s.presentList.any (fun n => decide ((s.cl n).st = 2)) then .next s.stopRunning
      else
        let a := s.reg64 0x104008
        if !s.rangeUp a (4096 + recSize * p.clus.length) then .next s
        else
          let img := s.saveImage p
          let s1 := ((s.noteSaved p).mgmtTraffic true [(a, img.1.length)]).agentWrite a img.1 mgmtWho
          .next ((({ s1.draw with svc := { s1.svc with saving := false } } : State).svcBit 3 1).setSvcPhase 3)
    | none => .next s
  else if s.presentList.any (fun n => decide ((s.cl n).st = 2)) then .next s
  else .next (s.startDrain)

/-- SVC_WAIT_EXPIRY: in phase 2 of a mustered module without a pause, no save is made (R418); in phase 3, RELTMO. -/
def execSvcWaitExpiry (s : State) : Host.Outcome State Fault Refusal :=
  if s.svcPhase = 3 then .next ((s.svcBit 5 1).startDrain)
  else if s.svcPhase = 2 && s.svc.saving && s.mustered && (match s.pause with | some p => decide (p.st ≠ 3) | none => true) then
    .next ((({ s with svc := { s.svc with saving := false } } : State).svcBit 4 1).stopRunning)
  else .next s

def HMsg.isMem (m : HMsg) : Bool := match m with | .mem .. => true | _ => false

/-- SVC_DRAINED: the end of phase 4 (R417, R419): every port has been served, every receipt and event record acknowledged, every started
waybill has its receipt; the module leaves its domain and enters STANDBY. -/
def execSvcDrained (s : State) : Host.Outcome State Fault Refusal :=
  let sentAll := !(s.teth.txq.any (fun m => m.msg.isMem)) && !(s.teth.sent.any (fun m => m.2.msg.isMem)) &&
    !(s.teth.replay.any (fun m => m.2.msg.isMem))
  let told := sentAll && s.queued.isEmpty
  let started := (List.range 16).any (fun r => (s.ring r).taken.any (fun w => decide (1 ≤ w.phase)))
  if s.portsServed && told && !started then
    .next ((({ s.leaveDomain with phase := 6 } : State).enterStandby.setSvcPhase 5).svcEvent 42)
  else .next s

/-- FORCED_QUIESCE_RESET: 100 µs after the trigger (R422). -/
def execForcedQuiesceReset (s : State) : Host.Outcome State Fault Refusal := .next (if s.phase = 6 || s.ready then s.forcedReset else s)

/-! Ejector lever (R422, R424, R426) -/

/-- Start-up stops and all domains but the always-on one go off (R424): the ports, the Tether, the stacks. -/
def State.startCut (s : State) : State :=
  let s1 := (List.range 16).foldl (fun s p => s.portOff p) s
  let s2 := ({ s1 with teth := {}, dies := [] } : State).setTth 0
  { (List.range 8).foldl (fun s k => s.setStack k 0) s2 with phase := 1, held := true }

/-- EJECTOR_LEVER_OPEN: in phases B to E start-up stops; phase A runs to its end. Before phase 5 it is a violation and a forced
quiesce. -/
def execEjectorLeverOpen (s : State) : Host.Outcome State Fault Refusal :=
  if !(s.reg 0x104004).getLsbD 9 then .next s
  else
    let s1 := s.svcBit 9 0
    if s.phase ≤ 1 then .next s1
    else if s.phase < 6 ∧ !s.ready then .next s1.startCut
    else if s.svcPhase = 5 then .next s1
    else
      let s2 := s1.setBits 0x104018 (2 ^ 16)
      .next ((({ s2 with svc := { s2.svc with violated := true } } : State).raise 43 0 0 (s2.regN 0x104018) 0).svcForce)

/-- EJECTOR_LEVER_CLOSE: start-up that waits at the end of phase A goes on. -/
def execEjectorLeverClose (s : State) : Host.Outcome State Fault Refusal :=
  let s1 := s.svcBit 9 1
  .next (if s.held && decide (s.phase = 1) && !s.side.rstLow then { s1 with phase := 2, held := false } else s1)

/-! What the bezel shows (R415, R416): values the state gives -/

inductive Colour where
  | dark
  | white
  | green
  | amber
  | blue
  | red
deriving DecidableEq, Repr

/-- A light pattern: segments lit in the colour, amber on segment 5, flashes in tenths of a hertz (0 steady). -/
structure Bar where
  colour : Colour
  lit : Nat := 5
  last : Option Colour := none
  rate : Nat := 0
deriving DecidableEq, Repr

def State.lightBar (s : State) : Bar :=
  let fail := s.fld 0x200000 4 4
  if s.phase = 0 then { colour := .dark, lit := 0 }
  else if s.svc.flashed then { colour := .blue }
  else if s.svc.tripped || s.svc.violated || s.svc.uv || !s.svc.beyond.isEmpty then { colour := .red, rate := 40 }
  else if 1 ≤ fail ∧ fail ≤ 5 then { colour := .red, lit := fail }
  else if fail = 6 then { colour := .red, rate := 10 }
  else if s.svcPhase = 5 then { colour := .blue }
  else if s.svcPhase ≠ 0 then { colour := .blue, lit := s.svcPhase, rate := 10 }
  else if s.svc.identify || (s.reg 0x104000).getLsbD 7 then { colour := .white, rate := 10 }
  else if s.phase = 1 ∧ s.held then { colour := .amber, lit := 1 }
  else if s.phase < 6 then { colour := .white, lit := s.phase }
  else if s.pstate = 2 then { colour := .green, rate := 5 }
  else if s.pstate = 3 then { colour := .green, lit := 1 }
  else if s.fld 0x200010 19 5 < 16 ∨ (List.range 16).any (fun p => s.lnk p = 4) then { colour := .green, last := some .amber }
  else { colour := .green }

def State.cageLight (s : State) (p : Nat) : Bar :=
  match s.lnk p with
  | 2 => if (s.port p).quiesce then { colour := .blue, rate := 10 } else { colour := .green }
  | 1 | 5 => { colour := .amber }
  | 4 => { colour := .amber, rate := 10 }
  | 3 => { colour := .blue }
  | _ => { colour := .dark }

end Sys2Proof.Machine
end

