-- ==== Sys2Proof/Machine/Boundary.lean ====
section
/-! DEFINITION. The actions of a stage boundary in their order (R264): ledgers, ARM, windows, outcomes of speculative and gated
tasks, glaze switches, watches, escalation, stops, cap, power state (10_stages_rations_and_ledgers.md). -/

namespace Sys2Proof.Machine

/-- Change every cluster that is not at rest. -/
def State.mapCl (s : State) (f : Cluster → Cluster) : State :=
  { s with clusters := s.clusters.filterMap (fun e => let c := f e.2; if c = idleCluster e.1 then none else some (e.1, c)) }

/-! Order 2: the ledger check (R277, R278) -/

/-- Entries or tags of a cluster's ledger l in use. -/
def Cluster.inUse (c : Cluster) (l : Nat) : Nat :=
  match l with
  | 0 => c.loadQ.length
  | 1 => c.storeQ.length
  | 2 => c.scaleQ.length
  | 3 => c.manQ.length
  | _ => ((List.range 16).filter (fun k => decide ((c.tag k).st ≠ 0))).length

/-- A ledger balances: FREE + HELD = TOTAL, and the counts of issues and returns differ by what is in use. -/
def Ledger.balances (g : Ledger) (inUse : Nat) : Bool := decide (g.held = inUse) && decide (g.held ≤ g.total)

/-- The ledgers of a cluster that do not balance, in their order. -/
def Cluster.unbalanced (c : Cluster) : List Nat := (List.range 5).filter (fun l => !(c.ledger l).balances (c.inUse l))

def State.checkClLedger (s : State) (n : Nat) : State :=
  let bad := (s.cl n).unbalanced
  if bad = [] then s
  else
    let s1 := s.capture noRank (ca n 0xB50) (1 + bad.headD 0 * 2 + s.stageNo % 2 ^ 16 * 2 ^ 16) []
    s1.raise 20 1 n (s1.regN (ca n 0xB50)) 0

/-- Credits, or slots of a ring, of a module ledger that are in use. -/
def State.modInUse (s : State) (id : Nat) : Nat :=
  if 32 ≤ id then (s.ring (id - 32)).taken.length else (s.ledger id).held

/-- The module ledgers that do not balance, in their order. -/
def State.unbalanced (s : State) : List Nat :=
  (List.range 17 ++ (List.range 16).map (fun r => 32 + r)).filter (fun id => !(s.ledger id).balances (s.modInUse id))

/-- The ledger check of the module: LDG_IMBALANCE keeps the first ledger found. -/
def State.checkModLedgers (s : State) : State :=
  let bad := s.unbalanced
  if bad = [] then s
  else
    let s1 := s.capture noRank 0x518 (1 + bad.headD 0 * 2 + s.stageNo % 2 ^ 16 * 2 ^ 16) []
    s1.raise 20 0 0 (s1.regN 0x518) 0

def State.checkLedgers (s : State) : State :=
  let s1 := s.checkModLedgers
  s1.clusters.foldl (fun s e => s.checkClLedger e.1) s1

/-! Order 3: ARM (R271, R279 to R281) -/

/-- Codes a wheel may hold (R269). -/
def wheelCodes (w : Nat) : List Nat :=
  match w with
  | 0 => [0, 1, 2, 3, 4, 5, 6, 7, 8, 9, 15]
  | 1 => [0, 2, 8, 15]
  | 2 => [1, 7, 8, 9, 15]
  | _ => [0, 3, 15]

/-- R271 on the ration words that `f` gives by address. -/
def rationOk (f : Nat → Nat) : Bool :=
  let wheel (w : Nat) : List Nat := (List.range 128).flatMap (fun j =>
    let v := f (0x1200 + 0x200 * w + 4 * j)
    (List.range 8).map (fun i => bits v (4 * i) 4))
  let mem := wheel 0
  let tth := wheel 2
  let lim (a : Nat) : Nat := bits (f (0x1040 + 4 * a)) 0 16
  let any (l : List Nat) : Bool := l.any (fun a => decide (lim a ≠ 0))
  (List.range 4).all (fun w => (wheel w).all (fun x => (wheelCodes w).contains x)) &&
  mem.contains 4 && mem.contains 6 && tth.contains 1 && tth.contains 7 &&
  (!any [1, 4, 5, 6, 7] || mem.contains 9) && (!any [1, 7] || tth.contains 9) && !any [0, 2, 3, 8, 9]

/-- QNT_CTL has latched a depth: entries beyond it are dropped (R139). -/
def Cluster.cutWindows (c : Cluster) (depth : Nat) : Cluster :=
  { c with
    wins := c.wins.filter (fun e => decide (e.1 % 16 < depth))
    fill := (List.range 16).foldl (fun m k => sput zeroNat m k (min (sget zeroNat c.fill k) depth)) [] }

def State.depth (s : State) (n : Nat) : Nat := s.fld (ca n 0x200) 0 4 + 1

/-- What follows when a block has latched. -/
def State.latched (s : State) (w : Win) : State :=
  match w with
  | .ration => s.evalMismatch
  | .stack k => s.setDie k { s.die k with needArm := false }
  | .cluster n => s.setCl n ((s.cl n).cutWindows (s.depth n))
  | _ => s

/-- The pending block of window w latches, or is refused; `late`: the stage that ends was late, so the shadows as they stood at
its last kc count. -/
def State.latchArm (s : State) (w : Win) (c : Nat) (late : Bool) : State :=
  let s0 := s.setFld c 2 1 0
  let src := if late then s.snap else s.shadow
  let mine := src.filter (fun e => winOf e.1 = some w)
  let view (a : Nat) : Nat := match sget noWord src a with | some v => v.toNat | none => s.regN a
  let cause := if !s.winOn w then 2 else if w = .ration && !rationOk view then 1 else 0
  if cause ≠ 0 then
    let s1 := (s0.setBits c 0x10).setFld c 5 2 cause
    s1.raise 21 8 (w.base / 4096) (s1.regN c) 0
  else
    let s1 := mine.foldl (fun s e => s.setRegN e.1 (mixBits (rwaMask (fldsOf s.grade w (e.1 - w.base))) (view e.1) (s.regN e.1))) s0
    let keep := src.filter (fun e => winOf e.1 ≠ some w)
    (if late then ({ s1 with snap := keep } : State) else { s1 with shadow := keep }).latched w

/-- The windows whose block is pending. -/
def State.pendingArms (s : State) : List (Win × Nat) :=
  s.regs.filterMap (fun e => match winOf e.1 with
    | some w => if armOf w = some e.1 && e.2.getLsbD 2 then some (w, e.1) else none
    | none => none)

def State.latchArms (s : State) (late : Bool) : State := s.pendingArms.foldl (fun s x => s.latchArm x.1 x.2 late) s

/-- Shadows that a late stage has set aside and no ARM has latched are shadows again. -/
def State.joinShadows (s : State) : State :=
  { s with
    shadow := s.snap.foldl (fun m e => if (sget noWord m e.1).isSome then m else sput noWord m e.1 e.2) s.shadow
    snap := [] }

/-! Orders 4 and 5 (R56, R139) -/

def State.gritStep (s : State) : State :=
  if s.gstep then { s.setReg64 0x108 ((s.reg64 0x108 + 1) % 2 ^ 64) with gstep := false } else s

/-- The window advance of a cluster with windows of `depth` entries. DESIGN CHOICE (log entry 152): FILL rises by one, up to the depth, in
every slot; R144 does not say when hardware changes it. -/
def Cluster.advanceWindows (c : Cluster) (depth : Nat) : Cluster :=
  if !c.wadv then c
  else
    { c with
      wadv := false
      wins := (c.wins.filter (fun e => decide (e.1 % 16 + 1 < depth))).map (fun e => (e.1 + 1, e.2))
      fill := (List.range 16).foldl (fun m k => sput zeroNat m k (min (sget zeroNat c.fill k + 1) depth)) [] }

def State.advanceAll (s : State) : State :=
  s.clusters.foldl (fun s e => if e.2.wadv then s.setCl e.1 (e.2.advanceWindows (s.depth e.1)) else s) s

/-! Orders 6 and 7: predicates and outcomes (R251, R252, R255, R256) -/

/-- The value a predicate takes at this boundary. -/
def predValue (ps : SMap Nat) (p : Nat) : Option Bool :=
  let v := sget zeroNat ps p
  if v = 0 then none else some (decide (v % 4 = 3))

/-- GLB_PREDLASTn of the predicates that take effect, which return to unresolved. -/
def State.settlePreds (s : State) : State :=
  let s1 := s.preds.foldl (fun s e => s.setFld (0x340 + 4 * (e.1 / 32)) (e.1 % 32) 1 (if e.2 % 4 = 3 then 1 else 0)) s
  { s1 with preds := [] }

/-- SEL toggles and WR clears on every granule that a task's entries have written (R256 step 1). -/
def State.togglePmes (s : State) (n task : Nat) : State :=
  let mine (e : Pme) : Bool := e.used && decide (e.oclu = n) && decide (e.otask = task)
  (s.pmes.filter (fun p => mine p.2)).foldl (fun s p =>
    let gs := swindow s.wr (p.2.lpage * 4096) (p.2.pages * 4096)
    let sel := gs.foldl (fun m g => sput selfNat m g.1 (s.otherOf p.1 g.1)) s.sel
    (({ s with sel := sel, wr := sclear s.wr (p.2.lpage * 4096) (p.2.pages * 4096) } : State).setPme p.1 { p.2 with opened := false })) s

/-- A tile that a task of slot o has written becomes an ordinary one. -/
def Tile.release (t : Tile) (o : Nat) : Tile := if t.spec = some o then { t with spec := none } else t

/-- What the committed task in slot o has in the cluster is ordinary from now on (R256 step 4). -/
def Cluster.commitTask (c : Cluster) (o : Nat) : Cluster :=
  let free (x : Option Nat) : Option Nat := if x = some o then none else x
  { c with
    tile0 := c.tile0.release o, tile1 := c.tile1.release o
    loadQ := c.loadQ.map (fun e => { e with slot := free e.slot }), hand := c.hand.map (fun e => { e with slot := free e.slot })
    storeQ := c.storeQ.map (fun e => { e with slot := free e.slot }), scaleQ := c.scaleQ.map (fun e => { e with slot := free e.slot })
    manQ := c.manQ.map (fun e => { e with slot := free e.slot }), conv := c.conv.map (fun e => { e with slot := free e.slot })
    coded := c.coded.map (fun e => { e with slot := free e.slot })
    streams := c.streams.map (fun e => (e.1, { e.2 with slot := free e.2.slot }))
    tags := c.tags.map (fun e => (e.1, { e.2 with slot := free e.2.slot }))
    watches := c.watches.map (fun w => { w with slot := free w.slot }) }

/-- Commit (R256): steps 1 to 5; what was held takes effect in the new stage. A task that a held fault has halted keeps
its slot, its halves standing where they halted, until the stop at the end of the stage (R255). -/
def State.commit (s : State) (n o : Nat) : State :=
  let c := s.cl n
  let t := c.slot o
  let s1 := s.togglePmes n t.task
  let c1 := c.commitTask o
  let s2 := s1.setCl n (c1.setSlot o { t with held := [], now := [] })
  let s3 := ((t.held ++ t.now).foldl (applyAct n true) s2).count (ca n 0xA1C) 1
  if t.halted then s3.setCl n ((s3.cl n).setSlot o { (s3.cl n).slot o with st := 2, held := [], now := [] })
  else s3.setCl n ((s3.cl n).freeSlot o)

/-- A cluster without what the discarded task in slot o has left in it (R256 steps 1 to 3, 5). -/
def Cluster.discardTask (c : Cluster) (o : Nat) : Cluster :=
  let t := c.slot o
  let mine (x : Option Nat) : Bool := decide (x = some o)
  let reads (x : Tile) : Bool := match x.out with | some r => decide (r.slot = o) && decide (r.task = t.task) | none => false
  let drop (x : Tile) : Tile :=
    if x.spec = some o then { x.emptied with out := none, ld := none, spec := none }
    else if reads x then { x with out := none } else x
  let gone := (c.streams.filter (fun e => mine e.2.slot)).map (fun e => e.1)
  let run (m : MopRun) : Bool := decide (m.slot = o) && decide (m.task = t.task)
  let runs := (c.runs.filter run).map (fun m => m.id)
  let c1 : Cluster := { c with
    loadQ := c.loadQ.filter (fun e => !mine e.slot), storeQ := c.storeQ.filter (fun e => !mine e.slot)
    scaleQ := c.scaleQ.filter (fun e => !mine e.slot), manQ := c.manQ.filter (fun e => !mine e.slot)
    conv := c.conv.filter (fun e => !mine e.slot), coded := c.coded.filter (fun e => !mine e.slot)
    streams := c.streams.filter (fun e => !mine e.2.slot)
    pairs := c.pairs.filter (fun p => !(SpairF.descs p.f).any (fun d => gone.contains d))
    hand := c.hand.filter (fun e => !mine e.slot)
    watches := c.watches.filter (fun w => !mine w.slot)
    mop := c.mop.filter (fun m => !run m), tail := c.tail.filter (fun m => !run m)
    wave := c.wave.map (fun x => x.filter (fun y => !runs.contains y.run))
    pushed := t.pushed.foldl (fun m e =>
      let n := max (c.desc e.1).total 1
      sput zeroNat m e.1 ((sget zeroNat m e.1 + n - e.2 % n) % n)) c.pushed
    popped := t.popped.foldl (fun m e => sput zeroNat m e.1 (sget zeroNat m e.1 - e.2)) c.popped
    glz := c.glz.filter (fun g => !(decide (g.slot = o) && decide (g.task = t.task)))
    gslots := if c.glz.any (fun g => decide (g.slot = o) && decide (g.task = t.task)) then 0 else c.gslots
    wload := match c.wload with | some w => if w.slot = o ∧ w.task = t.task then none else c.wload | none => none
    tchk := match c.tchk with | some k => if k.slot = o ∧ k.task = t.task then none else c.tchk | none => none
    tile0 := drop c.tile0, tile1 := drop c.tile1 }
  let c2 := (((c1.give 0 (c.loadQ.length - c1.loadQ.length)).give 1 (c.storeQ.length - c1.storeQ.length)).give 2
    (c.scaleQ.length - c1.scaleQ.length)).give 3 (c.manQ.length - c1.manQ.length)
  let c3 := (List.range 16).foldl (fun c k =>
    let g := c.tag k
    if !mine g.slot || decide (g.st = 0) then c else if g.st = 3 then c.dropTag k else c.setTag k { g with drop := true, slot := none }) c2
  c3.setSlot o { st := 6, task := t.task, mode := t.mode, wbase := t.wbase, wsize := t.wsize, ord := t.ord, kc := t.kc, base := t.base }

/-- What a discarded task has on its way to the stacks writes nothing any more: its stores carry no bytes, its jobs are gone
(R256, R258). -/
def State.voidWrites (s : State) (n task : Nat) : State :=
  let mine (r : Req) : Bool := decide (r.who = { kind := 0, id := n }) && r.spec && decide (r.task = task)
  let void (r : Req) : Req := if mine r then { r with bytes := [] } else r
  let isJob (r : Req) : Bool := match r.src with | .job .. => true | _ => false
  { s with
    dies := s.dies.map (fun d => (d.1, { d.2 with
      waiting := (d.2.waiting.filter (fun r => !(mine r && isJob r))).map void, accepted := d.2.accepted.map void }))
    jobs := s.jobs.filter (fun j => !(decide (j.who = { kind := 0, id := n }) && j.spec && decide (j.task = task))) }

/-- Discard (R256): steps 1 to 5; the window is zeroed and the slot freed by SPEC_ZERO_DONE. -/
def State.discard (s : State) (n o : Nat) : State :=
  let t := (s.cl n).slot o
  ((s.closePmes n t.task).voidWrites n t.task).setCl n ((s.cl n).discardTask o)

/-- A predicate's value matches a task's SENSE: SENSE 0 asks for true and SENSE 1 for false (R248, R252). -/
def agrees (sense b : Bool) : Bool := b != sense

/-- The outcome that slot o of cluster n meets at this boundary, `v` being the value its predicate takes. -/
def State.outcome (s : State) (n o : Nat) (v : Option Bool) : State :=
  let c := s.cl n
  let t := c.slot o
  match t.st, v with
  | 1, some b =>
    if agrees t.sense b then s.setCl n (c.setSlot o { t with st := 2, value := some b })
    else (s.setCl n (c.freeSlot o)).count (ca n 0xA24) 1
  | 3, some b =>
    if agrees t.sense b && t.halted then s.commit n o
    else if agrees t.sense b then s.setCl n (c.setSlot o { t with st := 5, value := some b }) else s.discard n o
  | 4, some b => if agrees t.sense b then s.commit n o else s.discard n o
  | 5, _ => if t.ended || t.halted then s.commit n o else s
  | _, _ => s

/-- Every task bound to a predicate that takes effect meets its outcome (R251). -/
def State.outcomes (s : State) : State :=
  let ps := s.preds
  let one (s : State) (n o : Nat) : State := s.outcome n o (predValue ps ((s.cl n).slot o).pred)
  (s.clusters.foldl (fun s e => one (one s e.1 0) e.1 1) s)

/-! Order 8: glaze switches (R176) -/

/-- The clusters whose switch is not possible, after the switches of the others. -/
def State.glazeSwitches (s : State) : State × List Nat :=
  s.clusters.foldl (fun (r : State × List Nat) e =>
    let n := e.1
    let c := r.1.cl n
    if !c.gswitch then r
    else
      let b := 1 - c.gactive
      let c0 : Cluster := { c with gswitch := false }
      if (c.gbank b).state = 2 then
        let c1 := (c0.setGbank b { c.gbank b with state := 3 }).setGbank c.gactive { c.gbank c.gactive with state := 2 }
        (r.1.setCl n { c1 with gactive := b }, r.2)
      else ((applyAct n false (r.1.setCl n c0) (.glaze 4 0 0 6)).stopCl n 5, r.2 ++ [n])) (s, [])

/-! Orders 9 and 10: stacks and watches (R200, R229) -/

def State.stackHolds (s : State) : State :=
  (List.range 8).foldl (fun s k => if (s.reg (sa k 4)).getLsbD 0 then s.stackIn k else s.stackOut k) s

/-- A watch is still wanted: its stream or job still reads. -/
def watchLives (jobs : List Job) (c : Cluster) (w : Watch) : Bool :=
  !w.done && !w.off && (if w.desc < 64 then (c.strm w.desc).run else jobs.any (fun j => decide (64 + j.ord = w.desc)))

/-- Run-ahead of the stage that ends serves no later stage: memory may have changed (R196, R199). -/
def Cluster.dropAhead (c : Cluster) : Cluster :=
  (List.range 16).foldl (fun c k =>
    let g := c.tag k
    if g.st = 0 ∨ !g.ahead then c else if g.st = 3 then c.dropTag k else c.setTag k { g with drop := true }) c

def Cluster.newStage (c : Cluster) (jobs : List Job) (stage : Nat) : Cluster :=
  let c := c.dropAhead
  { c with
    watches := (c.watches.filter (fun w => !w.off)).map (fun w => if watchLives jobs c w then
        { w with blind := [] } else { w with off := true })
    hazards := c.hazards.filter (fun h => decide (stage ≤ h.2 + 1) ||
        (c.loadQ ++ c.hand).any (fun e => decide (e.desc = h.1) && decide (e.stage = h.2)) ||
        c.scaleQ.any (fun e => decide (e.desc = h.1) && decide (e.stage = h.2)) ||
        c.manQ.any (fun e => decide (e.desc = h.1) && decide (e.stage = h.2)))
    took := c.took.filter (fun x => decide (stage ≤ x.2.2 + 1))
    streams := c.streams.map (fun e => (e.1, { e.2 with lastPos := e.2.stagePos, stagePos := e.2.heldAt (c.desc e.1), lateRelay := false }))
    acc := { c.acc with waitStage := false }
    exec := { c.exec with waitStage := false }
    tile0 := { c.tile0 with discard := false }
    tile1 := { c.tile1 with discard := false }
    slots := 0 }

/-! Order 11: escalation (R276) -/

def State.escOne (s : State) (w : Wheel) (unit : Nat) (was : List Nat) (a : Nat) : State × Bool :=
  let lim := s.fld (0x1040 + 4 * a) 0 16
  let age := s.age w unit a
  let key := wheelKey w unit * 16 + a
  let esc := decide (0 < lim) && decide (lim < age)
  let d1 := wheelNo w * 256 + unit
  let s1 := if esc && !was.contains a then (s.raise 17 0 0 a d1).count (0x10C0 + 4 * a) 1 else s
  let starve := decide (2 * lim < age) && decide (0 < lim) && !sget zeroBool s1.starved key
  let s2 := if starve then ({ s1 with starved := sput zeroBool s1.starved key true } : State).raise 18 0 0 a d1 else s1
  (if age ≤ lim then { s2 with starved := sput zeroBool s2.starved key false } else s2, esc)

/-- Insert an activity by its excess, descending, then by code. -/
def escInsert (x : Nat × Nat) : List (Nat × Nat) → List (Nat × Nat)
  | [] => [x]
  | y :: r => if x.2 ≤ y.2 then y :: escInsert x r else x :: y :: r

def State.escalate (s : State) (w : Wheel) (unit : Nat) : State :=
  let was := s.orderOf w unit
  let r := (agedActs w).foldl (fun (r : State × List (Nat × Nat)) a =>
    let x := r.1.escOne w unit was a
    (x.1, if x.2 then escInsert (a, r.1.age w unit a - r.1.fld (0x1040 + 4 * a) 0 16) r.2 else r.2)) (s, [])
  { r.1 with order := sput noActs r.1.order (wheelKey w unit) (r.2.map (fun x => x.1)) }

def State.escalateAll (s : State) : State :=
  [Wheel.memory, .tether].foldl (fun s w => (agedUnits w).foldl (fun s u => s.escalate w u) s) s

/-! Order 12: stops (R242); resumes and starts of the stage that begins -/

/-- A cluster due to stop has stopped; P' is the stage that begins. A cluster whose last task ended earlier in the
stage moves to stopped too (R242, DEDUCED). -/
def Cluster.stopped (c : Cluster) (cause stage : Nat) : Cluster :=
  if c.st = 2 ∨ c.st = 4 then { c with st := 3, stopc := if c.stopc = 0 then cause else c.stopc, stopDue := none, stopAt := stage }
  else { c with stopDue := none }

def State.stops (s : State) (due : List (Nat × Nat)) : State :=
  due.foldl (fun s d => s.setCl d.1 ((s.cl d.1).stopped d.2 s.stageNo)) s

/-- START reaches its stage (R242, R249). -/
def Cluster.begin (c : Cluster) (stage : Nat) : Cluster :=
  { c with
    st := 2, stopc := 0, stopDue := none, start := stage, next := 0, pass := 0, ord := 0
    slot0 := {}, slot1 := {}, acc := {}, exec := {} }

/-- RESUME reaches its stage: bases shift by Q − P' and tandem sequence numbers restart (R300, R365). -/
def Cluster.resumed (c : Cluster) (q : Nat) : Cluster :=
  let up (b : Nat) : Nat := b + q - c.stopAt
  { c with
    st := 2, stopc := 0, stopDue := none, start := up c.start, pausing := false, tseq := 0
    slot0 := { c.slot0 with base := if c.slot0.st = 0 then 0 else up c.slot0.base }
    slot1 := { c.slot1 with base := if c.slot1.st = 0 then 0 else up c.slot1.base } }

/-- Clusters of a resumed set leave the pause. -/
def State.unpause (s : State) (ns : List Nat) : State :=
  match s.pause with
  | none => s
  | some p =>
    let left := p.clus.filter (fun n => !ns.contains n)
    if left = [] then { s with pause := none } else { s with pause := some { p with clus := left } }

/-! The cap (R402, R403) -/

/-- The grade maximum in force, W. -/
def State.gradeMax (s : State) : Nat := if s.foot then 760 else 1000

/-- The least of the limits of the cap but that of the die temperature, and which sets it. -/
def State.otherCap (s : State) : Nat × Nat :=
  let g := s.gradeMax
  let inlet := signedOf 16 (s.fld 0x200028 0 16)
  let cool : Int := (g : Int) - 2 * (inlet - 350)
  let limits : List (Nat × Nat) :=
    [(s.fld 0x20000C 0 16, 0), (g, 1), (21 * s.regN 0x20001C / 1000, 2)] ++ (if 350 < inlet then [(cool.toNat, 3)] else [])
  limits.foldl (fun m x => if x.1 < m.1 then x else m) (s.fld 0x20000C 0 16, 0)

/-- The die-temperature limit at a boundary, none while it limits nothing: 50 W lower above 100 °C, 50 W higher below 95 °C up to the
other limits. -/
def State.dieLimit (s : State) (other : Nat) : Option Nat :=
  let tdie := signedOf 16 (s.fld 0x200024 0 16)
  if 1000 < tdie then some (s.tdieLim.getD other - 50)
  else if tdie < 950 then s.tdieLim.bind (fun l => if l + 50 < other then some (l + 50) else none)
  else s.tdieLim

/-- The effective cap and what sets it. -/
def State.effCap (s : State) (die : Option Nat) : Nat × Nat :=
  let o := s.otherCap
  match die with
  | some l => if l < o.1 then (l, 4) else o
  | none => o

def State.capStep (s : State) : State :=
  let die := s.dieLimit s.otherCap.1
  let draws := ((s.drawNow :: s.draws).take 64)
  let n := draws.length
  let sum := draws.foldl (· + ·) 0
  let eff := s.effCap die
  let l := s.fld 0x200010 19 5
  let next :=
    if draws.any (fun d => decide (10 * s.gradeMax < d)) then max 1 (l / 2)
    else if 10 * eff.1 * n < sum then max 1 (l - 1)
    else if sum * 100 < 98 * (10 * eff.1) * n ∧ l < 16 then l + 1
    else l
  let q := if next < 16 then next * 8 * slotsIn .memory s.clkStep / (16 * s.presentCount) else 0
  let s1 : State := { s with draws := draws, tdieLim := die }
  let s2 := (s1.setRegN 0x200010 (eff.1 % 2 ^ 16 + eff.2 * 2 ^ 16 + next * 2 ^ 19)).setRegN 0x200014 (q % 2 ^ 24)
  if next < l then s2.count 0x200018 1 else s2

/-! Footprint, kiln step, power state (R291, R292, R397 to R401) -/

/-- Row-7 clusters. -/
def rowSeven : List Nat := (List.range 2048).filter (fun n => decide (n % 128 / 16 = 7))

/-- GLB_FOOT.ACTIVE takes the value of PIN; the clusters it drops hold no image any more (R282); the cap is lowered to 760 W
under the pin. -/
def State.footStep (s : State) : State :=
  let pin := s.fld 0x600 0 1
  if s.grade = .xa1792 ∨ pin = s.fld 0x600 1 1 then s
  else
    let s1 := s.setFld 0x600 1 1 pin
    if pin = 0 then s1
    else
      let s2 := (s1.dropClusters rowSeven).evalMismatch
      let low (v : Option Word) : Option Word := v.map (fun w => if 760 < w.toNat % 2 ^ 16 then 760#32 else w)
      let s3 := if 760 < s2.fld 0x20000C 0 16 then s2.setFld 0x20000C 0 16 760 else s2
      { s3 with
        shadow := sput noWord s3.shadow 0x20000C (low (sget noWord s3.shadow 0x20000C))
        snap := sput noWord s3.snap 0x20000C (low (sget noWord s3.snap 0x20000C)) }

def State.kstepStep (s : State) : State :=
  match s.kstepTo with
  | some k => { s.setFld 0x200030 0 2 k with kstepTo := none }
  | none => s

/-- A row may be switched off in IDLE (R398): its clusters are idle and hold no record. -/
def State.rowIdle (s : State) (d : Nat) : Bool :=
  (List.range 16).all (fun i =>
    let n := d / 8 * 128 + d % 8 * 16 + i
    decide ((s.cl n).st = 0) &&
    [0x120, 0x21C, 0x314, 0x410, 0x41C, 0xA30, 0xB50].all (fun o => !(s.reg (ca n o)).getLsbD 0))

/-- An engine's common domain goes off with the last of its rows (R396, R408): its window and its tandem unit return to defaults. -/
def State.dropEngine (s : State) (e : Nat) : State :=
  if s.domainOn (128 + e) then s else (s.setUnit e {}).resetRegs .por (fun w => w = .engine e)

def State.gateRows (s : State) : State :=
  if s.pstate ≠ 1 then s
  else
    (List.range 128).foldl (fun s d =>
      if decide (d % 8 < s.rowCount) && !sget zeroBool s.gated d && s.rowIdle d then
        let s1 := s.dropClusters (rowClusters d)
        ({ s1 with gated := sput zeroBool s1.gated d true } : State).dropEngine (d / 8)
      else s) s

/-- A transition that waits for a boundary is made at it. -/
def State.pstateStep (s : State) : State :=
  match s.trans with
  | some (0, false) => if s.phase = 6 then (s.rowsOn (List.range 128)).pstateReached 0 else s
  | some (1, false) => s.pstateReached 1
  | some (2, false) => s.enterHold
  | some (3, false) => s.enterStandby
  | _ => s

/-! Pause (R294, R328) -/

/-- No provisional map entry of a set is open. -/
def State.noneOpen (s : State) (ns : List Nat) : Bool :=
  !(s.pmes.any (fun p => p.2.used && p.2.opened && ns.contains p.2.oclu))

/-- The pause boundary: the set begins to settle. -/
def State.pauseStep (s : State) (decided : Bool) : State :=
  match s.pause with
  | some p =>
    let now := if s.mustered then decided else decide (p.b ≤ s.stageNo) && s.noneOpen p.clus
    if p.st = 1 && now then
      let s1 := p.clus.foldl (fun s n => s.setCl n { s.cl n with pausing := true }) s
      let s2 : State := { s1.setFld 0x604 16 16 (s.stageNo % 2 ^ 16) with
        pause := some { p with
          st := 2, p := s.stageNo, foot := s.presentCount, modnum := if s.mustered then some s.modnum else none
          seed := s.reg64 0x100, gstep := s.reg64 0x108 } }
      match p.wb.bind (fun x => (s2.wb x.1 x.2).map (fun w => (x.1, w))) with
      | some (r, w) => s2.setWb r { w with phase := 2 }
      | none => s2
    else s
  | none => s

/-! Receipts at a boundary (R359, R365) -/

def pairOf (x : Nat) : List Nat := [x % 2 ^ 32, x / 2 ^ 32 % 2 ^ 32]

/-- Every stack a HOLD waybill names has reached what it asks for. -/
def State.holdDone (s : State) (p0 : Nat) : Bool :=
  (List.range 8).all (fun k => !p0.testBit k ||
    (decide (s.fld (sa k 4) 0 1 = bits p0 8 1) &&
      decide (if p0.testBit 8 then s.stackState k = 4 ∨ s.stackState k = 6 ∨ s.stackState k = 7 else s.stackState k = 2 ∨
          s.stackState k = 7)))

def State.heldMask (s : State) : Nat := (List.range 8).foldl (fun v k => if s.stackState k = 4 ∨ s.stackState k = 6 then v + 2 ^ k else v) 0

/-- The receipt of a waybill that this boundary completes; `bad` are the clusters whose glaze switch was not possible. -/
def State.boundaryReceipt (bad : List Nat) (s : State) (r : Nat) (w : Wb) : State :=
  if w.opc = 0x201 ∧ w.phase = 1 ∧ w.stage ≤ s.stageNo then
    (w.clus.foldl (fun s n => s.setCl n ((s.cl n).begin w.stage)) s).finish r w 0 (pairOf w.stage)
  else if w.opc = 0x703 ∧ w.phase = 1 ∧ w.stage ≤ s.stageNo then
    ((w.clus.foldl (fun s n => s.setCl n ((s.cl n).resumed w.stage)) s).unpause w.clus).finish r w 0 (pairOf w.stage)
  else if w.phase ≠ 2 then s
  else if w.opc = 0x202 then s.finish r w 0 (pairOf s.stageNo ++ [w.done])
  else if w.opc = 0x401 then
    let k := (w.clus.filter (fun n => bad.contains n)).length
    s.finish r w 0 [w.clus.length - k, k]
  else if w.opc = 0xA01 then s.finish r w 0 [s.fld 0x20000C 0 16]
  else if w.opc = 0xA02 then s.finish r w 0 [s.clkStep]
  else if w.opc = 0x302 ∧ s.holdDone (w.params.getD 0 0) then s.finish r w 0 [s.heldMask]
  else s

/-! The boundary -/

/-- Votes and decisions are forgotten at every period edge (R325). -/
def State.clearVotes (s : State) : State :=
  let s1 : State := { s with cvn := { s.cvn with voted := false, own := none, decision := none } }
  (List.range 16).foldl (fun s p => s.setPort p { s.port p with vin := 0, vout := 0 }) s1

/-- TIME goes out on every child port, once per stage (R320). -/
def State.timeMessages (s : State) : State :=
  if s.dstate = 1 ∨ s.dstate = 2 then
    let s1 : State := { s with cvn := { s.cvn with missed := if s.parent.isSome then s.cvn.missed + 1 else 0 } }
    s1.children.foldl (fun s p => s.sendSlot p 2 4 (controlMsg 1 [])) s1
  else s

/-- Orders 1 to 6: ledgers, ARM, held writes, the grit deck, clusters and their outcomes. -/
def State.ordersFirst (s : State) (late : Bool) : State :=
  ((((((s.checkLedgers).latchArms late).joinShadows).gritStep.advanceAll).outcomes).settlePreds)

/-- The orders after the table switches. -/
def State.ordersLast (s : State) (due : List (Nat × Nat)) : State :=
  let s3 := s.stackHolds
  let s4 : State := { s3 with written := [], noted := [] }
  let s5 := (s4.mapCl (fun c => c.newStage s4.jobs s3.stageNo)).escalateAll
  ({ s5 with wheel := [] } : State).stops due

/-- Orders 2 to 12 of R264, in the stage that begins; `late`: the stage that ends was late. -/
def State.orders (s : State) (late : Bool) : State × List Nat :=
  let due := s.clusters.filterMap (fun e => e.2.stopDue.map (fun c => (e.1, c)))
  let g := (s.ordersFirst late).glazeSwitches
  (g.1.ordersLast due, g.2)

/-- What follows the orders: footprint, kiln step, cap; the receipts with the starts and resumes of this boundary; then service, pause and
power state, which meet the clusters that run from here on (R418). -/
def State.afterOrders (s : State) (bad : List Nat) (paused : Bool) : State :=
  let s1 := s.timeMessages.footStep.kstepStep.capStep
  let s2 := s1.eachWb (State.boundaryReceipt bad)
  (s2.svcBoundary.pauseStep paused).pstateStep.gateRows.forcedReset.svcRetry

/-- A boundary is taken: stage `stage` begins at kc 0 (R264). -/
def State.takeBoundary (s : State) (stage : Nat) (straggles : Bool) : State :=
  let paused := match s.cvn.decision with | some (_, p) => p | none => false
  let late := decide (0 < s.late)
  let s1 : State := { (s.setReg64 0x400 (stage % 2 ^ 64)).newKc with
    kc := 0, late := 0, hung := false, setpLate := s.setpLate && straggles }
  let s2 : State := { s1 with cvn := { s1.cvn with straggling := straggles } }
  let s3 := if straggles then s2.count 0x500018 1 else s2
  let r := s3.clearVotes.orders late
  r.1.afterOrders r.2 paused

end Sys2Proof.Machine
end

