-- ==== Sys2Proof/Machine/CheckUnits.lean ====
section
/-! DEFINITION. The software check units (R387, R391 to R393). -/

namespace Sys2Proof.Machine

def State.chk (s : State) (u : Nat) : Chk := sget idleChk s.checks u
def State.setChk (s : State) (u : Nat) (c : Chk) : State := { s with checks := sput idleChk s.checks u c }

/-- A START takes effect: the initial value of the algorithm with the fold, COUNT and MATCH cleared (R387, R392). -/
def State.chkStarted (s : State) (u : Nat) (wide : Bool) (fold : Nat) : State :=
  let acc : BitVec 64 :=
    if wide then BitVec.allOnes 64 ^^^ BitVec.ofNat 64 fold else 0xFFFFFFFF#64 ^^^ BitVec.ofNat 64 (fold % 2 ^ 32)
  ((s.setChk u { s.chk u with wide := wide, acc := acc }).setRegN (ha u 0x2C) 0).setFld (ha u 4) 1 1 0

/-- A CMP compares the result with CHK_EXPECTu (R393). -/
def State.chkCompared (s : State) (u : Nat) : State :=
  let c := s.chk u
  let want := if c.wide then s.reg64 (ha u 0x1C) else s.regN (ha u 0x1C)
  if c.result = want then s.setFld (ha u 4) 1 1 1
  else ((s.setFld (ha u 4) 1 1 0).setBits (ha u 4) 4).raise 36 6 u (c.result % 2 ^ 32) (s.regN (ha u 0x1C))

/-- START takes ALG and FOLD as the writes before it leave them (R392). -/
def State.chkDo (u : Nat) (s : State) (o : ChkOp) : State :=
  match o with
  | .start => s.chkStarted u ((s.reg (ha u 0)).getLsbD 0) (s.reg64 (ha u 0x14))
  | .compare => s.chkCompared u
  | .write o v => s.plainWrite (.check u) (ha u o) v

/-- A START, a CMP or a write acts once the unit is no longer busy, in the order of arrival (R391 to R393). -/
def State.chkPut (s : State) (u : Nat) (o : ChkOp) : State :=
  let c := s.chk u
  if 0 < c.busy then s.setChk u { c with queue := c.queue ++ [o] } else s.chkDo u o

def State.chkBegin (s : State) (u : Nat) : State := s.chkPut u .start

def State.chkCompare (s : State) (u : Nat) : State := s.chkPut u .compare

/-- Bytes pass through a unit's register (R387). -/
def Chk.feed (c : Chk) (bs : List Byte) : Chk :=
  { c with
    acc := if c.wide then crcFeed 64 poly64 c.acc bs else (crcFeed 32 poly32 (c.acc.setWidth 32) bs).setWidth 64
    busy := 47 * bs.length }

/-- A feed write of n bytes (R391): refused while the unit is busy. -/
def State.chkFeed (s : State) (u n v : Nat) : State :=
  if 0 < (s.chk u).busy then s.busyW (.check u)
  else (s.setChk u ((s.chk u).feed (leBytes n v))).count (ha u 0x2C) n

/-- n thirtieths of a kc pass for a unit (R391); what waited for the end of its feed acts. -/
def State.chkTick (n : Nat) (s : State) (u : Nat) : State :=
  let c := s.chk u
  let c1 : Chk := { c with busy := c.busy - n }
  if 0 < c1.busy then s.setChk u c1 else c.queue.foldl (State.chkDo u) (s.setChk u { c1 with queue := [] })

/-- A write of one of a unit's registers (R391 to R393): a CMP in the write of a START compares the state before it. BUSYW, which no
work of the unit touches, is cleared at once. -/
def State.writeChk (s : State) (u o v : Nat) : State :=
  if o = 0 then
    let s1 := if v.testBit 3 then s.chkCompare u else s
    let s2 := s1.chkPut u (.write 0 v)
    if v.testBit 2 then s2.chkBegin u else s2
  else if o = 0x08 then s.chkFeed u 1 v
  else if o = 0x0C then s.chkFeed u 2 v
  else if o = 0x10 then s.chkFeed u 4 v
  else if o = 4 then (s.plainWrite (.check u) (ha u 4) (putBits 0 3 1 (bits v 3 1))).chkPut u (.write 4 (putBits v 3 1 0))
  else s.chkPut u (.write o v)

end Sys2Proof.Machine
end

