-- ==== Sys2Proof/Machine/TetherCmds.lean ====
section
/-! DEFINITION. The Tether: flits, credits and replay, link loss, host accesses to Loess memory, refused register accesses
(14_tether_host_link.md, R369 to R381). -/

namespace Sys2Proof.Machine

/-! Sending (R371, R372) -/

/-- The flits a message takes: data of more than 256 B goes on in a second one (R370). -/
def HMsg.flits (m : HMsg) : List HMsg :=
  match m with
  | .data bs => if 256 < bs.length then [.data (bs.take 256), .data (bs.drop 256)] else [m]
  | _ => [m]

/-- TYPE and the bytes a message carries (R370). -/
def HMsg.type (m : HMsg) : Nat := match m with | .fetch .. => 0 | .mem .. | .irq .. => 1 | .word _ | .data _ => 2 | .error => 3
def HMsg.body (m : HMsg) : List Byte :=
  match m with
  | .mem _ bs | .data bs => bs
  | .irq _ _ v | .word v => leBytes 4 v.toNat
  | .fetch .. | .error => []

/-- The bytes a transaction moves (R370). -/
def HMsg.size (m : HMsg) : Nat := match m with | .fetch _ n => n | _ => m.body.length

/-- The header of a message's first flit (R370). A read of or a write to host memory has its own address; its TAG is the module's. -/
def TxMsg.header (m : TxMsg) (own : Nat) : Nat :=
  let a := match m.msg with | .fetch a _ | .mem a _ | .irq _ a _ => a | _ => m.addr
  let tag := if m.space = 0 then own else m.tag
  m.msg.type + m.space * 2 ^ 2 + tag % 256 * 2 ^ 4 + a % 64 * 2 ^ 12 + (m.msg.size - 1) * 2 ^ 18 + a / 64 % 2 ^ 37 * 2 ^ 27

/-- The header of a flit that goes on with a transaction (R370): SPACE 3. -/
def moreHead : Nat := 12

/-- The 272 bytes of a flit (R370, R389). -/
def Teth.flit (t : Teth) (fseq : Nat) (m : TxMsg) : List Byte :=
  let low := fseq % 1024 + t.good * 2 ^ 10 + (if t.naking then 2 ^ 20 else 0) + m.cred * 2 ^ 21
  let bs := m.msg.body ++ List.replicate (256 - m.msg.body.length) 0#8 ++ leBytes 8 m.head ++ leBytes 4 low
  bs ++ leBytes 4 (crc32c fseq bs).toNat

/-- Credits in use (R372, R277). -/
def Teth.held (t : Teth) : Nat := (t.issued + 2 ^ 32 - t.returned) % 2 ^ 32

/-- Put a flit on the link with fresh ACK, NAK, CRED and CRC (R371). The CRED of a flit of which the host may have taken an earlier
copy repeats the credits of that copy. -/
def State.putFlit (s : State) (fseq : Nat) (m : TxMsg) : State :=
  let t := s.teth
  let m1 := if m.again then m else { m with cred := min t.credOut 2047 }
  let new := if m.again then 0 else m1.cred
  { s with
    teth := { t with credOut := t.credOut - new, rxCred := t.rxCred + new, sent := t.sent ++ [(fseq, m1)] }
    out := s.out ++ [.host fseq m.msg (t.flit fseq m1)] }

/-- Send one new flit. -/
def State.sendFlit (s : State) (m : TxMsg) (f : HMsg) (head : Nat) : State :=
  let t := s.teth
  ({ s with teth := { t with next := (t.next + 1) % 1024, issued := (t.issued + 1) % 2 ^ 32 } } : State).putFlit t.next
    { m with msg := f, head := head }

/-- Send a message in its flits. -/
def State.sendMsg (s : State) (m : TxMsg) : State :=
  match m.msg.flits with
  | f :: r => r.foldl (fun s g => s.sendFlit m g moreHead) (s.sendFlit m f (m.header (Config.tetherTag s.teth.issued)))
  | [] => s

/-- A request is a host write into Loess. -/
def Req.hostWrite (r : Req) : Bool := r.write && (match r.src with | .host .. => true | _ => false)

/-- A host write into Loess that has come is not performed yet (R379). -/
def State.writesWait (s : State) : Bool :=
  s.teth.rxq.any (fun x => match x.req with | some r => r.hostWrite | none => false) ||
  s.dies.any (fun d => (d.2.waiting ++ d.2.accepted).any Req.hostWrite)

/-- n flits may be sent now: no replay is in progress, the replay store and the host's credits have room (R371, R372). -/
def State.mayFlit (s : State) (n : Nat) : Bool :=
  let t := s.teth
  decide (t.replay = []) && decide (t.sent.length + n ≤ 512) && decide (t.held + n ≤ s.fld 0x600004 0 11)

/-- Waiting traffic of an activity takes a Tether slot toward the host (R272, R376); replays are recovery traffic. -/
def State.tetherStep (s : State) (act : Nat) : Option State :=
  let t := s.teth
  if s.tth ≠ 1 then none
  else if act = 8 then
    match t.replay with
    | [] => none
    | (fseq, m) :: rest =>
      let s1 := ({ s with teth := { t with replay := rest } } : State).putFlit fseq m
      let mark (x : Nat × TxMsg) : Nat × TxMsg := if x.1 = fseq then (x.1, { x.2 with again := true }) else x
      some (({ s1 with teth := { s1.teth with sent := s1.teth.sent.map mark } } : State).count 0x600008 1)
  else
    match t.txq.find? (fun m => decide (m.act = act)) with
    | none => none
    | some m =>
      if !s.mayFlit m.msg.flits.length then none
      else some (({ s with teth := { t with txq := t.txq.erase m } } : State).sendMsg m)

/-- Traffic of an activity takes a Tether slot from the host (R376): a Loess write goes to its stack, with the reads behind it that
come before the next write. -/
def State.tetherTake (s : State) (act : Nat) : Option State :=
  if s.tth ≠ 1 then none
  else match s.teth.rxq.find? (fun x => x.act = act) with
    | none => none
    | some x =>
      let rest := s.teth.rxq.erase x
      let isRead (y : RxMsg) : Bool := match y.req with | some r => !r.write | none => false
      let isWrite (y : RxMsg) : Bool := match y.req with | some r => r.write | none => false
      let front := rest.takeWhile (fun y => !isWrite y)
      let s1 : State := { s with teth := { s.teth with
        rxq := front.filter (fun y => !isRead y) ++ rest.drop front.length } }
      some ((x :: front.filter isRead).foldl (fun s y => match y.req with | some r => s.request r | none => s) s1)

/-! Link loss (R373) -/

/-- What the firmware sends again after a link loss: receipts, event records and interrupt messages. -/
def HMsg.kept (m : HMsg) : Bool := match m with | .mem .. => true | .irq .. => true | _ => false

/-- A host access that the module answers. -/
def HostAcc.reads (i : HostAcc) : Bool :=
  match i with
  | .loessRead .. | .counterRead _ | .qntWposRead _ | .wbrDbRead _ | .rejected false _ _ => true
  | _ => false

/-- The link goes down and retrains. Reads that the host had asked for are not answered; writes received are performed. -/
def State.tetherLost (s : State) : State :=
  let t := s.teth
  let again := (t.sent ++ t.replay).filter (fun x => x.2.msg.kept)
  let isRead (r : Req) : Bool := !r.write && (match r.src with | .host .. => true | _ => false)
  let teth : Teth :=
    { txq := (again.map (fun x => { x.2 with again := false })) ++ t.txq.filter (fun m => m.msg.kept)
      rxq := t.rxq.filter (fun x => match x.req with | some r => r.write | none => true), writes := t.writes
      later := t.later.filter (fun i => !i.reads) }
  let dies := s.dies.map (fun d => (d.1, { d.2 with
    waiting := d.2.waiting.filter (fun r => !isRead r), accepted := d.2.accepted.filter (fun r => !isRead r) }))
  let s1 := (({ s with teth := teth, dies := dies } : State).setBits 0x600000 4).count 0x600010 1
  let s2 := s1.setTth 2
  s2.raise 34 7 0 (s2.regN 0x600000) 0

/-- TETHER_DOWN (R373). -/
def execTetherDown (s : State) : Host.Outcome State Fault Refusal := .next (if s.tth = 1 then s.tetherLost else s)

/-- The receive credits the module advertises (R372). -/
def recvCredits : Nat := 512

/-- TETHER_TRAINED (R372, R373): each side advertises its credits; a controller that advertises fewer than 256 fails training. -/
def execTetherTrained (cred : BitVec 11) (s : State) : Host.Outcome State Fault Refusal :=
  if s.tth = 1 ∨ cred.toNat < 256 ∨ !s.domainOn 176 then .next s
  else
    let teth : Teth :=
      { txq := s.teth.txq, rxq := s.teth.rxq, writes := s.teth.writes, later := s.teth.later, rxCred := recvCredits }
    .next ((({ s with teth := teth, out := s.out ++ [.advert recvCredits] } : State).setFld 0x600004 0 11 cred.toNat).setTth 1)

/-! Flits received (R370, R371) -/

def ackFlits (ack : Nat) (fs : List (Nat × TxMsg)) : List (Nat × TxMsg) :=
  if fs.any (fun f => f.1 = ack) then (fs.dropWhile (fun f => f.1 ≠ ack)).drop 1 else fs

/-- ACK and NAK of a good flit (R371). Credits go out again with flits of which the host has taken no copy (R372). -/
def Teth.acked (t : Teth) (ack : Nat) (nak : Bool) : Teth :=
  let t1 := if t.replay.any (fun f => f.1 = ack) then { t with sent := [], replay := ackFlits ack t.replay }
    else { t with sent := ackFlits ack t.sent }
  if !nak then { t1 with nakRun := 0 }
  else
    let run := if t.nakFor = ack ∧ t.nakRun ≠ 0 then t.nakRun + 1 else 1
    let sure := match t1.sent with | f :: _ => !f.2.again | [] => false
    { t1 with
      nakFor := ack, nakRun := run, sent := []
      replay := (if sure then t1.sent else t1.sent.map (fun f => (f.1, { f.2 with again := true }))) ++ t1.replay
      credOut := if sure then t1.credOut + (t1.sent.map (fun f => f.2.cred)).foldl (· + ·) 0 else t1.credOut }

/-- What a good flit that is next in order leaves (R370 to R372): its buffer is free again, a read request's TAG waits for its
transaction, `more` follows a transaction of more than 256 B. -/
def Teth.took (t : Teth) (fseq h cred : Nat) : Teth :=
  let space := bits h 2 2
  { t with
    good := fseq, naking := false, returned := (t.returned + cred) % 2 ^ 32, rxCred := t.rxCred - 1, credOut := t.credOut + 1
    more := decide (space ≠ 3) && decide (h % 4 ≠ 0) && decide (256 ≤ bits h 18 9)
    tags := if h % 4 = 0 ∧ (space = 1 ∨ space = 2) then t.tags ++ [bits h 4 8] else t.tags }

/-- TETHER_FLIT (R370, R371, R380): the link layer of a received flit. What the transactions it carries do has commands of
its own; an error completion of a module write is recorded. -/
def execTetherFlit (f : List Byte) (s : State) : Host.Outcome State Fault Refusal :=
  if s.tth ≠ 1 ∨ f.length ≠ 272 then .next s
  else
    let h := leAt f 256 8
    let l := leAt f 264 4
    let fseq := l % 1024
    let crcBad := decide (leAt f 268 4 ≠ (crc32c fseq (f.take 268)).toNat)
    let s1 := if crcBad then s.count 0x60000C 1 else s
    let t := s1.teth
    let good := decide (fseq = (t.good + 1) % 1024)
    let odd := if bits h 2 2 = 3 then decide (h ≠ moreHead) || (good && !t.more) else good && t.more
    if crcBad || odd then .next { s1 with teth := { t with naking := true } }
    else
      let t1 := t.acked (bits l 10 10) (l.testBit 20)
      let t2 := if good then t1.took fseq h (bits l 21 11) else t1
      let s2 : State := { s1 with teth := t2 }
      let s3 := if good && decide (h % 4 = 3) then s2.tthErr 4 (bits h 2 2) (bits h 27 37 * 64 + bits h 12 6) else s2
      .next (if 16 ≤ t2.nakRun then s3.tetherLost else s3)

/-! Host accesses (R374 to R376, R379, R381) -/

/-- A Loess transaction R375 counts as cause 3. -/
def badExtent (addr len : Nat) : Bool := decide (2 ^ 40 < addr + len) || decide (512 < addr % 512 + len) || decide (len = 0)

/-- A host read of Loess (R375, R376, R379): the request goes to its stack, behind the host writes that wait for their Tether slot. -/
def State.hostGet (s : State) (addr len : Nat) (ecc : List (Nat × EccCase)) : State :=
  let t := s.takeTag
  if badExtent addr len then (t.2.tthErr 3 1 addr).complete 1 addr t.1 .error
  else
    let r : Req := { write := false, addr := addr, len := len, src := .host s.teth.writes t.1, found := ecc }
    let behind := s.teth.rxq.any (fun x => x.req.isSome)
    if behind then { t.2 with teth := { t.2.teth with rxq := t.2.teth.rxq ++ [{ act := 0, due := s.stageNo, req := some r }] } }
    else t.2.request r

/-- A host write of Loess (R375, R376, R381): it takes a Tether slot, then a slot of its stack; one that is malformed takes its Tether slot
alone. -/
def State.hostPut (s : State) (addr : Nat) (data : List Byte) (ecc : List (Nat × EccCase)) : State :=
  if badExtent addr data.length then (s.tthErr 3 1 addr).fromHost 1
  else
    let r : Req := { write := true, addr := addr, src := .host s.teth.writes 0, found := ecc
                     bytes := data.zipIdx.map (fun x => { addr := addr + x.2, mask := 3#2, val := x.1 }) }
    { s with teth := { s.teth with writes := s.teth.writes + 1, rxq := s.teth.rxq ++
                                   [{ act := 1, due := s.stageNo, req := some r }] } }

/-- A register access that is not 32 bits wide at a 4-byte-aligned offset (R10, R375). -/
def State.hostReject (s : State) (write : Bool) (addr size : Nat) : State :=
  if size = 4 ∧ addr % 4 = 0 then s
  else
    let s1 := s.tthErr 1 2 addr
    if write then s1.fromHost 1 else s1.completeWord addr 0xFFFFFFFF#32

end Sys2Proof.Machine
end

