-- ==== Sys2Proof/Machine/Grant.lean ====
section
/-! DEFINITION. SLOT_GRANT: the next slot of a resource instance (R268 to R272). -/

namespace Sys2Proof.Machine

/-- The glaze instruction of a cluster takes a slot of its wheel (R164): plain and gated tasks as FG, speculative as SPEC. It takes
one while its next vector could enter but for its slots; in native rate the wheel is not consulted (R268). -/
def State.glazeStep (s : State) (n act : Nat) : Option State :=
  let c := s.cl n
  match c.glz with
  | none => none
  | some r =>
    let o := (c.owner r.slot r.task)
    let spec := match o with | some i => (c.slot i).holds | none => false
    if act = (if spec then 3 else 0) ∧ s.glzShared n ∧ c.gslots < glzSlots r ∧ s.works n ∧ (vectorEntry c).isSome then
        some (s.setCl n { c with gslots := c.gslots + 1 }) else none

/-- Which instances a wheel has (R268): a link instance is a port and a direction, 2p to send and 2p + 1 to receive; a Tether
instance a direction, 0 toward the host. -/
def wheelUnits (w : Wheel) : Nat := match w with | .memory => 8 | .link => 32 | .tether => 2 | .glaze => 2048

/-- What waits at an instance. -/
def State.takers (s : State) (w : Wheel) (unit : Nat) (ecc : List (Fin 8 × EccCase)) : State → Nat → Option State :=
  match w with
  | .memory => if s.stackReady unit then fun t a => t.memoryStep unit ecc a else fun _ _ => none
  | .link => if unit % 2 = 0 then fun t a => t.linkStep (unit / 2) a else fun _ _ => none
  | .tether => fun t a => if unit = 0 then t.tetherStep a else t.tetherTake a
  | .glaze => fun t a => t.glazeStep unit a

/-- While no stages are counted a wheel goes on from its first position. -/
def State.rewind (s : State) (w : Wheel) (unit : Nat) : State :=
  if !s.stagesRun && decide (slotsIn w s.clkStep ≤ sget zeroNat s.wheel (wheelKey w unit)) then
    { s with wheel := sput zeroNat s.wheel (wheelKey w unit) 0 } else s

/-- SLOT_GRANT (R272). An idle slot of a sending port fills the frame with an idle slot (R311). -/
def execSlotGrant (w : Wheel) (unit : Fin 2048) (ecc : List (Fin 8 × EccCase)) (s : State) : Host.Outcome State Fault Refusal :=
  if wheelUnits w ≤ unit.val then .next s
  else
    let s0 := s.rewind w unit
    .next (s0.offer w unit (s0.takers w unit ecc) (fun t => if w = .link ∧ unit.val % 2 = 0 then t.linkIdle (unit.val / 2) else t))

end Sys2Proof.Machine
end

