-- ==== Sys2Proof/Machine/Stages.lean ====
section
/-! DEFINITION. Stages: the completion check, late stages, votes, pause, muster, HOLD steps, the kiln clock
(R263 to R267, R204, R229, R294, R319, R323 to R328). -/

namespace Sys2Proof.Machine

/-! The completion check (R265, R324, R327) -/

/-- A Loess store of a cluster is not acknowledged, relay stores apart. -/
def State.storesWait (s : State) : Bool :=
  s.clusters.any (fun e => e.2.tags.any (fun t =>
    t.2.write && decide (t.2.st ≠ 0) && !(s.relays.any (fun r => decide (r.cl = e.1) && decide (r.tag = t.1)))))

/-- A bedrock job has not completed. -/
def State.jobsWait (s : State) : Bool := !s.jobs.isEmpty

/-- The link condition of a mustered domain (R324). -/
def State.linksWait (s : State) : Bool :=
  s.mustered && (s.reds.any (fun r => decide (r.last ≤ s.stageNo)) || decide (s.relays ≠ []))

/-- Recovery traffic waits (R274): write-backs and refetches at the stacks, frames to be sent again, the extra slots of a reduction in
full form (R336), Tether flits to be sent again. -/
def State.recoveryWaits (s : State) : Bool :=
  s.dies.any (fun d => decide (0 < d.2.retry) || d.2.waiting.any (fun r => r.recov || decide (r.act = 8))) ||
  s.ports.any (fun p => decide (p.2.replay ≠ []) || p.2.txq.any (fun x => decide (x.act = 8))) || decide (s.teth.replay ≠ [])

def bit (b : Bool) (n : Nat) : Nat := if b then 2 ^ n else 0

/-- GLB_LATE_INFO's condition bits [5:1]. -/
def State.unmet (s : State) : Nat :=
  bit s.storesWait 1 + bit s.jobsWait 2 + bit s.setpLate 3 + bit s.linksWait 4 + bit s.recoveryWaits 5

/-- A module alone has completed its stage. -/
def State.stageComplete (s : State) : Bool := !s.storesWait && !s.jobsWait && !s.setpLate && !s.linksWait

/-! Late stages (R266, R267) -/

/-- An extension period begins: the first one raises EV_LATE_STAGE and records what is unmet; the wheels restart. -/
def State.extend (s : State) : State :=
  let first := decide (s.late = 0)
  let u := s.unmet
  let s1 : State := ((({ s.newKc with kc := 0, late := s.late + 1, wheel := [], setpLate := false } : State).count 0x408 1).mapCl
    (fun c => { c with slots := 0 })).clearVotes
  let stage := s.stageNo % 2 ^ 16
  let mine := decide (s.fld 0x40C 16 16 = stage) && (s.reg 0x40C).getLsbD 0
  let s2 := if first then
      let a : State := { s1 with snap := s1.shadow, shadow := [] }
      let b := a.capture noRank 0x40C (1 + u + 2 ^ 6 + stage * 2 ^ 16) []
      b.raise 15 0 0 (b.regN 0x40C) 0
    else if mine then s1.setFld 0x40C 6 7 (min (s1.fld 0x40C 6 7 + 1) 127) else s1
  s2

/-- The end of a nominal period (R265, R266, R326): the boundary is taken, or an extension period begins; then resets that arrived in the
last kc act (R407). -/
def State.periodEdge (s : State) : State :=
  let s0 := if s.late = 0 ∧ s.recoveryWaits then s.count 0x100C 1 else s
  if !s.mustered then (if s.stageComplete then (s0.takeBoundary (s.stageNo + 1) false).dueResets else s0.extend.dueResets)
  else match s.cvn.decision with
    | some (true, _) => (s0.takeBoundary (s.stageNo + 1) (s.storesWait || s.jobsWait || s.setpLate)).dueResets
    | some (false, _) => s0.extend.dueResets
    | none =>
      let s1 := (s0.count 0x500020 1)
      (s1.raise 27 0 0 (s1.regN 0x500020) 0).extend.dueResets

/-- STAGE_BOUNDARY (R264, R265): the end of kc 8,191. -/
def execStageBoundary (s : State) : Host.Outcome State Fault Refusal :=
  .next (if s.stagesRun && decide (s.kc = 8192) && decide (s.late = 0) then s.periodEdge else s)

/-- EXTENSION_PERIOD_END (R266). -/
def execExtensionPeriodEnd (s : State) : Host.Outcome State Fault Refusal :=
  .next (if s.stagesRun && decide (s.kc = 8192) && decide (0 < s.late) then s.periodEdge else s)

/-- STAGE_HUNG (R267): once per stage. -/
def execStageHung (s : State) : Host.Outcome State Fault Refusal :=
  if s.late ≤ 64 ∨ s.hung then .next s
  else .next (({ s with hung := true } : State).raise 16 0 0 (s.regN 0x40C) 0)

/-! Votes (R324 to R328) -/

/-- PAUSEOK (R328). -/
def State.pauseOk (s : State) : Bool :=
  match s.pause with
  | some p => decide (p.st = 1) && decide (p.b ≤ s.stageNo) && s.noneOpen p.clus
  | none => false

/-- VOTE_POINT (R324, R326). -/
def execVotePoint (s : State) : Host.Outcome State Fault Refusal :=
  if s.mustered && s.stagesRun && !s.cvn.voted && decide (8192 - s.voteKc ≤ s.kc) then
    .next (({ s with cvn := { s.cvn with voted := true, own := some (!s.linksWait, s.pauseOk) } } : State).passVote)
  else .next s

/-- LEAD_DECISION_DEADLINE (R326): a vote still missing counts as COMPLETE 0. -/
def execLeadDecisionDeadline (s : State) : Host.Outcome State Fault Refusal :=
  if s.mustered && s.leads && s.cvn.voted && s.cvn.decision.isNone && decide (8192 - s.voteKc / 2 ≤ s.kc) then
    .next (s.setDecision false false)
  else .next s

/-- MUSTER_START (R323): at T0 every module of the domain takes the boundary that begins S0. -/
def execMusterStart (s : State) : Host.Outcome State Fault Refusal :=
  match s.cvn.t0 with
  | none => .next s
  | some t0 =>
    if s.dstate ≠ 1 ∨ s.cvnTime < t0 then .next s
    else
      let wb := s.cvn.wb
      let s1 : State := { s.setFld 0x500000 0 2 2 with cvn := { s.cvn with t0 := none, wb := none } }
      let s2 := s1.takeBoundary s.cvn.s0 false
      let rb := match s.cvn.book with | some b => b.rbid | none => 0
      match wb with
      | none => .next s2
      | some (r, ix) => match s2.wb r ix with
        | some w => .next (s2.finish r w 0 (pairOf t0 ++ pairOf rb ++ [if s.leads then 1 else 0]))
        | none => .next s2

/-! Pause (R294) -/

/-- A stream has come to rest: it is halted, or it waits on a full trail queue or for what no fetch can bring. -/
def strmRests (c : Cluster) (dn : Nat) (env : Env) : Bool :=
  let t := c.strm dn
  let d := c.desc dn
  !t.run || t.halted ||
  (decide (t.wbuf = []) && (loadPush c dn env).isNone &&
    (decide (d.kind = 1) || d.space || c.tagToUse.isNone || (firstMissing c dn d t d.total 16400 (max t.iss t.pos)).2.isNone))

/-- A cluster of the set has settled. -/
def State.settled (s : State) (n : Nat) : Bool :=
  let c := s.cl n
  let env := s.env n
  c.mop.isNone && c.tail.isEmpty && c.glz.isNone && c.rowsOut.isEmpty && c.wload.isNone && c.gload.isNone && c.gwait.isNone && c.tile0.out.isNone && c.tile1.out.isNone &&
  c.tile0.ld.isNone && c.tile1.ld.isNone && c.tchk.isNone && c.tags.all (fun t => decide (t.2.st = 0) || decide (t.2.st = 3)) &&
  s.jobs.all (fun j => !j.ofCl n) && s.relays.all (fun r => decide (r.cl ≠ n)) &&
  (storePush c env).isNone && (storePop c).isNone && c.streams.all (fun e => strmRests c e.1 env)

/-- PAUSE_SETTLED (R294): the clusters of the set are stopped with STOPC 1. -/
def execPauseSettled (s : State) : Host.Outcome State Fault Refusal :=
  match s.pause with
  | none => .next s
  | some p =>
    if p.st ≠ 2 || !p.clus.all s.settled then .next s
    else
      let halt (c : Cluster) : Cluster :=
        if c.st = 2 then { c with st := 3, stopc := 1, stopDue := none, stopAt := p.p, pausing := false } else { c with pausing := false }
      let s1 := p.clus.foldl (fun s n => s.setCl n (halt (s.cl n))) s
      let s2 : State := { s1 with pause := some { p with st := 3, wb := none } }
      match p.wb with
      | none => .next s2
      | some (r, ix) => match s2.wb r ix with
        | some w => .next (s2.finish r w 0 (pairOf p.p))
        | none => .next s2

/-! HOLD (R229, R230) -/

/-- Receipts of HOLD waybills that are complete. -/
def State.holdReceipts (s : State) : State :=
  s.eachWb (fun s r w => if w.opc = 0x302 ∧ w.phase = 2 ∧ s.holdDone (w.params.getD 0 0) then s.finish r w 0 [s.heldMask] else s)

/-- A job or a table load has all its slots and may be performed now in ranges that touch a stack: the stack completes it before it
enters HOLD (R229). -/
def State.stackOwes (s : State) (k : Nat) : Bool :=
  let on (rs : List (Nat × Nat)) : Bool := rs.any (fun r => decide (r.2 ≠ 0) && (s.stacksOf r.1 r.2).contains k)
  s.jobs.any (fun j => !j.done && s.jobReady j && on (s.jobRanges (s.jobOwner j) j.d)) ||
  s.clusters.any (fun e => match e.2.gload with
    | some l => l.wb.isNone && s.loadReady e.1 l && on [(l.addr, 8320)]
    | none => false)

/-- HOLD_TRANSITION_DONE: a stack has entered HOLD, with no accepted request left, or has left it. A HOLD of 32 ms or longer has
refreshed every row; its watch bits are clear (R230). Under a module-wide HOLD that began meanwhile it goes back in (R229). -/
def execHoldTransitionDone (k : Fin 8) (s : State) : Host.Outcome State Fault Refusal :=
  let st := s.stackState k
  let d := s.die k
  if st = 3 ∧ d.accepted = [] ∧ !s.stackOwes k then .next ((s.setStack k 4).settleTrans.holdReceipts.svcRetry)
  else if st = 5 then
    let d1 := if Config.heldLong k s.fresh then { d with rows := [] } else d
    let s1 : State := { (s.draw.setStack k 2).setDie k d1 with written := s.written.filter (fun e => decide (e.1 % 8 ≠ k.val)) }
    let s2 := s1.mapCl (fun c => { c with watches := c.watches.map (fun w => { w with blind := k.val :: w.blind }) })
    let s3 := if s2.trans = some (2, true) then s2.stackIn k else s2
    .next (s3.settleTrans.holdReceipts.svcRetry)
  else .next s

/-! The kiln clock (R204, R221, R263, R319) -/

/-! Stall causes (R204). The twelve conditions are asked in the order of their numbers; each names what keeps the execute
sequencer, or a STREAM, SPAIR or JOB of the access half (R227, R244), from issuing. -/

/-- The instruction a half of a cluster issues next, as its program stands in the itinerary area. -/
def Cluster.nextInsn (c : Cluster) (n : Nat) (h : Half) : Option Instr := insnOf (clNo n) h (c.progWord h (c.half h).ix)

/-- The tiles an execute instruction names. -/
def tilesOf (e : Instr) : List Nat :=
  match e with
  | .mop _ f => f.tile.val :: (if 5 ≤ f.opk.toNat then [1 - f.tile.val] else [])
  | .read _ f | .drain _ f => [f.tile.val]
  | .tload _ f => [f.tile.val]
  | .clear _ t => [t.val]
  | .red _ f => [f.tile.val]
  | _ => []

/-- The descriptors whose streams a waiting STREAM or SPAIR would start again (R244). -/
def Cluster.startWaits (c : Cluster) (e : Instr) : List Nat :=
  match e with
  | .stream _ d => if (c.strm d.toNat).run then [d.toNat] else []
  | .spair _ f => (SpairF.descs f).filter (fun d => (c.strm d).run)
  | _ => []

/-- The stall cause of the queue a stream feeds; a copy stream feeds none. -/
def queueCause (d : Desc) : Option Nat :=
  match d.kind with
  | 0 => some 0
  | 1 => some 1
  | 2 => some (if d.subq then 3 else 2)
  | _ => none

/-- Elements that the next step of an array instruction pops of its streams (R100, R103). -/
def mopNeeds (m : MopRun) : List (Nat × Nat) :=
  if m.f.stream then
    let n := m.kset m.ek
    if n = 0 then [] else [(m.f.sa.toNat, n)]
  else
    let n := min (if mopPair m.f then 2 else 1) (m.f.k.toNat - m.k)
    [(m.f.sa.toNat, m.f.rows.toNat * n), (m.f.sb.toNat, m.f.cols.toNat * n)]

/-- The next step of a grouped instruction enters a group (R245). -/
def MopRun.entersGroup (m : MopRun) : Bool :=
  m.f.gq && (if m.f.stream then decide (m.etok = 0) && decide (m.ek < m.f.k.toNat) &&
      decide (m.entA.length ≤ (m.ek + m.kset m.ek - 1) / mopGroup m.f)
    else decide (m.entA.length ≤ m.k / mopGroup m.f))

/-- The next token of a stream instruction waits for its weight set, or for a short set that still holds the array (R106, R107). -/
def MopRun.waitsForSet (m : MopRun) (c : Cluster) : Bool :=
  m.f.stream && (waveBlocked c ||
    (decide (m.etok = 0) && decide (m.ek < m.f.k.toNat) && (decide (0 < m.hold) || !setReady c m)))

/-- The conditions of causes 0 to 5 that an array instruction in progress meets. -/
def mopStalls (c : Cluster) (m : MopRun) (cause : Nat) : Bool :=
  match cause with
  | 0 => !c.canPop (mopNeeds m)
  | 2 => m.entersGroup && decide (c.scaleQ.length < (groupNeed m).1)
  | 3 => m.entersGroup && decide (c.manQ.length < (groupNeed m).2)
  | 4 => !laneRoom c
  | 5 => m.waitsForSet c
  | _ => false

/-- The conditions of causes 0, 1 and 7 that a glaze instruction in progress meets; `shared`: its vectors take granted slots. -/
def glzStalls (c : Cluster) (shared : Bool) (r : GlzRun) (cause : Nat) : Bool :=
  match cause with
  | 0 => decide (r.pass = 0) && !c.canPop [(r.f.sa.toNat, glzVec r)]
  | 1 => glzDelivers r && decide (64 ≤ c.storeQ.length)
  | 7 => (shared && decide (c.gslots < glzSlots r)) || (glzBegins r && rowUnitFull c)
  | _ => false

/-- A tile load in progress lacks elements (R79). -/
def tileLacks (c : Cluster) (t : Tile) : Bool :=
  match t.ld with
  | some l => decide (queuedElems c l.desc = 0)
  | none => false

/-- What an execute instruction that is next, with no array or glaze instruction in progress, waits for: cause 5 before a weight
set, 6 before a tile that is read or drained, 10 before a tile of an unresolved speculative task (R106, R107, R68, R257). -/
def nextStalls (c : Cluster) (o : Nat) (e : Instr) (cause : Nat) : Bool :=
  let ts := (tilesOf e).map c.tile
  match cause with
  | 0 => ts.any (tileLacks c)
  | 1 => decide (64 ≤ c.storeQ.length) && ts.any (fun t => t.out.isSome)
  | 5 => c.wload.isSome && (match e with | .wload .. | .swap _ => true | _ => false)
  | 6 => ts.any (fun t => t.out.isSome)
  | 10 => ts.any (fun t => match t.spec with | some q => decide (q ≠ o) | none => false)
  | _ => false

/-- What an access half's next instruction waits for. -/
def State.accessStalls (s : State) (n : Nat) (cause : Nat) : Bool :=
  let c := s.cl n
  match s.issuing n .access, c.nextInsn n .access with
  | some _, some (.job ..) => decide (cause = 8) && decide (2 ≤ (s.jobsOf (.cluster (clNo n))).length)
  | some _, some e => (c.startWaits e).any (fun d => decide (queueCause (c.desc d) = some cause))
  | _, _ => false

/-- A running cluster has finished its stage's work (R204): its execute half waits at STAGEW, or no issued task has work left for it and
no entry is left to issue. An entry that waits for its stage counts as TASK (R249). -/
def Cluster.stageOver (c : Cluster) : Bool :=
  c.exec.waitStage || ((c.halfSlot .execute).isNone && (c.nextHalf .execute).isNone && c.walked)

/-- One stall cause of R204 holds in a cluster whose execute sequencer has issued nothing. -/
def State.stalls (s : State) (n cause : Nat) : Bool :=
  let c := s.cl n
  let run : Bool := match c.mop, c.glz with
    | some m, _ => mopStalls c m cause
    | none, some r => glzStalls c (s.glzShared n) r cause
    | none, none => match s.issuing n .execute, c.nextInsn n .execute with
      | some o, some e => nextStalls c o e cause
      | _, _ => false
  run || s.accessStalls n cause ||
  (match cause with
    | 8 => c.loadQ.isEmpty && (List.range 16).all (fun k => decide ((c.tag k).st ≠ 0))
    | 9 => s.quotaFull n
    | 10 => (c.halfSlot .execute).isNone && !c.stageOver
    | _ => false)

/-- The first stall cause of R204 that holds in a cluster that has issued nothing; when none of the causes 0 to 10 does, the
cluster's work of the stage is over. -/
def State.stallCause (s : State) (n : Nat) : Nat := ((List.range 11).find? (s.stalls n)).getD 11

/-- A running cluster's kc in its engine's counters. -/
def State.countKc (s : State) (n : Nat) (issued : Bool) : State :=
  let e := n / 128
  let s1 := s.count64 (ea e 0x478) 1
  if issued then s1.count64 (ea e 0x470) 1 else s1.count64 (ea e (0x410 + 8 * s.stallCause n)) 1

/-- One kc of a cluster: array time and the kc a speculative task holds its slot (R114, R256); what was held in this kc is held of an
earlier one. -/
def Cluster.tick (c : Cluster) : Cluster :=
  let up (t : TSlot) : TSlot :=
    { t with kc := if t.mode = 2 ∧ t.st ≠ 0 then t.kc + 1 else t.kc, held := t.held ++ t.now, now := [] }
  { c with slot0 := up c.slot0, slot1 := up c.slot1, arrOn := false, rowsOut := (c.rowsOut.map (fun n => n - 1)).filter (fun n => decide (0 < n)) }

/-- Seconds of a scrub period (R220). -/
def scrubSeconds (p : Nat) : Nat := match p with | 0 => 3600 | 1 => 14400 | 2 => 43200 | _ => 86400

/-- The scrub target of a ready stack moves on (R221): 2^28 granules a period. -/
def State.scrubTarget (s : State) (k : Nat) : State :=
  if s.stackState k ≠ 2 then s
  else
    let d := s.die k
    let acc := d.scrubAcc + 2 ^ 28 * s.ticksPerKc
    let full := 2820000000 * scrubSeconds (s.fld (sa k 8) 0 2)
    if full ≤ acc then s.setDie k { d with scrubAcc := acc - full, scrubDue := d.scrubDue ++ [s.stageNo] }
    else s.setDie k { d with scrubAcc := acc }

/-- A straggling module has caught up (R327). -/
def State.catchUp (s : State) : State :=
  if !s.cvn.straggling then s
  else
    let setp := s.setpLate && decide (s.kc < 64)
    { s with setpLate := setp, cvn := { s.cvn with straggling := s.storesWait || s.jobsWait || setp } }

/-- Check units work on (R391). -/
def State.checkTime (s : State) : State :=
  let n := if s.clkStep = 0 then 30 else if s.clkStep = 1 then 40 else 60
  (List.range 16).foldl (State.chkTick n) s

/-- KILN_CYCLE: one kc passes, and resets that waited for their acknowledgement act (R404); `issued` are the clusters whose execute sequencer has issued a step in it. ARR_KC counts from
an instruction's first operand latch (R114). At the end of the last kc of a period the period edge comes first. -/
def State.kilnCycle (u : State) (issued : List ClusterNo) : State :=
  if u.phase = 0 || (u.stagesRun && decide (8192 ≤ u.kc)) then u
  else
    let s := if u.lastKc then u.drainStep else u.dueResets.drainStep
    let s0 := s.newKc
    let s1 := (s0.setReg64 0x50000C ((s.cvnTime + s.ticksPerKc) % 2 ^ 64)).checkTime
    let s2 := (List.range 8).foldl State.scrubTarget s1
    if !s.stagesRun then { s2 with counted := [] }
    else
      let s3 := s.clusters.foldl (fun s e =>
        if e.2.st = 2 ∧ s.clOn e.1 then
          let a := s.countKc e.1 (issued.any (fun i => decide (i.val = e.1)))
          if e.2.arrOn || e.2.runs.any (fun m => m.begun) then a.count64 (ca e.1 0x188) 1 else a
        else s) s2
      ({ s3.mapCl Cluster.tick with kc := s.kc + 1, counted := [] } : State).catchUp

end Sys2Proof.Machine
end

