-- ==== Sys2Proof/Machine/RegWrite.lean ====
section
/-! DEFINITION. What a write of a register does (R279 to R281 and the tables of the chapters). A refused field keeps its
value and sets the window's BUSYW; the other fields of the same write take effect. -/

namespace Sys2Proof.Machine

/-! ARM (R280) -/

/-- ARM_CTL's ARM: the block is pending. An ARM of a waybill acts after a DISARM of the same kc (R360). -/
def State.armBlock (s : State) (a : Nat) : State := s.setFld a 2 1 1
def State.disarmBlock (s : State) (a : Nat) : State := if s.wbMask a = 0 then s.setFld a 2 1 0 else s

def State.writeArm (s : State) (w : Win) (a v : Nat) : State :=
  let s1 := s.plainWrite w a v
  if v.testBit 1 then s1.disarmBlock a else if v.testBit 0 then s1.armBlock a else s1

def ArmWin.win (x : ArmWin) : Win :=
  match x with
  | .global => .global
  | .ration => .ration
  | .power => .power
  | .cluster n => .cluster n.val
  | .stack k => .stack k.val

/-! Global window (R232, R292, R301, R307) -/

/-- GLB_FOOT.PIN (R292). -/
def State.writePin (s : State) (pin : Nat) : State :=
  if s.grade = .xa1792 ∨ pin = s.fld 0x600 0 1 then s
  else if rowSeven.any (fun n => decide ((s.cl n).st ≠ 0)) then s.busyW .global
  else s.setFld 0x600 0 1 pin

/-- TND_CTL (R301, R307): a change of MODE needs every cluster idle; the sequence numbers restart. -/
def State.writeTnd (s : State) (v : Nat) : State :=
  let mode := v % 4
  let change := decide (mode ≠ s.tmode)
  let bad := decide (mode = 3) || (change && s.clusters.any (fun e => decide (e.2.st ≠ 0)))
  let no := (if bad then 3 else 0) + (if bits v 8 8 = 0 then 0xFF00 else 0)
  let s1 := if change && !bad then s.mapCl (fun c => { c with tseq := 0 }) else s
  s1.writeBut .global 0x700 v no

/-! Waybill rings (R350, R351, R356, R368) -/

/-- The SEQ expected of waybill ix (R355). -/
def State.expectedSeq (s : State) (r ix : Nat) : Nat :=
  ((s.ring r).seqBase + (ix + 2 ^ 32 - (s.ring r).ixBase % 2 ^ 32)) % 2 ^ 32

/-- A ring halts at waybill ix (R351, R355). -/
def State.haltRing (s : State) (r ix cause : Nat) : State :=
  let s1 := ((s.setFld (ra r 0x24) 0 1 1).setFld (ra r 0x24) 1 2 cause).setRing r { s.ring r with haltIx := ix }
  s1.raise 32 5 r (s1.live (ra r 0x24)) (s1.expectedSeq r ix)

def State.ringHalted (s : State) (r : Nat) : Bool := (s.reg (ra r 0x24)).getLsbD 0
def State.ringOn (s : State) (r : Nat) : Bool := (s.reg (ra r 0)).getLsbD 0

/-- EN 0 to 1: indices, HALT and CAUSE return to 0. -/
def State.ringFresh (s : State) (r : Nat) : State :=
  let s1 := ((s.setRegN (ra r 0x14) 0).setRegN (ra r 0x18) 0).setRegN (ra r 0x1C) 0
  (s1.setFld (ra r 0x24) 0 3 0).setRing r { seqBase := s.regN (ra r 0x20) }

/-- WBR_CTLr.RESUME (R356). -/
def State.ringResume (s : State) (r : Nat) : State :=
  if !s.ringHalted r then s
  else if (s.ring r).taken ≠ [] then s.busyW (.ring r)
  else
    let tail := s.regN (ra r 0x14)
    let g := s.ring r
    let s1 := ((s.setRegN (ra r 0x18) tail).setRegN (ra r 0x1C) tail).setFld (ra r 0x24) 0 3 0
    s1.setRing r { seqBase := s.regN (ra r 0x20), ixBase := tail, issued := g.issued, returned := g.issued }

/-- WBR_CTLr: SIZE outside 4 to 12, and EN to 0 while HEAD is not DONE, are refused. -/
def State.writeRingCtl (s : State) (r v : Nat) : State :=
  let n := bits v 1 4
  let was := s.ringOn r
  let stuck := was && !v.testBit 0 && decide (s.regN (ra r 0x18) ≠ s.regN (ra r 0x1C))
  let no := (if n < 4 ∨ 12 < n then 0x1E else 0) + (if stuck then 1 else 0)
  let s1 := s.writeBut (.ring r) (ra r 0) v no
  let s2 := if !was && v.testBit 0 then s1.ringFresh r else s1
  if v.testBit 6 then s2.ringResume r else s2

/-- WBR_DBr (R351). -/
def State.doorbell (s : State) (r tail : Nat) : State :=
  let old := s.regN (ra r 0x14)
  let s1 := s.setRegN (ra r 0x14) tail
  let held := (old + 2 ^ 32 - s.regN (ra r 0x1C)) % 2 ^ 32
  if !s.ringOn r || s.ringHalted r then s1
  else if s.ringSize r - held < (tail + 2 ^ 32 - old) % 2 ^ 32 then s1.haltRing r (s1.regN (ra r 0x18)) 3
  else s1

def State.writeRing (s : State) (r o v : Nat) : State :=
  let w : Win := .ring r
  if o = 0 then s.writeRingCtl r v
  else if 0x04 ≤ o ∧ o ≤ 0x10 then
    if s.ringOn r then s.busyW w else s.setRegN (ra r o) (if o = 0x04 ∨ o = 0x0C then v / 4096 * 4096 else v)
  else if o = 0x14 then s.doorbell r v
  else if o = 0x20 then (if s.ringOn r && !s.ringHalted r then s.busyW w else s.setRegN (ra r o) v)
  else s.plainWrite w (ra r o) v

/-! Cluster windows (R89, R144, R147, R179, R210) -/

/-- A converter of the cluster records into a slot now (R144): of a stream that runs, or of rows that wait at the store converter. -/
def State.recording (s : State) (n slot : Nat) : Bool :=
  let c := s.cl n
  let here (dn : Nat) : Bool := (c.desc dn).stat && decide ((c.desc dn).slot = slot)
  (s.env n).stat && (c.streams.any (fun e => e.2.run && here e.1) || c.conv.any (fun x => here x.desc))

/-- QNT_WINDOW: SLOT and ENTRY select, FILL goes to the slot selected. -/
def State.writeWindow (s : State) (n v : Nat) : State :=
  let slot := v % 16
  let s1 := s.setRegN (ca n 0x204) (v % 256)
  if s.wbSlots.contains (n, slot) then s1
  else if s.recording n slot then (if bits v 8 5 = sget zeroNat (s.cl n).fill slot then s1 else s1.busyW (.cluster n))
  else s1.setCl n { s1.cl n with fill := sput zeroNat (s1.cl n).fill slot (bits v 8 5) }

/-- A descriptor is in use by a stream (R210): its own, or the dynamic store whose scales or records go through it (R195). -/
def Cluster.descUsed (c : Cluster) (dn : Nat) : Bool :=
  c.streams.any (fun e =>
    let d := c.desc e.1
    e.2.run && (decide (e.1 = dn) || (decide (d.kind = 1) && d.scm &&
      (decide (bits d.aux 0 6 = dn) || (d.aux.testBit 14 && decide (bits d.aux 8 6 = dn))))))

/-- A write of DRV_DESCw (R210): DRV_DESC15 commits the holding copy if it passes R191. -/
def State.writeDesc (s : State) (n w v : Nat) : State :=
  let c := s.cl n
  let sel := s.fld (ca n 0x440) 0 6
  if c.descUsed sel then s.busyW (.cluster n)
  else
    let h := sput (fun _ => 0#32) c.dhold w (BitVec.ofNat 32 v)
    let c1 : Cluster := { c with dhold := h }
    if w < 15 then s.setCl n c1
    else
      let bs := (List.range 16).flatMap (fun i => leBytes 4 (sget (fun _ => 0#32) h i).toNat)
      if (descOf bs).ok (16 * (c.sec.ntask + c.sec.nexec + c.sec.nacc)) then s.setCl n (c1.setStg (0xF000 + 64 * sel) bs)
      else applyAct n false (s.setCl n c1) (.drover 4 sel 0 0 0)

def State.writeCluster (s : State) (n o v : Nat) : State :=
  let w : Win := .cluster n
  let a := ca n o
  let c := s.cl n
  if o = 0x108 ∨ o = 0x10C ∨ o = 0x110 ∨ o = 0x114 then
    let t := if o < 0x110 then 0 else 1
    if c.busy t then s.busyW w
    else
      let k := (c.tile t).count
      let p := ca n (0x108 + 8 * t)
      let r := sget noCount s.counted p
      let put (x : Nat) : Nat := if o % 8 = 0 then putBits x 0 32 v else putBits x 32 16 v
      if r.2 ≠ 0 ∧ r.1 + r.2 = k then
        ({ s with counted := sput noCount s.counted p (put r.1, r.2) } : State).setCl n
          (c.setTile t { c.tile t with count := min (put r.1 + r.2) (2 ^ 48 - 1) })
      else s.setCl n (c.setTile t { c.tile t with count := put k })
  else if 0x228 ≤ o ∧ o ≤ 0x234 then
    let i := (o - 0x228) / 4
    let t := i / 2
    if c.busy t then s.busyW w
    else if (c.tile t).path = 0 then s
    else s.setCl n (c.setTile t (if i % 2 = 0 then { c.tile t with tsa := v } else { c.tile t with tsw := v }))
  else if o = 0x204 then s.writeWindow n v
  else if o = 0x208 ∨ o = 0x20C then
    let sel := s.regN (ca n 0x204)
    if s.wbSlots.contains (n, sel % 16) then s
    else if s.recording n (sel % 16) then s.busyW w
    else if s.fld (ca n 0x200) 0 4 < sel / 16 % 16 then s
    else
      let e := sget noWin c.wins (winKey sel)
      s.setCl n { c with wins := sput noWin c.wins (winKey sel) (if o = 0x208 then (v, e.2) else (e.1, v)) }
  else if o = 0x300 then
    let s1 := s.plainWrite w a (putBits v 1 1 0)
    if v.testBit 1 then s1.setCl n { s1.cl n with gswitch := true } else s1
  else if 0x480 ≤ o ∧ o < 0x4C0 then s.writeDesc n ((o - 0x480) / 4) v
  else if 0x800 ≤ o ∧ o < 0xA00 then (if c.st = 2 then s.busyW w else s.plainWrite w a v)
  else s.plainWrite w a v

/-! Service and security windows (R431, R441, R443, R444) -/

def State.writeService (s : State) (o v : Nat) : State :=
  let a := 0x104000 + o
  if o = 0 then
    let s1 := s.plainWrite .service a v
    let s2 := if v.testBit 0 then s1.svcRequest else s1
    let s3 := if v.testBit 1 then s2.svcForce else s2
    let s4 := if v.testBit 2 then s3.svcCancel else s3
    if v.testBit 3 && decide (s4.svcPhase = 3) then s4.startDrain else s4
  else if o = 8 then s.setRegN a (v / 512 * 512)
  else if o = 0x10 then (if v % 2 ^ 16 = 0 then s.busyW .service else s.plainWrite .service a v)
  else s.plainWrite .service a v

/-- M7 after an accepted write of the policy or the owner hash (R441). -/
def State.measurePolicy (s : State) : State :=
  s.measure 7 (sha384 ((List.range 13).flatMap (fun i => leBytes 4 (s.regN (if i = 0 then 0x105008 else 0x10500C + 4 * i)))))

def State.writeSecurity (s : State) (o v : Nat) : State :=
  let a := 0x105000 + o
  if o = 8 ∨ (0x10 ≤ o ∧ o < 0x40) then
    if (s.reg 0x105008).getLsbD 1 then s.busyW .security
    else (s.plainWrite .security a v).measurePolicy
  else s.plainWrite .security a v

/-! Events (R457) -/

def State.writeEvtCtl (s : State) (v : Nat) : State :=
  let n := bits v 1 4
  let was := (s.reg 0x106000).getLsbD 0
  let s1 := s.writeBut .events 0x106000 v (if n < 4 then 0x1E else 0)
  if !was && v.testBit 0 then (s1.setRegN 0x10600C 0).setRegN 0x106010 0 else s1

def State.writeEvtRd (s : State) (v : Nat) : State :=
  let old := s.regN 0x106010
  if (s.regN 0x10600C + 2 ^ 32 - old) % 2 ^ 32 < (v + 2 ^ 32 - old) % 2 ^ 32 then s.busyW .events else s.setRegN 0x106010 v

def State.writeEvents (s : State) (o v : Nat) : State :=
  let a := 0x106000 + o
  if o = 0 then s.writeEvtCtl v
  else if o = 4 ∨ o = 8 then (if (s.reg 0x106000).getLsbD 0 then s.busyW .events else s.plainWrite .events a v)
  else if o = 0x10 then s.writeEvtRd v
  else s.plainWrite .events a v

/-! Interrupts (R383, R386) -/

/-- TTH_IMASK: each vector that is unmasked while pending sends one message. -/
def State.writeImask (s : State) (v : Nat) : State :=
  let old := s.regN 0x600020
  (List.range 32).foldl (fun s i =>
    if old.testBit i && !v.testBit i && (s.reg 0x600024).getLsbD i then
      let s1 := (s.toHost 7 (s.irqMsg i)).dropBits 0x600024 (2 ^ i)
      { s1 with unmasked := i :: s1.unmasked }
    else s)
    (s.setRegN 0x600020 v)

def State.writeTether (s : State) (o v : Nat) : State :=
  let a := 0x600000 + o
  if o = 0x20 then s.writeImask v
  else if 0x100 ≤ o ∧ o % 16 = 0 then s.plainWrite .tether a (v / 4 * 4)
  else s.plainWrite .tether a v

/-! Power (R404, R407, R412) -/

/-- PWR_ENGRST: engines whose common domain is off are not touched; during a transition the write is refused. -/
def State.writeEngrst (s : State) (mask : Nat) : State :=
  if s.trans.isSome then s.busyW .power else s.resetOr (.eng mask) true

/-- PWR_RESET (R404): a write through the Tether is acknowledged first, in its kc. -/
def State.writeReset (s : State) (v : Nat) : State :=
  if v.testBit 0 && decide (bits v 8 8 = 0xA5) then s.resetOr (.mod 2) (decide (s.tth ≠ 1)) else s

def State.writePower (s : State) (o v : Nat) : State :=
  let a := 0x200000 + o
  if o = 4 then s.writeReset v
  else if o = 0x0C then (if s.gradeMax < v % 2 ^ 16 then s.busyW .power else s.plainWrite .power a v)
  else if o = 0x34 then s.writeEngrst v
  else s.plainWrite .power a v

/-! Ports and stacks (R317, R234, R344) -/

def State.writePort (s : State) (p o v : Nat) : State :=
  if o ≠ 4 then s.plainWrite (.port p) (pa p o) v
  else
    let s1 := if v.testBit 0 then s.portEnable p else s.portDisable p
    let s2 := if v.testBit 1 then s1.portRetrain p else s1
    if v.testBit 2 then s2.portQuiesce p else s2

def State.writeStack (s : State) (k o v : Nat) : State :=
  if o = 0x24 ∧ (v % 2 ^ 16 < 512 ∨ 32768 < v % 2 ^ 16) then s.busyW (.stack k) else s.plainWrite (.stack k) (sa k o) v

/-! All registers -/

/-- A 32-bit write of a management address (R12, R459). What a waybill has written of the register in this kc stays (R360). -/
def State.writeReg (s : State) (a v0 : Nat) : State :=
  match winOf a with
  | none => s
  | some w =>
    let o := a - w.base
    let v := if armOf w = some a then v0 else mixBits (s.wbMask a) (mixBits (rwaMask (fldsOf s.grade w o)) (s.shadowOf a) (s.regN a)) v0
    if a % 4 ≠ 0 || fldsOf s.grade w o = [] || !s.winOn w then s
    else if armOf w = some a then s.writeArm w a v
    else match w with
      | .global =>
        if o = 0x200 then s.writeBut w a v (if bits v 2 2 = 3 then 0xC else 0)
        else if o = 0x600 then s.writePin (v % 2)
        else if o = 0x700 then s.writeTnd v
        else s.plainWrite w a v
      | .ring r => s.writeRing r o v
      | .check u => s.writeChk u o v
      | .service => s.writeService o v
      | .security => s.writeSecurity o v
      | .events => s.writeEvents o v
      | .power => s.writePower o v
      | .port p => s.writePort p o v
      | .tether => s.writeTether o v
      | .stack k => s.writeStack k o v
      | .cluster n => s.writeCluster n o v
      | _ => s.plainWrite w a v

end Sys2Proof.Machine
end

