-- ==== Sys2Proof/Machine/WbRules.lean ====
section
/-! DEFINITION. Waybills: fetching and checking, start rules, conflicts, limits (13_waybills_and_receipts.md, R349 to R364). -/

namespace Sys2Proof.Machine

/-! Opcodes and their parameters (R365) -/

def wbOpcodes : List Nat :=
  [0x100, 0x101, 0x102, 0x103, 0x104, 0x105, 0x106, 0x200, 0x201, 0x202, 0x203, 0x204, 0x300, 0x301, 0x302, 0x400, 0x401, 0x402,
   0x500, 0x501, 0x600, 0x601, 0x602, 0x700, 0x701, 0x702, 0x703, 0x800, 0x801, 0x900, 0x901, 0x902, 0xA00, 0xA01, 0xA02]

/-- Marked X. -/
def wbExclusive (opc : Nat) : Bool := [0x103, 0x600, 0x602, 0x901, 0xA00, 0xA02].contains opc

/-- P0 to P2 are a cluster set. -/
def wbSet (opc : Nat) : Bool := [0x105, 0x200, 0x201, 0x202, 0x203, 0x400, 0x401, 0x500, 0x501, 0x700, 0x703].contains opc

/-- P0 with KIND 0 names one cluster. -/
def wbOne (opc : Nat) : Bool := opc = 0x204 || opc = 0x402

def wbClass (opc : Nat) : Nat := opc / 256

/-- A waybill has a wait limit (R354, R365). -/
def wbLimited (opc tmo : Nat) : Bool :=
  decide (tmo ≠ 0xFFFF) && (decide (tmo ≠ 0) || !([0x201, 0x700, 0x703].contains opc))

/-- Bits a named parameter word may have set; other words are reserved. -/
def wbMasks (opc kind : Nat) : List Nat :=
  let f := 0xFFFFFFFF
  let set : List Nat := match kind with
    | 0 => [0xC00007FF, 0, 0]
    | 1 => [0xC0000000, 0, 0]
    | 2 => [0xC0FFFFFF, 0, 0]
    | _ => [0xC0000000, f, 0xFF]
  match opc with
  | 0x101 => [f]
  | 0x104 => [0xFFFF]
  | 0x105 | 0x202 | 0x203 | 0x401 => set
  | 0x106 => [0xF, f]
  | 0x200 => set ++ [f, 0xFF]
  | 0x201 | 0x700 | 0x703 => set ++ [f, f]
  | 0x204 | 0x402 => [0x7FF]
  | 0x300 => [f, 0xFF]
  | 0x301 => [f, 0xFF, f, 0xFF, f, 0x1F]
  | 0x302 => [0x1FF]
  | 0x400 => set ++ [f, 0xFF, 0xFFFF]
  | 0x500 => set ++ [0x3F]
  | 0x501 => set ++ [0xFFFF]
  | 0x600 => [0x1FF, f, f, f, 0xFF]
  | 0x601 => [0x3F]
  | 0x701 | 0x702 => [f, 0xFF]
  | 0x801 => [f, 0xFF, f, 0x1F, 3, f, f]
  | 0x900 => [f, 0xFF, f, 0xF0F]
  | 0x902 => [f, 0xFF, f, f, f, f, f, f, f, f]
  | 0xA00 => [7]
  | 0xA01 => [0xFFFF]
  | 0xA02 => [3]
  | _ => []

/-- A 64-bit parameter Pk:P(k+1). -/
def pPair (ps : List Nat) (k : Nat) : Nat := ps.getD k 0 + 2 ^ 32 * ps.getD (k + 1) 0

/-- A Loess range that runs past the address space. -/
def pastEnd (a n : Nat) : Bool := decide (2 ^ 40 < a + n)

/-- The cluster set of P0 to P2, absent numbers included; `bitmap` are the 256 bytes that KIND 3 names. -/
def State.clusterSet (s : State) (opc : Nat) (ps : List Nat) (bitmap : List Byte) : List Nat :=
  let p := ps.getD 0 0
  if wbOne opc then [p % 2048]
  else if !wbSet opc then []
  else match p / 2 ^ 30 with
    | 0 => [p % 2048]
    | 1 => s.presentList
    | 2 => (List.range 2048).filter (fun n => p.testBit (n / 128) && p.testBit (16 + n % 128 / 16))
    | _ => (List.range 2048).filter (fun n => (bitmap.getD (n / 8) 0).getLsbD (n % 8))

/-- Pk lies outside its range (R355 order 5), reserved bits apart. -/
def State.outsideRange (s : State) (opc : Nat) (ps : List Nat) (clus : List Nat) (k : Nat) : Bool :=
  let p := ps.getD k 0
  let pair := pPair ps
  if wbSet opc && decide (k = 0) then decide (clus = [])
  else if wbSet opc && decide (k = 1) then decide (ps.getD 0 0 / 2 ^ 30 = 3) && pastEnd (pair 1) 256
  else match opc, k with
    | 0x104, 0 => decide (p = 0)
    | 0x300, 0 => pastEnd (pair 0) 64
    | 0x301, 0 => decide (pair 0 % 64 ≠ 0) || pastEnd (pair 0) (pair 4)
    | 0x301, 2 => decide (pair 2 % 64 ≠ 0) || pastEnd (pair 2) (pair 4) || overlaps (pair 0, pair 4) (pair 2, pair 4)
    | 0x301, 4 => decide (pair 4 % 64 ≠ 0) || decide (2 ^ 36 < pair 4)
    | 0x400, 3 => decide (pair 3 % 512 ≠ 0) || pastEnd (pair 3) 8320
    | 0x701, 0 => decide (pair 0 % 512 ≠ 0)
    | 0x801, 0 => pastEnd (pair 0) (pair 2)
    | 0x801, 2 => decide (2 ^ 36 < pair 2)
    | 0x900, 0 => pastEnd (pair 0) (ps.getD 2 0)
    | 0x900, 3 => decide (3 < p % 16) || decide (7 < p / 256) || (decide (p % 16 ≠ 1) && decide (p / 256 ≠ 0)) ||
        (s.boot.recovery && decide (p % 16 ≠ 0))
    | 0x902, 0 => pastEnd (pair 0) 11376
    | 0xA00, 0 => decide (3 < p)
    | 0xA01, 0 => decide (s.gradeMax < p)
    | 0xA02, 0 => decide (2 < p)
    | _, _ => false

/-- The first bad parameter word (R364 BADPARAM). -/
def State.badWord (s : State) (opc : Nat) (ps : List Nat) (clus : List Nat) : Option Nat :=
  let masks := wbMasks opc (if wbSet opc then ps.getD 0 0 / 2 ^ 30 else 0)
  (List.range 12).find? (fun k =>
    decide (ps.getD k 0 &&& (0xFFFFFFFF ^^^ masks.getD k 0) ≠ 0) || s.outsideRange opc ps clus k)

/-- A named unit whose domain is off, a gated row apart (R361, R398, R407), or a class the power state does not serve. -/
def State.powerForbids (s : State) (opc : Nat) (ps clus : List Nat) : Bool :=
  let low := decide (s.pstate = 2) || decide (s.pstate = 3)
  (low && !([1, 8, 10].contains (wbClass opc))) ||
  clus.any (fun n => !s.domainOn (rowOf n) && !sget zeroBool s.gated (rowOf n)) ||
  (decide (opc = 0x104) && (s.trans.isSome || (List.range 16).any (fun e => (ps.getD 0 0).testBit e && !s.domainOn (128 + e)))) ||
  (decide (opc = 0x105) && s.trans.isSome) ||
  (decide (opc = 0x601) && !s.domainOn (160 + ps.getD 0 0 % 16))

/-- Order 5 of R355, before a cluster bitmap is read: the result word. -/
def State.wbHead (s : State) (opc : Nat) (rsvd : Bool) (ps : List Nat) : Option Nat :=
  if rsvd then some 0xFF else s.badWord opc ps [0]

/-- Orders 5 to 7 of R355: the status and result words of the first failure. -/
def State.wbChecks (s : State) (opc : Nat) (rsvd : Bool) (ps clus : List Nat) : Option (Nat × List Nat) :=
  if rsvd then some (5, [0xFF])
  else match s.badWord opc ps clus with
    | some k => some (5, [k])
    | none => match clus.find? (fun n => !s.present n) with
      | some n => some (6, [n])
      | none => if s.powerForbids opc ps clus then some (0x0E, [s.pstate]) else none

/-! Taking (R351, R353, R355, R356) -/

/-- The interpreter runs: the management firmware, or the boot ROM in recovery (R430, R438). -/
def State.interprets (s : State) : Bool := (decide (3 ≤ s.phase) || s.failed) && s.boot.switching.isNone

/-- Ring r has an announced waybill that may be taken now; in phase 4 of a service sequence it waits (R419). -/
def State.mayTake (s : State) (r : Nat) : Bool :=
  s.interprets && decide (s.svcPhase ≠ 4) && decide (s.tth = 1) && s.ringOn r && !s.ringHalted r && decide (s.regN (ra r 0x14) ≠ s.regN (ra r 0x18)) &&
  decide ((s.ring r).taken.length < 8) && (s.ready || decide (r = 0)) &&
  !(decide (r = 0) && (s.ring r).taken.any (fun w => decide (w.opc = 0x100)))

/-- Bytes of the bitmap that KIND 3 names. -/
def State.wbBitmap (s : State) (opc : Nat) (ps : List Nat) : List Byte :=
  if wbSet opc && decide (ps.getD 0 0 / 2 ^ 30 = 3) && !pastEnd (pPair ps 1) 256 then s.loessRead (pPair ps 1) 256 else []

/-- The bitmap's first poisoned codeword. -/
def State.wbBitmapPoison (s : State) (opc : Nat) (ps : List Nat) : Option Nat :=
  if wbSet opc && decide (ps.getD 0 0 / 2 ^ 30 = 3) && !pastEnd (pPair ps 1) 256 then s.firstPoison (pPair ps 1) 256 else none

/-- The bitmap is read: the decoder meets its codewords (R219), its rows are activated and its slots taken (R222, R366). -/
def State.eccBitmap (s : State) (opc : Nat) (ps : List Nat) (ecc : List (Nat × EccCase)) : State :=
  if wbSet opc && decide (ps.getD 0 0 / 2 ^ 30 = 3) && !pastEnd (pPair ps 1) 256 then
    (s.eccReads [(pPair ps 1, 256)] mgmtWho ecc).mgmtTraffic false [(pPair ps 1, 256)]
  else s

/-- HEAD moves on. -/
def State.takeOne (s : State) (r : Nat) : State :=
  (s.setRegN (ra r 0x18) (s.regN (ra r 0x18) + 1)).setRing r { s.ring r with issued := ((s.ring r).issued + 1) % 2 ^ 32 }

/-- Before READY only READY, RESET_WARM and IDENT are carried out, in recovery UPDATE too (R353, R438). -/
def State.tooEarly (s : State) (opc : Nat) : Bool :=
  !s.ready && !([0x100, 0x101, 0x102].contains opc) && !(s.boot.recovery && decide (opc = 0x900))

/-- The 12 parameter words of a waybill. -/
def wbParams (bs : List Byte) : List Nat := (List.range 12).map (fun k => leAt bs (12 + 4 * k) 4)

/-- Reserved fields of a waybill's head hold something: FLAGS [7:2] or [87:80]. -/
def wbReserved (bs : List Byte) : Bool := decide (4 ≤ leAt bs 2 1) || decide (leAt bs 10 2 ≠ 0)

/-- The bitmap that taking a waybill reads from Loess, once the checks before it have passed (R355). -/
def State.bitmapAt (s : State) (seq : Nat) (bs : List Byte) : Option Nat :=
  let opc := leAt bs 0 2
  let ps := wbParams bs
  if (crc32c seq (bs.take 60)).toNat = leAt bs 60 4 ∧ leAt bs 4 4 = seq ∧ leAt bs 3 1 = 1 ∧ wbOpcodes.contains opc ∧ !s.tooEarly opc ∧
      s.wbHead opc (wbReserved bs) ps = none ∧ s.pstate ≠ 2 ∧ s.pstate ≠ 3 ∧ wbSet opc ∧ ps.getD 0 0 / 2 ^ 30 = 3 ∧
      !pastEnd (pPair ps 1) 256 then
    some (pPair ps 1)
  else none

/-- Take a waybill whose 64 bytes are `bs`; `ix` is its index, `seq` the SEQ expected of it. -/
def State.takeWaybill (s : State) (r ix seq : Nat) (bs : List Byte) (ecc : List (Nat × EccCase)) (fault : Option Word) : State :=
  let s1 := s.takeOne r
  let opc := leAt bs 0 2
  let flags := leAt bs 2 1
  let own := leAt bs 4 4
  let irq := flags.testBit 1
  let ps := wbParams bs
  if (crc32c seq (bs.take 60)).toNat ≠ leAt bs 60 4 then (s1.receipt r ix seq 0 1 [] false).haltRing r ix 1
  else if own ≠ seq then (s1.receipt r ix own opc 2 [seq] irq).haltRing r ix 2
  else if leAt bs 3 1 ≠ 1 then s1.receipt r ix own opc 3 [] irq
  else if !wbOpcodes.contains opc then s1.receipt r ix own opc 4 [] irq
  else if s.tooEarly opc then s1.receipt r ix own opc 8 [0xFFFFFFFF, 0] irq
  else match s.wbHead opc (wbReserved bs) ps with
  | some k => s1.receipt r ix own opc 5 [k] irq
  | none =>
    let low := decide (s.pstate = 2) || decide (s.pstate = 3)
    let s := if low then s else s.eccBitmap opc ps ecc
    let s1 := s.takeOne r
    match (if low then none else s.wbBitmapPoison opc ps) with
    | some _ => s1.receipt r ix own opc 0x0C [0, 0] irq
    | none =>
      let unread := low && wbSet opc && decide (ps.getD 0 0 / 2 ^ 30 = 3)
      let clus := if unread then [0] else s.clusterSet opc ps (s.wbBitmap opc ps)
      match s.wbChecks opc (wbReserved bs) ps clus with
      | some (st, res) => s1.receipt r ix own opc st res irq
      | none =>
        let w : Wb := { ix := ix, opc := opc, seq := own, irq := irq, fence := flags.testBit 0, params := ps, tmo := leAt bs 8 2
                        clus := clus }
        match fault with
        | some code => (s1.receipt r ix own opc 0xFF [code.toNat] irq).raise 33 5 r code.toNat 0
        | none => s1.setRing r { s1.ring r with taken := (s1.ring r).taken ++ [w] }

/-- WAYBILL_TAKE (R355): `bytes` are what the fetch brings, none for a failed fetch; `ecc` is what the decoder meets in a
bitmap; `fault` is a fault of the firmware's own on a waybill that passes its checks (R364 INTERNAL, R447). Before READY, READY is taken only while
no other waybill of ring 0 waits, and none of ring 0 is taken behind it, so that its receipt is the first to follow (R353). -/
def execWaybillTake (r : Fin 16) (bytes : Option (List Byte)) (ecc : List (Nat × EccCase))
    (s0 : State) (fault : Option Word := none) :
    Host.Outcome State Fault Refusal :=
  if !s0.mayTake r || !s0.mayFlit 1 then .next s0
  else
    let ix := s0.regN (ra r 0x18)
    let seq := s0.expectedSeq r ix
    let at_ := s0.reg64 (ra r 4) + 64 * (ix % s0.ringSize r)
    let s := (s0.sendMsg { act := 7, due := s0.stageNo, msg := .fetch at_ 64 }).fromHost 7
    match bytes with
    | none =>
      .next ((((s.tthErr 4 0 at_).takeOne r).receipt r ix seq 0 1 [] false).haltRing r ix 1)
    | some bs =>
      if bs.length ≠ 64 then .next s0
      else if !s.ready && decide (leAt bs 0 2 = 0x100) && decide ((s.ring r).taken ≠ []) then .next s0
      else if (s.bitmapAt seq bs).any (fun a => !s.rangeUp a 256) then .next s0
      else .next (s.takeWaybill r ix seq bs ecc fault)

/-! Starting (R358) -/

/-- What a waybill names beside clusters: (1, stack), (2, port), (3, ring). -/
def wbNames (w : Wb) : List (Nat × Nat) :=
  let p := w.params.getD 0 0
  match w.opc with
  | 0x302 => ((List.range 8).filter (fun k => p.testBit k)).map (fun k => (1, k))
  | 0x900 => if w.params.getD 3 0 % 16 = 1 then [(1, w.params.getD 3 0 / 256)] else []
  | 0x601 => [(2, p % 16)]
  | 0x106 => [(3, p % 16)]
  | _ => []

/-- Rule 5: two waybills conflict. -/
def wbConflict (a b : Wb) : Bool :=
  !resetOpc a.opc && !resetOpc b.opc &&
  (meets a.clus b.clus || (wbNames a).any (fun x => (wbNames b).contains x) ||
    (decide (wbClass a.opc = wbClass b.opc) && (decide (wbClass a.opc = 7) || decide (wbClass a.opc = 9))))

/-- Waybills of a ring taken before w and without a receipt. -/
def State.earlierWbs (s : State) (r : Nat) (w : Wb) : List Wb := (s.ring r).taken.takeWhile (fun x => decide (x.ix ≠ w.ix))

/-- Started waybills of a ring without receipts. -/
def State.startedIn (s : State) (r : Nat) : List Wb := (s.ring r).taken.filter (fun w => decide (1 ≤ w.phase))

def State.startedCount (s : State) : Nat := ((List.range 16).map (fun r => (s.startedIn r).length)).foldl (· + ·) 0

/-- Rules 1 and 2 allow w to start. -/
def State.inTurn (s : State) (r : Nat) (w : Wb) : Bool :=
  let e := s.earlierWbs r w
  e.all (fun x => decide (1 ≤ x.phase)) && (!w.fence || decide (e = []))

/-- The ring whose exclusive waybill waits, the lowest first (rule 4). -/
def State.exclusiveWaits (s : State) : Option (Nat × Nat) :=
  (List.range 16).findSome? (fun r =>
    ((s.ring r).taken.find? (fun w => decide (w.phase = 0) && wbExclusive w.opc && s.inTurn r w)).map (fun w => (r, w.ix)))

/-- What the start rules answer for a waybill taken and not started. -/
inductive Start where
  | waits
  | busy (ring : Nat)
  | starts
deriving DecidableEq, Repr

def State.startOf (s : State) (r : Nat) (w : Wb) : Start :=
  let runs (x : Nat × Wb) : Bool := decide (1 ≤ x.2.phase) && decide (x.1 ≠ r) && wbConflict w x.2
  let all : List (Nat × Wb) := (List.range 16).flatMap (fun q => (s.ring q).taken.map (fun x => (q, x)))
  let held : Bool := all.any (fun x => decide (1 ≤ x.2.phase) && wbExclusive x.2.opc)
  let other : Bool := match s.exclusiveWaits with | some x => decide (x ≠ (r, w.ix)) | none => false
  if w.phase ≠ 0 || !s.inTurn r w || decide (4 ≤ (s.startedIn r).length) || decide (16 ≤ s.startedCount) || held || other ||
      (wbExclusive w.opc && decide (s.startedCount ≠ 0)) then .waits
  else if (s.earlierWbs r w).any (wbConflict w) then .waits
  else match all.find? runs with
    | some x => .busy x.1
    | none => .starts

/-- Rows of clusters that a waybill names are switched on before it starts (R398). -/
def State.switchOn (s : State) (clus : List Nat) : State := s.rowsOn (clus.map rowOf).eraseDups

/-- Set how far a waybill has come. -/
def State.phaseWb (s : State) (r : Nat) (w : Wb) (p : Nat) : State := s.setWb r { w with phase := p }

/-- Start waybill i of ring r, whose opcode is `opc`, if R358 lets it: `up` says that what it reads or writes can be reached now,
`f` what it does. A power state entered, or a service sequence begun, since it was taken still turns it away (R361, R417). -/
def State.startWb (s : State) (opc r ix : Nat) (up : Wb → Bool) (f : State → Wb → State) : State :=
  match s.wb r ix with
  | none => s
  | some w =>
    if w.opc ≠ opc || !s.interprets then s
    else match s.startOf r w with
      | .waits => s
      | .busy q => s.finish r w 7 [q]
      | .starts =>
        if s.powerForbids opc w.params w.clus then s.finish r w 0x0E [s.pstate]
        else if 1 ≤ s.svcPhase ∧ ([2, 3, 4, 5, 6, 7, 9].contains (wbClass opc)) ∧ opc ≠ 0x700 ∧ opc ≠ 0x701 then
          s.finish r w 8 [0xFFFFFFFF, s.svcPhase]
        else if !up w then s
        else f (s.switchOn w.clus) w

def always (_ : Wb) : Bool := true

/-! Ending early (R362, R363) -/

/-- What a waybill that has not begun to act has set up goes. -/
def State.undoWb (s : State) (r : Nat) (w : Wb) : State :=
  match s.pause with
  | some p => if p.wb = some (r, w.ix) ∧ p.st = 1 then { s with pause := none } else s
  | none => s

/-- WAYBILL_TIMEOUT (R362). -/
def execWaybillTimeout (r : Fin 16) (i : Word) (s : State) : Host.Outcome State Fault Refusal :=
  match s.wb r i.toNat with
  | none => .next s
  | some w =>
    if 2 ≤ w.phase || !wbLimited w.opc w.tmo || !s.interprets then .next s
    else .next ((s.undoWb r w).finish r w 9 [])

/-! Loess that waybills reach -/

/-- A poisoned codeword met after `d` bytes (R364 MEMERR). -/
def State.memErr (s : State) (r : Nat) (w : Wb) (d : Nat) : State := s.finish r w 0x0C (pairOf d)

/-- The first of a set of clusters in a state of ITN_STATUS that `bad` names, and that state. -/
def State.wrongState (s : State) (clus : List Nat) (bad : Nat → Bool) : Option (List Nat) :=
  (clus.find? (fun n => bad (s.cl n).st)).map (fun n => [n, (s.cl n).st])

/-- A running cluster of the module. -/
def State.anyRuns (s : State) : Option (List Nat) := s.wrongState s.presentList (fun st => decide (st = 2))

end Sys2Proof.Machine
end

