-- ==== Sys2Proof/Machine/Waybills.lean ====
section
/-! DEFINITION. Waybills of classes 0x01 to 0x04 (13_waybills_and_receipts.md, R365). -/

namespace Sys2Proof.Machine

/-! Class 0x01: module -/

/-- RES0 to RES2 of the READY receipt (R365, R411). -/
def State.readyWords (s : State) : List Nat := [s.identReg, (s.readReg 0x100004).toNat, s.regN 0x20002C]

/-- READY: answered once READY has been raised, or start-up has failed; else it waits (R353). -/
def execReady (r : Fin 16) (i : Word) (s : State) : Host.Outcome State Fault Refusal :=
  .next (s.startWb 0x100 r i.toNat always (fun s w =>
    if s.ready then s.finish r w 0 s.readyWords
    else if s.failed then s.finish r w 0x12 [s.fld 0x200000 4 4]
    else s.phaseWb r w 1))

/-- READY has been raised, or start-up has failed: waybills that wait for it are answered. -/
def State.readyReceipts (s : State) (status : Nat) (res : List Nat) : State :=
  s.eachWb (fun s r w => if w.opc = 0x100 ∧ w.phase = 1 then s.finish r w status res else s)

/-- ECHO; in recovery RES1 is 0 (R438). -/
def execEcho (r : Fin 16) (i : Word) (s : State) : Host.Outcome State Fault Refusal :=
  .next (s.startWb 0x101 r i.toNat always (fun s w =>
    s.finish r w 0 [w.params.getD 0 0, if s.boot.recovery then 0 else s.regN 0x400]))

/-- IDENT; in recovery the bank is the one the bank-select record names (R438). -/
def execIdent (r : Fin 16) (i : Word) (s : State) : Host.Outcome State Fault Refusal :=
  .next (s.startWb 0x102 r i.toNat always (fun s w =>
    let bank := if s.boot.recovery then s.boot.sel else s.boot.act
    s.finish r w 0 ([s.identReg, s.presentCount, if bank then 1 else 0] ++ pairOf Config.serial.toNat)))

/-- PWR_STATUS.STATE is ACTIVE after a WARM reset (R14, R412): a module that was in IDLE, HOLD or STANDBY leaves it. -/
def State.warmActive (s : State) (was : Nat) : State :=
  match was with
  | 1 => s.rowsOn (List.range 128)
  | 2 => s.leaveHold
  | 3 => s.leaveStandby
  | _ => s

/-- RESET_WARM (R406): during a power transition it waits, and in the last kc of a stage (R407). -/
def execResetWarm (r : Fin 16) (i : Word) (s : State) : Host.Outcome State Fault Refusal :=
  .next (s.startWb 0x103 r i.toNat (fun _ => s.trans.isNone && !s.lastKc) (fun s w =>
    let s1 := ((s.phaseWb r w 2).warmReset (some (r.val, w.ix))).warmActive s.pstate
    (s1.finish r w 0 [s1.regN 0x400]).svcRetry))

/-- RESET_ENGINE (R404, R405, R407). -/
def execResetEngine (r : Fin 16) (i : Word) (s : State) : Host.Outcome State Fault Refusal :=
  .next (s.startWb 0x104 r i.toNat (fun _ => !s.lastKc) (fun s w =>
    let m := w.params.getD 0 0
    let s1 := (List.range 16).foldl (fun s e => if m.testBit e then s.resetEngine1 e else s) (s.phaseWb r w 2)
    s1.finish r w 0 [m]))

/-- RESET_CLUSTER (R404, R405, R407). -/
def execResetCluster (r : Fin 16) (i : Word) (s : State) : Host.Outcome State Fault Refusal :=
  .next (s.startWb 0x105 r i.toNat (fun _ => !s.lastKc) (fun s w =>
    ((s.phaseWb r w 2).resetClusters w.clus).finish r w 0 [w.clus.length]))

/-- CANCEL (R363): the named waybill is taken and does not act. -/
def execCancel (r : Fin 16) (i : Word) (s : State) : Host.Outcome State Fault Refusal :=
  .next (s.startWb 0x106 r i.toNat always (fun s w =>
    let q := w.params.getD 0 0
    match (s.ring q).taken.find? (fun x => decide (x.seq = w.params.getD 1 0) && decide (x.phase < 2) &&
        !(decide (q = r.val) && decide (x.ix = w.ix))) with
    | some x => ((s.undoWb q x).finish q x 0x0F [0, r, w.seq]).finish r w 0 [1]
    | none => s.finish r w 0 [0]))

/-! Class 0x02: itineraries -/

/-- Clusters of a paused set that are not stopped any more leave it. -/
def State.trimPause (s : State) : State :=
  match s.pause with
  | some p =>
    if p.st ≠ 3 then s
    else
      let left := p.clus.filter (fun n => decide ((s.cl n).st = 3))
      if left = [] then { s with pause := none } else { s with pause := some { p with clus := left } }
  | none => s

/-- LOAD (R241, R367): a refusal answers its cause, section and entry. A poisoned image leaves everything undone: MEMERR
counts no byte (DEDUCED from R367). -/
def execLoad (r : Fin 16) (i : Word) (ecc : List (Nat × EccCase)) (s : State) : Host.Outcome State Fault Refusal :=
  let addr (w : Wb) : Nat := pPair w.params 3
  .next (s.startWb 0x200 r i.toNat (fun w => s.rangeUp (addr w) (max 256 (s.imageAt (addr w)).bs.length)) (fun s0 w =>
    let s := (s0.eccImage (addr w) ecc).mgmtTraffic false [(addr w, max 256 (s0.imageAt (addr w)).bs.length)]
    match s.loadImage (addr w) w.clus (decide (w.params.getD 0 0 / 2 ^ 30 = 1)) with
    | .poison _ => s.memErr r w 0
    | .refused c e => (if c = 9 then s.authFail else s).finish r w 0x0A [c, e.1, e.2]
    | .done s1 n id =>
      let s2 := w.clus.foldl (fun s k => s.wbWrote (ca k 0x800) 0x200 (2 ^ 32 - 1)) s1.trimPause
      s2.finish r w 0 (n :: pairOf id)))

/-- START (R242): the set begins its task walk at the boundary that begins S. -/
def execStart (r : Fin 16) (i : Word) (s : State) : Host.Outcome State Fault Refusal :=
  .next (s.startWb 0x201 r i.toNat always (fun s w =>
    match s.wrongState w.clus (fun st => decide (st ≠ 1) && decide (st ≠ 4)) with
    | some res => s.finish r w 8 res
    | none =>
      if pPair w.params 3 ≤ s.stageNo then s.finish r w 0x11 (pairOf s.stageNo)
      else s.setWb r { w with phase := 1, stage := pPair w.params 3 }))

/-- STOP (R242): running clusters stop at the end of the current stage. -/
def execStop (r : Fin 16) (i : Word) (s : State) : Host.Outcome State Fault Refusal :=
  .next (s.startWb 0x202 r i.toNat always (fun s w =>
    let runs := w.clus.filter (fun n => decide ((s.cl n).st = 2))
    (runs.foldl (fun s n => s.stopCl n 1) s).setWb r { w with phase := 2, done := w.clus.length - runs.length }))

/-- UNLOAD (R365). -/
def execUnload (r : Fin 16) (i : Word) (s : State) : Host.Outcome State Fault Refusal :=
  .next (s.startWb 0x203 r i.toNat always (fun s w =>
    match s.wrongState w.clus (fun st => decide (st = 2)) with
    | some res => s.finish r w 8 res
    | none =>
      let had := w.clus.filter (fun n => decide ((s.cl n).st ≠ 0))
      (had.foldl State.unload s).trimPause.evalMismatch.finish r w 0 [had.length]))

/-- Registers of a cluster, for a query's receipt. -/
def State.clWords (s : State) (n : Nat) (os : List Nat) : List Nat := os.map (fun o => (s.readReg (ca n o)).toNat)

/-- ITN_QUERY (R365, R260). -/
def execItnQuery (r : Fin 16) (i : Word) (s : State) : Host.Outcome State Fault Refusal :=
  .next (s.startWb 0x204 r i.toNat always (fun s w =>
    s.finish r w 0 (s.clWords (w.params.getD 0 0) [0xA00, 0xA04, 0xA08, 0xA0C, 0xA10])))

/-! Class 0x03: Loess -/

/-- The cause R226 refuses a waybill's job with: reserved values 2, other breaches of R224 and R225 and overlaps 1. -/
def jobRefusedBy (d : JobD) : Nat :=
  if d.reserved then 2
  else if !d.shapeOk || pastEnd d.srcExt.1 d.srcExt.2 || pastEnd d.idxExt.1 d.idxExt.2 || pastEnd d.dstExt.1 d.dstExt.2 then 1
  else 0

/-- JOB (R224 to R226): region fields are ignored; BEDROCK_JOB and JOB_COMPLETE run it. -/
def execJobWaybill (r : Fin 16) (i : Word) (ecc : List (Nat × EccCase)) (s : State) : Host.Outcome State Fault Refusal :=
  .next (s.startWb 0x300 r i.toNat (fun w => s.rangeUp (pPair w.params 0) 64) (fun s0 w =>
    let a := pPair w.params 0
    let s := (s0.eccReads [(a, 64)] mgmtWho ecc).mgmtTraffic false [(a, 64)]
    let bs := s.loessRead a 64
    let d := jobOf bs
    match s.firstPoison a 64 with
    | some _ => s.memErr r w 0
    | none =>
      if jobRefusedBy d ≠ 0 then (s.jobFault (Config.jobDie bs % 8) (jobRefusedBy d) 0 true).finish r w 0x0A [jobRefusedBy d]
      else
        (s.sendJob { src := .waybill r i, d := d, ord := s.jobOrd }).phaseWb r w 2))

/-- COPY (R365, R366): it stops at a poisoned codeword and leaves what it has written. -/
def execCopy (r : Fin 16) (i : Word) (ecc : List (Nat × EccCase)) (s : State) : Host.Outcome State Fault Refusal :=
  let up (w : Wb) : Bool := s.rangeUp (pPair w.params 0) (pPair w.params 4) && s.rangeUp (pPair w.params 2) (pPair w.params 4)
  .next (s.startWb 0x301 r i.toNat up (fun s0 w =>
    let src := pPair w.params 0
    let dst := pPair w.params 2
    let n := pPair w.params 4
    let s1 := (s0.eccReads [(src, n)] mgmtWho ecc).eccEdges dst n mgmtWho ecc
    let m := (s1.firstPoison src n).getD n
    let s := s1.mgmtTraffic false [(src, m), (dst, m)]
    match s1.firstPoison src n with
    | some d => (s.agentWrite dst (s.loessRead src d) mgmtWho).memErr r w d
    | none => (s.agentWrite dst (s.loessRead src n) mgmtWho).finish r w 0 (pairOf n)))

/-- HOLD (R229): LSM_CTL.HOLD of the stacks is written under ARM; the receipt follows entry or exit. -/
def execHold (r : Fin 16) (i : Word) (s : State) : Host.Outcome State Fault Refusal :=
  .next (s.startWb 0x302 r i.toNat always (fun s w =>
    let p := w.params.getD 0 0
    let one (s : State) (k : Nat) : State :=
      if p.testBit k then (((s.plainWrite (.stack k) (sa k 4) (bits p 8 1)).armBlock (sa k 0xFF0)).wbWrote (sa k 4) 4 1).wbWrote (sa k 0xFF0) 4 3 else s
    ((List.range 8).foldl one s).phaseWb r w 2))

/-! Class 0x04: glaze -/

/-- GLOAD (R174, R177): the receipt follows when every bank is ready. -/
def execGload (r : Fin 16) (i : Word) (ecc : List (Nat × EccCase)) (s : State) : Host.Outcome State Fault Refusal :=
  .next (s.startWb 0x400 r i.toNat (fun w => s.rangeUp (pPair w.params 3) 8320) (fun s0 w =>
    let a := pPair w.params 3
    let s := (s0.eccReads [(a, 8320)] mgmtWho ecc).mgmtTraffic false [(a, 8320)]
    if w.clus.any (fun n => (s0.cl n).gbusy) then s0.finish r w 7 [0xFF]
    else match s.firstPoison a 8320 with
      | some _ => s.memErr r w 0
      | none =>
        let l : GLoad := { addr := a, epoch := w.params.getD 5 0, wb := some (r.val, w.ix, s.loessRead a 8320) }
        (w.clus.foldl (fun s n => s.setCl n ((s.cl n).requestLoad l)) s).phaseWb r w 2))

/-- GSWITCH (R176): the receipt follows the next boundary. -/
def execGswitchWaybill (r : Fin 16) (i : Word) (s : State) : Host.Outcome State Fault Refusal :=
  .next (s.startWb 0x401 r i.toNat always (fun s w =>
    (w.clus.foldl (fun s n => s.setCl n { s.cl n with gswitch := true }) s).phaseWb r w 2))

/-- GLZ_QUERY (R365, R181). -/
def execGlzQuery (r : Fin 16) (i : Word) (s : State) : Host.Outcome State Fault Refusal :=
  .next (s.startWb 0x402 r i.toNat always (fun s w =>
    s.finish r w 0 (s.clWords (w.params.getD 0 0) [0x304, 0x308, 0x30C, 0x318, 0x31C])))

end Sys2Proof.Machine
end

