-- ==== Sys2Proof/Machine/Waybills2.lean ====
section
/-! DEFINITION. Waybills of classes 0x05 to 0x08 and 0x0A (13_waybills_and_receipts.md, R365). -/

namespace Sys2Proof.Machine

/-! Class 0x05: calibration (R139, R140, R144) -/

def f32One : Nat := 0x3F800000
def f32Inf : Nat := 0x7F800000

/-- A binary32 code's value. -/
def f32Real (c : Nat) : Rat := (decodeVal .bin32 c).1.real

/-- Every P, or every N, over the D entries of a slot in the clusters of a set. -/
def State.windowCodes (s : State) (clus : List Nat) (slot : Nat) (neg : Bool) : List Nat :=
  clus.flatMap (fun n => (List.range (s.depth n)).map (fun e =>
    let x := sget noWin (s.cl n).wins (slot * 16 + e)
    if neg then x.2 else x.1))

/-- A scale proposal (R140): the status and the five result words for the largest P and N as binary32 codes. -/
def proposal (asym int4 : Bool) (p n : Nat) : Nat × List Nat :=
  let qmin : Int := if int4 then -8 else -128
  let qmax : Nat := if int4 then 7 else 127
  let free (k : Nat) : Nat := (Config.proposal p n k).toNat
  if p = f32Inf ∨ n = f32Inf then (0x0B, [0, 0, p, n])
  else if f32Inf < p ∨ f32Inf < n then (0, [free 0, free 1 % 256, p, n, free 4 % 2])
  else if p = 0 ∧ n = 0 then (0, [f32One, if asym then bitsOf 8 qmin else 0, p, n, 1])
  else if !asym then (0, [(f32OfReal (f32Real (max p n) / (qmax : Rat))).code, 0, p, n, 0])
  else
    let sum := (f32Add p n).code
    let st := if sum = f32Inf then f32Inf else (f32OfReal (f32Real sum / ((2 * qmax : Nat) : Rat))).code
    if st = f32Inf then (0, [st, bitsOf 8 qmin, p, n, 0])
    else if st = 0 then (0, [st, free 1 % 256, p, n, 0])
    else
      let ratio := (f32OfReal (f32Real n / f32Real st)).code
      if ratio = f32Inf then (0, [st, free 1 % 256, p, n, 0])
      else (0, [st, bitsOf 8 (qmin - (-(f32Real ratio)).floor), p, n, 0])

/-- PROPOSE (R140). -/
def execPropose (r : Fin 16) (i : Word) (s : State) : Host.Outcome State Fault Refusal :=
  .next (s.startWb 0x500 r i.toNat always (fun s w =>
    let p3 := w.params.getD 3 0
    let top (neg : Bool) : Nat := (s.windowCodes w.clus (p3 % 16) neg).foldl max 0
    let a := proposal (p3.testBit 4) (p3.testBit 5) (top false) (top true)
    s.finish r w a.1 a.2))

/-- WCLEAR (R144, R360): refused while a named slot records. -/
def execWclear (r : Fin 16) (i : Word) (s : State) : Host.Outcome State Fault Refusal :=
  .next (s.startWb 0x501 r i.toNat always (fun s w =>
    let slots := (List.range 16).filter (fun k => (w.params.getD 3 0).testBit k)
    let busy := w.clus.filter (fun n => slots.any (s.recording n))
    if busy ≠ [] then (busy.foldl (fun s n => s.busyW (.cluster n)) s).finish r w 7 [0xFF, 0, 0, 0, 0x204]
    else
      let clear (c : Cluster) : Cluster :=
        { c with wins := c.wins.filter (fun e => !slots.contains (e.1 / 16)), fill := c.fill.filter (fun e => !slots.contains e.1) }
      let s1 := w.clus.foldl (fun s n => s.setCl n (clear (s.cl n))) s
      ({ s1 with wbSlots := w.clus.flatMap (fun n => slots.map (fun k => (n, k))) ++ s1.wbSlots } : State).finish r w 0 [w.clus.length]))

/-! Class 0x06: caravan (R317, R322, R323) -/

/-- The route book an image carries; none when the image or the book is invalid, or has no module `own` (R322 cause 1). -/
def Img.book (i : Img) (own : Nat) : Option Book :=
  let bs := (i.bs.drop (i.g 44 4)).take (i.g 48 4)
  if i.fail1.isSome || !i.routed || !bookOk bs || decide ((bookOf bs).mods.length ≤ own) then none else some (bookOf bs)

/-- R322: the first check a muster fails, 0 when it may go on. A peer that had no module number when its port trained shows 0. -/
def State.musterCause (s : State) (book : Option Book) (own : Nat) : Nat :=
  match book with
  | none => 1
  | some b =>
    let used := (b.portsOf own).zipIdx.filter (fun e => decide (e.1.role ≠ 0))
    let tree := used.filter (fun e => decide (e.1.role = 1) || decide (e.1.role = 2))
    let stranger (e : PortE × Nat) : Bool :=
      (s.reg (pa e.2 8)).getLsbD 13 && (decide (s.fld (pa e.2 8) 9 4 ≠ e.1.pport) ||
        (decide (s.fld (pa e.2 8) 0 9 ≠ e.1.peer) && decide (s.fld (pa e.2 8) 0 9 ≠ 0)))
    let slowest : Int := tree.foldl (fun m e => max m (s.delay2 e.2)) 0
    let votes : Bool := decide (b.voteKc ≤ 4096) && decide (64 ≤ b.voteKc) &&
      decide ((b.depth : Int) * slowest ≤ ((b.voteKc - 64) * s.ticksPerKc : Nat))
    let links := (List.range 128).flatMap (fun j => (List.range 8).map (fun k => s.fld (0x1400 + 4 * j) (4 * k) 4))
    if used.any stranger then 3
    else if used.any (fun e => decide (s.lnk e.2 ≠ 2)) then 4
    else if s.anyRuns.isSome then 6
    else if s.clkStep ≠ b.stepk then 7
    else if decide (4 < b.depth) || (List.range b.mods.length).any (fun m => (b.hops 4 m).isNone) || !votes then 9
    else if decide (tree ≠ []) && !(links.contains 2) && !(links.contains 15) then 10
    else 0

/-- A muster begins (R323). -/
def State.musterBegin (s : State) (b : Book) (own s0 : Nat) (wb : Nat × Nat) : State :=
  let s1 := s.leaveDomain.mapCl (fun c => { c with rseq := [] })
  let s2 : State := { s1 with cvn := { book := some b, s0 := s0, wb := some wb } }
  let s3 := s2.setRegN 0x500000 (1 + (if b.lead = own then 8 else 0) + own * 16)
  (s3.setReg64 0x500004 b.rbid).musterStep

/-- MUSTER (R322, R323, R367). -/
def execMuster (r : Fin 16) (i : Word) (s : State) (ecc : List (Nat × EccCase) := []) : Host.Outcome State Fault Refusal :=
  let size (w : Wb) : Nat := max 256 (s.imageAt (pPair w.params 3)).bs.length
  .next (s.startWb 0x600 r i.toNat (fun w => s.rangeUp (pPair w.params 3) (size w)) (fun s0 w =>
    let a := pPair w.params 3
    let s := (if pastEnd a 256 then s0 else s0.eccImage a ecc).mgmtTraffic false (if pastEnd a 256 then [] else [(a, size w)])
    let own := w.params.getD 0 0
    match (if pastEnd a 256 then none else s.firstPoison a (size w)) with
    | some d => s.memErr r w d
    | none =>
      let book := if pastEnd a 256 then none else (s.imageAt a).book own
      let s1 := s.phaseWb r w 2
      match book, s.musterCause book own with
      | some b, 0 => s1.musterBegin b own (pPair w.params 1) (r.val, w.ix)
      | _, c => ({ s1 with cvn := { s1.cvn with wb := some (r.val, w.ix) } } : State).musterFail c))

/-- PORT (R317, R318): the receipt follows when the port has reached the state. A port that is not quiesced or down cannot be
trained, one that does not run cannot be quiesced. -/
def execPort (r : Fin 16) (i : Word) (s : State) : Host.Outcome State Fault Refusal :=
  .next (s.startWb 0x601 r i.toNat always (fun s w =>
    let p := portNo w
    let st := s.lnk p
    let s1 := s.phaseWb r w 2
    match portOp w with
    | 0 => if st = 2 ∨ st = 3 then (s1.portQuiesce p).portReceipts p else s.finish r w 8 [p, st]
    | 1 => if st = 3 ∨ st = 4 then s1.portRetrain p else s.finish r w 8 [p, st]
    | 2 => ((s1.portEnable p).portReceipts p).wbWrote (pa p 4) 4 1
    | _ => (s1.portDisable p).wbWrote (pa p 4) 4 1))

/-- DISBAND (R365). -/
def execDisband (r : Fin 16) (i : Word) (s : State) : Host.Outcome State Fault Refusal :=
  .next (s.startWb 0x602 r i.toNat always (fun s w =>
    match s.anyRuns with
    | some res => s.finish r w 8 res
    | none => let s1 := s.leaveDomain; s1.finish r w 0 [s1.regN 0x500000]))

/-! Class 0x07: pause, save, resume (R294 to R300) -/

/-- PAUSE (R294): while another pause waits or settles, the set is in the wrong state. -/
def execPause (r : Fin 16) (i : Word) (s : State) : Host.Outcome State Fault Refusal :=
  .next (s.startWb 0x700 r i.toNat always (fun s w =>
    let n := w.clus.headD 0
    match s.pause with
    | some { st := 1, .. } | some { st := 2, .. } => s.finish r w 8 [n, (s.cl n).st]
    | _ => ({ s with pause := some { clus := w.clus, b := pPair w.params 3, wb := some (r.val, w.ix) } } : State).phaseWb r w 1))

/-- SAVE (R295, R296). -/
def execSave (r : Fin 16) (i : Word) (ecc : List (Nat × EccCase)) (s : State) : Host.Outcome State Fault Refusal :=
  let size : Nat := match s.pause with | some p => 4096 + recSize * p.clus.length | none => 0
  .next (s.startWb 0x701 r i.toNat (fun w => s.rangeUp (pPair w.params 0) size) (fun s w =>
    match s.pause with
    | none => s.finish r w 8 [(Config.openWord 0x701 0).toNat, (Config.openWord 0x701 1).toNat]
    | some p =>
      if p.st ≠ 3 then s.finish r w 8 [(Config.openWord 0x701 0).toNat, (Config.openWord 0x701 1).toNat]
      else if pastEnd (pPair w.params 0) size then s.finish r w 5 [0]
      else
        let img := s.saveImage p
        let a := pPair w.params 0
        let s1 := (((s.noteSaved p).eccEdges a img.1.length mgmtWho ecc).mgmtTraffic true [(a, img.1.length)]).agentWrite a img.1 mgmtWho
        s1.draw.finish r w 0 (pairOf img.1.length ++ pairOf img.2)))

/-- RESTORE (R299). -/
def execRestore (r : Fin 16) (i : Word) (ecc : List (Nat × EccCase)) (s : State) : Host.Outcome State Fault Refusal :=
  let a (w : Wb) : Nat := pPair w.params 0
  .next (s.startWb 0x702 r i.toNat (fun w => s.rangeUp (a w) (4096 + recSize * leAt (s.loessRead (a w) 32) 24 4)) (fun s0 w =>
    if pastEnd (a w) 4096 then s0.finish r w 0x0A [1, 0]
    else
      let n := 4096 + recSize * leAt (s0.loessRead (a w) 32) 24 4
      let s := (s0.eccSaved (a w) ecc).mgmtTraffic true [(a w, n)]
      match s.restoreImage (a w) with
      | .poison _ => s.memErr r w 0
      | .refused c k => s.finish r w 0x0A [c, k]
      | .done s1 n => (s1.presentList.foldl (fun s k => if (s.cl k).st = 3 then s.wbWrote (ca k 0) 0x1000 (2 ^ 32 - 1) else s) s1).finish r w 0 [n]))

/-- RESUME (R300): only stopped clusters; the set runs from the boundary that begins Q. -/
def execResume (r : Fin 16) (i : Word) (s : State) : Host.Outcome State Fault Refusal :=
  .next (s.startWb 0x703 r i.toNat always (fun s w =>
    match s.wrongState w.clus (fun st => decide (st ≠ 3)) with
    | some res => s.finish r w 8 res
    | none =>
      if pPair w.params 3 ≤ s.stageNo then s.finish r w 0x11 (pairOf s.stageNo)
      else s.setWb r { w with phase := 1, stage := pPair w.params 3 }))

/-! Class 0x08: telemetry and checks -/

/-- A signed 16-bit reading as a result word. -/
def signWord (x : Nat) : Nat := bitsOf 32 (signedOf 16 x)

/-- SENSORS. -/
def execSensors (r : Fin 16) (i : Word) (s : State) : Host.Outcome State Fault Refusal :=
  .next (s.startWb 0x800 r i.toNat always (fun s w =>
    s.finish r w 0 [s.regN 0x20001C, s.regN 0x200020, signWord (s.fld 0x200024 0 16), signWord (s.fld 0x200028 0 16), s.regN 0x200018]))

/-- CHECKSUM. -/
def execChecksum (r : Fin 16) (i : Word) (ecc : List (Nat × EccCase)) (s : State) : Host.Outcome State Fault Refusal :=
  .next (s.startWb 0x801 r i.toNat (fun w => s.rangeUp (pPair w.params 0) (pPair w.params 2)) (fun s0 w =>
    let a := pPair w.params 0
    let n := pPair w.params 2
    let s := (s0.eccReads [(a, n)] mgmtWho ecc).mgmtTraffic false [(a, n)]
    let p4 := w.params.getD 4 0
    match s.firstPoison a n with
    | some d => s.memErr r w d
    | none =>
      let bs := s.loessRead a n
      let v := if p4.testBit 0 then (crc64 0 bs).toNat else (crc32c 0 bs).toNat
      let want := if p4.testBit 0 then pPair w.params 5 else w.params.getD 5 0
      s.finish r w (if p4.testBit 1 && decide (v ≠ want) then 0x10 else 0) (pairOf v)))

/-! Class 0x0A: power (R398, R399, R401, R402, R412) -/

/-- Transitions of R399. -/
def pstateMoves (x y : Nat) : Bool := [(0, 1), (0, 2), (0, 3), (1, 0), (1, 2), (1, 3), (2, 0), (2, 3), (3, 0)].contains (x, y)

/-- A transition begins. ACTIVE in phase 5 of a service sequence acts as its cancel (R423). -/
def State.pstateBegin (s : State) (t : Nat) : State :=
  match s.pstate, t with
  | 3, _ => (if s.svcPhase = 5 then (s.svcEvent 40).setSvcPhase 0 else s).leaveStandby
  | 2, 0 => s.leaveHold
  | 2, _ => s.enterStandby.svcRetry
  | _, _ => { s.setFld 0x200000 1 3 4 with trans := some (t, false) }

/-- PSTATE (R399). -/
def execPstate (r : Fin 16) (i : Word) (s : State) : Host.Outcome State Fault Refusal :=
  .next (s.startWb 0xA00 r i.toNat (fun _ => s.trans.isNone) (fun s w =>
    let t := w.params.getD 0 0
    if !pstateMoves s.pstate t then s.finish r w 8 [(Config.openWord 0xA00 0).toNat, s.pstate]
    else if s.pstate < 2 ∧ 2 ≤ t then
      match s.anyRuns with
      | some res => s.finish r w 8 res
      | none =>
        if s.dstate ≠ 0 then s.finish r w 8 [(Config.openWord 0xA00 1).toNat, s.dstate]
        else (s.phaseWb r w 2).pstateBegin t
    else (s.phaseWb r w 2).pstateBegin t))

/-- CAP (R412): the shadow is written and armed; a cap that the footprint no longer allows is refused as the host's is (R360). -/
def execCap (r : Fin 16) (i : Word) (s : State) : Host.Outcome State Fault Refusal :=
  .next (s.startWb 0xA01 r i.toNat always (fun s w =>
    if s.gradeMax < w.params.getD 0 0 then (s.busyW .power).finish r w 7 [0xFF, 0, 0, 0, 0x0C]
    else ((((s.plainWrite .power 0x20000C (w.params.getD 0 0)).armBlock 0x200FF0).wbWrote 0x20000C 4 0xFFFF).wbWrote 0x200FF0 4 3).phaseWb r w 2))

/-- KSTEP (R401). -/
def execKstep (r : Fin 16) (i : Word) (s : State) : Host.Outcome State Fault Refusal :=
  .next (s.startWb 0xA02 r i.toNat always (fun s w =>
    match s.anyRuns with
    | some res => s.finish r w 8 res
    | none =>
      if s.mustered then s.finish r w 8 [(Config.openWord 0xA02 0).toNat, s.dstate]
      else ({ s with kstepTo := some (w.params.getD 0 0) } : State).phaseWb r w 2))

end Sys2Proof.Machine
end

