-- ==== Sys2Proof/Machine/BootCmds.lean ====
section
/-! DEFINITION. Update packages, verified boot, firmware switch, attestation (18_boot_identity_attestation.md, R434 to R442;
17_service_and_live_change.md, R430). -/

namespace Sys2Proof.Machine

/-! Counters, revocations, measurements -/

/-- Anti-rollback counter of a target (R434). -/
def State.arb (s : State) (t : Nat) : Nat := sget zeroNat s.boot.cnt t

/-- A counter rises to an SVN and root slots are revoked (R435). -/
def State.fuse (s : State) (t : Nat) (b : FwBank) : State :=
  { s with boot := { s.boot with
      cnt := sput zeroNat s.boot.cnt t (max (s.arb t) (min b.svn 64))
      revoked := (s.boot.revoked ||| b.revoke) % 16 } }

def State.bankOf (s : State) (b : Bool) : FwBank := if b then s.boot.fw1 else s.boot.fw0
def State.setBankOf (s : State) (b : Bool) (x : FwBank) : State :=
  { s with boot := if b then { s.boot with fw1 := x } else { s.boot with fw0 := x } }

/-- The R433 cause a package of target t in flash fails with (R437, R439), 0 when it verifies. -/
def State.storedCause (s : State) (t : Nat) (b : FwBank) : Nat :=
  if !b.ok then 1 else if s.boot.revoked.testBit b.root then 2 else if b.svn < s.arb t then 6 else 0

/-- The same for a management bank. -/
def State.bankCause (s : State) (b : FwBank) : Nat := s.storedCause 0 b

/-- The bedrock image of stack k as delivered. -/
def deliveredBed (k : Nat) : FwBank :=
  { version := Config.bedrockVersion k, svn := min (Config.bedrockSvn k) 64, digest := (List.range 48).map (Config.bootDigest 2 k) }

/-- The bedrock image stack k starts with, and the other one stored: both as delivered until an update has run there. -/
def State.bedOf (s : State) (k : Nat) : FwBank := (sget noFw s.boot.beds k).getD (deliveredBed k)
def State.bedBefore (s : State) (k : Nat) : FwBank := (sget noFw s.boot.bedsOld k).getD (deliveredBed k)

/-! UPDATE (R435, R436, R438) -/

/-- Payload limits by target. -/
def payloadMax (t : Nat) : Nat := match t with | 0 => 2 ^ 24 | 1 => 2 ^ 21 | 2 => 8320 | _ => 2 ^ 14

/-- Offset of the signature block. -/
def sigOffset (paylen : Nat) : Nat := (128 + paylen + 7) / 8 * 8

/-- R433 cause 1 on the header of a package for target t, `len` being P2; `slot` is the root slot that verifies it. -/
def packageOk (g : Grade) (bs : List Byte) (t len : Nat) (slot : Option Nat) : Bool :=
  let f := leAt bs
  decide (bs.take 4 = [0x55#8, 0x50#8, 0x4B#8, 0x47#8]) && decide (f 4 2 = 1) && decide (f 6 1 = t) &&
  (f 7 1).testBit (if g = .xa2048 then 0 else 1) && decide (f 7 1 < 4) && decide (f 12 1 ≤ 64) && decide (f 13 1 < 16) &&
  !(match slot with | some k => (f 13 1).testBit k | none => false) &&
  decide (f 14 2 = 0) && decide (f 16 4 ≤ payloadMax t) && ((bs.drop 20).take 108).all (fun b => b = 0) &&
  decide (len = sigOffset (f 16 4) + 5432)

/-- The R433 cause a package fails with, 0 when it verifies. -/
def State.packageCause (s : State) (bs : List Byte) (t : Nat) : Nat :=
  let pay := leAt bs 16 4
  let blk := if pay ≤ payloadMax t then (bs.drop (sigOffset pay)).take 5432 else []
  let slot := s.rootSlot (sha384 (sigKeys blk))
  s.sigCause 0 (packageOk s.grade bs t bs.length slot) blk (bs.take (128 + pay)) (decide (leAt bs 12 1 < s.arb t))

/-- What a verified package brings. -/
def State.packageBank (s : State) (bs : List Byte) : FwBank :=
  let pay := leAt bs 16 4
  let blk := (bs.drop (sigOffset pay)).take 5432
  { version := BitVec.ofNat 32 (leAt bs 8 4), svn := leAt bs 12 1, digest := sha384 (bs.take (128 + pay))
    root := (s.rootSlot (sha384 (sigKeys blk))).getD 0, revoke := leAt bs 13 1 }

def payloadOf (bs : List Byte) : List Byte := (bs.drop 128).take (leAt bs 16 4)

/-- A verified package is written to flash; target 1 restarts its stack (R231), the others have their receipt at once. -/
def State.installPackage (s : State) (r : Nat) (w : Wb) (t : Nat) (bs : List Byte) : State :=
  let b := s.packageBank bs
  let done (s : State) : State := (s.finish r w 0 [b.version.toNat, s.arb t]).svcRetry
  match t with
  | 0 =>
    if s.boot.recovery then
      let x := !s.boot.sel
      let s1 := s.setBankOf x b
      done { s1 with boot := { s1.boot with sel := x, rise := true } }
    else done (s.setBankOf (!s.boot.act) b)
  | 1 =>
    let k := w.params.getD 3 0 / 256
    let s1 : State := { s with boot := { s.boot with bedsOld := sput noFw s.boot.bedsOld k (some b) } }
    ((s1.setStack k 6).setDie k { s1.die k with fwNew := some b }).phaseWb r w 2
  | 2 => done (({ s with boot := { s.boot with glz := some (payloadOf bs, b) } } : State).fuse 2 b)
  | _ => done (({ s with boot := { s.boot with rtn := some (payloadOf bs, b) } } : State).fuse 3 b)

/-- UPDATE (R365, R436): the package is verified whole before anything is written. -/
def execUpdate (r : Fin 16) (i : Word) (ecc : List (Nat × EccCase)) (s : State) : Host.Outcome State Fault Refusal :=
  let up (w : Wb) : Bool := s.rangeUp (pPair w.params 0) (w.params.getD 2 0)
  .next (s.startWb 0x900 r i.toNat up (fun s0 w =>
    let a := pPair w.params 0
    let n := w.params.getD 2 0
    let s := (s0.eccReads [(a, n)] mgmtWho ecc).mgmtTraffic false [(a, n)]
    let t := w.params.getD 3 0 % 16
    let k := w.params.getD 3 0 / 256
    if t = 1 ∧ s.stackState k ≠ 4 then s0.finish r w 8 [k, s.stackState k]
    else match s.firstPoison a n with
      | some _ => s.memErr r w 0
      | none =>
        let bs := s.loessRead a n
        let c := s.packageCause bs t
        if c ≠ 0 then s.authFail.finish r w 0x0D [c] else s.installPackage r w t bs))

/-- Power is lost while the flash is being written for an UPDATE that has passed its checks (R436): the copy under way is invalid. -/
def State.tornWrite (s : State) : State :=
  let ws := (List.range 16).flatMap (fun r => (s.ring r).taken.filter (fun w => decide (w.opc = 0x900) && decide (1 ≤ w.phase)))
  match ws.head? with
  | none => s
  | some w =>
    let bs := s.loessRead (pPair w.params 0) (w.params.getD 2 0)
    let t := w.params.getD 3 0 % 16
    let k := w.params.getD 3 0 / 256
    if s.packageCause bs t ≠ 0 then s
    else
      let b : FwBank := { s.packageBank bs with ok := false }
      match t with
      | 0 => s.setBankOf (if s.boot.recovery then !s.boot.sel else !s.boot.act) b
      | 1 => { s with boot := { s.boot with bedsOld := sput noFw s.boot.bedsOld k (some b) } }
      | 2 => { s with boot := { s.boot with glz := some (payloadOf bs, b) } }
      | _ => { s with boot := { s.boot with rtn := some (payloadOf bs, b) } }

/-- BROWN_OUT (R395): every domain goes off, the module is OFF; `torn` when it cuts short a write to flash. -/
def execBrownOut (s : State) (torn : Bool := false) : Host.Outcome State Fault Refusal :=
  .next ((if torn then s.tornWrite else s).afreshKeeping .por 0)

/-- The waybill that updates stack k. -/
def State.bedrockWb (s : State) (k : Nat) : Option (Nat × Wb) :=
  (List.range 16).findSome? (fun r =>
    ((s.ring r).taken.find? (fun w => decide (w.opc = 0x900) && decide (w.phase = 2) && decide (w.params.getD 3 0 = 1 + 256 * k))).map
      (fun w => (r, w)))

/-- A bedrock engine runs a new image: version, measurement M2, and the counter once every stack runs it (R440). -/
def State.bedRuns (s : State) (k : Nat) (b : FwBank) : State :=
  let s1 := s.setReg (sa k 0x3C) b.version
  let s2 := ({ s1 with boot := { s1.boot with
    beds := sput noFw s1.boot.beds k (some b), bedsOld := sput noFw s1.boot.bedsOld k (some (s1.bedOf k)) } } : State).measure 2 b.digest
  if (List.range 8).all (fun j => decide ((s2.bedOf j).svn = b.svn)) then s2.fuse 1 b else s2

/-- BEDROCK_FW_RESTART (R231): the stack runs its new image, or returns to the previous one; either way it stays in HOLD. The
counter rises when all eight stacks run an image of this SVN. -/
def execBedrockFwRestart (k : Fin 8) (ok : Bool) (s : State) : Host.Outcome State Fault Refusal :=
  match (s.die k).fwNew with
  | none => .next s
  | some b =>
    if s.stackState k ≠ 6 then .next s
    else
      let s1 := (s.setStack k 4).setDie k { s.die k with fwNew := none, needArm := !ok }
      let s2 := if ok then s1.bedRuns k b else s1.setBits (sa k 0) 8
      match s.bedrockWb k with
      | none => .next s2.settleTrans
      | some (r, w) =>
        .next ((if ok then s2.finish r w 0 [b.version.toNat, s2.arb 1]
          else s2.finish r w 0x0A [(Config.openWord 0x900 0).toNat]).settleTrans.svcRetry)

/-! FWSWITCH (R430, R439) -/

/-- A bank runs: M1, ROOT, bank in force. -/
def State.runBank (s : State) (b : Bool) : State :=
  let s1 : State := { s.measure 1 (s.bankOf b).digest with boot := { (s.measure 1 (s.bankOf b).digest).boot with act := b } }
  s1.setFld 0x105000 1 2 (s.bankOf b).root

def bankNo (b : Bool) : Nat := if b then 1 else 0

/-- Interrupts that waited for the firmware are triggered (R430). -/
def State.heldIrqs (s : State) : State :=
  s.boot.irqs.foldl State.trigger { s with boot := { s.boot with irqs := [] } }

/-- FWSWITCH: the first act verifies the inactive bank and starts it; the second is the new bank's receipt. -/
def execFwswitch (r : Fin 16) (i : Word) (s : State) : Host.Outcome State Fault Refusal :=
  match s.boot.switching with
  | some (q, ix, b) =>
    if q ≠ r.val ∨ ix ≠ i.toNat then .next s
    else
      let s1 : State := { s with boot := { s.boot with switching := none, sel := b } }
      let s2 := ((s1.runBank b).fuse 0 (s.bankOf b)).heldIrqs
      match s2.wb r ix with
      | some w => .next ((s2.finish r w 0 [(s.bankOf b).version.toNat, bankNo b]).svcRetry)
      | none => .next s2
  | none =>
    .next (s.startWb 0x901 r i.toNat always (fun s w =>
      match s.anyRuns with
      | some res => s.finish r w 8 res
      | none =>
        let b := !s.boot.act
        if s.bankCause (s.bankOf b) ≠ 0 then s.authFail.finish r w 0x0A [1, bankNo s.boot.act]
        else
          let t := s.phaseWb r w 2
          { t with boot := { t.boot with switching := some (r.val, w.ix, b) } }))

/-- FWSWITCH_FALLBACK: the boot ROM has returned to the old bank, which extends M1 once more. -/
def execFwswitchFallback (s : State) : Host.Outcome State Fault Refusal :=
  match s.boot.switching with
  | none => .next s
  | some (q, ix, _) =>
    let s1 : State := { s with boot := { s.boot with switching := none } }
    let s2 := (s1.runBank s.boot.act).heldIrqs
    match s2.wb q ix with
    | some w => .next ((s2.finish q w 0x0A [1, bankNo s.boot.act]).svcRetry)
    | none => .next s2

/-! ATTEST (R440, R442) -/

/-- The 512 signed bytes of the report. -/
def State.reportHead (s : State) (nonce : List Nat) : List Byte :=
  let fw := s.bankOf s.boot.act
  [0x41#8, 0x54#8, 0x54#8, 0x52#8] ++ leBytes 2 1 ++ leBytes 2 0 ++ nonce.flatMap (leBytes 4) ++
  leBytes 16 Config.serial.toNat ++ leBytes 4 s.identReg ++ leBytes 4 s.footReg ++ leBytes 8 s.stageNo ++
  leBytes 4 fw.version.toNat ++ leBytes 1 (bankNo s.boot.act) ++ leBytes 3 0 ++
  (List.range 4).flatMap (fun t => leBytes 1 (s.arb t)) ++ leBytes 1 (s.fld 0x105000 1 2) ++ leBytes 1 s.boot.revoked ++
  leBytes 1 (s.fld 0x105008 0 2) ++ leBytes 1 0 ++ List.replicate 8 0#8 ++
  (List.range 8).flatMap (fun m => sget zeroMeas s.boot.meas m) ++ List.replicate 32 0#8

/-- The fused identity seeds (R440). The key pairs follow from them, at boot as at any later time. -/
def identitySeed (k : Nat) : List Byte := (List.range 32).map (Config.identitySeed k)

/-- The public keys of the device identity: EDPUB and MLPUB (R440). -/
def identityKeys : List Byte := edPublic (identitySeed 0) ++ mlPublic (identitySeed 1)

/-- The endorsement stored in flash: the vendor's, over the serial and the identity keys (R440). -/
def endorsement : List Byte :=
  sigBlock 3 (leBytes 16 Config.serial.toNat ++ identityKeys) ((List.range 32).map (Config.vendorSeed 0))
    ((List.range 32).map (Config.vendorSeed 1)) ((List.range 32).map Config.vendorRandom)

/-- The report: the signed bytes, the device's signature block, the stored endorsement (R442). -/
def State.report (s : State) (nonce : List Nat) : List Byte :=
  let head := s.reportHead nonce
  head ++ sigBlock 2 head (identitySeed 0) (identitySeed 1) ((List.range 32).map (Config.signRandom s.fresh)) ++ endorsement

/-- ATTEST. -/
def execAttest (r : Fin 16) (i : Word) (ecc : List (Nat × EccCase)) (s : State) : Host.Outcome State Fault Refusal :=
  .next (s.startWb 0x902 r i.toNat (fun w => s.rangeUp (pPair w.params 0) 11376) (fun s w =>
    let a := pPair w.params 0
    let s1 := (s.eccEdges a 11376 mgmtWho ecc).mgmtTraffic false [(a, 11376)]
    (s1.agentWrite a (s1.report ((w.params.drop 2).take 8)) mgmtWho).draw.finish r w 0 [11376]))

end Sys2Proof.Machine
end

