-- ==== Sys2Proof/Machine/Events.lean ====
section
/-! DEFINITION. Delivery of event records and telemetry (R445, R450, R451, R454 to R456). -/

namespace Sys2Proof.Machine

/-- The management firmware runs (R430, R462). -/
def State.firmwareRuns (s : State) : Bool := decide (3 ≤ s.phase) && !s.failed && s.boot.switching.isNone && !s.boot.recovery

/-- EVT_CTL.SIZE: records of the event ring. -/
def State.evSize (s : State) : Nat := 2 ^ s.fld 0x106000 1 4

/-- The 32 bytes of a record (R445); `phase` is FLAGS.PHASE. -/
def Ev.bytes (e : Ev) (phase : Nat) : List Byte :=
  leBytes 2 (evCode e.ix) ++ leBytes 1 e.scls ++ leBytes 1 (e.flags + phase * 128) ++ leBytes 2 e.unit ++ leBytes 2 e.kc ++
    leBytes 8 e.stage ++ leBytes 4 e.seq ++ leBytes 4 e.d0 ++ leBytes 4 e.d1 ++ leBytes 2 e.rep ++ leBytes 2 0

/-- Route k of a record can be served now, `done` being served (R450, R451): R while the ring has room, R and I while the Tether is up,
I once the ring write is done or R is clear. -/
def State.canServe (s : State) (e : Ev) (done k : Nat) : Bool :=
  let r := s.routeOf e.ix e.unit
  let ring := (s.reg 0x106000).getLsbD 0 && decide ((s.regN 0x10600C + 2 ^ 32 - s.regN 0x106010) % 2 ^ 32 < s.evSize)
  r.testBit k && !done.testBit k &&
  (match k with
    | 0 => ring && decide (s.tth = 1)
    | 1 => decide (s.tth = 1) && (!r.testBit 0 || done.testBit 0)
    | _ => true)

/-- The module's address on the sideband bus (R468): dynamic once it has been assigned on I3C. -/
def State.busAddr (s : State) : Nat :=
  if s.side.smbus then 0x60 + s.side.strap else if s.side.dyn ≠ 0 then s.side.dyn else 0x30 + s.side.strap

/-- One step of the packet error code of SMBus: polynomial x^8 + x^2 + x + 1. -/
def pecStep (c : Nat) (b : Byte) : Nat :=
  (List.range 8).foldl (fun c _ => if 128 ≤ c then (2 * c) % 256 ^^^ 7 else 2 * c) (c ^^^ b.toNat)

/-- A message on the sideband bus: on SMBus the PEC over the address byte of a read and the data follows (R468). -/
def State.sideSend (s : State) (bs : List Byte) : State :=
  let pec := (BitVec.ofNat 8 (s.busAddr * 2 + 1) :: bs).foldl pecStep 0
  { s with out := s.out ++ [.side (if s.side.smbus then bs ++ [BitVec.ofNat 8 pec] else bs)] }

/-- SB_ALERT_N goes low with an in-band interrupt on I3C (R468). -/
def State.alert (s : State) : State := if s.side.smbus then s else { s with out := s.out ++ [.ibi s.busAddr] }

/-- Serve a record on route k (R451). -/
def State.serveRoute (s : State) (e : Ev) (k : Nat) : State :=
  match k with
  | 0 =>
    let i := s.regN 0x10600C
    let base := s.regN 0x106004 + 2 ^ 32 * s.regN 0x106008
    (s.toHost 7 (.mem (base + 32 * (i % s.evSize)) (e.bytes (1 - i / s.evSize % 2)))).setRegN 0x10600C (i + 1)
  | 1 => s.trigger 16
  | 2 =>
    match s.side.recv with
    | some eid => s.sideSend (BitVec.ofNat 8 eid :: 0xF0#8 :: e.bytes 0)
    | none => s
  | _ => (s.capture noRank 0x106020 (1 + evCode e.ix * 2 ^ 16) []).alert

/-- Serve a record on every route that can take it now: the state and the routes served. -/
def State.serve (s : State) (e : Ev) : State × Nat :=
  (List.range 4).foldl (fun r k => if r.1.canServe e r.2 k then (r.1.serveRoute e k, r.2 + 2 ^ k) else r) (s, e.served)

/-- EVENT_DELIVER (R451): the first queued record that a route can take is served; it leaves the queue once every route set for its index
has been served. -/
def execEventDeliver (s : State) : Host.Outcome State Fault Refusal :=
  if !s.firmwareRuns then .next s
  else match s.queued.find? (fun e => decide (s.routeOf e.ix e.unit &&& (15 - e.served) = 0) || (List.range 4).any (s.canServe e e.served)) with
    | none => .next s
    | some e =>
      let r := s.serve e
      let left := r.1.routeOf e.ix e.unit &&& (15 - r.2)
      .next { r.1 with events := if left = 0 then r.1.events.erase e
                else r.1.events.map (fun x => if x = e then { e with served := r.2 } else x) }

/-! Telemetry (R454, R455) -/

/-- The domain a sensor's reading comes from is on. -/
def State.sensorOn (s : State) (n : Nat) : Bool :=
  if 4 ≤ n ∧ n ≤ 7 then (List.range 4).any (fun i => s.domainOn (128 + 4 * (n - 4) + i))
  else if 8 ≤ n ∧ n ≤ 15 then s.domainOn (144 + (n - 8))
  else decide (s.phase ≠ 0)

/-- A reading as a number: temperatures are signed. -/
def readingOf (n v : Nat) : Int := if 4 ≤ n then signedOf 32 v else (v : Int)

/-- A reading lies outside the ranges of operation (R395, R402, R426, R473): input voltage, coolant inlet, hottest die. -/
def beyondRange (n v : Nat) : Bool :=
  match n with
  | 1 => decide (v < 44000) || decide (60000 < v)
  | 16 => decide (readingOf 16 v < 150) || decide (400 < readingOf 16 v)
  | 17 => decide (1150 < readingOf 17 v)
  | _ => false

/-- Sensor n has a new reading: registers and warning. -/
def State.sense (s : State) (n v : Nat) : State :=
  if n = 0 then { s with drawNow := v }
  else
    let x := if n = 3 then s.fld 0x200010 0 16 else if s.sensorOn n then v else 0x8000
    let others := s.svc.beyond.filter (fun k => decide (k ≠ n))
    let s1 := ({ s with svc := { s.svc with beyond := if beyondRange n v then n :: others else others } } : State).setRegN (0x106100 + 4 * n) x
    let s2 := if n = 1 then { s1.setRegN 0x20001C x with svc := { s1.svc with uv := s1.svc.uv && decide (v < 44000) } }
      else if n = 2 then s1.setRegN 0x200020 x
      else if n = 16 then s1.setRegN 0x200028 (x % 2 ^ 16)
      else if n = 17 then s1.setRegN 0x200024 (x % 2 ^ 16)
      else s1
    let limit := readingOf n (s2.regN (0x106180 + 4 * n))
    if s2.regN (0x106180 + 4 * n) = 0 ∨ x = 0x8000 then s2
    else if limit < readingOf n x then
      if sget zeroBool s2.warned n then s2
      else ({ s2 with warned := sput zeroBool s2.warned n true } : State).raise 45 0 0 n x
    else if 32 * readingOf n x < 31 * limit then { s2 with warned := sput zeroBool s2.warned n false }
    else s2

/-- SENSOR_REFRESH (R454, R455). Reading 0 is the input power of the current stage (R403), in 0.1 W. -/
def execSensorRefresh (readings : List (Fin 18 × Word)) (s : State) : Host.Outcome State Fault Refusal :=
  if s.phase = 0 then .next s
  else .next (readings.foldl (fun s e => s.sense e.1.val e.2.toNat) s)

end Sys2Proof.Machine
end

