-- ==== Sys2Proof/Machine/HostAccess.lean ====
section
/-! DEFINITION. Accesses of the host through the Tether's two windows: their slots and their order (R374 to R376, R379), the rows of the
table that are reads and writes of registers, and what lets a waiting access go on. -/

namespace Sys2Proof.Machine

/-! What an access does, once it is its turn -/

/-- A read of the low word of a counter latches the high word (R11). An address that is not aligned is rejected (R10, R375). -/
def State.readCounter (s : State) (a : Nat) : State :=
  if a % 4 ≠ 0 then (if s.tth = 1 then (s.tthErr 1 2 a).completeWord a 0xFFFFFFFF#32 else s)
  else match winOf a with
  | none => s.answerRead a
  | some w => if pairLow w (a - w.base) && s.winOn w then (s.hold (a + 4)).answerRead a else s.answerRead a

/-- A register is written; an address that is not aligned is rejected (R10, R375). -/
def State.hostWriteReg (s : State) (a v : Nat) : State :=
  if a % 4 ≠ 0 then (if s.tth = 1 then s.tthErr 1 2 a else s) else s.writeReg a v

/-- LNK_CTL.ENABLE is written; what a PORT waybill has made of it in this kc stays (R317, R360). -/
def State.hostEnable (s : State) (p : Nat) (on : Bool) : State :=
  if s.wbMask (pa p 4) ≠ 0 then s else if on then s.portEnable p else s.portDisable p

/-- The effect of a host access (R279, R301, R317, R351, R356, R368, R383, R391 to R393, R404, R431, R457). -/
def State.perform (s : State) (i : HostAcc) : State :=
  let on (f : State) : State := if s.phase = 0 then s else f
  match i with
  | .loessRead addr len ecc => s.hostGet addr len ecc
  | .loessWrite addr data ecc => s.hostPut addr data ecc
  | .rejected write addr size => s.hostReject write addr size
  | .register addr v => s.hostWriteReg addr v
  | .counterRead addr => s.readCounter addr
  | .qntWposRead cl => (s.hold (ca cl 0x20C)).answerRead (ca cl 0x208)
  | .wbrDbRead r => ((s.hold (ra r 0x18)).hold (ra r 0x1C)).answerRead (ra r 0x14)
  | .arm w => if s.winOn (ArmWin.win w) then s.armBlock ((ArmWin.win w).base + 0xFF0) else s
  | .disarm w => if s.winOn (ArmWin.win w) then s.disarmBlock ((ArmWin.win w).base + 0xFF0) else s
  | .wbrDoorbell r tail => on (s.doorbell r tail)
  | .wbrEnable r v => on (s.writeRingCtl r v)
  | .wbrResume r => on (s.ringResume r)
  | .chkStart u => on (s.chkBegin u)
  | .chkCmp u => on (s.chkCompare u)
  | .chkFeed u n v => on (s.chkFeed u n v)
  | .glzSwitch cl => if s.winOn (.cluster cl) then s.setCl cl { s.cl cl with gswitch := true } else s
  | .drvDesc cl w v => if s.winOn (.cluster cl) then s.writeDesc cl w v else s
  | .footPin pin => on (s.writePin (if pin then 1 else 0))
  | .tndMode v => on (s.writeTnd v)
  | .evtEnable v => on (s.writeEvtCtl v)
  | .evtRd v => on (s.writeEvtRd v)
  | .imask v => if s.winOn .tether then s.writeImask v else s
  | .ipendClear v => if s.winOn .tether then s.plainWrite .tether 0x600024 v else s
  | .lnkEnable p e => s.hostEnable p e
  | .lnkRetrain p => s.portRetrain p
  | .lnkQuiesce p => s.portQuiesce p
  | .pwrEngrst mask => on (s.writeEngrst mask)
  | .pwrReset v => on (s.writeReset v)
  | .svcReq => s.svcRequest
  | .svcForce => s.svcForce
  | .svcCancel => s.svcCancel
  | .svcRelease => if s.svcPhase = 3 then s.startDrain else s

/-! Order (R379) -/

/-- An access to Loess memory, which the Tether and the stacks keep in order. -/
def HostAcc.loess (i : HostAcc) : Bool := match i with | .loessRead .. | .loessWrite .. => true | _ => false

/-- An access waits for nothing: a register access for every host write into Loess before it. -/
def State.inTurnNow (s : State) (i : HostAcc) : Bool := i.loess || !s.writesWait

/-- A register write takes a slot of the Tether, from the host (R376). -/
def HostAcc.slotted (i : HostAcc) : Bool := !i.reads && !i.loess && (match i with | .rejected .. => false | _ => true)

/-- An access of the host arrives (R376, R379): it acts at once, or waits behind those before it. With the Tether down what comes is the
module's own. -/
def State.hostAccess (s : State) (i : HostAcc) : State :=
  if s.tth ≠ 1 then s.perform i
  else
    let s1 := if i.slotted then s.fromHost 1 else s
    if s1.teth.later = [] ∧ s1.inTurnNow i then s1.perform i
    else { s1 with teth := { s1.teth with later := s1.teth.later ++ [i] } }

/-- The first waiting access acts, where its turn has come. -/
def State.hostNext (s : State) : State :=
  match s.teth.later with
  | [] => s
  | i :: rest => if s.inTurnNow i then ({ s with teth := { s.teth with later := rest } } : State).perform i else s

/-- Waiting accesses act, as many as may. -/
def State.hostOn (s : State) : State := s.teth.later.foldl (fun s _ => s.hostNext) s

/-- LOESS_WRITE (R215, R216, R219, R254): a register access that waited for it goes on (R379). -/
def execLoessWrite (k : Fin 8) (i : Nat) (ecc : List (Fin 8 × EccCase)) (s : State) : Host.Outcome State Fault Refusal :=
  .next (s.writeAt k i ecc).hostOn

/-- KILN_CYCLE. -/
def execKilnCycle (issued : List ClusterNo) (s : State) : Host.Outcome State Fault Refusal := .next (s.kilnCycle issued).hostOn

/-! The rows of the table -/

/-- HOST_LOESS_READ (R375, R376, R379). -/
def execHostLoessRead (addr len : Nat) (ecc : List (Nat × EccCase)) (s : State) : Host.Outcome State Fault Refusal :=
  .next (if s.tth ≠ 1 then s else s.hostAccess (.loessRead addr len ecc))

/-- HOST_LOESS_WRITE (R375, R376, R381). -/
def execHostLoessWrite (addr : Nat) (data : List Byte) (ecc : List (Nat × EccCase)) (s : State) :
    Host.Outcome State Fault Refusal := .next (if s.tth ≠ 1 then s else s.hostAccess (.loessWrite addr data ecc))

/-- REJECTED_REGISTER_ACCESS (R10, R375). -/
def execRejectedRegisterAccess (write : Bool) (addr : BitVec 43) (size : Nat) (s : State) : Host.Outcome State Fault Refusal :=
  .next (if s.tth ≠ 1 then s else s.hostAccess (.rejected write addr.toNat size))

/-- REGISTER_WRITE (R12, R374). -/
def execRegisterWrite (addr : Nat) (v : Word) (s : State) : Host.Outcome State Fault Refusal := .next (s.hostAccess (.register addr v.toNat))

/-- COUNTER_LOW_READ (R11), QNT_WPOS_READ (R144), WBR_DB_READ, which latches HEAD and DONE (R368). -/
def execCounterLowRead (addr : Nat) (s : State) : Host.Outcome State Fault Refusal := .next (s.hostAccess (.counterRead addr))
def execQntWposRead (cl : ClusterNo) (s : State) : Host.Outcome State Fault Refusal := .next (s.hostAccess (.qntWposRead cl))
def execWbrDbRead (r : Fin 16) (s : State) : Host.Outcome State Fault Refusal := .next (s.hostAccess (.wbrDbRead r))

/-- ARM and DISARM (R280). -/
def execArm (w : ArmWin) (s : State) : Host.Outcome State Fault Refusal := .next (s.hostAccess (.arm w))
def execDisarm (w : ArmWin) (s : State) : Host.Outcome State Fault Refusal := .next (s.hostAccess (.disarm w))

/-- WBR_DOORBELL (R351), WBR_ENABLE: a write of WBR_CTLr, WBR_RESUME (R356). -/
def execWbrDoorbell (r : Fin 16) (tail : Word) (s : State) : Host.Outcome State Fault Refusal := .next (s.hostAccess (.wbrDoorbell r tail.toNat))
def execWbrEnable (r : Fin 16) (v : Word) (s : State) : Host.Outcome State Fault Refusal := .next (s.hostAccess (.wbrEnable r v.toNat))
def execWbrResume (r : Fin 16) (s : State) : Host.Outcome State Fault Refusal := .next (s.hostAccess (.wbrResume r))

/-- CHK_START, CHK_CMP, CHK_FEEDB, CHK_FEEDH, CHK_FEEDW (R391 to R393). -/
def execChkStart (u : Fin 16) (s : State) : Host.Outcome State Fault Refusal := .next (s.hostAccess (.chkStart u))
def execChkCmp (u : Fin 16) (s : State) : Host.Outcome State Fault Refusal := .next (s.hostAccess (.chkCmp u))
def execChkFeedb (u : Fin 16) (v : Word) (s : State) : Host.Outcome State Fault Refusal := .next (s.hostAccess (.chkFeed u 1 v.toNat))
def execChkFeedh (u : Fin 16) (v : Word) (s : State) : Host.Outcome State Fault Refusal := .next (s.hostAccess (.chkFeed u 2 v.toNat))
def execChkFeedw (u : Fin 16) (v : Word) (s : State) : Host.Outcome State Fault Refusal := .next (s.hostAccess (.chkFeed u 4 v.toNat))

/-- GLZ_CTL_SWITCH (R179), DRV_DESC_WRITE (R210), GLB_FOOT_PIN_WRITE (R292), TND_MODE_WRITE: a write of TND_CTL (R301). -/
def execGlzCtlSwitch (cl : ClusterNo) (s : State) : Host.Outcome State Fault Refusal := .next (s.hostAccess (.glzSwitch cl))
def execDrvDescWrite (cl : ClusterNo) (w : Fin 16) (v : Word) (s : State) : Host.Outcome State Fault Refusal :=
  .next (s.hostAccess (.drvDesc cl w v.toNat))
def execGlbFootPinWrite (pin : Bool) (s : State) : Host.Outcome State Fault Refusal := .next (s.hostAccess (.footPin pin))
def execTndModeWrite (v : Word) (s : State) : Host.Outcome State Fault Refusal := .next (s.hostAccess (.tndMode v.toNat))

/-- EVT_ENABLE: a write of EVT_CTL, EVT_RD_WRITE (R457), TTH_IMASK_WRITE, TTH_IPEND_CLEAR (R383). -/
def execEvtEnable (v : Word) (s : State) : Host.Outcome State Fault Refusal := .next (s.hostAccess (.evtEnable v.toNat))
def execEvtRdWrite (v : Word) (s : State) : Host.Outcome State Fault Refusal := .next (s.hostAccess (.evtRd v.toNat))
def execTthImaskWrite (v : Word) (s : State) : Host.Outcome State Fault Refusal := .next (s.hostAccess (.imask v.toNat))
def execTthIpendClear (v : Word) (s : State) : Host.Outcome State Fault Refusal := .next (s.hostAccess (.ipendClear v.toNat))

/-- LNK_ENABLE, LNK_RETRAIN, LNK_QUIESCE: writes of LNK_CTL (R317). -/
def execLnkEnable (p : Fin 16) (on : Bool) (s : State) : Host.Outcome State Fault Refusal := .next (s.hostAccess (.lnkEnable p on))
def execLnkRetrain (p : Fin 16) (s : State) : Host.Outcome State Fault Refusal := .next (s.hostAccess (.lnkRetrain p))
def execLnkQuiesce (p : Fin 16) (s : State) : Host.Outcome State Fault Refusal := .next (s.hostAccess (.lnkQuiesce p))

/-- PWR_ENGRST, PWR_RESET_WRITE (R404). -/
def execPwrEngrst (mask : Word) (s : State) : Host.Outcome State Fault Refusal := .next (s.hostAccess (.pwrEngrst mask.toNat))
def execPwrResetWrite (v : Word) (s : State) : Host.Outcome State Fault Refusal := .next (s.hostAccess (.pwrReset v.toNat))

/-- SVC_REQ, SVC_FORCE, SVC_CANCEL, SVC_RELEASE: writes of SVC_CTL (R431). -/
def execSvcReq (s : State) : Host.Outcome State Fault Refusal := .next (s.hostAccess .svcReq)
def execSvcForce (s : State) : Host.Outcome State Fault Refusal := .next (s.hostAccess .svcForce)
def execSvcCancel (s : State) : Host.Outcome State Fault Refusal := .next (s.hostAccess .svcCancel)
def execSvcRelease (s : State) : Host.Outcome State Fault Refusal := .next (s.hostAccess .svcRelease)

end Sys2Proof.Machine
end

