-- ==== Sys2Proof/Machine/StartUp.lean ====
section
/-! DEFINITION. Start-up (16_power_clocks_and_reset.md, R409 to R411; R437, R438, R441), the test port (R469), the sideband
(R456, R468). -/

namespace Sys2Proof.Machine

/-- Start-up ends without READY (R410): FAIL, NOTREADY; `recovery` when neither management bank verifies (R438). -/
def State.startFail (s : State) (cause : Nat) (recovery : Bool) : State :=
  let s1 := s.setFld 0x200000 4 4 cause
  ({ s1 with boot := { s1.boot with recovery := recovery } } : State).readyReceipts 0x12 [cause]

/-- SEC_STATUS.BOOTERR (R437). -/
def State.bootErr (s : State) (c : Nat) : State := s.setFld 0x105000 7 4 c

/-- The boot ROM's fixed digest is measured (R441). -/
def State.measureRom (s : State) : State := s.measure 0 ((List.range 48).map (Config.bootDigest 0 0))

/-- Management bank b runs after the boot ROM (R437, R441). -/
def State.bootBank (s : State) (b : Bool) : State := s.measureRom.runBank b

/-- The measurements of the packages that verified boot has found good (R441). -/
def State.bootMeasure (s : State) : State :=
  let digest (t : Nat) (x : Option (List Byte × FwBank)) : List Byte :=
    match x with | some y => y.2.digest | none => (List.range 48).map (Config.bootDigest t 0)
  let s2 := (List.range 8).foldl (fun s k => s.measure 2 (s.bedOf k).digest) s
  let s3 := (s2.measure 3 (digest 3 s.boot.glz)).measure 4 (digest 4 s.boot.rtn)
  s3.measure 5 (sha384 (Config.fuseImage s.boot.revoked ((List.range 4).map s.arb)))

/-- Stack k starts with the image it ran before, where the stored one fails and that one verifies (R437). -/
def State.bootBed (s : State) (k : Nat) : State :=
  let c := s.storedCause 1 (s.bedOf k)
  if c = 0 then s
  else
    let s1 := s.authFail.bootErr c
    let c2 := s1.storedCause 1 (s1.bedBefore k)
    if c2 ≠ 0 then s1.authFail.bootErr c2
    else { s1 with boot := { s1.boot with
             beds := sput noFw s1.boot.beds k (some (s1.bedBefore k)), bedsOld := sput noFw s1.boot.bedsOld k (some (s1.bedOf k)) } }

/-- The running firmware verifies the stored packages (R437): a bedrock image that fails gives way to the other one, any other
failure ends start-up. The images as delivered count as verified by root slot 0. -/
def State.bootStored (s : State) : State :=
  let s1 := (List.range 8).foldl State.bootBed s
  let flash (t : Nat) (x : Option (List Byte × FwBank)) : Nat :=
    match x with | some y => s1.storedCause t y.2 | none => if s1.boot.revoked.testBit 0 then 2 else 0
  let g := flash 2 s1.boot.glz
  let r := flash 3 s1.boot.rtn
  if (List.range 8).any (fun k => decide (s1.storedCause 1 (s1.bedOf k) ≠ 0)) then s1.startFail 1 false
  else if g ≠ 0 then (s1.authFail.bootErr g).startFail 1 false
  else if r ≠ 0 then (s1.authFail.bootErr r).startFail 1 false
  else { s1.bootMeasure with phase := 3 }

/-- Phase B has ended well: the selected bank runs, or the other one where it fails (R437). In recovery the boot ROM has measured itself
(R438, R441). -/
def State.bootBanks (s : State) : State :=
  let a := s.bankCause (s.bankOf s.boot.sel)
  let b := s.bankCause (s.bankOf !s.boot.sel)
  if a = 0 then ((s.bootErr 0).bootBank s.boot.sel).bootStored
  else if b = 0 then ((s.authFail.bootErr a).bootBank (!s.boot.sel)).bootStored
  else ((s.authFail.authFail.bootErr b).measureRom).startFail 1 true

/-- Phase D begins: the remaining domains are on, enabled ports train. -/
def State.startD (s : State) : State :=
  (List.range 16).foldl (fun s p => if (s.reg (pa p 4)).getLsbD 0 then s.portEnable p else s) { s with phase := 4 }

/-- A default glaze image that an UPDATE has written fails the check of R172 (R410 cause 5). -/
def State.glazeBad (s : State) : Bool :=
  match s.boot.glz with
  | none => false
  | some (bs, _) => decide ((loadedBank 1 bs).fmt = 0)

/-- Phase D has ended well (R228, R231, R173). -/
def State.endD (s : State) : State :=
  let s1 := (List.range 8).foldl (fun s k =>
    (if s.stackState k = 1 then s.setStack k 2 else s).setReg (sa k 0x3C) (s.bedOf k).version) s
  let s2 := if s.boot.glz.isSome then s1.presentList.foldl (fun s n => s.setCl n s.newCluster) s1 else s1
  { s2 with loess := [], poison := [], sel := [], wr := [], written := [], phase := 5 }

/-- Default ration tables that an UPDATE has written to flash (R285, R408). -/
def State.loadRations (s : State) : State :=
  match s.boot.rtn with
  | none => s
  | some (bs, _) =>
    (List.range 640).foldl (fun s i =>
      let m := rwaMask (fldsRation (4 * i))
      if m = 0 then s else s.setRegN (0x1000 + 4 * i) (mixBits m (Config.rationOf bs (4 * i)).toNat (s.regN (0x1000 + 4 * i)))) s

/-- Ration tables that an UPDATE has written fail R271 (R410 cause 6). Tables once in force are not loaded again. -/
def State.rationsBad (s : State) : Bool := !s.ready && s.boot.rtn.isSome && !rationOk (fun a => s.loadRations.regN a)

/-- READY is raised (R411). -/
def State.raiseReady (s : State) : State :=
  let s1 := ((s.loadRations.setReg64 0x400 0).setFld 0x200000 0 1 1).setReg 0x20002C (Config.bootMs s.fresh)
  let f := s1.fuse 0 (s1.bankOf s1.boot.act)
  let s2 : State := if s.boot.rise then { f with boot := { f.boot with rise := false } } else s1
  (s2.draw.trigger 18).readyReceipts 0 s2.readyWords

/-- The end of phase E: the ledgers are checked (R278, R409); READY after a power-on or module reset, the end of a transition out of STANDBY. -/
def State.endE (s : State) : State :=
  let s1 := if s.ready then s.checkLedgers else s.checkLedgers.raiseReady
  let s2 : State := { s1.newKc with phase := 6, kc := 0, late := 0, hung := false, wheel := []
                                    tap := { s1.tap with waiting := false } }
  (if s2.trans.isSome then s2.pstateReached 0 else s2).svcRetry

/-- A phase has ended well. -/
def State.phaseDone (s : State) : State :=
  match s.phase with
  | 1 => if (s.reg 0x104004).getLsbD 9 && !s.side.rstLow then { s with phase := 2, held := false } else { s with held := true }
  | 2 => s.bootBanks
  | 3 => s.startD
  | 4 => if s.glazeBad then s.startFail 5 false else s.endD
  | 5 => if s.rationsBad then s.startFail 6 false else if s.tap.ir = 3 ∧ !s.ready then
      { s with tap := { s.tap with waiting := true } } else s.endE
  | _ => s

/-- A phase has failed: phases B to E with the causes R410 gives them. In phase B no management bank has verified, or a stored package has
failed under the selected one, which runs. -/
def State.phaseFailed (s : State) (cause : Nat) (recovery : Bool) : State :=
  match s.phase with
  | 2 =>
    let s1 := if recovery then s.authFail.measureRom else s.bootBank s.boot.sel
    (s1.authFail.draw.bootErr (1 + Config.bootErr s.fresh % 7)).startFail 1 recovery
  | 3 => s.startFail 2 false
  | 4 =>
    if cause = 3 then (s.draw.setStack (Config.failedStack s.fresh % 8) 7).startFail 3 false
    else s.startFail (if cause = 4 then 4 else 5) false
  | 5 => s.startFail 6 false
  | _ => s

/-- STARTUP_PHASE_DONE (R409, R410). After an 8 s press start-up stops here, in phase E without READY (R423). -/
def execStartupPhaseDone (r : PhaseEnd) (s : State) : Host.Outcome State Fault Refusal :=
  if s.phase = 0 || s.phase = 6 || s.failed || s.tap.waiting || s.held then .next s
  else
    let stop := s.svc.forcedDue && !s.ready
    let s1 := match r with
      | .done => if stop && decide (s.phase = 5) && !s.rationsBad then s else s.phaseDone
      | .failed c rec => s.phaseFailed c.toNat rec
    .next (if stop && !s1.failed then s1.startStopped else s1)

/-! The test access port (R469) -/

/-- Instructions that drive the contacts: before READY and in STANDBY. -/
def State.tapDrives (s : State) : Bool := !s.ready || decide (s.pstate = 3)

/-- An instruction is loaded; leaving EXTEST lets start-up that waits for it go on. -/
def State.tapLoad (s : State) (code : Nat) : State :=
  let s1 : State := { s with tap := { s.tap with ir := code } }
  if s1.tap.waiting && decide (code ≠ 3) then s1.endE else s1

def State.tapOut (s : State) (bs : List Bool) : State := { s with out := s.out ++ [.tdo bs] }

/-- The bypass register is shifted: it captures 0, and what goes in at TDI comes out a bit later. -/
def bypassed (tdi : List Bool) : List Bool := (false :: tdi).take tdi.length

/-- BYPASS: code 0xFF and every code that names no instruction. -/
def execBypass (s : State) (code : Byte := 0xFF#8) (tdi : List Bool := []) : Host.Outcome State Fault Refusal :=
  .next (if s.phase = 0 || (decide (1 ≤ code.toNat) && decide (code.toNat ≤ 5)) then s else (s.tapLoad 0xFF).tapOut (bypassed tdi))

/-- The 32 bits of IDCODE. -/
def State.idcode (s : State) : Nat :=
  match s.grade with | .xa2048 => 0xA204876B | .xa1792 => 0xA179276B

/-- IDCODE: shifted out from bit 0 on. -/
def execIdcode (s : State) : Host.Outcome State Fault Refusal :=
  .next (if s.phase = 0 then s else (s.tapLoad 1).tapOut ((List.range 32).map (fun i => s.idcode.testBit i)))

/-- The boundary cells capture what the contacts show, which is shifted out while `cells` go in. -/
def State.tapScan (s : State) (cells : List Bool) : State :=
  (({ s with tap := { s.tap with cells := cells } } : State).draw).tapOut ((List.range cells.length).map (Config.sampled s.fresh))

/-- SAMPLE/PRELOAD. -/
def execSamplePreload (cells : List Bool) (s : State) : Host.Outcome State Fault Refusal :=
  .next (if s.phase = 0 then s else (s.tapLoad 2).tapScan cells)

/-- An instruction that takes the contacts over, or BYPASS while it is not available. -/
def State.tapDrive (s : State) (code : Nat) : State := if s.tapDrives then s.tapLoad code else s.tapLoad 0xFF

/-- EXTEST: the cells drive the contacts, and are captured and shifted; where it is not available the bypass register is. -/
def execExtest (s : State) (cells : List Bool := []) : Host.Outcome State Fault Refusal :=
  .next (if s.phase = 0 then s else if s.tapDrives then (s.tapDrive 3).tapScan cells else (s.tapDrive 3).tapOut (bypassed cells))

/-- CLAMP and HIGHZ: the cells hold the contacts, or the contacts float; the bypass register is shifted. -/
def execClamp (s : State) (tdi : List Bool := []) : Host.Outcome State Fault Refusal :=
  .next (if s.phase = 0 then s else (s.tapDrive 4).tapOut (bypassed tdi))
def execHighz (s : State) (tdi : List Bool := []) : Host.Outcome State Fault Refusal :=
  .next (if s.phase = 0 then s else (s.tapDrive 5).tapOut (bypassed tdi))

/-! The sideband contacts (R467) -/

/-- A level at a contact. -/
inductive Level where
  | low
  | high
  | float
deriving DecidableEq, Repr

/-- What a contact shows when the module drives it to `own`: nothing in OFF or under HIGHZ, its boundary cell under EXTEST and CLAMP. -/
def State.contact (s : State) (cell : Nat) (own : Level) : Level :=
  if s.phase = 0 then .float
  else match s.tap.ir with
    | 3 | 4 => if s.tap.cells.getD (Config.boundaryCell cell) false then .high else .low
    | 5 => .float
    | _ => own

def State.sbReady (s : State) : Level := s.contact 0 (if s.ready then .high else .low)
def State.sbFault (s : State) : Level := s.contact 1 (if s.failed then .high else .low)
def State.sbAlertN (s : State) : Level := s.contact 2 (if (s.reg 0x106020).getLsbD 0 then .low else .float)

/-- TEST_LOGIC_RESET: selects IDCODE. -/
def execTestLogicReset (s : State) : Host.Outcome State Fault Refusal := .next (if s.phase = 0 then s else s.tapLoad 1)

/-! The sideband endpoint (R456, R468) -/

/-- A PLDM response: type, command, completion code, data. -/
def State.pldm (s : State) (type cmd code : Nat) (data : List Byte) : State :=
  if s.phase = 0 then s
  else s.sideSend (leBytes 1 s.side.eid ++ leBytes 1 type ++ leBytes 1 cmd ++ leBytes 1 code ++ data)

/-- A sensor is reported as unavailable. -/
def State.sensorGone (s : State) (n : Nat) : Bool :=
  decide (s.regN (0x106100 + 4 * n) = 0x8000) || (s.boot.recovery && decide (2 < n))

/-- GetSensorReading for sensors 1 to 17. -/
def execGetSensorReading (sensor : Nat) (s : State) : Host.Outcome State Fault Refusal :=
  if sensor = 0 ∨ 17 < sensor then .next (s.pldm 2 0x11 0x80 [])
  else if s.sensorGone sensor then .next (s.pldm 2 0x11 0 (leBytes 1 1))
  else .next (s.pldm 2 0x11 0 (leBytes 1 0 ++ leBytes 4 (s.regN (0x106100 + 4 * sensor))))

/-- GetPDR: one numeric sensor PDR per sensor. -/
def execGetPdr (handle : Nat) (s : State) : Host.Outcome State Fault Refusal :=
  if handle = 0 ∨ 17 < handle then .next (s.pldm 2 0x51 0x82 [])
  else .next (s.pldm 2 0x51 0 (Config.pldmPdr handle))

/-- SetEventReceiver. -/
def execSetEventReceiver (eid : Byte) (s : State) : Host.Outcome State Fault Refusal :=
  if s.phase = 0 then .next s
  else .next (({ s with side := { s.side with recv := some eid.toNat } } : State).pldm 2 0x04 0 [])

def execGetTid (s : State) : Host.Outcome State Fault Refusal := .next (s.pldm 0 0x02 0 [Config.pldmTid])
def execGetPldmVersion (s : State) : Host.Outcome State Fault Refusal :=
  .next (s.pldm 0 0x03 0 ((List.range 4).map Config.pldmVersion))

/-- GetPLDMTypes: base and platform monitoring. -/
def execGetPldmTypes (s : State) : Host.Outcome State Fault Refusal := .next (s.pldm 0 0x04 0 [0x05#8])

/-- GetPLDMCommands: the commands of R456 by type. -/
def execGetPldmCommands (s : State) : Host.Outcome State Fault Refusal :=
  .next (s.pldm 0 0x05 0 [0x02#8, 0x03#8, 0x04#8, 0x05#8, 0x04#8, 0x11#8, 0x51#8])

/-- Set Endpoint ID. -/
def execSetEndpointId (eid : Byte) (s : State) : Host.Outcome State Fault Refusal :=
  .next (if s.phase = 0 then s else { s with side := { s.side with eid := eid.toNat } })

/-- SETDASA and ENTDAA: I3C only. -/
def State.assign (s : State) (addr : BitVec 7) : State :=
  if s.phase = 0 ∨ s.side.smbus then s else { s with side := { s.side with dyn := addr.toNat } }

def execSetdasa (addr : BitVec 7) (s : State) : Host.Outcome State Fault Refusal := .next (s.assign addr)
def execEntdaa (addr : BitVec 7) (s : State) : Host.Outcome State Fault Refusal := .next (s.assign addr)

end Sys2Proof.Machine
end

