-- ==== Sys2Proof/Machine/Dispatch.lean ====
section
/-! DEFINITION. The dispatch: one arm per command. -/

namespace Sys2Proof.Machine

/-- The effect of a command on everything but the queue. -/
def exec (i : Instr) (s : State) : Host.Outcome State Fault Refusal :=
  match i with
  | .nop cl h => Sys2Proof.Machine.execNop cl h s
  | .endHalf cl h => Sys2Proof.Machine.execEndHalf cl h s
  | .loop cl h count target => Sys2Proof.Machine.execLoop cl h count target s
  | .stagew cl h => Sys2Proof.Machine.execStagew cl h s
  | .mop cl f => Sys2Proof.Machine.execMop cl f s
  | .wload cl desc pack => Sys2Proof.Machine.execWload cl desc pack s
  | .swap cl => Sys2Proof.Machine.execSwap cl s
  | .read cl f => Sys2Proof.Machine.execRead cl f s
  | .drain cl f => Sys2Proof.Machine.execDrain cl f s
  | .tload cl f => Sys2Proof.Machine.execTload cl f s
  | .clear cl tile => Sys2Proof.Machine.execClear cl tile s
  | .glz cl f => Sys2Proof.Machine.execGlz cl f s
  | .gtload cl region epoch addr => Sys2Proof.Machine.execGtload cl region epoch addr s
  | .gswitch cl => Sys2Proof.Machine.execGswitch cl s
  | .gstep cl => Sys2Proof.Machine.execGstep cl s
  | .wadv cl => Sys2Proof.Machine.execWadv cl s
  | .setp cl f => Sys2Proof.Machine.execSetp cl f s
  | .red cl f => Sys2Proof.Machine.execRed cl f s
  | .stream cl desc => Sys2Proof.Machine.execStream cl desc s
  | .spair cl f => Sys2Proof.Machine.execSpair cl f s
  | .job cl joff => Sys2Proof.Machine.execJob cl joff s
  | .waits cl desc => Sys2Proof.Machine.execWaits cl desc s
  | .taskIssue cl => Sys2Proof.Machine.execTaskIssue cl s
  | .taskHalfStart cl h => Sys2Proof.Machine.execTaskHalfStart cl h s
  | .outerProductStep cl => Sys2Proof.Machine.execOuterProductStep cl s
  | .streamTokenStep cl => Sys2Proof.Machine.execStreamTokenStep cl s
  | .weightRowLoad cl => Sys2Proof.Machine.execWeightRowLoad cl s
  | .manifestLaneAccept cl => Sys2Proof.Machine.execManifestLaneAccept cl s
  | .glazeVectorEntry cl => Sys2Proof.Machine.execGlazeVectorEntry cl s
  | .glazeLoadStart cl => Sys2Proof.Machine.execGlazeLoadStart cl s
  | .glazeLoadDone cl ecc => Sys2Proof.Machine.execGlazeLoadDone cl ecc s
  | .loadQueuePush cl desc => Sys2Proof.Machine.execLoadQueuePush cl desc s
  | .storeQueuePush cl => Sys2Proof.Machine.execStoreQueuePush cl s
  | .storeQueuePop cl => Sys2Proof.Machine.execStoreQueuePop cl s
  | .granuleIssue cl desc => Sys2Proof.Machine.execGranuleIssue cl desc s
  | .granuleLand cl tag => Sys2Proof.Machine.execGranuleLand cl tag s
  | .writeAck cl tag => Sys2Proof.Machine.execWriteAck cl tag s
  | .slotGrant w unit ecc => Sys2Proof.Machine.execSlotGrant w unit ecc s
  | .loessRead k ix ecc => Sys2Proof.Machine.execLoessRead k ix ecc s
  | .loessWrite k ix ecc => Sys2Proof.Machine.execLoessWrite k ix ecc s
  | .rhThrottle k chan row => Sys2Proof.Machine.execRhThrottle k chan row s
  | .rowRefresh k chan row => Sys2Proof.Machine.execRowRefresh k chan row s
  | .bedrockJob src ecc => Sys2Proof.Machine.execBedrockJob src ecc s
  | .jobComplete src => Sys2Proof.Machine.execJobComplete src s
  | .hazardNotice cl => Sys2Proof.Machine.execHazardNotice cl s
  | .holdTransitionDone k => Sys2Proof.Machine.execHoldTransitionDone k s
  | .bedrockFwRestart k ok => Sys2Proof.Machine.execBedrockFwRestart k ok s
  | .specZeroDone cl slot => Sys2Proof.Machine.execSpecZeroDone cl slot s
  | .tileDrainRow cl tile => Sys2Proof.Machine.execTileDrainRow cl tile s
  | .stageBoundary => Sys2Proof.Machine.execStageBoundary s
  | .extensionPeriodEnd => Sys2Proof.Machine.execExtensionPeriodEnd s
  | .stageHung => Sys2Proof.Machine.execStageHung s
  | .votePoint => Sys2Proof.Machine.execVotePoint s
  | .leadDecisionDeadline => Sys2Proof.Machine.execLeadDecisionDeadline s
  | .pauseSettled => Sys2Proof.Machine.execPauseSettled s
  | .tandemTimeout e => Sys2Proof.Machine.execTandemTimeout e s
  | .caravanFrame p fec f => Sys2Proof.Machine.execCaravanFrame p fec f s
  | .reductionChunk p => Sys2Proof.Machine.execReductionChunk p s
  | .delivery p ecc => Sys2Proof.Machine.execDelivery p ecc s
  | .tandemRecords p => Sys2Proof.Machine.execTandemRecords p s
  | .time p trx => Sys2Proof.Machine.execTime p trx s
  | .identMessage p => Sys2Proof.Machine.execIdentMessage p s
  | .readyMessage p => Sys2Proof.Machine.execReadyMessage p s
  | .go p => Sys2Proof.Machine.execGo p s
  | .dack p => Sys2Proof.Machine.execDack p s
  | .leave p => Sys2Proof.Machine.execLeave p s
  | .musterStart => Sys2Proof.Machine.execMusterStart s
  | .musterTimeout noLock => Sys2Proof.Machine.execMusterTimeout noLock s
  | .cvnUnlock => Sys2Proof.Machine.execCvnUnlock s
  | .linkDown p => Sys2Proof.Machine.execLinkDown p s
  | .trainingComplete p r => Sys2Proof.Machine.execTrainingComplete p r s
  | .quiesceComplete p => Sys2Proof.Machine.execQuiesceComplete p s
  | .trainingPatternDetect p => Sys2Proof.Machine.execTrainingPatternDetect p s
  | .tetherFlit f => Sys2Proof.Machine.execTetherFlit f s
  | .hostLoessRead addr len ecc => Sys2Proof.Machine.execHostLoessRead addr len ecc s
  | .hostLoessWrite addr data ecc => Sys2Proof.Machine.execHostLoessWrite addr data ecc s
  | .rejectedRegisterAccess write addr size => Sys2Proof.Machine.execRejectedRegisterAccess write addr size s
  | .tetherDown => Sys2Proof.Machine.execTetherDown s
  | .tetherTrained cred => Sys2Proof.Machine.execTetherTrained cred s
  | .eventDeliver => Sys2Proof.Machine.execEventDeliver s
  | .sensorRefresh readings => Sys2Proof.Machine.execSensorRefresh readings s
  | .wbrDoorbell r tail => Sys2Proof.Machine.execWbrDoorbell r tail s
  | .waybillTake r bytes ecc fault => Sys2Proof.Machine.execWaybillTake r bytes ecc s fault
  | .waybillTimeout r ix => Sys2Proof.Machine.execWaybillTimeout r ix s
  | .ready r ix => Sys2Proof.Machine.execReady r ix s
  | .echo r ix => Sys2Proof.Machine.execEcho r ix s
  | .ident r ix => Sys2Proof.Machine.execIdent r ix s
  | .resetWarm r ix => Sys2Proof.Machine.execResetWarm r ix s
  | .resetEngine r ix => Sys2Proof.Machine.execResetEngine r ix s
  | .resetCluster r ix => Sys2Proof.Machine.execResetCluster r ix s
  | .cancel r ix => Sys2Proof.Machine.execCancel r ix s
  | .load r ix ecc => Sys2Proof.Machine.execLoad r ix ecc s
  | .start r ix => Sys2Proof.Machine.execStart r ix s
  | .stop r ix => Sys2Proof.Machine.execStop r ix s
  | .unload r ix => Sys2Proof.Machine.execUnload r ix s
  | .itnQuery r ix => Sys2Proof.Machine.execItnQuery r ix s
  | .jobWaybill r ix ecc => Sys2Proof.Machine.execJobWaybill r ix ecc s
  | .copy r ix ecc => Sys2Proof.Machine.execCopy r ix ecc s
  | .hold r ix => Sys2Proof.Machine.execHold r ix s
  | .gload r ix ecc => Sys2Proof.Machine.execGload r ix ecc s
  | .gswitchWaybill r ix => Sys2Proof.Machine.execGswitchWaybill r ix s
  | .glzQuery r ix => Sys2Proof.Machine.execGlzQuery r ix s
  | .propose r ix => Sys2Proof.Machine.execPropose r ix s
  | .wclear r ix => Sys2Proof.Machine.execWclear r ix s
  | .muster r ix ecc => Sys2Proof.Machine.execMuster r ix s ecc
  | .port r ix => Sys2Proof.Machine.execPort r ix s
  | .disband r ix => Sys2Proof.Machine.execDisband r ix s
  | .pause r ix => Sys2Proof.Machine.execPause r ix s
  | .save r ix ecc => Sys2Proof.Machine.execSave r ix ecc s
  | .restore r ix ecc => Sys2Proof.Machine.execRestore r ix ecc s
  | .resume r ix => Sys2Proof.Machine.execResume r ix s
  | .sensors r ix => Sys2Proof.Machine.execSensors r ix s
  | .checksum r ix ecc => Sys2Proof.Machine.execChecksum r ix ecc s
  | .update r ix ecc => Sys2Proof.Machine.execUpdate r ix ecc s
  | .fwswitch r ix => Sys2Proof.Machine.execFwswitch r ix s
  | .fwswitchFallback => Sys2Proof.Machine.execFwswitchFallback s
  | .attest r ix ecc => Sys2Proof.Machine.execAttest r ix ecc s
  | .pstate r ix => Sys2Proof.Machine.execPstate r ix s
  | .cap r ix => Sys2Proof.Machine.execCap r ix s
  | .kstep r ix => Sys2Proof.Machine.execKstep r ix s
  | .arm w => Sys2Proof.Machine.execArm w s
  | .disarm w => Sys2Proof.Machine.execDisarm w s
  | .wbrEnable r v => Sys2Proof.Machine.execWbrEnable r v s
  | .wbrResume r => Sys2Proof.Machine.execWbrResume r s
  | .wbrDbRead r => Sys2Proof.Machine.execWbrDbRead r s
  | .counterLowRead addr => Sys2Proof.Machine.execCounterLowRead addr s
  | .qntWposRead cl => Sys2Proof.Machine.execQntWposRead cl s
  | .chkStart u => Sys2Proof.Machine.execChkStart u s
  | .chkCmp u => Sys2Proof.Machine.execChkCmp u s
  | .chkFeedb u v => Sys2Proof.Machine.execChkFeedb u v s
  | .chkFeedh u v => Sys2Proof.Machine.execChkFeedh u v s
  | .chkFeedw u v => Sys2Proof.Machine.execChkFeedw u v s
  | .glzCtlSwitch cl => Sys2Proof.Machine.execGlzCtlSwitch cl s
  | .drvDescWrite cl w v => Sys2Proof.Machine.execDrvDescWrite cl w v s
  | .glbFootPinWrite pin => Sys2Proof.Machine.execGlbFootPinWrite pin s
  | .tndModeWrite v => Sys2Proof.Machine.execTndModeWrite v s
  | .evtEnable v => Sys2Proof.Machine.execEvtEnable v s
  | .evtRdWrite v => Sys2Proof.Machine.execEvtRdWrite v s
  | .tthImaskWrite v => Sys2Proof.Machine.execTthImaskWrite v s
  | .tthIpendClear v => Sys2Proof.Machine.execTthIpendClear v s
  | .lnkEnable p on => Sys2Proof.Machine.execLnkEnable p on s
  | .lnkRetrain p => Sys2Proof.Machine.execLnkRetrain p s
  | .lnkQuiesce p => Sys2Proof.Machine.execLnkQuiesce p s
  | .pwrEngrst mask => Sys2Proof.Machine.execPwrEngrst mask s
  | .pwrResetWrite v => Sys2Proof.Machine.execPwrResetWrite v s
  | .moduleReset contact => Sys2Proof.Machine.execModuleReset contact s
  | .registerWrite addr v => Sys2Proof.Machine.execRegisterWrite addr v s
  | .powerApplied smbus strap low => Sys2Proof.Machine.execPowerApplied s smbus strap low
  | .startupPhaseDone r => Sys2Proof.Machine.execStartupPhaseDone r s
  | .undervoltage => Sys2Proof.Machine.execUndervoltage s
  | .brownOut torn => Sys2Proof.Machine.execBrownOut s torn
  | .dieTrip => Sys2Proof.Machine.execDieTrip s
  | .buttonPress ms => Sys2Proof.Machine.execButtonPress ms s
  | .buttonHeld1s => Sys2Proof.Machine.execButtonHeld1s s
  | .buttonHeld8s => Sys2Proof.Machine.execButtonHeld8s s
  | .identifyEnd => Sys2Proof.Machine.execIdentifyEnd s
  | .svcReq => Sys2Proof.Machine.execSvcReq s
  | .svcForce => Sys2Proof.Machine.execSvcForce s
  | .svcCancel => Sys2Proof.Machine.execSvcCancel s
  | .svcRelease => Sys2Proof.Machine.execSvcRelease s
  | .svcStopped => Sys2Proof.Machine.execSvcStopped s
  | .svcWaitExpiry => Sys2Proof.Machine.execSvcWaitExpiry s
  | .svcDrained => Sys2Proof.Machine.execSvcDrained s
  | .forcedQuiesceReset => Sys2Proof.Machine.execForcedQuiesceReset s
  | .ejectorLeverOpen => Sys2Proof.Machine.execEjectorLeverOpen s
  | .ejectorLeverClose => Sys2Proof.Machine.execEjectorLeverClose s
  | .cageLatchClose p => Sys2Proof.Machine.execCageLatchClose p s
  | .cageLatchOpen p => Sys2Proof.Machine.execCageLatchOpen p s
  | .bypass code tdi => Sys2Proof.Machine.execBypass s code tdi
  | .idcode => Sys2Proof.Machine.execIdcode s
  | .samplePreload cells => Sys2Proof.Machine.execSamplePreload cells s
  | .extest cells => Sys2Proof.Machine.execExtest s cells
  | .clamp tdi => Sys2Proof.Machine.execClamp s tdi
  | .highz tdi => Sys2Proof.Machine.execHighz s tdi
  | .getSensorReading sensor => Sys2Proof.Machine.execGetSensorReading sensor s
  | .getPdr handle => Sys2Proof.Machine.execGetPdr handle s
  | .setEventReceiver eid => Sys2Proof.Machine.execSetEventReceiver eid s
  | .getTid => Sys2Proof.Machine.execGetTid s
  | .getPldmVersion => Sys2Proof.Machine.execGetPldmVersion s
  | .getPldmTypes => Sys2Proof.Machine.execGetPldmTypes s
  | .getPldmCommands => Sys2Proof.Machine.execGetPldmCommands s
  | .setEndpointId eid => Sys2Proof.Machine.execSetEndpointId eid s
  | .setdasa addr => Sys2Proof.Machine.execSetdasa addr s
  | .entdaa addr => Sys2Proof.Machine.execEntdaa addr s
  | .kilnCycle issued => Sys2Proof.Machine.execKilnCycle issued s
  | .testLogicReset => Sys2Proof.Machine.execTestLogicReset s
  | .periodicCalibration k => Sys2Proof.Machine.execPeriodicCalibration k s

end Sys2Proof.Machine
end

