-- ==== Sys2Proof/Safety.lean ====
section
/-! DEFINITION. When a command comes to act: the conditions on the state under which an instruction issues, a unit of a
cluster steps and a waybill starts, and what the whole machine may never lose. Statements are made in these words. -/

namespace Sys2Proof.Machine

/-- Half h of running cluster n issues its next instruction, for the task in slot o (R250, R255, R294): its clock runs, no
array or glaze instruction holds up an execute half, no pause settles, it waits for no boundary, the task is not halted. -/
abbrev State.Issues (s : State) (n : Nat) (h : Half) (o : Nat) : Prop :=
  (s.cl n).st = 2 ∧ s.clOn n = true ∧ (h = .execute → (s.cl n).mop.isNone = true ∧ (s.cl n).glz.isNone = true) ∧
  (s.cl n).pausing = false ∧ ((s.cl n).half h).waitStage = false ∧ (s.cl n).halfSlot h = some o ∧
  ((s.cl n).slot o).halted = false

/-- The units of cluster n work (R242): it runs or has finished its tasks, its clock runs, and the task in slot o, if the step
is one of a task's, is not halted. -/
abbrev State.Steps (s : State) (n : Nat) (o : Option Nat) : Prop :=
  ((s.cl n).st = 2 ∨ (s.cl n).st = 4) ∧ s.clOn n = true ∧ (s.cl n).halts o = false

/-- Waybill ix of ring r is w, has the opcode, and R358 lets it start: the interpreter runs, the start rules let it go, neither
the power state nor a service sequence turns it away (R361, R417). -/
abbrev State.Starts (s : State) (opc r ix : Nat) (w : Wb) : Prop :=
  s.wb r ix = some w ∧ w.opc = opc ∧ s.interprets = true ∧ s.startOf r w = .starts ∧
  s.powerForbids opc w.params w.clus = false ∧
  (s.svcPhase = 0 ∨ [2, 3, 4, 5, 6, 7, 9].contains (wbClass opc) = false ∨ opc = 0x700 ∨ opc = 0x701)

/-- An access of the host acts at once (R379): no access, and no host write into Loess memory, waits before it. With the Tether down
what comes is the module's own. -/
abbrev State.InTurn (s : State) : Prop := s.tth = 1 → s.teth.later = [] ∧ s.writesWait = false

/-- A register write of the host has come: it takes a slot of the Tether (R376), with the Tether down none. -/
def State.arrived (s : State) : State := if s.tth = 1 then s.fromHost 1 else s

/-- Loess memory is in its canonical form. -/
abbrev State.memOk (s : State) : Prop := Memory.wf s.loess = true

/-- What fuses hold never goes back (R434, R435): from s to t no anti-rollback counter falls and no revoked root slot returns. -/
abbrev State.FusesKept (s t : State) : Prop :=
  (∀ k, sget zeroNat s.boot.cnt k ≤ sget zeroNat t.boot.cnt k) ∧
  ∀ k, k < 4 → s.boot.revoked.testBit k = true → t.boot.revoked.testBit k = true

/-- The first n elements of a stream that consumers have not used yet, in the order of their delivery (R187). -/
def Cluster.front (c : Cluster) (d n : Nat) : List Nat :=
  (((c.hand ++ c.loadQ).filter (fun e => decide (e.desc = d))).flatMap (fun e => e.elems)).take n

/-- Nothing but cluster n's own state differs. -/
abbrev State.onlyCl (s t : State) (n : Nat) : Prop := ∃ c, t = s.setCl n c

end Sys2Proof.Machine
end

