-- ==== Sys2Proof/Certificates/Slice0/Obligations.lean ====
section
/-! DEFINITION. The statements about the model. Equations `exec c s = .next …` say what a command does and, by naming the one
state it leads to, what it leaves alone. -/

open Sys2Proof Sys2Proof.Machine

/-! Itinerary instructions (09_itineraries_and_tasks.md, R243 to R260) -/

/-- NOP, GSTEP and a WAITS whose stream does not run move their half to the next instruction; GSTEP also marks the stage; a
WAITS whose stream runs waits (R56, R243, R244). STAGEW makes its half wait for the next boundary (R243). LOOP goes back to its
target `count - 1` times, then on, and leaves its counter ready for the next pass (R244). GSWITCH asks for the glaze banks'
exchange at the next boundary, WADV for the windows' move (R139, R176). -/
def Obligations.SequencingInstructionsIssue : Prop :=
  (∀ (s : State) (cl : ClusterNo) (h : Half) (o : Nat) (d : BitVec 6), s.Issues cl h o →
    exec (.nop cl h) s = .next (s.setCl cl ((s.cl cl).pass1 h)) ∧
    (h = .execute → exec (.gstep cl) s = .next { s.setCl cl ((s.cl cl).pass1 h) with gstep := true }) ∧
    (h = .access → ((s.cl cl).strm d.toNat).run = false → exec (.waits cl d) s = .next (s.setCl cl ((s.cl cl).pass1 h))) ∧
    (h = .access → ((s.cl cl).strm d.toNat).run = true → exec (.waits cl d) s = .next s)) ∧
  (∀ (s : State) (cl : ClusterNo) (h : Half) (o : Nat) (count target : BitVec 16), s.Issues cl h o →
    (let p := (s.cl cl).half h
    exec (.stagew cl h) s = .next (s.setCl cl ((s.cl cl).setHalf h { p with ix := p.ix + 1, waitStage := true }))) ∧
    ((Instr.loop cl h count target).wf = true →
      let p := (s.cl cl).half h
      let n := sget zeroNat p.loops p.ix + 1
      (n < count.toNat → exec (.loop cl h count target) s = .next (s.setCl cl
        ((s.cl cl).setHalf h { p with ix := target.toNat, loops := sput zeroNat p.loops p.ix n }))) ∧
      (count.toNat ≤ n → exec (.loop cl h count target) s = .next (s.setCl cl
        ((s.cl cl).setHalf h { p with ix := p.ix + 1, loops := sput zeroNat p.loops p.ix 0 }))))) ∧
  (∀ (s : State) (cl : ClusterNo) (o : Nat), s.Issues cl .execute o →
    exec (.gswitch cl) s = .next (s.setCl cl (({ s.cl cl with gswitch := true } : Cluster).pass1 .execute)) ∧
    exec (.wadv cl) s = .next (s.setCl cl (({ s.cl cl with wadv := true } : Cluster).pass1 .execute)))

/-- END ends its half (R250, R260): a half whose task's other half goes on leaves the task in its slot; the second END of a
committed or plain task frees the slot, and the cluster is done when it was its last task; that of an unresolved speculative
task leaves it waiting for its outcome. -/
def Obligations.EndHalfIssues : Prop :=
  ∀ (s : State) (cl : ClusterNo) (h : Half) (o : Nat), s.Issues cl h o →
    let c := s.cl cl
    let t := (c.slot o).endHalf h
    (t.ended = false → exec (.endHalf cl h) s = .next (s.setCl cl ((c.setSlot o t).pass1 h))) ∧
    (t.ended = true → t.st = 3 → exec (.endHalf cl h) s = .next (s.setCl cl ((c.setSlot o { t with st := 4 }).pass1 h))) ∧
    (t.ended = true → t.st = 2 →
      ∃ u : Cluster, exec (.endHalf cl h) s = .next (s.setCl cl u) ∧ u.slot o = {} ∧ u.slot (1 - o) = c.slot (1 - o) ∧
        (u.half h).ix = (c.half h).ix + 1 ∧
        (u.st = if c.walked = true ∧ (c.slot (1 - o)).st = 0 then 4 else 2))

/-- WLOAD begins a weight-set load from its descriptor's stream, for the task that issued it; its first row fixes the bank, the
idle one (WEIGHT_ROW_LOAD). SWAP makes the other bank the active one. Both wait while a WLOAD's set loads (R106, R107). CLEAR
empties its tile (R246): no path tag, count 0, no element received, its tensor-scale latches 0 (R124). It waits while the tile
is read, drained, loaded or accumulated into, or another speculative task holds it (R68, R257), and passes a tile under a
discard mark without a change (R137). -/
def Obligations.WeightBankInstructionsAndClearIssue : Prop :=
  (∀ (s : State) (cl : ClusterNo) (o : Nat) (desc : BitVec 6) (pack : Bool), s.Issues cl .execute o →
    let c := s.cl cl
    (c.wload = none →
      exec (.wload cl desc pack) s =
        .next (s.setCl cl (({ c with wload := some { desc := desc.toNat, pack := pack, slot := o, task := (c.slot o).task } } :
          Cluster).pass1 .execute)) ∧
      exec (.swap cl) s = .next (s.setCl cl (({ c with active := !c.active } : Cluster).pass1 .execute))) ∧
    (c.wload.isSome = true → exec (.wload cl desc pack) s = .next s ∧ exec (.swap cl) s = .next s)) ∧
  (∀ (s : State) (cl : ClusterNo) (o : Nat) (tile : Fin 2), s.Issues cl .execute o →
    let c := s.cl cl
    let t := c.tile tile
    (c.tileWaits tile o = true → exec (.clear cl tile) s = .next s) ∧
    (c.tileWaits tile o = false → t.discard = true → exec (.clear cl tile) s = .next (s.setCl cl (c.pass1 .execute))) ∧
    (c.tileWaits tile o = false → t.discard = false →
      exec (.clear cl tile) s = .next (s.setCl cl ((c.setTile tile { t with
        path := 0, count := 0, rows := [], carry := [], tsa := 0, tsw := 0 }).pass1 .execute)) ∧
      ∀ r j, ({ t with rows := [] } : Tile).elem r j = .empty))

/-- READ and DRAIN take their tile for the drain port (R67 to R69): the read in progress carries the instruction's fields, the
task and the count, the tile is resolved: no carry is pending, an element out of range becomes NaR, with its flags and the trap
of the first one (R64, R67); a tile under a discard mark is passed (R137); both wait like CLEAR. -/
def Obligations.ReadsAndDrainsIssue : Prop :=
  ∀ (s : State) (cl : ClusterNo) (o : Nat) (f : ReadF), s.Issues cl .execute o → f.ok = true →
    let c := s.cl cl
    let n := f.tile.val
    let t := c.tile n
    let out (isDrain : Bool) : ReadOut :=
      { drain := isDrain, fmt := f.fmt.toNat, rnd := f.rnd.toNat, satw := f.satw, site := f.site.toNat, desc := f.desc.toNat
        task := (c.slot o).task, step := c.exec.ix, slot := o, k := t.count }
    let taken (isDrain : Bool) : State := s.setCl cl ((c.setTile n { t with
      carry := [], rows := t.rows.map (fun r => (r.1, r.2.map (resolveElem t.path))), out := some (out isDrain) }).pass1 .execute)
    (c.tileWaits n o = true → exec (.read cl f) s = .next s ∧ exec (.drain cl f) s = .next s) ∧
    (c.tileWaits n o = false → t.discard = true →
      exec (.read cl f) s = .next (s.setCl cl (c.pass1 .execute)) ∧ exec (.drain cl f) s = .next (s.setCl cl (c.pass1 .execute))) ∧
    (c.tileWaits n o = false → t.discard = false → outOfRange t = [] →
      exec (.read cl f) s = .next (taken false) ∧ exec (.drain cl f) s = .next (taken true)) ∧
    (c.tileWaits n o = false → t.discard = false → ∀ r j l, outOfRange t = (r, j) :: l →
      let as : List Act := [.flags (flagOvf ||| flagNar), .trap .array 3 n (cellIx t.path r) (cellIx t.path j) (c.slot o).task c.exec.ix
        (t.count % 2 ^ 48)]
      exec (.read cl f) s = .next ((taken false).acts cl (some o) as) ∧ exec (.drain cl f) s = .next ((taken true).acts cl (some o) as))

/-- TLOAD gives its tile the path the instruction names and a load in progress, into which what its stream has queued goes at
once (R79); a speculative task marks the tile, and faults on one that is not empty and that it has not written (R257); a tile
with another path tag is an access path error (R81) unless the load is of wide elements. It waits while its tile is read,
drained, loaded or accumulated into (R68). MOP begins its array instruction when no other is in progress and its tiles are free;
it carries the task, the step and the slot it issued for and where its operands' groups are numbered from (R68, R94, R136), and
the tiles of a speculative task its mark. First in the order of checks comes a speculative task's fault on a tile that is not
empty and that it has not written, the value tile's before the index tile's (R257), then the access path error of a path tag
that differs (R81); a tile whose first terms an instruction before is still to add counts with the tag they bring. It waits
while a tile of it is read, drained or loaded, or holds another speculative task's mark, and an outer-product MOP while stream
tokens are in the array (R68, R108, R257); with a tile under a discard mark it passes (R137). -/
def Obligations.TileLoadsAndArrayInstructionsIssue : Prop :=
  (∀ (s : State) (cl : ClusterNo) (o : Nat) (f : TloadF), s.Issues cl .execute o → f.ok = true →
    let c := s.cl cl
    let n := f.tile.val
    let t := c.tile n
    let k := c.slot o
    let wide := decide (f.fmt.toNat = 10)
    let mine := k.holds = false ∨ t.path = 0 ∨ t.spec = some o
    (c.tileWaits n o = true → exec (.tload cl f) s = .next s) ∧
    (c.tileWaits n o = false → t.discard = true → exec (.tload cl f) s = .next (s.setCl cl (c.pass1 .execute))) ∧
    (c.tileWaits n o = false → t.discard = false →
    (¬mine → exec (.tload cl f) s =
      .next ((s.setCl cl (c.pass1 .execute)).acts cl (some o) [.specFault n k.task, .stop 7])) ∧
    (mine → wide = false → t.path ≠ 0 → t.path ≠ f.path.toNat →
      exec (.tload cl f) s = .next ((s.setCl cl (c.pass1 .execute)).acts cl (some o) [.accPath k.task, .stop 6])) ∧
    (mine → (wide = true ∨ t.path = 0 ∨ t.path = f.path.toNat) →
      let r := tileFill (c.setTile n { t with
        path := f.path.toNat, ld := some { wide := wide, desc := f.desc.toNat }
        spec := if k.holds then some o else t.spec }) n
      exec (.tload cl f) s = .next ((s.setCl cl (r.1.pass1 .execute)).acts cl (some o) r.2)))) ∧
  (∀ (s : State) (cl : ClusterNo) (o : Nat) (f : MopF), s.Issues cl .execute o → f.ok = true →
    let c := s.cl cl
    let n := f.tile.val
    let t := c.tile n
    let u := c.tile (1 - n)
    let k := c.slot o
    let two := 5 ≤ f.opk.toNat
    let full (v : Tile) (path : Nat) := k.holds = true ∧ v.spec ≠ some o ∧ path ≠ 0
    let differs := (c.pathDue n ≠ 0 ∧ c.pathDue n ≠ mopPath f) ∨ (two ∧ c.pathDue (1 - n) ≠ 0 ∧ c.pathDue (1 - n) ≠ 5)
    let waits := tileWaits t o = true ∨ (two ∧ tileWaits u o = true) ∨ (f.stream = false ∧ c.waving = true)
    let fullT := full t (c.pathDue n)
    let fullU := two ∧ full u (c.pathDue (1 - n))
    let marked := if k.holds then
        (if two then (c.setTile n { t with spec := some o }).setTile (1 - n) { u with spec := some o }
          else c.setTile n { t with spec := some o })
      else c
    (waits → exec (.mop cl f) s = .next s) ∧
    (¬waits → (t.discard = true ∨ (two ∧ u.discard = true)) → exec (.mop cl f) s = .next (s.setCl cl (c.pass1 .execute))) ∧
    (¬waits → t.discard = false → (two → u.discard = false) →
    (fullT → exec (.mop cl f) s =
      .next ((s.setCl cl (c.pass1 .execute)).acts cl (some o) [.specFault n k.task, .stop 7])) ∧
    (¬fullT → fullU → exec (.mop cl f) s =
      .next ((s.setCl cl (c.pass1 .execute)).acts cl (some o) [.specFault (1 - n) k.task, .stop 7])) ∧
    (¬fullT → ¬fullU → differs →
      exec (.mop cl f) s = .next ((s.setCl cl (c.pass1 .execute)).acts cl (some o) [.accPath k.task, .stop 6])) ∧
    (¬fullT → ¬fullU → ¬differs →
      exec (.mop cl f) s = .next (s.setCl cl (({ marked with
        mops := c.mops + 1
        mop := some { f := f, id := c.mops, task := k.task, step := c.exec.ix, slot := o, spec := k.holds, wdesc := f.sb.toNat
                      abase := sget zeroNat c.gbase f.sa.toNat, wbase := sget zeroNat c.gbase f.sb.toNat } } : Cluster).pass1
                        .execute)))))

/-- GLZ: a function that the active bank performs begins its vectors, a total of no elements passes, a function that the bank
refuses stops the cluster with its cause (R148, R167, R182). GTLOAD asks for the load of the inactive glaze bank (R174, R177):
with no request waiting and no instruction bound to the bank, the bank is loading and the image's granules wait for their slots;
a request that cannot be taken shows in BUSYW; an image outside the region is a drover fault (R198). It waits while its
cluster's memory ration is used up or the module straggles (R273, R327). -/
def Obligations.GlazeInstructionsIssue : Prop :=
  (∀ (s : State) (cl : ClusterNo) (o : Nat) (f : GlzF), s.Issues cl .execute o → f.ok = true →
    let c := s.cl cl
    let k := c.slot o
    let cause := glzRefuse (c.gbank c.gactive) f
    (cause ≠ 0 → exec (.glz cl f) s =
      .next ((s.setCl cl (c.pass1 .execute)).acts cl (some o) [.glaze cause f.gfn.toNat k.task 4, .stop 5])) ∧
    (cause = 0 → glzTotal f = 0 → exec (.glz cl f) s = .next (s.setCl cl (c.pass1 .execute))) ∧
    (cause = 0 → glzTotal f ≠ 0 → exec (.glz cl f) s = .next (s.setCl cl (({ c with
      glz := some { f := f, task := k.task, step := c.exec.ix, slot := o, spec := k.holds } } : Cluster).pass1 .execute)))) ∧
  (∀ (s : State) (cl : ClusterNo) (o : Nat) (region : BitVec 6) (epoch : BitVec 16) (addr : BitVec 40), s.Issues cl .execute o →
    addr.toNat % 512 = 0 →
    let c := s.cl cl
    let b := 1 - c.gactive
    let l : GLoad := { addr := addr.toNat, epoch := epoch.toNat, task := (c.slot o).task }
    let check := checkRange (s.region cl region.toNat) addr.toNat 8320 false false
    ((s.quotaFull cl = true ∨ s.cvn.straggling = true) → exec (.gtload cl region epoch addr) s = .next s) ∧
    (s.quotaFull cl = false → s.cvn.straggling = false →
      (∀ cause a, check = some (cause, a) →
        exec (.gtload cl region epoch addr) s = .next ((s.setCl cl (c.pass1 .execute)).acts cl (some o)
          [.drover cause region.toNat 2 (c.slot o).task a, .stop 2])) ∧
      (check = none → c.gbusy = true →
        exec (.gtload cl region epoch addr) s = .next ((s.setCl cl (c.pass1 .execute)).busyW (.cluster cl))) ∧
      (check = none → c.gbusy = false → c.old b = true →
        exec (.gtload cl region epoch addr) s = .next (s.setCl cl (({ c with gwait := some l } : Cluster).pass1 .execute))) ∧
      (check = none → c.gbusy = false → c.old b = false →
        exec (.gtload cl region epoch addr) s = .next ((s.setCl cl
          ((({ c with gload := some l } : Cluster).setGbank b { c.gbank b with state := 1 }).pass1 .execute)).claim
          { cl := cl, write := false, src := .load cl } [(addr.toNat, 8320)]))))

/-- SETP leaves its predicate pending with the comparison's outcome, ANDed with what was pending (R247, R251); the second SETP
of the predicate in a stage, and only that one, raises EV_PRED_MULTI; a SETP after kc 8,127 makes the stage's predicates late.
STREAM and SPAIR start their descriptors' streams from the first element, in the current stage, for the task that issued them,
or wait while one of them runs; SPAIR pairs them, as the last of the pairs, and takes out the pairs that had one of the streams,
STREAM does so with its own (R190, R244, R245). -/
def Obligations.PredicatesAreSetAndStreamsStart : Prop :=
  (∀ (s : State) (cl : ClusterNo) (o : Nat) (f : SetpF), s.Issues cl .execute o → f.off.toNat % 4 = 0 →
    let c := s.cl cl
    let x := signedOf 32 (leNat (c.stg f.off.toNat 4))
    let i := signedOf 32 f.imm.toNat
    let v := decide ((f.cmp = 0#2 ∧ x = i) ∨ (f.cmp = 1#2 ∧ x ≠ i) ∨ (f.cmp = 2#2 ∧ x < i) ∨ (f.cmp = 3#2 ∧ i ≤ x))
    let old := sget zeroNat s.preds f.pred.toNat
    let pending := if v = true ∧ old % 4 ≠ 1 then 3 else 1
    let t (raised : Nat) := { s.setCl cl (c.pass1 .execute) with
      preds := sput zeroNat s.preds f.pred.toNat (pending + raised)
      setpLate := s.setpLate || decide (8127 < s.kc) }
    (old = 0 → exec (.setp cl f) s = .next (t 0)) ∧
    (0 < old → old < 4 → exec (.setp cl f) s = .next ((t 4).raise 10 1 cl f.pred.toNat 0)) ∧
    (4 ≤ old → exec (.setp cl f) s = .next (t 4))) ∧
  (∀ (s : State) (cl : ClusterNo) (o : Nat), s.Issues cl .access o →
    let c := s.cl cl
    (∀ d : BitVec 6,
      ((c.strm d.toNat).run = true → exec (.stream cl d) s = .next s) ∧
      ((c.strm d.toNat).run = false →
        ∃ u : Cluster, exec (.stream cl d) s = .next (s.setCl cl (u.pass1 .access)) ∧ (u.strm d.toNat).run = true ∧
          (u.strm d.toNat).pos = 0 ∧ (u.strm d.toNat).task = (c.slot o).task ∧ (u.strm d.toNat).began = s.stageNo ∧
          (∀ e, e ≠ d.toNat → u.strm e = c.strm e) ∧
          u.pairs = c.pairs.filter (fun p => !((SpairF.descs p.f).contains d.toNat)) ∧ u.acc = c.acc)) ∧
    (∀ f : SpairF, (Instr.spair cl f).wf = true →
      ((SpairF.descs f).any (fun d => (c.strm d).run) = true → exec (.spair cl f) s = .next s) ∧
      ((SpairF.descs f).any (fun d => (c.strm d).run) = false →
        ∃ u : Cluster, exec (.spair cl f) s = .next (s.setCl cl (u.pass1 .access)) ∧
          (∀ d ∈ SpairF.descs f, (u.strm d).run = true ∧ (u.strm d).pos = 0 ∧ (u.strm d).task = (c.slot o).task ∧
            (u.strm d).began = s.stageNo) ∧
          (∀ e, e ∉ SpairF.descs f → u.strm e = c.strm e) ∧
          u.pairs = c.pairs.filter (fun p => !((SpairF.descs p.f).any (fun d => (SpairF.descs f).contains d))) ++ [{ f := f }] ∧
          u.acc = c.acc)))

/-- TASK_ISSUE puts the next entry of the walk, whose stage has come, into the first free slot and moves the walk on (R249,
R250): a plain task committed, a gated task waiting, a speculative task unresolved with its provisional map entries open (R254).
A task that issues after its stage has slipped (R289). TASK_HALF_START starts the half of the oldest task that has not ended it,
at the instruction its entry names; a gated task whose predicate is unresolved keeps it waiting (R250, R252). -/
def Obligations.TasksIssueAndStart : Prop :=
  (∀ (s : State) (cl : ClusterNo) (o : Nat),
    let c := s.cl cl
    let e := c.taskE c.next
    let st := if e.mode = 0 then 2 else if e.mode = 1 then 1 else e.mode + 1
    let t : TSlot :=
      { st := st, task := c.next, mode := e.mode, sense := e.sense, pred := e.pred, wbase := e.wbase, wsize := e.wsize, ord := c.ord
        accIx := e.acc, execIx := e.exec, base := c.base }
    let c1 := (({ c with ord := c.ord + 1 } : Cluster).setSlot o t).advance
    let s0 := if c.base + e.stage < s.stageNo then s.count 0x608 1 else s
    c.freeSlotNo = some o → c.st = 2 → s.clOn cl = true → c.pausing = false → s.cvn.straggling = false → c.walked = false →
    c.base + e.stage ≤ s.stageNo →
    (e.mode ≠ 2 → exec (.taskIssue cl) s = .next (s0.setCl cl c1)) ∧
    (e.mode = 2 → s.specWaits = false → exec (.taskIssue cl) s = .next ((s0.setCl cl c1).openPmes cl c.next)) ∧
    (e.mode = 2 → s.specWaits = true → exec (.taskIssue cl) s = .next s)) ∧
  (∀ (s : State) (cl : ClusterNo) (h : Half) (o : Nat),
    let c := s.cl cl
    let t := c.slot o
    c.nextHalf h = some o → c.st = 2 → s.clOn cl = true → c.pausing = false →
    (t.st = 1 → exec (.taskHalfStart cl h) s = .next s) ∧
    (t.st ≠ 1 → t.halfOn h = false → t.halted = false →
      (h = .access → exec (.taskHalfStart cl h) s =
        .next (s.setCl cl ((c.setSlot o { t with accOn := true }).setHalf .access { ix := t.accIx }))) ∧
      (h = .execute → exec (.taskHalfStart cl h) s =
        .next (s.setCl cl ((c.setSlot o { t with execOn := true }).setHalf .execute { ix := t.execIx })))))

/-- R252, at the boundary's order 7: a gated task that waits in its slot runs when its predicate's value fits its SENSE, from
then on TASK_HALF_START starts its halves; when it does not, its slot is freed with nothing run and ITN_SKIPS rises by 1, all
else of the module as it was; while the predicate is unresolved it goes on waiting and TASK_HALF_START starts nothing. -/
def Obligations.GatedTasksMeetTheirPredicate : Prop :=
  ∀ (s : State) (cl : ClusterNo) (o : Fin 2) (b : Bool),
    let c := s.cl cl
    let t := c.slot o.val
    let u := s.outcome cl o.val (some b)
    t.st = 1 → t.mode = 1 →
    s.outcome cl o.val none = s ∧
    (b ≠ t.sense → (u.cl cl).slot o.val = { t with st := 2, value := some b } ∧ u.regs = s.regs ∧
      (c.nextHalf .access = some o.val → c.st = 2 → s.clOn cl = true → c.pausing = false → t.halfOn .access = false → t.halted = false →
        ∃ v : State, exec (.taskHalfStart cl .access) u = .next v ∧ ((v.cl cl).slot o.val).accOn = true ∧ (v.cl cl).acc.ix = t.accIx)) ∧
    (b = t.sense → (u.cl cl).slot o.val = {} ∧ u.regN (ca cl 0xA24) = min (s.regN (ca cl 0xA24) + 1) (2 ^ 32 - 1) ∧
      (∀ a, a ≠ ca cl 0xA24 → u.reg a = s.reg a) ∧ (u.cl cl).acc = c.acc ∧ (u.cl cl).exec = c.exec) ∧
    (u.cl cl).slot (1 - o.val) = c.slot (1 - o.val) ∧ (u.cl cl).staging = c.staging ∧ (∀ n, n ≠ cl.val → u.cl n = s.cl n) ∧
    u.loess = s.loess ∧ u.events = s.events ∧
    (c.nextHalf .access = some o.val → c.st = 2 → s.clOn cl = true → c.pausing = false →
      exec (.taskHalfStart cl .access) s = .next s)

/-! Units of a cluster (chapters 03 to 07) -/

/-- OUTER_PRODUCT_STEP, STREAM_TOKEN_STEP, WEIGHT_ROW_LOAD and MANIFEST_LANE_ACCEPT in a working cluster (R100, R104, R106,
R130): the step the array's state allows comes about, its side effects reach the cluster for the task whose step it is; a step
it does not allow changes nothing. An outer-product step advances its instruction (R100, R109): with its operands' elements
queued, no stream token in the array and room in the manifest lane, an ungrouped step takes the next K index, or two of an INT4
MAC, and ROWS and COLS elements of its operands for each; the row and column latches hold them (R93), the terms are counted and
the tile's count rises below the count limit; the step moves the instruction's K on, and ends it at the last. A step of the
array in stream mode (R103, R104, R107): with room in the manifest lane and no token before a row of its set that is not loaded,
every token of ungrouped instructions moves on by one and meets its next cells; the next one enters where its elements are
queued and, with a set's first, row 0 of its set is loaded and the set before has held the array long enough, which makes the
bank it uses the active one; else a bubble does. MANIFEST_LANE_ACCEPT takes the first escape of the oldest instruction that has
one in the manifest lane (R128, R130): its exact terms are added to their elements, escapes of the instruction that waited for
room come into the lane; an instruction with no term and no escape left is over. -/
def Obligations.ArrayUnitsStep : Prop :=
  (∀ (s : State) (cl : ClusterNo),
    let c := s.cl cl
    let run (o : Option Nat) (r : Option (Cluster × List Act)) : State := match r with
      | none => s
      | some x => (s.setCl cl x.1).acts cl o x.2
    let laneOwner := c.laneRun.bind (fun m => c.owner m.slot m.task)
    (s.Steps cl c.mopOwner → exec (.outerProductStep cl) s = .next (run c.mopOwner (outerStep c))) ∧
    (s.Steps cl none → exec (.streamTokenStep cl) s = .next (match tokenStep c (s.suspects cl) (c.halts c.mopOwner) with
      | none => s
      | some x => (s.setCl cl x.1).runActs cl x.2)) ∧
    (s.Steps cl laneOwner → exec (.manifestLaneAccept cl) s = .next (run laneOwner (laneAccept c))) ∧
    (s.Steps cl c.loadOwner → exec (.weightRowLoad cl) s = .next (run c.loadOwner (weightRow c)))) ∧
  (∀ (s : State) (cl : ClusterNo) (m : MopRun),
    let c := s.cl cl
    let R := m.f.rows.toNat
    let C := m.f.cols.toNat
    let nk := min (if mopPair m.f then 2 else 1) (m.f.k.toNat - m.k)
    s.Steps cl c.mopOwner → c.mop = some m → m.f.stream = false → m.f.gq = false → m.k < m.f.k.toNat →
    m.esc = [] → m.lane = [] → laneRoom c = true → c.waving = false → (c.tile m.f.tile).count + nk < 2 ^ 39 →
    c.canPop [(m.f.sa.toNat, R * nk), (m.f.sb.toNat, C * nk)] = true →
    ∃ (u : Cluster) (as : List Act), exec (.outerProductStep cl) s = .next ((s.setCl cl u).acts cl c.mopOwner as) ∧
      (let as := c.front m.f.sa.toNat (R * nk)
      as.length = R * nk ∧ u.latA = (List.range R).map (fun i => latchWord m.f (as.getD i 0) (as.getD (R + i) 0))) ∧
      (m.f.sa ≠ m.f.sb →
        let bs := c.front m.f.sb.toNat (C * nk)
        bs.length = C * nk ∧ u.latB = (List.range C).map (fun j => latchWord m.f (bs.getD j 0) (bs.getD (C + j) 0))) ∧
      Act.count64 0x190 (R * C * nk) ∈ as ∧
      (u.tile m.f.tile).path = mopPath m.f ∧ (u.tile m.f.tile).count = (c.tile m.f.tile).count + nk ∧
      (m.k + nk < m.f.k.toNat → ∃ m', u.mop = some m' ∧ m'.k = m.k + nk ∧ m'.f = m.f ∧ m'.task = m.task) ∧
      (m.k + nk = m.f.k.toNat → u.mop = none)) ∧
  (∀ (s : State) (cl : ClusterNo) (m : MopRun),
    let c := s.cl cl
    let n := min (mopCover m.f) (m.f.k.toNat - m.ek)
    let need := [(m.f.sa.toNat, n)]
    s.Steps cl c.mopOwner → c.mop = some m → m.f.stream = true → m.f.gq = false → m.ek < m.f.k.toNat →
    laneRoom c = true → waveBlocked c = false → (∀ x ∈ c.runs, x.f.gq = false) →
    ∃ (u : Cluster) (as : List RunAct), exec (.streamTokenStep cl) s = .next ((s.setCl cl u).runActs cl as) ∧
      (∀ i, i + 1 < 63 → u.wave.getD (i + 1) none = (c.wave.getD i none).map (fun x => x.reach (c.bank x.bank) (i + 1))) ∧
      (c.canPop need = false ∨ (m.etok = 0 ∧ (1 < m.hold ∨ setReady c m = false)) → u.wave.getD 0 none = none) ∧
      (c.canPop need = true → (m.etok ≠ 0 ∨ (m.hold ≤ 1 ∧ setReady c m = true)) →
        ∃ tok, u.wave.getD 0 none = some tok ∧ tok.run = m.id ∧ tok.k = m.ek ∧ tok.row = m.etok ∧
          tok.codes = c.front m.f.sa.toNat n ∧
          tok.bank = (if m.etok = 0 ∧ m.f.wsrc.toNat ≠ 1 then !c.active else c.active) ∧ u.active = tok.bank)) ∧
  (∀ (s : State) (cl : ClusterNo) (m : MopRun) (it : LaneItem) (rest : List LaneItem),
    let c := s.cl cl
    let n := m.f.tile.val
    let t := it.terms.foldl (fun (t : Tile) x =>
      t.addElem x.1 x.2.1 (addTerm 7 0 (t.elem x.1 x.2.1) (Val.ofRat x.2.2) 0).e) (c.tile n)
    let k := 64 - (c.laneUsed - m.lane.length) - rest.length
    s.Steps cl (c.owner m.slot m.task) → c.laneRun = some m → m.lane = it :: rest →
    ∃ u : Cluster, exec (.manifestLaneAccept cl) s = .next (s.setCl cl u) ∧ u.tile n = t ∧ u.tile (1 - n) = c.tile (1 - n) ∧
      (u.runOf m.id = some { m with lane := rest ++ m.esc.take k, esc := m.esc.drop k } ∨
        (u.runOf m.id = none ∧ rest = [] ∧ m.esc = [] ∧ m.f.k.toNat ≤ m.k)))

/-- A weight row goes into the bank its set loads into (R106), with the set's first row the bank that is not active: with 32
elements of its stream queued and no token left that uses the row, row `w.row` holds their 16 low bits and the bank one row
more; the load goes on with the next row and is over after row 31; the other bank is untouched. A set's first row ends the
bank's suspect mark (R202). TILE_DRAIN_ROW delivers the next row of the tile's read to the store converter when that has room,
and waits while it has none (R69, R185); the last row ends the read, and a drain then empties its tile (R67). -/
def Obligations.WeightRowsLoadAndTilesDrain : Prop :=
  (∀ (s : State) (cl : ClusterNo) (w : WLoad),
    let c := s.cl cl
    let es := c.front w.desc 32
    let b := if w.row = 0 then !c.active else w.bank
    let c0 := if w.row = 0 then { c with took := c.took.filter (fun x => x.1 ≠ bankBit b) } else c
    let old := if w.row = 0 then { c.bank b with pack := false, desc := w.desc, gbase := none } else c.bank b
    s.Steps cl c.loadOwner → c.wload = some w → w.pack = false → w.mop = false → w.row < 32 → w.next c = (32, false) →
    rowFree c b w.row = true → c.canPop [(w.desc, 32)] = true →
    ∃ (c1 : Cluster) (as : List Act), c0.popFor w.desc 32 (bankBit b) = some (es, c1, as) ∧
      c1.bankA = c.bankA ∧ c1.bankB = c.bankB ∧
      exec (.weightRowLoad cl) s = .next ((s.setCl cl { c1.setBank b { old with
        rows := sput zeroRow (c.bank b).rows w.row ((List.range 32).map (fun n => BitVec.ofNat 16 (es.getD n 0)))
        held := w.row + 1 } with
        wload := if w.row + 1 = 32 then none else some { w with bank := b, row := w.row + 1 } }).acts cl c.loadOwner
          ((if w.row = 0 then [.unsuspect (2 ^ bankBit b)] else []) ++ as))) ∧
  (∀ (s : State) (cl : ClusterNo) (tile : Fin 2) (r : ReadOut),
    let c := s.cl cl
    let t := c.tile tile
    let x := drainConv c t r false
    s.Steps cl (c.owner r.slot r.task) → t.out = some r → r.red = none → s.tmode = 0 → c.tchk = none → outInt32 t r = 0 →
    (convRoom c = false → exec (.tileDrainRow cl tile) s = .next s) ∧
    (convRoom c = true →
      (r.next + 1 < tileSide t.path → exec (.tileDrainRow cl tile) s = .next (s.setCl cl (({ c with
        conv := c.conv ++ [x] } : Cluster).setTile tile { t with out := some { r with next := r.next + 1 } }))) ∧
      (tileSide t.path ≤ r.next + 1 → r.drain = false → exec (.tileDrainRow cl tile) s = .next (s.setCl cl (({ c with
        conv := c.conv ++ [x] } : Cluster).setTile tile { t with out := none }))) ∧
      (tileSide t.path ≤ r.next + 1 → r.drain = true → exec (.tileDrainRow cl tile) s = .next (s.setCl cl (({ c with
        conv := c.conv ++ [x] } : Cluster).setTile tile { t.emptied with out := none })))))

/-- LOAD_QUEUE_PUSH in a working cluster (R187, R194): with room in the load trail queue and elements at hand of a running load
stream that neither quantises nor dequantises, the converter makes one entry of up to 32 of them, converted into the destination
format, and the stream goes on behind them; with the queue full or the stream not running nothing moves. What a tile load waits
for goes on into its tile (R79). STORE_QUEUE_PUSH in a working cluster (R187, R131): an entry already coded goes to the store
trail queue as it is, with its credit taken; else the first row at the converter whose stream has an entry to deliver, of codes
that the descriptor does not quantise, makes the next entry, each code converted into the destination format; with the queue
full, or no row ready, nothing moves. STORE_QUEUE_POP in a working cluster (R187, R194): the head entry of the store trail queue
goes to its stream, whose bytes wait for their granules or are written to scratch; it waits while its stream does not run. -/
def Obligations.TrailQueuesMove : Prop :=
  (∀ (s : State) (cl : ClusterNo) (desc : BitVec 6),
    let c := s.cl cl
    let n := desc.toNat
    let t := c.strm n
    let d := c.desc n
    let codes := elemCodes c n d t.pos (min (min 32 (1024 / d.dstFmt.bits)) (d.total - t.pos))
    s.Steps cl (c.strmOwner n) →
    ((t.run = false ∨ d.kind = 1 ∨ (d.kind = 0 ∧ 128 ≤ c.loadQ.length)) → exec (.loadQueuePush cl desc) s = .next s) ∧
    (∀ r, loadPush c n (s.env cl) = some r → exec (.loadQueuePush cl desc) s =
      .next ((s.setCl cl (fillTiles r n).1).acts cl (c.strmOwner n) (fillTiles r n).2)) ∧
    (t.run = true → d.kind = 0 → c.loadQ.length < 128 → d.quant = false → d.dequant = false → codes ≠ [] →
      (c.tile 0).ld = none → (c.tile 1).ld = none →
      ∃ (u : Cluster) (as : List Act), exec (.loadQueuePush cl desc) s = .next ((s.setCl cl u).acts cl (c.strmOwner n) as) ∧
        u.loadQ = c.loadQ ++ [{
          desc := n, stage := s.stageNo, slot := t.slot, last := decide (d.total ≤ t.pos + codes.length)
          elems := codes.zipIdx.map (fun x => (convert d.srcFmt d.dstFmt (d.ctl (s.env cl).seed (t.pos + x.2)) x.1).code) }] ∧
        (u.strm n).pos = t.pos + codes.length ∧ ((u.strm n).run = false ↔ d.total ≤ t.pos + codes.length ∧ t.qbuf = [] ∧ t.raw = []))) ∧
  (∀ (s : State) (cl : ClusterNo),
    let c := s.cl cl
    let o := (convNext c).bind (fun x => x.slot.bind (fun o => c.owner o x.task))
    s.Steps cl o →
      ((64 ≤ c.storeQ.length ∨ (c.coded = [] ∧ convNext c = none)) → exec (.storeQueuePush cl) s = .next s) ∧
      (c.storeQ.length < 64 → ∀ e rest, c.coded = e :: rest → exec (.storeQueuePush cl) s =
        .next (s.setCl cl (({ c with coded := rest, storeQ := c.storeQ ++ [e] } : Cluster).take 1 1))) ∧
      (∀ r, storePush c (s.env cl) = some r → exec (.storeQueuePush cl) s = .next ((s.setCl cl r.1).acts cl o r.2)) ∧
      (c.storeQ.length < 64 → c.coded = [] → ∀ r, convNext c = some r →
        let d := c.desc r.desc
        let first := sget zeroNat c.pushed r.desc % max d.total 1
        d.quantOf r.src = false → r.round = false → r.src ≠ .wide → r.elems ≠ [] → r.elems.length ≤ min 32 (1024 / d.dstFmt.bits) →
        ∃ (u : Cluster) (as : List Act), exec (.storeQueuePush cl) s = .next ((s.setCl cl u).acts cl o as) ∧ u.conv = c.conv.erase r ∧
          u.storeQ = c.storeQ ++ [{ desc := r.desc, first := first, slot := r.slot, elems := r.elems.zipIdx.map (fun x =>
            (convert r.src d.dstFmt (d.ctl (s.env cl).seed (first + x.2)) x.1.2).code) }])) ∧
  (∀ (s : State) (cl : ClusterNo),
    let c := s.cl cl
    s.Steps cl (c.storeQ.head?.bind (fun e => c.strmOwner e.desc)) →
    (c.storeQ = [] → exec (.storeQueuePop cl) s = .next s) ∧
    (∀ e rest, c.storeQ = e :: rest →
      let t := c.strm e.desc
      let d := c.desc e.desc
      let ws := e.elems.zipIdx.flatMap (fun x => elemWrites d (e.first + x.2) x.1)
      (t.run = false ∨ t.halted = true → exec (.storeQueuePop cl) s = .next s) ∧
      (t.run = true → t.halted = false → e.side = [] → t.slot = none →
        ∃ u : Cluster, exec (.storeQueuePop cl) s = .next (s.setCl cl u) ∧ u.storeQ = rest ∧
          (u.strm e.desc).stored = t.stored + e.elems.length ∧
          (d.space = false → (u.strm e.desc).wbuf = t.wbuf ++ ws ∧ u.staging = c.staging) ∧
          (d.space = true → u.staging = (writeStg c ws).staging ∧ (u.strm e.desc).wbuf = t.wbuf))))

/-- GLAZE_VECTOR_ENTRY in a working cluster (R159, R164): with room at the store converter, a vector of up to 32 of an
elementwise function's queued elements enters, its results go to the converter, and the instruction ends with its last; the
first vector binds the active bank (R175), which may refuse the function (R167, R182). In shared rate it waits until the slots
granted to it give an evaluator for each 8 of its lanes, and takes them; without its elements, or with no room at the converter,
it waits too. GLAZE_LOAD_START begins a table load that waited for its bank (R177), an itinerary's within its cluster's ration
and not while the module straggles (R273, R327). GLAZE_LOAD_DONE, once the image's granules have had their slots, leaves the
inactive bank ready with the image's format, bytes and EPOCH when the image checks, empty with cause 3 when it does not, empty
with the cluster to stop when it is poisoned (R172, R174, R219); a waybill's image was read with its waybill (R367). A slot of a
glaze wheel whose owner is FG gives a waiting plain task's glaze instruction one evaluator slot, while its next vector could
enter but for its slots (R164, R272). -/
def Obligations.GlazeUnitsWork : Prop :=
  (∀ (s : State) (cl : ClusterNo) (r : GlzRun),
    let c := s.cl cl
    let o := c.owner r.slot r.task
    let n := min 32 (glzTotal r.f - r.elems)
    let need := if s.glzShared cl then glzSlots r else 0
    let ifmt := (fmtOf r.f.ifmt.toNat).getD .bin32
    let ofmt := (fmtOf r.f.ofmt.toNat).getD .bin32
    let b := c.gbank (r.bank.getD c.gactive)
    let xs := c.front r.f.sa.toNat n
    let ms := xs.map (fun x => glzElem b r.f.gfn.toNat ofmt (decodeVal ifmt x).1)
    c.glz = some r →
    (c.gslots < need → exec (.glazeVectorEntry cl) s = .next s) ∧
    (need ≤ c.gslots → s.Steps cl o → r.f.gfn.toNat < 0x10 → r.pass = 0 → convRoom c = false →
      exec (.glazeVectorEntry cl) s = .next s) ∧
    (need ≤ c.gslots → s.Steps cl o → r.f.gfn.toNat < 0x10 → r.pass = 0 → convRoom c = true →
      (c.canPop [(r.f.sa.toNat, n)] = false → exec (.glazeVectorEntry cl) s = .next s) ∧
      (c.canPop [(r.f.sa.toNat, n)] = true → (r.bank = none → glzRefuse b r.f = 0) →
        ∃ (u : Cluster) (as : List Act), exec (.glazeVectorEntry cl) s = .next ((s.setCl cl u).acts cl o as) ∧
          ms.length = n ∧ u.gslots = 0 ∧ u.conv = c.conv ++ [glzConv r r.f.desc.toNat ofmt ms] ∧
          u.glz = (if glzTotal r.f ≤ r.elems + n then none
            else some { r with bank := some (r.bank.getD c.gactive), elems := r.elems + n }) ∧
          Act.count64 0x320 n ∈ as) ∧
      (c.canPop [(r.f.sa.toNat, n)] = true → r.bank = none → glzRefuse b r.f ≠ 0 →
        exec (.glazeVectorEntry cl) s = .next ((s.setCl cl { c with glz := none, gslots := 0 }).acts cl o
          [.glaze (glzRefuse b r.f) r.f.gfn.toNat r.task 4, .stop 5])))) ∧
  (∀ (s : State) (cl : ClusterNo) (l : GLoad),
    let c := s.cl cl
    let b := 1 - c.gactive
    s.clOn cl = true →
    (let u := s.setCl cl (({ c with gwait := none, gload := some l } : Cluster).setGbank b { c.gbank b with state := 1 })
    c.gwait = some l → c.gload = none → c.old b = false →
      (l.wb.isSome = true → exec (.glazeLoadStart cl) s = .next u) ∧
      (l.wb = none → s.quotaFull cl = false → s.cvn.straggling = false → exec (.glazeLoadStart cl) s =
        .next (u.claim { cl := cl, write := false, src := .load cl } [(l.addr, 8320)]))) ∧
    (c.gload = some l → l.wb = none → s.loadReady cl l = true →
      let v := s.touch [(l.addr, 8320)]
      let e := v.cl cl
      let bs := v.loessRead l.addr 8320
      let fmt := imageCheck (fun i => bs.getD i 0) (crc32c 0 (bs.drop 32)).toNat
      let d : Cluster := { e with gload := none }
      let k := 1 - e.gactive
      (v.poisoned l.addr 8320 = true → exec (.glazeLoadDone cl []) s = .next ((v.setCl cl (d.setGbank k {})).stopCl cl 8)) ∧
      (v.poisoned l.addr 8320 = false → fmt ≠ 0 → exec (.glazeLoadDone cl []) s = .next (v.setCl cl
        (d.setGbank k { state := 2, epoch := l.epoch, fmt := fmt, img := sputs zeroByte [] 0 bs }))) ∧
      (v.poisoned l.addr 8320 = false → fmt = 0 → exec (.glazeLoadDone cl []) s =
        .next (applyAct cl false (v.setCl cl (d.setGbank k {})) (.glaze 3 0 0 5)))) ∧
    (∀ r ix bs, c.gload = some l → l.wb = some (r, ix, bs) →
      exec (.glazeLoadDone cl []) s = .next ((s.putBank cl l bs).loadReceipt l))) ∧
  (∀ (s : State) (u : Fin 2048) (ecc : List (Fin 8 × EccCase)) (r : GlzRun),
    let c := s.cl u
    let n := sget zeroNat s.wheel (wheelKey .glaze u)
    s.stagesRun = true → n < slotsIn .glaze s.clkStep → s.slotOwner .glaze n = 0 → c.glz = some r → s.glzShared u = true →
    c.gslots < glzSlots r → (vectorEntry c).isSome = true →
    s.works u = true → (∀ o, c.owner r.slot r.task = some o → (c.slot o).holds = false) →
    exec (.slotGrant .glaze u ecc) s = .next (({ s with wheel := sput zeroNat s.wheel (wheelKey .glaze u) (n + 1) } : State).setCl u
      { c with gslots := c.gslots + 1 }))

/-- GRANULE_ISSUE of a working cluster with its ration unspent (R192, R193, R195, R198): a store stream's next granule goes to
its stack with the bytes that wait for it, a load stream's next granule is asked for; a granule that fails its region check
halts the stream with its cause. Not said here: a relay store (R341), a granule fetched ahead or still in its landing slot, one
that an own store holds, and the arming of a watch. GRANULE_LAND puts a performed read's 512 bytes into its tag's staging
(R192); a granule no one wants is dropped, a poisoned one that is demanded halts its stream and stops the cluster (R219).
WRITE_ACK frees the tag of a performed store, whose stream ends with its last acknowledgement (R196). -/
def Obligations.GranulesIssueAndLand : Prop :=
  (∀ (s : State) (cl : ClusterNo) (desc : BitVec 6),
    let c := s.cl cl
    let dn := desc.toNat
    let t := c.strm dn
    let d := c.desc dn
    let rg := s.region cl d.region
    let spec := c.strmSpec dn
    s.works cl = true → t.halted = false → s.cvn.straggling = false → s.quotaFull cl = false →
    (∀ b rest k c0, t.wbuf = b :: rest → s.relayOf (b.addr / 512 * 512 / 0x200000) = none → c.tagToUse = some (k, c0) →
      (spec = true → s.ownPme cl t.task (b.addr / 512 * 512 / 512) = true) →
      let g := b.addr / 512 * 512
      let ws := t.wbuf.takeWhile (fun w => decide (w.addr / 512 * 512 = g))
      (rg.check (g : Int) true spec ≠ 0 → exec (.granuleIssue cl desc) s =
        .next (s.drvFault cl dn (rg.check (g : Int) true spec) g)) ∧
      (rg.check (g : Int) true spec = 0 →
        let c2 := ((dropLanded c0 g).setTag k { st := 1, write := true, gran := g, desc := dn, region := d.region, stage := s.stageNo
                                                slot := t.slot }).take 4 1
        exec (.granuleIssue cl desc) s = .next ((s.setCl cl (c2.setStrm dn { c2.strm dn with wbuf := t.wbuf.drop ws.length })).request
          { cl := cl, tag := k, write := true, addr := g, bytes := ws, spec := spec, task := t.task }))) ∧
    (∀ ix (g : Int), t.wbuf = [] → t.run = true → d.space = false → d.kind ≠ 1 →
      firstMissing c dn d t d.total 16400 (max t.iss t.pos) = (ix, some g) →
      (rg.check g false spec ≠ 0 → exec (.granuleIssue cl desc) s =
        .next (s.drvFault cl dn (rg.check g false spec) (g % (2 ^ 48 : Nat)).toNat)) ∧
      (rg.check g false spec = 0 → rg.hw = false → c.aheadFor d.region g.toNat = none → c.oldTag dn g.toNat = none →
        (∀ k < 16, (c.tag k).write = true → (c.tag k).gran = g.toNat → (c.tag k).st = 0) →
        ∀ k c0, c.tagToUse = some (k, c0) →
        exec (.granuleIssue cl desc) s = .next ((s.setCl cl (((c0.setTag k
            { st := 1, gran := g.toNat, desc := dn, region := d.region, upto := lastUse c dn d t d.total g 16400 ix, stage := s.stageNo
              slot := t.slot }).take 4 1).setStrm dn { t with iss := ix, fetched := true })).request
          { cl := cl, tag := k, write := false, addr := g.toNat, spec := spec, task := t.task
            recov := t.restarted.isSome && decide (ix < t.again) })))) ∧
  (∀ (s : State) (cl : ClusterNo) (tag : Fin 16),
    let c := s.cl cl
    let g := c.tag tag
    s.clOn cl = true → g.st = 2 →
    (g.write = false → g.drop = true → exec (.granuleLand cl tag) s = .next (s.setCl cl (c.dropTag tag))) ∧
    (g.write = false → g.drop = false → g.poison = false → exec (.granuleLand cl tag) s = .next (s.setCl cl
      ((c.setTag tag { g with st := 3, data := [] }).setStg (0x6000 + 512 * tag.val) g.data))) ∧
    (g.write = false → g.drop = false → g.poison = true → g.ahead = false → exec (.granuleLand cl tag) s =
      .next ((s.setCl cl ((c.dropTag tag).setStrm g.desc { c.strm g.desc with halted := true })).acts cl (c.strmOwner g.desc)
        [.stop 8])) ∧
    (g.write = true → exec (.writeAck cl tag) s = .next (s.setCl cl (endStore (c.dropTag tag) g.desc))))

/-- HAZARD_NOTICE delivers the oldest notice under way to the cluster (R201, R202): a watch concerns it that has its page, was
armed by its stage and has not been taken off since. With no such watch only the notice is gone. With one, the hazard is
reported for the watch's region, writer and page; the watch of a job leaves it at that; a copy stream with RESTART starts again,
with RESTART reported, or where the stage has restarted it already is unrecoverable and stops the cluster with cause 11 (R203);
of any other stream the notice's stage becomes one of hazard, and the tiles, weight banks or the glaze unit that have taken
elements of that stage are marked. With no notice under way nothing changes. SPEC_ZERO_DONE leaves a squashed task's staging
window zero, all else of staging as it was, and its slot free, counts the squash and the kc the task held its slot (R256, R261);
the cluster is done when it was its last task (R242). A slot that no squashed task holds is left alone. -/
def Obligations.HazardNoticesArriveAndWindowsAreZeroed : Prop :=
  (∀ (s : State) (cl : ClusterNo),
    (s.notices.find? (fun x => decide (x.cl = cl.val)) = none → exec (.hazardNotice cl) s = .next s) ∧
    ∀ (x : Notice), s.notices.find? (fun x => decide (x.cl = cl.val)) = some x →
    let s1 : State := { s with notices := s.notices.erase x }
    let concerned := (s.cl cl).watches.filter (fun w =>
      w.has x.page && decide (w.since ≤ x.stage) && (!w.off || decide (x.stage < s.stageNo)))
    (concerned = [] → exec (.hazardNotice cl) s = .next s1) ∧
    (∀ w, concerned = [w] →
      let s2 := s1.acts cl (s1.watchOwner cl w) [.hazard w.region x.who.kind x.who.id x.page]
      let c := s2.cl cl
      let o := s2.watchOwner cl w
      let copies := (c.desc w.desc).kind = 3 ∧ (c.desc w.desc).restart = true
      (64 ≤ w.desc → exec (.hazardNotice cl) s = .next ((s2.setCl cl c).acts cl o [])) ∧
      (w.desc < 64 → copies → (c.strm w.desc).restarted ≠ some x.stage → exec (.hazardNotice cl) s =
        .next ((s2.setCl cl (restartCopy c w.desc x.stage s2.stageNo)).acts cl o [.hazBits 0x200000])) ∧
      (w.desc < 64 → copies → (c.strm w.desc).restarted = some x.stage → exec (.hazardNotice cl) s =
        .next ((s2.setCl cl c).acts cl o [.hazBits 0x400000, .stop 11])) ∧
      (w.desc < 64 → ¬copies → exec (.hazardNotice cl) s =
        .next ((s2.setCl cl { c with hazards := (w.desc, x.stage) :: c.hazards }).acts cl o
          ((c.took.filter (fun y => y.2 = (w.desc, x.stage))).map (fun y =>
            if y.1 = 4 then .hazBits 0x100000 else .suspect (2 ^ y.1))))))) ∧
  (∀ (s : State) (cl : ClusterNo) (slot : Fin 2),
    let c := s.cl cl
    let t := c.slot slot
    (t.st ≠ 6 → exec (.specZeroDone cl slot) s = .next s) ∧
    (t.st = 6 → ∃ u : Cluster, exec (.specZeroDone cl slot) s =
        .next (((s.setCl cl u).count (ca cl 0xA20) 1).count64 (ca cl 0xA28) t.kc) ∧
      u.slot slot = {} ∧ u.slot (1 - slot.val) = c.slot (1 - slot.val) ∧
      u.st = (if c.st = 2 ∧ c.walked = true ∧ (c.slot (1 - slot.val)).st = 0 then 4 else c.st) ∧
      (∀ a, t.wbase * 1024 ≤ a → a < (t.wbase + t.wsize) * 1024 → sget zeroByte u.staging a = 0) ∧
      (∀ a, a < t.wbase * 1024 ∨ (t.wbase + t.wsize) * 1024 ≤ a → sget zeroByte u.staging a = sget zeroByte c.staging a)))

/-! Loess memory, bedrock dies, jobs, slots, reductions (chapters 07, 08, 10, 12) -/

/-- JOB: the job descriptor staged at JOFF is issued and its granules wait for their slots; it waits while two of the cluster's
jobs have not completed, its memory ration is used up or the module straggles (R227, R273, R327); a job that fails its check is
a drover fault with origin 1 (R224, R226). BEDROCK_JOB runs the oldest job of a requester whole once its granules have had their
slots, and marks it done with the cause it stopped with; a job already run, or whose granules still wait, is left alone (R225,
R226). JOB_COMPLETE takes a job that is done from the list, and the cluster's watches of its source are done (R227): a waybill's
job has its receipt, DONE with the operation, MEMERR with the bytes it had written, or REFUSED with its cause; a cluster's job
that stopped leaves a LSM_JOB record for its task and stops the cluster with cause 8. With no job of the requester nothing
happens. -/
def Obligations.JobsIssueRunAndComplete : Prop :=
  (∀ (s : State) (cl : ClusterNo) (o : Nat) (joff : BitVec 17), s.Issues cl .access o → joff.toNat % 64 = 0 →
    let c := s.cl cl
    let t := c.slot o
    let bs := c.stg joff.toNat 64
    let s1 := s.setCl cl (c.pass1 .access)
    let j : Job := { src := .cluster cl, d := jobOf bs, ord := s.jobOrd, spec := t.holds, slot := o, task := t.task }
    let waits := 2 ≤ (s.jobsOf (.cluster cl)).length ∨ s.quotaFull cl = true ∨ s.cvn.straggling = true
    (waits → exec (.job cl joff) s = .next s) ∧
    (¬waits →
      (∀ cause reg a, s.jobCheck cl bs (jobOf bs) t.holds t.task = some (cause, reg, a) →
        exec (.job cl joff) s = .next (s1.acts cl (some o) [.drover cause reg 1 t.task a, .stop 2])) ∧
      (s.jobCheck cl bs (jobOf bs) t.holds t.task = none → (s.region cl (jobOf bs).sreg).hw = false →
        exec (.job cl joff) s = .next (({ s1 with jobs := s.jobs ++ [j], jobOrd := s.jobOrd + 1 } : State).claim j.req
          (s1.jobRanges (s1.jobOwner j) j.d))))) ∧
  ((∀ (s : State) (src : JobSrc), s.jobsOf src = [] →
    exec (.bedrockJob src []) s = .next s ∧ exec (.jobComplete src) s = .next s) ∧
  ∀ (s : State) (src : JobSrc) (j : Job) (rest : List Job), s.jobsOf src = j :: rest →
    (j.done = false → s.jobReady j = true →
      let r := s.runJob j
      let s2 := (r.s.noteRuns j r.runs).touch (r.reads ++ r.runs)
      let n := (r.runs.map (fun y => y.2)).foldl (· + ·) 0
      exec (.bedrockJob src []) s = .next { s2 with jobs := s2.jobs.map (fun x =>
        if x.ord = j.ord then { x with done := true, cause := r.cause, dieNo := r.dieNo, bytes := n } else x) }) ∧
    (j.done = true ∨ s.jobReady j = false → exec (.bedrockJob src []) s = .next s) ∧
    (j.done = false → exec (.jobComplete src) s = .next s) ∧
    (j.done = true →
      let s1 : State := { s with jobs := s.jobs.filter (fun x => decide (x.ord ≠ j.ord)) }
      (∀ n, src = .cluster n →
        let s2 := s1.setCl n { s.cl n with watches := (s.cl n).watches.map (fun w =>
          if w.desc = 64 + j.ord then { w with done := true } else w) }
        (j.cause = 0 → exec (.jobComplete src) s = .next s2) ∧
        (j.cause ≠ 0 → exec (.jobComplete src) s =
          .next (s2.acts n ((s2.cl n).owner j.slot j.task) [.job j.dieNo j.cause, .stop 8]))) ∧
      (∀ r i w, src = .waybill r i → s.wb r i.toNat = some w →
        (j.cause = 0 → exec (.jobComplete src) s = .next (s1.finish r w 0 [j.d.op])) ∧
        (j.cause = 4 → exec (.jobComplete src) s =
          .next ((s1.jobFault j.dieNo 4 0 true).finish r w 0x0C [j.bytes % 2 ^ 32, j.bytes / 2 ^ 32])) ∧
        (j.cause ≠ 0 → j.cause ≠ 4 → exec (.jobComplete src) s =
          .next ((s1.jobFault j.dieNo j.cause 0 true).finish r w 0x0A [j.cause])))))

/-- LOESS_READ of a request whose codewords the decoder finds clean answers it with the bytes the request sees, or with poison
and no byte when a codeword it takes is poisoned (R215, R219, R254): at its drover's tag, or, for a host's request, as its
completion, which for poison is an error with a TTH_ERR record of cause 2 (R375). The stack has the request no more, its row
counts one activation (R222), Loess memory and its poison marks are unchanged. A request that is none, a write, one that may not
be performed yet (R215, R223) or one of a stack without power is left alone. LOESS_WRITE with a clean decoder puts the request's
masked bytes into the granule that is current for it, which for the owner of an open provisional map entry is the other copy
(R216, R254), ends the poison of the codewords it covers whole (R219), and leaves every other physical granule's bytes and
poison as they were; the stack has the request no more. A drover's request is acknowledged at its tag; a delivery is answered
once no part of it waits, with status 1 where its bytes are poisoned (R342). A request that may not be performed is left alone.
While the module's own stacks serve the host in turn, a host's write that this completes lets the accesses behind it go on
(R379). What the Reed-Solomon decoder finds (R217 to R219): a codeword found clean or already poisoned is read as it is; a
corrected one counts a correctable error; one detected is poisoned and counts in LSM_UE; one it takes wrongly for another holds
free bytes (Config.ecc), all else of memory as it was. -/
def Obligations.LoessAccessesActOnTheCurrentCopy : Prop :=
  ((∀ (s : State) (k : Fin 8) (i : Nat) (ecc : List (Fin 8 × EccCase)), (∀ r, (s.die k).accepted[i]? = some r →
      r.write = true ∨ (s.die k).performs i (s.place r.addr).2 r = false ∨ s.domainOn (144 + k.val) = false) →
    exec (.loessRead k i ecc) s = .next s) ∧
  ∀ (s : State) (k : Fin 8) (i : Nat) (r : Req), (s.die k).accepted[i]? = some r → r.write = false → r.found = [] →
    (s.die k).performs i (s.place r.addr).2 r = true → s.domainOn (144 + k.val) = true →
    let u := (s.dropAccepted k i).activate k (s.place r.addr).2
    let pg := s.readGran (r.addr / 512) (r.spec && s.owns r.cl r.task (r.addr / 512))
    let bad := (List.range 8).any (fun c => r.takes c && sget zeroBool s.poison (pg * 8 + c))
    let data := sgets zeroByte s.loess (pg * 512 + r.addr % 512) r.len
    (u.die k).accepted = (s.die k).accepted.eraseIdx i ∧ u.loess = s.loess ∧ u.poison = s.poison ∧ u.clusters = s.clusters ∧
    (r.src = .drover → exec (.loessRead k i []) s = .next (u.setCl r.cl ((s.cl r.cl).setTag r.tag { (s.cl r.cl).tag r.tag with
      st := 2, data := if bad then [] else data, poison := bad }))) ∧
    (∀ q tag, r.src = .host q tag →
      let done (v : State) (m : HMsg) : State := { v with teth := { v.teth with txq := v.teth.txq ++
        [{ act := 1, due := v.stageNo, msg := m, addr := r.addr, space := 1, tag := tag }] } }
      (bad = false → exec (.loessRead k i []) s = .next (done u (.data data))) ∧
      (bad = true → exec (.loessRead k i []) s = .next (done (u.tthErr 2 1 r.addr) .error) ∧
        (u.tthErr 2 1 r.addr).loess = s.loess))) ∧
  ((∀ (s : State) (k : Fin 8) (i : Nat) (ecc : List (Fin 8 × EccCase)), (∀ r, (s.die k).accepted[i]? = some r →
      r.write = false ∨ (s.die k).performs i (s.place r.addr).2 r = false ∨ s.domainOn (144 + k.val) = false) →
    exec (.loessWrite k i ecc) s = .next s.hostOn) ∧
  ∀ (s : State) (k : Fin 8) (i : Nat) (r : Req), (s.die k).accepted[i]? = some r → r.write = true → r.found = [] →
    (s.die k).performs i (s.place r.addr).2 r = true → s.domainOn (144 + k.val) = true →
    let g := r.addr / 512
    let own := r.spec && s.owns r.cl r.task g
    let pg := match s.pmeAt g with
      | some p => if own then s.otherOf p g else s.selOf g
      | none => s.selOf g
    let whole (c : Nat) : Prop := ∀ b < 64, ∃ w ∈ r.bytes, w.addr % 512 = c * 64 + b ∧ w.mask = 3#2
    ∃ u : State, (s.memOk → u.memOk) ∧
      (r.src = .drover → exec (.loessWrite k i []) s = .next (u.setCl r.cl ((s.cl r.cl).setTag r.tag { (s.cl r.cl).tag r.tag with
        st := 2, data := [], poison := false })).hostOn) ∧
      (∀ q t, r.src = .host q t → exec (.loessWrite k i []) s = .next u.hostOn) ∧
      (∀ p dseq cl a n, r.src = .car p dseq cl a n →
        let waits := ∃ d ∈ u.dies, ∃ q ∈ d.2.waiting ++ d.2.accepted, q.src = r.src
        (waits → exec (.loessWrite k i []) s = .next u.hostOn) ∧
        (¬waits → exec (.loessWrite k i []) s = .next (u.dackOut p dseq cl (if u.poisoned a n then 1 else 0)).hostOn)) ∧
      (∀ x, x / 8 ≠ pg → sget zeroBool u.poison x = sget zeroBool s.poison x) ∧
      (∀ c < 8, (whole c → sget zeroBool u.poison (pg * 8 + c) = false) ∧
        (¬whole c → sget zeroBool u.poison (pg * 8 + c) = sget zeroBool s.poison (s.readGran g own * 8 + c))) ∧
      (∀ a, a / 512 ≠ pg → sget zeroByte u.loess a = sget zeroByte s.loess a) ∧
      sgets zeroByte u.loess (pg * 512) 512 = r.bytes.foldl
        (fun l w => l.set (w.addr % 512) (maskByte w.mask (l.getD (w.addr % 512) 0) w.val))
        (sgets zeroByte s.loess (s.readGran g own * 512) 512) ∧
      (u.die k).accepted = (s.die k).accepted.eraseIdx i ∧ u.clusters = s.clusters ∧ u.rings = s.rings ∧ u.ports = s.ports) ∧
  (∀ (s : State) (cw src who : Nat) (newer : Bool) (c : EccCase),
    let k := (s.place (cw * 64)).1
    let t := s.eccCase cw src who newer c
    (sget zeroBool s.poison cw = true → t = s) ∧
    (sget zeroBool s.poison cw = false →
      (c = .clean → t = s) ∧
      (c = .corrected → t.regs = (s.count (sa k 0x14) 1).regs ∧ t.loess = s.loess ∧ t.poison = s.poison) ∧
      (c = .detected → sget zeroBool t.poison cw = true ∧ t.loess = s.loess ∧ t.clusters = s.clusters ∧
        (∀ x, x ≠ cw → sget zeroBool t.poison x = sget zeroBool s.poison x) ∧
        t.regN (sa k 0x18) = min (s.regN (sa k 0x18) + 1) (2 ^ 32 - 1)) ∧
      ((c = .miscorrected ∨ c = .silent) → t.poison = s.poison ∧
        (∀ i, i < 64 → sget zeroByte t.loess (cw * 64 + i) = Config.ecc s.fresh i) ∧
        (∀ a, a < cw * 64 ∨ cw * 64 + 64 ≤ a → sget zeroByte t.loess a = sget zeroByte s.loess a))))

/-- RH_THROTTLE, for a row of a channel with a mitigation that has taken 256 further activations: the first time it counts in
LSM_RH_THROT and raises EV_LSM_RH with the row, else nothing happens (R223). ROW_REFRESH sets the count of activations of its
row to 0 and no other row's (R222). PERIODIC_CALIBRATION adds one calibration, of the current stage, to those that wait for a
slot (R275). HOLD_TRANSITION_DONE: a stack that enters HOLD with no accepted request left, nor a job or table load that has its
slots, holds its contents (STATE 4), one that leaves HOLD is ready (STATE 2), the WRITTEN bits of its pages clear and its
watches blind, and after a HOLD of 32 ms or longer, which a free value says (Config.heldLong), its activation counts 0; while
the module goes into its own HOLD it enters again (R229). A stack that has not done what it accepted stays in transition, one in
no transition stays as it is (R229, R230). Then what waited for it goes on: a power transition, HOLD receipts, a put-off service
request. BEDROCK_FW_RESTART of a stack that restarts with a new image (R231): it is in HOLD again; when the image started it
runs it, else it runs the one before, with its failure shown, and stays in HOLD until the next ARM. The update's receipt
follows: DONE, or REFUSED. -/
def Obligations.StacksKeepTheirUpkeep : Prop :=
  (∀ (s : State) (k : Fin 8) (chan : Fin 16) (row : BitVec 22),
    let d := s.die k
    let hit (m : Mit) : Bool := decide (m.row = row.toNat) && decide (m.chan = chan.val) && decide (256 ≤ m.further) && !m.throttled
    (d.mits.any hit = true → exec (.rhThrottle k chan row) s =
      .next (((s.setDie k { d with mits := d.mits.map (fun m => if hit m then { m with throttled := true } else m) }).count
        (sa k 0x2C) 1).raise 13 3 k row.toNat 0)) ∧
    (d.mits.any hit = false → exec (.rhThrottle k chan row) s = .next s) ∧
    (let rows := serase d.rows (chan.val * 2 ^ 22 + row.toNat)
    exec (.rowRefresh k chan row) s = .next (s.setDie k { d with rows := rows }) ∧
      sget zeroNat rows (chan.val * 2 ^ 22 + row.toNat) = 0 ∧
      ∀ x, x ≠ chan.val * 2 ^ 22 + row.toNat → sget zeroNat rows x = sget zeroNat d.rows x) ∧
    exec (.periodicCalibration k) s = .next (s.setDie k { d with cal := d.cal ++ [s.stageNo] })) ∧
  (∀ (s : State) (k : Fin 8),
    (s.stackState k = 3 → (s.die k).accepted = [] → s.stackOwes k = false → exec (.holdTransitionDone k) s =
      .next (s.setStack k 4).settleTrans.holdReceipts.svcRetry) ∧
    (s.stackState k = 3 → ((s.die k).accepted ≠ [] ∨ s.stackOwes k = true) → exec (.holdTransitionDone k) s = .next s) ∧
    (s.stackState k = 5 →
      let d1 : Stack := if Config.heldLong k s.fresh then { s.die k with rows := [] } else s.die k
      let s1 : State := { (s.draw.setStack k 2).setDie k d1 with written := s.written.filter (fun e => decide (e.1 % 8 ≠ k.val)) }
      let s2 := s1.mapCl (fun c => { c with watches := c.watches.map (fun w => { w with blind := k.val :: w.blind }) })
      (s.trans ≠ some (2, true) → exec (.holdTransitionDone k) s = .next s2.settleTrans.holdReceipts.svcRetry) ∧
      (s.trans = some (2, true) → exec (.holdTransitionDone k) s = .next (s2.stackIn k).settleTrans.holdReceipts.svcRetry)) ∧
    (s.stackState k ≠ 3 → s.stackState k ≠ 5 → exec (.holdTransitionDone k) s = .next s)) ∧
  (∀ (s : State) (k : Fin 8) (b : FwBank), (s.die k).fwNew = some b → s.stackState k = 6 →
    let new := ((s.setStack k 4).setDie k { s.die k with fwNew := none, needArm := false }).bedRuns k b
    let old := ((s.setStack k 4).setDie k { s.die k with fwNew := none, needArm := true }).setBits (sa k 0) 8
    (s.bedrockWb k = none →
      exec (.bedrockFwRestart k true) s = .next new.settleTrans ∧ exec (.bedrockFwRestart k false) s = .next old.settleTrans) ∧
    (∀ r w, s.bedrockWb k = some (r, w) →
      exec (.bedrockFwRestart k true) s = .next ((new.finish r w 0 [b.version.toNat, new.arb 1]).settleTrans.svcRetry) ∧
      exec (.bedrockFwRestart k false) s =
        .next ((old.finish r w 0x0A [(Config.openWord 0x900 0).toNat]).settleTrans.svcRetry)) ∧
    (∀ o, new.bedOf o = (if o = k.val then b else s.bedOf o)))

/-- SLOT_GRANT (R272): the next slot of an instance goes to the first activity of its order that has something waiting; a slot
no one takes is idle; past the last slot of the stage nothing is granted; an instance the wheel does not have grants nothing. A
slot of a memory wheel whose owner is FG goes to the first waiting request of a plain task while its cluster has memory slots
left (R272, R273): a ready stack accepts the read, and its cluster's count rises. -/
def Obligations.SlotsAreGranted : Prop :=
  (∀ (s : State) (w : Wheel) (u : Fin 2048) (ecc : List (Fin 8 × EccCase)),
    (wheelUnits w ≤ u.val → exec (.slotGrant w u ecc) s = .next s) ∧
    (u.val < wheelUnits w → s.stagesRun = true →
      let n := sget zeroNat s.wheel (wheelKey w u)
      let s1 : State := { s with wheel := sput zeroNat s.wheel (wheelKey w u) (n + 1) }
      (slotsIn w s.clkStep ≤ n → exec (.slotGrant w u ecc) s = .next s) ∧
      (n < slotsIn w s.clkStep →
        (∀ t, firstTaker (s.takers w u ecc s1) (offered (s.slotOwner w n) (s.orderOf w u)) = some t →
          exec (.slotGrant w u ecc) s = .next t) ∧
        (firstTaker (s.takers w u ecc s1) (offered (s.slotOwner w n) (s.orderOf w u)) = none →
          exec (.slotGrant w u ecc) s = .next (if w = .link ∧ u.val % 2 = 0 then s1.linkIdle (u.val / 2) else s1))))) ∧
  (∀ (s : State) (u : Fin 2048) (ecc : List (Fin 8 × EccCase)) (r : Req) (rest : List Req),
    let d := s.die u
    let n := sget zeroNat s.wheel (wheelKey .memory u)
    let s1 : State := { s with wheel := sput zeroNat s.wheel (wheelKey .memory u) (n + 1) }
    let c := s.cl r.cl
    u.val < 8 → s.stagesRun = true → n < slotsIn .memory s.clkStep → s.slotOwner .memory n = 0 → s.stackReady u = true →
    d.waiting = r :: rest → r.src = .drover → r.spec = false → r.recov = false → r.write = false → r.n ≤ 1 → s.slotsUsed r.cl = false →
    exec (.slotGrant .memory u ecc) s = .next ((s1.setDie u { d with waiting := rest, accepted := d.accepted ++ [r] }).setCl r.cl
      { c with slots := c.slots + 1 }))

/-- RED waits like a drain for its tile (R68); a tile under a discard mark is passed; a module that is no member of the ring, or
a carry the path cannot have, is a reduction fault that leaves the tile busy; else the reduction starts with the module's own
chunk, takes the next number of its ring and keeps the tile (R332, R334, R340); in a ring of one member every element goes to
the store converter at once (R338). REDUCTION_CHUNK takes the oldest reduction slot a port has received and returns its credit
(R314, R333, R335). For the reduction it names: a CFMT or DFMT that the RED does not have ends it with a reduction fault; else
the slot's bytes are kept with those of its chunk that have come, and once all have come the chunk's elements are summed with
the own ones and go on, or are gathered (R335, R337). A slot whose RED has not started here waits for it with its credit, one
that comes too late is a reduction fault (R340). With no slot nothing happens. -/
def Obligations.ReductionsStartAndTakeSlots : Prop :=
  (∀ (s : State) (cl : ClusterNo) (o : Nat) (f : RedF), s.Issues cl .execute o → f.carry.toNat ≠ 3 →
    let c := s.cl cl
    let t := c.tile f.tile
    let ring := f.ring.toNat
    let busy : ReadOut :=
      { drain := true, red := some (ring, 2 ^ 16), fmt := 0, rnd := 0, satw := false, site := 0, desc := 0 }
    let s1 := s.setCl cl ((c.setTile f.tile { t with out := some busy }).pass1 .execute)
    (c.tileWaits f.tile o = true → exec (.red cl f) s = .next s) ∧
    (c.tileWaits f.tile o = false → t.discard = true → exec (.red cl f) s = .next (s.setCl cl (c.pass1 .execute))) ∧
    (c.tileWaits f.tile o = false → t.discard = false →
      (s.redRing ring = none → exec (.red cl f) s = .next (s1.redFault cl ring 1)) ∧
      (∀ k ms, s.redRing ring = some (k, ms) →
        (t.path = 3 → f.carry.toNat = 2 → exec (.red cl f) s = .next (s1.redFault cl ring 2)) ∧
        ((t.path ≠ 3 ∨ f.carry.toNat ≠ 2) →
          ∃ u : State, exec (.red cl f) s = .next u ∧ u = s.redStart cl o f k ms ∧
            (u.cl cl).exec.ix = c.exec.ix + 1 ∧ ((u.cl cl).tile f.tile).out.isSome = true ∧
            sget zeroNat (u.cl cl).rseq ring = (sget zeroNat c.rseq ring + 1) % 2 ^ 16 ∧
            (s.mustered = false → ∃ rows, (u.cl cl).conv = c.conv ++ rows ∧ (∀ x ∈ rows, x.desc = f.desc.toNat) ∧
              (rows.flatMap (fun x => x.elems)).length = tileSide t.path * tileSide t.path))))) ∧
  (∀ (s : State) (p : Fin 16),
    let x := s.port p
    (x.rx.find? (fun m => decide (m.1 = 1)) = none → exec (.reductionChunk p) s = .next s) ∧
    (∀ m, x.rx.find? (fun m => decide (m.1 = 1)) = some m →
      let s1 := s.setPort p { x with rx := x.rx.erase m }
      let h := leNat (m.2.take 8)
      let cl := bits h 0 11
      let ring := bits h 11 3
      let rseq := bits h 40 16
      let behind := (sget zeroNat (s.cl cl).rseq ring + 2 ^ 16 - rseq) % 2 ^ 16
      let s2 := s1.setPort p { s1.port p with credOut := (s1.port p).credOut + 1 }
      (∀ r q ms, s.redOf cl ring rseq = some r → s.redRing r.ring = some (q, ms) →
        let phase := bits h 14 1
        let k := bits h 15 10
        let ix := bits h 25 8
        let cfmt := bits h 33 3
        let d := (s.cl r.cl).desc r.desc
        let key := (k * 2 + phase) * 8 + cfmt
        let len := chunkLen r.own.length ms.length k
        let per := chunkPer cfmt d.dstFmt.bits
        let n := (len + per - 1) / per
        let parts := r.parts.filter (fun x => !(decide (x.1 = key) && decide (x.2.1 = ix))) ++ [(key, ix, m.2.drop 8)]
        let body (i : Nat) : List Byte := ((parts.find? (fun x => decide (x.1 = key) && decide (x.2.1 = i))).map (fun x => x.2.2)).getD []
        let fits := cfmtOk r.carry phase cfmt = true ∧ bits h 36 4 = d.dst
        (¬fits → exec (.reductionChunk p) s = .next ((s2.dropRed r).redFault r.cl r.ring 3)) ∧
        (fits → k < ms.length → (∃ i < n, ∀ x ∈ parts, x.1 = key → x.2.1 ≠ i) →
          exec (.reductionChunk p) s = .next (s2.setRed { r with parts := parts })) ∧
        (fits → k < ms.length → (∀ i < n, ∃ x ∈ parts, x.1 = key ∧ x.2.1 = i) →
          let items := (List.range n).flatMap (fun i => unpackItems (chunkBits cfmt d.dstFmt.bits) (min per (len - i * per)) ((body i).take 504))
          let r1 : Red := { r with parts := parts.filter (fun x => decide (x.1 ≠ key)) }
          (phase = 0 → exec (.reductionChunk p) s = .next ((s2.setRed r1).redChunk r1 ms k (some (chunkVals cfmt items)))) ∧
          (phase ≠ 0 → exec (.reductionChunk p) s = .next ((s2.setRed r1).redGather r1 ms k cfmt items)))) ∧
      (s.redOf cl ring rseq = none → (behind = 0 ∨ 2 ^ 15 < behind) →
        exec (.reductionChunk p) s = .next { s1 with early := s.early ++ [(p.val, m.2)] }) ∧
      (s.redOf cl ring rseq = none → 1 ≤ behind → behind ≤ 2 ^ 15 →
        exec (.reductionChunk p) s = .next (s2.redFault cl ring 4))))

/-! Stages, votes, pauses, the kiln clock (chapters 10 to 12) -/

/-- STAGE_BOUNDARY is the end of the nominal period, EXTENSION_PERIOD_END that of an extension; each does nothing elsewhere. Of
a module alone: when its stores are acknowledged, its jobs complete and no predicate came late, the next stage begins at kc 0
with its number, votes forgotten, and the orders of R264 act; else an extension period begins (R264 to R266). Resets that
arrived in the last kc act then (R407). Recovery traffic that waits at the nominal end is counted. In a mustered domain the
decision says what the end of a period is (R326): TAKE a boundary, with the module straggling, and counted, when its own work is
not complete (R327), or an extension; a period without a decision is counted, raises EV_CVN_NODECIDE and is extended. What an
extension period is (R266, R280): kc starts again, GLB_LATE and the lateness rise by one, votes and wheel positions are
forgotten; the first one raises EV_LATE_STAGE, captures in GLB_LATE_INFO what is unmet, and sets aside the shadows for an ARM of
this stage; a later one counts in that record. Boundary actions of order 4 and 5 (R56, R139, R264): where a cluster executed
GSTEP the grit step rises by 1, else it stays; where WADV ran, entry e of each window slot becomes entry e + 1, entry 0 is empty
and entries beyond the depth are dropped; FILL rises by 1 up to the depth, the model's choice of log entry 152. R267: a stage
late for more than 64 extension periods is hung: EV_STAGE_HUNG is raised once with GLB_LATE_INFO, and the stage goes on waiting,
its kc, lateness and number as they were; a stage not so late, or known to hang, raises nothing. -/
def Obligations.PeriodsEnd : Prop :=
  (∀ s : State,
    let s0 := if s.recoveryWaits = true then s.count 0x100C 1 else s
    let begins (u : State) : State :=
      let u1 : State := { (u.setReg64 0x400 ((s.stageNo + 1) % 2 ^ 64)).newKc with kc := 0, late := 0, hung := false, setpLate := false }
      let u2 : State := { u1 with cvn := { u1.cvn with straggling := false } }
      let r := u2.clearVotes.orders (decide (0 < u.late))
      let paused := match u.cvn.decision with | some (_, p) => p | none => false
      (r.1.afterOrders r.2 paused).dueResets
    ((s.stagesRun = false ∨ s.kc ≠ 8192) → exec .stageBoundary s = .next s ∧ exec .extensionPeriodEnd s = .next s) ∧
    (0 < s.late → exec .stageBoundary s = .next s) ∧ (s.late = 0 → exec .extensionPeriodEnd s = .next s) ∧
    (s.stagesRun = true → s.kc = 8192 → s.mustered = false →
      (s.late = 0 → s.stageComplete = true → exec .stageBoundary s = .next (begins s0)) ∧
      (s.late = 0 → s.stageComplete = false → exec .stageBoundary s = .next s0.extend.dueResets) ∧
      (0 < s.late → s.stageComplete = true → exec .extensionPeriodEnd s = .next (begins s)) ∧
      (0 < s.late → s.stageComplete = false → exec .extensionPeriodEnd s = .next s.extend.dueResets))) ∧
  (∀ s : State, s.stagesRun = true → s.kc = 8192 → s.mustered = true →
    let late := s.storesWait || s.jobsWait || s.setpLate
    let begins (u : State) (pause : Bool) : State :=
      let u1 : State := { (u.setReg64 0x400 ((s.stageNo + 1) % 2 ^ 64)).newKc with
        kc := 0, late := 0, hung := false, setpLate := u.setpLate && late }
      let u2 : State := { u1 with cvn := { u1.cvn with straggling := late } }
      let r := (if late = true then u2.count 0x500018 1 else u2).clearVotes.orders (decide (0 < u.late))
      (r.1.afterOrders r.2 pause).dueResets
    let ends (u : State) : Host.Outcome State Fault Refusal := match s.cvn.decision with
      | some (true, pause) => .next (begins u pause)
      | some (false, _) => .next u.extend.dueResets
      | none => .next ((u.count 0x500020 1).raise 27 0 0 ((u.count 0x500020 1).regN 0x500020) 0).extend.dueResets
    (s.late = 0 → exec .stageBoundary s = ends (if s.recoveryWaits = true then s.count 0x100C 1 else s)) ∧
    (0 < s.late → exec .extensionPeriodEnd s = ends s)) ∧
  (∀ s : State,
    let x := ((({ s.newKc with kc := 0, late := s.late + 1, wheel := [], setpLate := false } : State).count 0x408 1).mapCl
      (fun c => { c with slots := 0 })).clearVotes
    let stage := s.stageNo % 2 ^ 16
    (s.late = 0 →
      let a := ({ x with snap := x.shadow, shadow := [] } : State).capture noRank 0x40C (1 + s.unmet + 2 ^ 6 + stage * 2 ^ 16) []
      s.extend = a.raise 15 0 0 (a.regN 0x40C) 0) ∧
    (0 < s.late → s.fld 0x40C 16 16 = stage → (s.reg 0x40C).getLsbD 0 = true →
      s.extend = x.setFld 0x40C 6 7 (min (x.fld 0x40C 6 7 + 1) 127)) ∧
    (0 < s.late → (s.fld 0x40C 16 16 ≠ stage ∨ (s.reg 0x40C).getLsbD 0 = false) → s.extend = x)) ∧
  ((∀ s : State, (s.gstep = false → s.gritStep = s) ∧
    (s.gstep = true → s.gritStep.reg64 0x108 = (s.reg64 0x108 + 1) % 2 ^ 64 ∧ s.gritStep.gstep = false ∧
      (∀ a, a ≠ 0x108 → a ≠ 0x10C → s.gritStep.reg a = s.reg a) ∧ s.gritStep.clusters = s.clusters ∧ s.gritStep.loess = s.loess)) ∧
  ∀ (c : Cluster) (depth : Nat), 0 < depth → depth ≤ 16 →
    let d := c.advanceWindows depth
    (c.wadv = false → d = c) ∧
    (c.wadv = true → d.wadv = false ∧ d.acc = c.acc ∧ d.exec = c.exec ∧ d.tile0 = c.tile0 ∧ d.tile1 = c.tile1 ∧
      ∀ k < 16, sget zeroNat d.fill k = min (sget zeroNat c.fill k + 1) depth ∧
        (∀ j, (k * 16, j) ∉ d.wins) ∧ (∀ e, depth ≤ e → e < 16 → ∀ j, (k * 16 + e, j) ∉ d.wins) ∧
        ∀ e, e + 1 < depth → ∀ j, (k * 16 + (e + 1), j) ∈ d.wins ↔ (k * 16 + e, j) ∈ c.wins)) ∧
  (∀ s : State,
    (64 < s.late → s.hung = false →
      exec .stageHung s = .next (({ s with hung := true } : State).raise 16 0 0 (s.regN 0x40C) 0) ∧
      ∀ t, exec .stageHung s = .next t → exec .stageHung t = .next t ∧ t.kc = s.kc ∧ t.late = s.late ∧ t.regN 0x400 = s.regN 0x400) ∧
    ((s.late ≤ 64 ∨ s.hung = true) → exec .stageHung s = .next s))

/-- VOTE_POINT: from its vote kc on, a module of a mustered domain votes once in a period, COMPLETE when its links do not wait,
PAUSEOK when its pause may be taken (R324, R326, R328). While a child's vote is missing its vote waits; with them all it goes on
to the parent as one, and the lead decides: TAKE when every module is complete, and PAUSE with it when every module may pause; a
decision goes out on the ports of all children. LEAD_DECISION_DEADLINE: the lead whose own vote stands and that lacks another's
decides an extension (R326). Each changes nothing else, and nothing out of its time. PAUSE_SETTLED: once every cluster of a
pausing set has settled, the running ones are stopped with STOPC 1 at P and the pause is in force; other clusters, registers and
Loess memory stay. The PAUSE waybill, if one asked for it, then gets its receipt with P (R294). Till then, and in no other state
of a pause, it does nothing. -/
def Obligations.ModulesVoteAndPausesSettle : Prop :=
  (∀ s : State,
    let decided (u : State) (take pause : Bool) (t : State) : Prop :=
      (∀ p, (t.port p) = if p ∈ s.children then
        { u.port p with vout := 1 + (if take = true then 2 else 0) + (if pause = true then 4 else 0) } else u.port p) ∧
      t = { u with ports := t.ports, cvn := { u.cvn with decision := some (take, pause) } }
    (s.mustered = true → s.stagesRun = true → s.cvn.voted = false → 8192 - s.voteKc ≤ s.kc →
      let v : State := { s with cvn := { s.cvn with voted := true, own := some (!s.linksWait, s.pauseOk) } }
      let vins := s.children.map (fun p => (s.port p).vin)
      let c := !s.linksWait && vins.all (fun x => x.testBit 1)
      let k := s.pauseOk && vins.all (fun x => x.testBit 2)
      ((s.cvn.decision.isSome = true ∨ ∃ x ∈ vins, x % 2 = 0) → exec .votePoint s = .next v) ∧
      (s.cvn.decision = none → (∀ x ∈ vins, x % 2 = 1) →
        (s.leads = true → ∃ t, exec .votePoint s = .next t ∧ decided v c (c && k) t) ∧
        (s.leads = false → ∀ p, s.parent = some p → exec .votePoint s = .next (v.setPort p
          { s.port p with vout := 1 + (if c = true then 2 else 0) + (if k = true then 4 else 0) })) ∧
        (s.leads = false → s.parent = none → exec .votePoint s = .next v))) ∧
    ((s.mustered = false ∨ s.stagesRun = false ∨ s.cvn.voted = true ∨ s.kc < 8192 - s.voteKc) → exec .votePoint s = .next s) ∧
    (s.mustered = true → s.leads = true → s.cvn.voted = true → s.cvn.decision = none → 8192 - s.voteKc / 2 ≤ s.kc →
      ∃ t, exec .leadDecisionDeadline s = .next t ∧ decided s false false t) ∧
    ((s.mustered = false ∨ s.leads = false ∨ s.cvn.voted = false ∨ s.cvn.decision.isSome = true ∨ s.kc < 8192 - s.voteKc / 2) →
      exec .leadDecisionDeadline s = .next s)) ∧
  (∀ s : State,
    (s.pause = none → exec .pauseSettled s = .next s) ∧
    ∀ p, s.pause = some p →
    ((p.st ≠ 2 ∨ p.clus.all s.settled = false) → exec .pauseSettled s = .next s) ∧
    (p.st = 2 → p.clus.all s.settled = true →
      ∃ t : State, t.pause = some { p with st := 3, wb := none } ∧
        (∀ n ∈ p.clus, t.cl n = if (s.cl n).st = 2 then
            { s.cl n with st := 3, stopc := 1, stopDue := none, stopAt := p.p, pausing := false }
          else { s.cl n with pausing := false }) ∧
        (∀ n, n ∉ p.clus → t.cl n = s.cl n) ∧ t.loess = s.loess ∧ t.regs = s.regs ∧ t.rings = s.rings ∧
        (p.wb = none → exec .pauseSettled s = .next t) ∧
        (∀ r ix, p.wb = some (r, ix) → s.wb r ix = none → exec .pauseSettled s = .next t) ∧
        (∀ r ix w, p.wb = some (r, ix) → s.wb r ix = some w →
          exec .pauseSettled s = .next (t.finish r w 0 [p.p % 2 ^ 32, p.p / 2 ^ 32 % 2 ^ 32]))))

/-- KILN_CYCLE (R263, R319), where no reset is due and no host access, check unit's write or service drain waits for it: caravan
time goes on by the ticks of one kc; while stages are counted kc goes on by one, up to the end of the period, where it waits;
Loess memory and rings stay. With stages not counted, kc and clusters stay. In OFF nothing passes. TANDEM_TIMEOUT: an engine's
own records whose partner has not come after TIMEOUT boundaries leave the queue, each a divergence of cause 3; with tandem off
nothing happens (R304, R305). -/
def Obligations.KilnCyclesPassAndTandemRecordsTimeOut : Prop :=
  (∀ (s : State) (issued : List ClusterNo), s.resets = [] → s.teth.later = [] → s.svcPhase ≠ 4 →
    (∀ u < 16, (s.chk u).queue = []) →
    (s.phase = 0 → exec (.kilnCycle issued) s = .next s) ∧
    (s.stagesRun = true → 8192 ≤ s.kc → exec (.kilnCycle issued) s = .next s) ∧
    (s.phase ≠ 0 → s.stagesRun = true → s.kc < 8192 → ∃ t, exec (.kilnCycle issued) s = .next t ∧ t.kc = s.kc + 1 ∧
      t.late = s.late ∧ t.loess = s.loess ∧ t.rings = s.rings ∧ t.cvnTime = (s.cvnTime + s.ticksPerKc) % 2 ^ 64) ∧
    (s.phase ≠ 0 → s.stagesRun = false → ∃ t, exec (.kilnCycle issued) s = .next t ∧ t.kc = s.kc ∧ t.clusters = s.clusters ∧
      t.loess = s.loess ∧ t.rings = s.rings ∧ t.cvnTime = (s.cvnTime + s.ticksPerKc) % 2 ^ 64)) ∧
  (∀ (s : State) (e : Fin 16),
    let u := s.unit e
    let late (r : TRec) : Bool := decide (r.stage + s.fld 0x700 8 8 ≤ s.stageNo)
    (s.tmode = 0 → exec (.tandemTimeout e) s = .next s) ∧
    (s.tmode ≠ 0 → ∃ t, exec (.tandemTimeout e) s = .next t ∧
      t = (u.own.filter late).foldl (fun s r => s.diverge 3 r) (s.setUnit e { u with own := u.own.filter (fun r => !late r) }) ∧
      (t.unit e).own = u.own.filter (fun r => !late r) ∧ (t.unit e).partner = u.partner))

/-! Caravan links (chapter 12) -/

/-- CARAVAN_FRAME on a port that carries frames (R311, R312): a frame that is bad by CRC, FEC or a reserved KIND is counted and
answered with NAK, its slots unseen; a good frame in order gives its slots, its credits, its ACK and VB, and is acknowledged; a
good frame out of order gives ACK and VB only. The 16th NAK in a row for one frame takes the port down with cause 4. On any
other port a frame is not seen. The VB bits of a good frame (R325, R326): those of a mustered domain that hold a vote are kept
for their port. From the parent they are the decision, which goes on to the children, once the own vote is cast and no decision
known; from another port, in the vote time, a vote, which goes on once the votes are complete. Else they change nothing. An
acknowledgement clears the frames it covers, oldest first, and a NAK puts every frame left before new ones (R312). Where the
oldest of them has been sent once, the credits they carried go out anew; else they repeat what they carried (R314). -/
def Obligations.CaravanFramesAreTaken : Prop :=
  (∀ (s : State) (p : Fin 16) (fec : FecCase) (f : Frame), (Instr.caravanFrame p fec f).wf = true →
    let w := f.control.toNat
    let kinds := (List.range 5).map (fun i => bits w (24 + 4 * i) 4)
    let s1 := (s.count (pa p 0x18) fec.corrected).count (pa p 0x1C) fec.uncorrectable
    let good := decide (bits w 44 32 = frameCrc f.slots (w % 2 ^ 44))
    let x := s.port p
    let x1 := x.acked (bits w 8 8) (w.testBit 16)
    let ends (u : State) : State := if 16 ≤ x1.nakRun then u.portDown p 4 else u
    (s.lnk p ≠ 1 → s.lnk p ≠ 2 → s.lnk p ≠ 5 → exec (.caravanFrame p fec f) s = .next s) ∧
    ((s.lnk p = 1 ∨ s.lnk p = 2 ∨ s.lnk p = 5) →
      (good = false → exec (.caravanFrame p fec f) s =
        .next ((s1.count (pa p 0x20) 1).setPort p { x with naking := true })) ∧
      (good = true → (0 < fec.uncorrectable ∨ ∃ k ∈ kinds, 4 < k) →
        exec (.caravanFrame p fec f) s = .next (s1.setPort p { x with naking := true })) ∧
      (good = true → fec.uncorrectable = 0 → (∀ k ∈ kinds, k ≤ 4) →
        (w % 256 = (x.good + 1) % 256 → exec (.caravanFrame p fec f) s = .next (ends ((s1.setPort p { x1 with
          good := w % 256, naking := false, returned := (x1.returned + bits w 17 7) % 2 ^ 32
          rx := x1.rx ++ (kinds.zip f.slots).filter (fun k => decide (k.1 ≠ 0)) }).takeVb p (bits w 76 4)))) ∧
        (w % 256 ≠ (x.good + 1) % 256 →
          exec (.caravanFrame p fec f) s = .next (ends ((s1.setPort p x1).takeVb p (bits w 76 4))))))) ∧
  (∀ (s : State) (p vb : Nat),
    ((s.mustered = false ∨ vb % 2 = 0) → s.takeVb p vb = s) ∧
    (s.mustered = true → vb % 2 = 1 →
      let u := s.setPort p { s.port p with vin := vb }
      (s.parent = some p → (s.cvn.decision.isSome = true ∨ s.cvn.voted = false) → s.takeVb p vb = s) ∧
      (s.parent = some p → s.cvn.decision = none → s.cvn.voted = true →
        s.takeVb p vb = u.setDecision (vb.testBit 1) (vb.testBit 2) ∧
        (s.takeVb p vb).cvn = { s.cvn with decision := some (vb.testBit 1, vb.testBit 2) } ∧
        ∀ q ∈ s.children, ((s.takeVb p vb).port q).vout =
          1 + (if vb.testBit 1 = true then 2 else 0) + (if vb.testBit 2 = true then 4 else 0)) ∧
      (s.parent ≠ some p → s.kc < 8192 - s.voteKc → s.takeVb p vb = s) ∧
      (s.parent ≠ some p → 8192 - s.voteKc ≤ s.kc → s.takeVb p vb = u.passVote))) ∧
  (∀ (x : Port) (a : Nat) (f : SentFrame) (pre rest : List SentFrame),
    x.replay = [] → x.sent = pre ++ f :: rest → f.fseq = a → (∀ g ∈ pre, g.fseq ≠ a) →
    x.acked a false = { x with sent := rest, nakRun := 0 } ∧
    (x.acked a true).sent = [] ∧ (x.acked a true).txq = x.txq ∧ (x.acked a true).frame = x.frame ∧
    (∀ g r, rest = g :: r → g.again = false → (x.acked a true).replay = rest ∧
      (x.acked a true).credOut = x.credOut + (rest.map (fun h => h.cred)).foldl (· + ·) 0) ∧
    ((∀ g r, rest = g :: r → g.again = true) → (x.acked a true).replay = rest.map (fun h => { h with again := true }) ∧
      (x.acked a true).credOut = x.credOut))

/-- DELIVERY: a delivery inside a relay window of a mustered domain becomes a CAR request on each of the granules it touches,
two at most, which waits for its slot at its stack; one of no bytes is acknowledged at once with status 0, any other than one of
a window with status 2, and writes nothing. Its buffer's credit goes back (R314, R341, R342). With no delivery received nothing
happens. DACK (R342): the answer for a relay store's delivery leaves the store with one less to come; with none left it performs
the store's tag. Status 1 stops the cluster with cause 8 and raises EV_RLY_FAIL, status 2 stops it with cause 2 as a drover
error. Its buffer's credit goes back; an answer no store waits for changes nothing else. -/
def Obligations.DeliveriesAreWrittenAndAcknowledged : Prop :=
  (∀ (s : State) (p : Fin 16) (ecc : List (Nat × EccCase)),
    (s.takeRx p (fun m => decide (m.1 = 2)) = none → exec (.delivery p ecc) s = .next s) ∧
    ∀ (m : List Byte) (s1 : State), s.takeRx p (fun m => decide (m.1 = 2)) = some (m, s1) →
    let a := leAt m 0 5
    let data := (m.drop 16).take (leAt m 5 2)
    let n := data.length
    let k := 512 - a % 512
    let inWin (w : Relay) : Prop := w.dst = s.modnum ∧ w.dpage * 0x200000 ≤ a ∧ a + n ≤ (w.dpage + w.pages) * 0x200000
    let part (b : Nat) (bs : List Byte) : Req :=
      { write := true, addr := b, src := .car p (leAt m 8 2) (leAt m 10 2) a n, found := ecc
        bytes := bs.zipIdx.map (fun x => { addr := b + x.2, mask := 3#2, val := x.1 }) }
    (s.port p).credOut + 1 = (s1.port p).credOut ∧ s1.loess = s.loess ∧
    (∀ b, s.cvn.book = some b → s.mustered = true → (∃ w ∈ b.relays, inWin w) →
      (n = 0 → exec (.delivery p ecc) s = .next (s1.dackOut p (leAt m 8 2) (leAt m 10 2) 0)) ∧
      (0 < n → n ≤ k → exec (.delivery p ecc) s = .next (s1.request (part a data))) ∧
      (k < n → exec (.delivery p ecc) s =
        .next ((s1.request (part a (data.take k))).request (part (a + k) (data.drop k))))) ∧
    ((s.mustered = false ∨ ∀ b, s.cvn.book = some b → ∀ w ∈ b.relays, ¬ inWin w) →
      exec (.delivery p ecc) s = .next (s1.dackOut p (leAt m 8 2) (leAt m 10 2) 2))) ∧
  (∀ (s : State) (p : Fin 16),
    (s.takeControl p 5 = none → exec (.dack p) s = .next s) ∧
    ∀ (m : List Byte) (s1 : State), s.takeControl p 5 = some (m, s1) → leAt m 4 2 = 1 →
    let dseq := leAt m 8 2
    let cl := leAt m 10 2
    let status := leAt m 12 1
    let mine (r : RelaySt) : Bool := decide (r.cl = cl) && decide (r.port = p.val) && r.seqs.contains dseq
    let s2 := if status = 1 then (s1.raise 30 1 cl dseq p).stopCl cl 8
      else if status = 2 then (s1.raise 7 1 cl (s1.regN (ca cl 0x410)) (s1.regN (ca cl 0x414))).stopCl cl 2 else s1
    (s.relays.find? mine = none → exec (.dack p) s = .next s1) ∧
    (∀ r, s.relays.find? mine = some r →
      (r.seqs.erase dseq ≠ [] → exec (.dack p) s = .next { s2 with
        relays := s.relays.erase r ++ [{ r with seqs := r.seqs.erase dseq, status := max r.status status }] }) ∧
      (r.seqs.erase dseq = [] → exec (.dack p) s = .next (({ s2 with relays := s.relays.erase r } : State).setCl cl
        ((s2.cl cl).setTag r.tag { (s1.cl cl).tag r.tag with st := 2 })))))

/-- TANDEM_RECORDS: a slot of the partner's records is taken when every engine's partner queue has room for its records, and
each record meets its own or waits; while a queue is full the slot keeps its credit (R303, R304). Two that meet leave their
queue, are counted as compared, and differ with cause 1 by their check or cause 2 by their count. Out of tandem mode 1, on
another port or with no slot received nothing happens. TIME from the parent gives CVN_OFFSET the difference of its times less
the port's delay, half the round trip and the adjustment; 16 in a row within a tick lock caravan time, one outside starts the
run again (R320); a muster that waited for the lock goes on (R323). From another port it only frees its buffer. CVN_UNLOCK: 16
missed messages unlock and raise EV_CVN_UNLOCK; while fewer are missed, or it is unlocked, nothing happens (R320). -/
def Obligations.PartnerRecordsArriveAndTimeLocks : Prop :=
  ((∀ (s : State) (p : Fin 16),
    ((s.tmode ≠ 1 ∨ s.fld 0x700 2 4 ≠ p.val ∨ s.takeRx p (fun m => decide (m.1 = 3)) = none) →
      exec (.tandemRecords p) s = .next s) ∧
    ∀ (m : List Byte) (s1 : State), s.tmode = 1 → s.fld 0x700 2 4 = p.val →
      s.takeRx p (fun m => decide (m.1 = 3)) = some (m, s1) →
      let rs := recordsOf m
      let need (e : Nat) : Nat := (rs.filter (fun r => decide (r.cl / 128 = e))).length
      ((∀ e < 16, need e = 0 ∨ (s.unit e).partner.length + need e ≤ 512) →
        exec (.tandemRecords p) s = .next (rs.foldl (fun s r => s.tandemPartner (r.cl / 128) r) s1)) ∧
      ((∃ e < 16, 0 < need e ∧ 512 < (s.unit e).partner.length + need e) → exec (.tandemRecords p) s = .next s)) ∧
  ∀ (s : State) (e : Nat) (r : TRec),
    let u := s.unit e
    let same (x : TRec) : Prop := x.cl = r.cl ∧ x.seq = r.seq
    ((∀ x ∈ u.own, ¬ same x) → s.tandemPartner e r = s.setUnit e { u with partner := u.partner ++ [r] }) ∧
    (∀ pre x post, u.own = pre ++ x :: post → (∀ y ∈ pre, ¬ same y) → same x →
      let v := (s.setUnit e { u with own := pre ++ post }).count64 0x720 1
      (x.check ≠ r.check → s.tandemPartner e r = v.diverge 1 x) ∧
      (x.check = r.check → x.k % 2 ^ 32 ≠ r.k % 2 ^ 32 → s.tandemPartner e r = v.diverge 2 x) ∧
      (x.check = r.check → x.k % 2 ^ 32 = r.k % 2 ^ 32 → s.tandemPartner e r = v))) ∧
  ((∀ (s : State) (p : Fin 16) (trx : BitVec 64),
    (s.takeControl p 1 = none → exec (.time p trx) s = .next s) ∧
    ∀ (m : List Byte) (s1 : State), s.takeControl p 1 = some (m, s1) →
    let two : Int := 2 * ((trx.toNat : Int) - (leAt m 8 8 : Nat)) - ((s.fld (pa p 0x0C) 0 16 : Int) + 2 * signedOf 16 (s.fld (pa p 0x10) 0 16))
    let run := if -2 ≤ two ∧ two ≤ 2 then min (s.cvn.lockRun + 1) 16 else 0
    let s3 := ({ s1 with cvn := { s1.cvn with lockRun := run, missed := 0 } } : State).setRegN 0x500014 (bitsOf 16 (two / 2))
    (s.parent ≠ some p.val → exec (.time p trx) s = .next s1) ∧
    (s.parent = some p.val → -32768 ≤ two / 2 → two / 2 < 32768 → run < 16 → exec (.time p trx) s = .next s3.musterStep) ∧
    (s.parent = some p.val → -32768 ≤ two / 2 → two / 2 < 32768 → run = 16 →
      exec (.time p trx) s = .next (s3.setFld 0x500000 2 1 1).musterStep)) ∧
  (∀ s : State,
    (16 ≤ s.cvn.missed → (s.reg 0x500000).getLsbD 2 = true →
      let u := ({ s with cvn := { s.cvn with lockRun := 0 } } : State).setFld 0x500000 2 1 0
      exec .cvnUnlock s = .next (u.raise 25 0 0 (u.regN 0x500000) 0)) ∧
    ((s.cvn.missed < 16 ∨ (s.reg 0x500000).getLsbD 2 = false) → exec .cvnUnlock s = .next s)))

/-- IDENT and LEAVE (R318, R420): in training the peer's number, port and presence go to LNK_PEER and a kiln step that differs
ends the training with cause 2; out of training IDENT is not taken. LEAVE quiesces the port and raises EV_LNK_LEAVE with its
reason and number. Without a message nothing happens. A muster's READY and GO (R323): once the module is locked and every child
ready, its READY with the number of modules below it goes to the parent; the lead, with every module of its book, sends GO on to
the children with T0, the first own period edge at least 100 µs ahead. Muster messages while the domain forms (R322, R323):
READY from a child counts its modules, from another port it counts nothing, and one with another RBID fails the muster with
cause 2; GO from the parent sets T0 and goes on down, with cause 8 when T0 has passed. The time limits fail it with 5 (no lock)
or 8; a failed muster raises EV_CVN_MUSTER and answers its waybill FAILED with its cause. At T0 the module is mustered, takes
the boundary that begins S0, and answers its waybill with T0, RBID and whether it leads. In no other state of the domain do
these commands act. -/
def Obligations.PeersIdentifyAndMustersComplete : Prop :=
  (∀ (s : State) (p : Fin 16),
    ((s.takeControl p 2 = none ∨ (s.lnk p ≠ 1 ∧ s.lnk p ≠ 5)) → exec (.identMessage p) s = .next s) ∧
    (s.takeControl p 6 = none → exec (.leave p) s = .next s) ∧
    ∀ (m : List Byte) (s1 : State),
    (s.takeControl p 2 = some (m, s1) → (s.lnk p = 1 ∨ s.lnk p = 5) →
      let s2 := s1.setRegN (pa p 8) (leAt m 24 2 % 512 + leAt m 26 1 % 16 * 2 ^ 9 + 2 ^ 13)
      (leAt m 27 1 = s.clkStep → exec (.identMessage p) s = .next s2) ∧
      (leAt m 27 1 ≠ s.clkStep → exec (.identMessage p) s = .next (s2.portDown p 2))) ∧
    (s.takeControl p 6 = some (m, s1) → exec (.leave p) s =
      .next ((s1.setPort p { s1.port p with quiesce := true }).raise 24 4 p (leAt m 26 1) (leAt m 24 2)))) ∧
  ((∀ (s : State) (b : Book), s.dstate = 1 → s.cvn.book = some b → s.cvn.readySent = false →
    (s.leads = true ∨ (s.reg 0x500000).getLsbD 2 = true) → (∀ p ∈ s.children, sget zeroNat s.cvn.subs p ≠ 0) →
    let total := (s.children.map (fun p => sget zeroNat s.cvn.subs p)).foldl (· + ·) 1
    let u : State := { s with cvn := { s.cvn with readySent := true } }
    (s.leads = false → ∀ p, s.parent = some p → s.musterStep =
      u.sendSlot p 2 4 (controlMsg 3 [(8, leBytes 8 b.rbid), (16, leBytes 8 s.cvn.s0), (24, leBytes 2 total)])) ∧
    (s.leads = true → total ≠ b.mods.length → s.musterStep = s) ∧
    (s.leads = true → total = b.mods.length → ∃ k,
      let edge := s.cvnTime + (8192 - s.kc) * s.ticksPerKc
      let t0 := edge + k * (8192 * s.ticksPerKc)
      s.cvnTime + 282000 ≤ t0 ∧ (k = 0 ∨ t0 < s.cvnTime + 282000 + 8192 * s.ticksPerKc) ∧ s.musterStep = u.passGo t0)) ∧
  ∀ (s : State) (b : Book) (t0 : Nat), s.cvn.book = some b →
    s.passGo t0 = s.children.foldl (fun u p => u.sendSlot p 2 4
        (controlMsg 4 [(8, leBytes 8 b.rbid), (16, leBytes 8 s.cvn.s0), (24, leBytes 8 t0)]))
      { s with cvn := { s.cvn with t0 := some t0 } }) ∧
  ((∀ (s : State) (p : Fin 16) (nl : Bool), s.dstate ≠ 1 →
    exec (.readyMessage p) s = .next s ∧ exec (.go p) s = .next s ∧ exec (.musterTimeout nl) s = .next s ∧
    exec .musterStart s = .next s) ∧
  ∀ (s : State) (b : Book), s.dstate = 1 → s.cvn.book = some b →
    let fails (u : State) (c : Nat) : State :=
      let a := (u.setFld 0x500000 0 2 3).setFld 0x500000 13 4 c
      let d := a.raise 26 0 0 (a.regN 0x500000) 0
      let e : State := { d with cvn := { d.cvn with wb := none, t0 := none } }
      match u.cvn.wb with
      | none => e
      | some x => match e.wb x.1 x.2 with
        | some w => e.finish x.1 w 0x0A [c]
        | none => e
    (∀ u c, State.musterFail u c = fails u c) ∧
    (∀ (p : Fin 16) (m : List Byte) (s1 : State), s.takeControl p 3 = some (m, s1) →
      (leAt m 8 8 ≠ b.rbid → exec (.readyMessage p) s = .next (fails s1 2)) ∧
      (leAt m 8 8 = b.rbid → p.val ∉ s.children → exec (.readyMessage p) s = .next s1) ∧
      (leAt m 8 8 = b.rbid → p.val ∈ s.children → exec (.readyMessage p) s =
        .next ({ s1 with cvn := { s1.cvn with subs := sput zeroNat s1.cvn.subs p (leAt m 24 2) } } : State).musterStep)) ∧
    (∀ (p : Fin 16) (m : List Byte) (s1 : State), s.takeControl p 4 = some (m, s1) →
      (s.parent ≠ some p.val → exec (.go p) s = .next s1) ∧
      (s.parent = some p.val →
        (leAt m 8 8 ≠ b.rbid → exec (.go p) s = .next (fails s1 2)) ∧
        (leAt m 8 8 = b.rbid → leAt m 24 8 < s.cvnTime → exec (.go p) s = .next (fails s1 8)) ∧
        (leAt m 8 8 = b.rbid → s.cvnTime ≤ leAt m 24 8 → exec (.go p) s = .next (s1.passGo (leAt m 24 8))))) ∧
    (s.leads = false → (s.reg 0x500000).getLsbD 2 = false → exec (.musterTimeout true) s = .next (fails s 5)) ∧
    ((s.leads = true ∨ (s.reg 0x500000).getLsbD 2 = true) → exec (.musterTimeout true) s = .next s) ∧
    exec (.musterTimeout false) s = .next (fails s 8) ∧
    (s.cvn.t0 = none → exec .musterStart s = .next s) ∧
    (∀ t0, s.cvn.t0 = some t0 →
      let u := ({ s.setFld 0x500000 0 2 2 with cvn := { s.cvn with t0 := none, wb := none } } : State).takeBoundary s.cvn.s0 false
      (s.cvnTime < t0 → exec .musterStart s = .next s) ∧
      (t0 ≤ s.cvnTime → s.cvn.wb = none → exec .musterStart s = .next u) ∧
      (t0 ≤ s.cvnTime → ∀ r ix w, s.cvn.wb = some (r, ix) → u.wb r ix = some w → exec .musterStart s =
        .next (u.finish r w 0 [t0 % 2 ^ 32, t0 / 2 ^ 32 % 2 ^ 32, b.rbid % 2 ^ 32, b.rbid / 2 ^ 32 % 2 ^ 32, if s.leads = true then 1 else 0]))))

/-- Training (R315, R316, R318): the port is TRAINING, or RECAL where it retrains while another port is ACTIVE; its ledger
starts afresh, slots received and not taken are lost, IDENT goes out first, with the serial number, module number, port and kiln
step; what waits for a grant goes on waiting. Port states (R316 to R318, R425): loss of lock takes a training or running port
down with cause 4; training that succeeds within 640 ns makes it ACTIVE with its round trip recorded and no IDENT left, and in
phase 4 of the service sequence it leaves at once (R419); else it is down with the failing step's cause (3 for a long round
trip). A port that goes down loses what it was to send, its ledger freezes, and EV_LNK_DOWN is raised for cause 4; tandem mode
over an ACTIVE one ends, and PORT waybills that wait for it are answered. Port commands in their turn (R317, R425): ENABLE 1
powers and trains a port that is off, ENABLE 0 takes the port off, unless a PORT waybill has set it in this kc (R360); QUIESCE
of an ACTIVE port bars new slots, and with all frames delivered it is QUIESCED; RETRAIN and a detected pattern with AUTOTRAIN
and ENABLE train a QUIESCED or DOWN port whose domain is on. Else they do nothing; a write takes its slot of the Tether (R376).
-/
def Obligations.PortsFollowTheirStates : Prop :=
  (∀ (s : State) (p : Nat) (recal : Bool),
    let others := (List.range 16).any (fun q => decide (q ≠ p) && decide (s.lnk q = 2))
    let t := s.train p recal
    let ident := controlMsg 2 [(8, leBytes 8 Config.serial.toNat), (24, leBytes 2 s.modnum), (26, leBytes 1 p), (27, leBytes 1 s.clkStep)]
    t.port p = { txq := { act := 2, kind := 4, data := ident } :: (s.port p).txq.filter (fun x => !isIdent x.kind x.data) } ∧
    (p < 16 → t.lnk p = (if recal && others then 5 else 1) ∧ t.fld (pa p 0) 3 3 = 0) ∧
    (∀ q, q ≠ p → t.port q = s.port q) ∧ t.loess = s.loess ∧ t.rings = s.rings) ∧
  (∀ (s : State) (p : Fin 16),
    let downs (u : State) (c : Nat) : State :=
      let x := u.port p
      let a := (u.setPort p { rx := x.rx, frozen := true, total := x.total, issued := x.issued, returned := x.returned }).setLnk p 4 c
      let b := if c = 4 then a.raise 23 4 p (a.regN (pa p 0)) 0 else a
      (if u.lnk p = 2 then b.tandemPortLost p else b).portReceipts p
    ((s.lnk p = 1 ∨ s.lnk p = 2 ∨ s.lnk p = 5) → exec (.linkDown p) s = .next (downs s 4)) ∧
    (s.lnk p ≠ 1 → s.lnk p ≠ 2 → s.lnk p ≠ 5 → exec (.linkDown p) s = .next s) ∧
    (∀ r, s.lnk p ≠ 1 → s.lnk p ≠ 5 → exec (.trainingComplete p r) s = .next s) ∧
    ((s.lnk p = 1 ∨ s.lnk p = 5) →
      (∀ rtt : BitVec 16,
        let s1 := s.setRegN (pa p 0x0C) rtt.toNat
        let s2 := ((s1.setPort p { s.port p with
            txq := (s.port p).txq.filter (fun t => !isIdent t.kind t.data)
            rx := (s.port p).rx.filter (fun m => !isIdent m.1 m.2) }).setLnk p 2 0).portReceipts p
        (rtt.toNat ≤ 1804 → s2.svcPhase ≠ 4 → exec (.trainingComplete p (.ok rtt)) s = .next s2) ∧
        (rtt.toNat ≤ 1804 → s2.svcPhase = 4 → exec (.trainingComplete p (.ok rtt)) s = .next (s2.leavePort p) ∧
          ((s2.leavePort p).port p).quiesce = true) ∧
        (1804 < rtt.toNat → exec (.trainingComplete p (.ok rtt)) s = .next (downs s1 3))) ∧
      (∀ c : BitVec 3, c ≠ 4#3 → exec (.trainingComplete p (.failed c)) s = .next (downs s c.toNat)))) ∧
  (∀ (s : State) (p : Fin 16),
    let trains (u : State) (recal : Bool) : State := u.train p recal
    let v := s.arrived
    let v1 := v.setFld (pa p 4) 0 1 1
    (s.InTurn → s.wbMask (pa p 4) = 0 →
      (v1.domainOn (160 + p) = true → s.lnk p = 0 → exec (.lnkEnable p true) s = .next (trains v1 false)) ∧
      ((v1.domainOn (160 + p) = false ∨ s.lnk p ≠ 0) → exec (.lnkEnable p true) s = .next v1) ∧
      exec (.lnkEnable p false) s = .next ((v.portOff p).setFld (pa p 4) 0 1 0)) ∧
    (s.InTurn → s.wbMask (pa p 4) ≠ 0 → ∀ on, exec (.lnkEnable p on) s = .next v) ∧
    (s.InTurn → s.lnk p = 2 → exec (.lnkQuiesce p) s = .next (v.setPort p { s.port p with quiesce := true })) ∧
    (s.InTurn → s.lnk p ≠ 2 → exec (.lnkQuiesce p) s = .next v) ∧
    (s.InTurn → (s.lnk p = 3 ∨ s.lnk p = 4) → s.domainOn (160 + p) = true → exec (.lnkRetrain p) s = .next (trains v true)) ∧
    (s.InTurn → ((s.lnk p ≠ 3 ∧ s.lnk p ≠ 4) ∨ s.domainOn (160 + p) = false) → exec (.lnkRetrain p) s = .next v) ∧
    (let asks := (s.reg 0x104014).getLsbD p && (s.reg 0x104000).getLsbD 6 && (s.reg (pa p 4)).getLsbD 0
    ((s.lnk p = 3 ∨ s.lnk p = 4) → s.domainOn (160 + p) = true → asks = true →
      exec (.trainingPatternDetect p) s = .next (trains s true)) ∧
    (((s.lnk p ≠ 3 ∧ s.lnk p ≠ 4) ∨ s.domainOn (160 + p) = false ∨ asks = false) → exec (.trainingPatternDetect p) s = .next s)) ∧
    (let x := s.port p
    let done := x.quiesce = true ∧ (∀ t ∈ x.txq, isLeave t.kind t.data = false) ∧ (∀ t ∈ x.frame, t.kind = 0) ∧ x.sent = [] ∧
      x.replay = [] ∧ x.issued = x.returned ∧ x.rx = [] ∧ x.credOut = 0
    (s.lnk p = 2 → done →
      exec (.quiesceComplete p) s =
        .next ((((s.setPort p { x with quiesce := false, frame := [] }).setLnk p 3 0).tandemPortLost p).portReceipts p)) ∧
    ((s.lnk p ≠ 2 ∨ ¬ done) → exec (.quiesceComplete p) s = .next s)))

/-! The Tether, events, telemetry (chapters 14, 19) -/

/-- HOST_LOESS_READ over an active Tether with no access waiting (R375, R376): an extent that no Loess transaction may have is
an error completion of cause 3, with the TAG of its request; any other read goes to its stack, where it waits for a HOST slot,
or behind what waits for a Tether slot to go to a stack (R379). With the Tether down nothing comes. HOST_LOESS_WRITE over an
active Tether with no access waiting (R375, R376, R381): a bad extent is recorded and stores nothing, and takes its slot; any
other write waits for a Tether slot of its direction with its bytes, one more of the host's writes. REJECTED_REGISTER_ACCESS
(R10, R375): an access that is not a whole aligned word is an error of cause 1; a read is answered with all ones, a write
changes no register but the capture and takes its slot. The order of the host's accesses (R376, R379): over an active Tether a
register access behind a host write into Loess that is not performed, and any access behind one that waits, waits at the end; a
register write has its Tether slot all the same. Those that wait act in their order: the first when nothing holds it, and none
before it. TTH_ERR keeps the first error (R375, R380, R385): with VALID 0 and no error before in the kc it takes cause, space
and address; with VALID 1 the record stays as it is, and only EV_TTH_ERR is raised with it. -/
def Obligations.HostAccessesAreServed : Prop :=
  (∀ (s : State) (addr len : Nat) (ecc : List (Nat × EccCase)),
    (s.tth ≠ 1 → exec (.hostLoessRead addr len ecc) s = .next s) ∧
    (s.tth = 1 → s.teth.later = [] →
    let tag := s.teth.tags.headD 0
    let s1 : State := { s with teth := { s.teth with tags := s.teth.tags.drop 1 } }
    let r : Req := { write := false, addr := addr, len := len, src := .host s.teth.writes tag, found := ecc }
    (badExtent addr len = true → exec (.hostLoessRead addr len ecc) s = .next ((s1.tthErr 3 1 addr).complete 1 addr tag .error)) ∧
    (badExtent addr len = false → s.teth.rxq.any (fun x => x.req.isSome) = false →
      exec (.hostLoessRead addr len ecc) s = .next (s1.request r)) ∧
    (badExtent addr len = false → s.teth.rxq.any (fun x => x.req.isSome) = true →
      exec (.hostLoessRead addr len ecc) s = .next { s1 with teth := { s1.teth with
        rxq := s.teth.rxq ++ [{ act := 0, due := s.stageNo, req := some r }] } }))) ∧
  (∀ (s : State) (addr : Nat) (data : List Byte) (ecc : List (Nat × EccCase)),
    (s.tth ≠ 1 → exec (.hostLoessWrite addr data ecc) s = .next s) ∧
    (s.tth = 1 → s.teth.later = [] →
    (badExtent addr data.length = true → exec (.hostLoessWrite addr data ecc) s = .next ((s.tthErr 3 1 addr).fromHost 1)) ∧
    (badExtent addr data.length = false → exec (.hostLoessWrite addr data ecc) s = .next { s with teth := { s.teth with
      writes := s.teth.writes + 1
      rxq := s.teth.rxq ++ [{ act := 1, due := s.stageNo
                              req := some { write := true, addr := addr, src := .host s.teth.writes 0, found := ecc
                                            bytes := data.zipIdx.map (fun x => { addr := addr + x.2, mask := 3#2, val := x.1 }) } }] } }))) ∧
  (∀ (s : State) (addr : BitVec 43) (size : Nat),
    (s.tth ≠ 1 → ∀ w, exec (.rejectedRegisterAccess w addr size) s = .next s) ∧
    (s.tth = 1 → s.InTurn →
    (size = 4 → addr.toNat % 4 = 0 → ∀ w, exec (.rejectedRegisterAccess w addr size) s = .next s) ∧
    ((size ≠ 4 ∨ addr.toNat % 4 ≠ 0) →
    exec (.rejectedRegisterAccess true addr size) s = .next ((s.tthErr 1 2 addr.toNat).fromHost 1) ∧
    exec (.rejectedRegisterAccess false addr size) s = .next ((s.tthErr 1 2 addr.toNat).completeWord addr.toNat 0xFFFFFFFF#32)))) ∧
  ((∀ (s : State) (i : HostAcc), s.tth = 1 → (s.teth.later ≠ [] ∨ (i.loess = false ∧ s.writesWait = true)) →
    let u := if i.slotted = true then s.fromHost 1 else s
    s.hostAccess i = { u with teth := { u.teth with later := s.teth.later ++ [i] } }) ∧
  (∀ s : State,
    (s.teth.later = [] → s.hostOn = s) ∧
    ∀ i rest, s.teth.later = i :: rest →
      (i.loess = false → s.writesWait = true → s.hostOn = s) ∧
      ((i.loess = true ∨ s.writesWait = false) → s.hostOn =
        rest.foldl (fun u _ => u.hostNext) (({ s with teth := { s.teth with later := rest } } : State).perform i))) ∧
  ∀ (s : State) (p u r : Fin 16) (cl : ClusterNo) (w : Fin 16) (v : Word) (b : Bool) (a : Nat) (x : ArmWin),
    ∀ e ∈ ([(.registerWrite a v, .register a v.toNat), (.arm x, .arm x), (.disarm x, .disarm x), (.wbrDoorbell r v, .wbrDoorbell r v.toNat),
      (.wbrEnable r v, .wbrEnable r v.toNat), (.wbrResume r, .wbrResume r), (.chkStart u, .chkStart u), (.chkCmp u, .chkCmp u),
      (.chkFeedb u v, .chkFeed u 1 v.toNat), (.chkFeedh u v, .chkFeed u 2 v.toNat), (.chkFeedw u v, .chkFeed u 4 v.toNat),
      (.glzCtlSwitch cl, .glzSwitch cl), (.drvDescWrite cl w v, .drvDesc cl w v.toNat), (.glbFootPinWrite b, .footPin b),
      (.tndModeWrite v, .tndMode v.toNat), (.evtEnable v, .evtEnable v.toNat), (.evtRdWrite v, .evtRd v.toNat),
      (.tthImaskWrite v, .imask v.toNat), (.tthIpendClear v, .ipendClear v.toNat), (.lnkEnable p b, .lnkEnable p b),
      (.lnkRetrain p, .lnkRetrain p), (.lnkQuiesce p, .lnkQuiesce p), (.pwrEngrst v, .pwrEngrst v.toNat),
      (.pwrResetWrite v, .pwrReset v.toNat), (.svcReq, .svcReq), (.svcForce, .svcForce), (.svcCancel, .svcCancel),
      (.svcRelease, .svcRelease)] : List (Instr × HostAcc)),
      exec e.1 s = .next (s.hostAccess e.2) ∧ e.2.slotted = true ∧ e.2.loess = false) ∧
  (∀ (s : State) (cause space addr : Nat), cause < 8 → space < 4 →
    let t := s.tthErr cause space addr
    ((s.reg 0x600014).getLsbD 0 = true → ∃ c, t = State.raise { s with caught := c } 35 7 0 (s.regN 0x600014) (s.regN 0x600018)) ∧
    ((s.reg 0x600014).getLsbD 0 = false → (sget noCaught s.caught 0x600014).regs = [] →
      t.regN 0x600014 = 1 + cause * 2 + space * 16 ∧ t.regN 0x600018 = addr % 2 ^ 32 ∧
      t.regN 0x60001C = addr / 2 ^ 32 % 2 ^ 11))

/-- The Tether link (R370 to R373): TETHER_DOWN of an active link loses its flits and the host's reads, keeps the receipts,
records and interrupt messages that the firmware sends again, and retrains with EV_TTH_DOWN; TETHER_TRAINED with at least 256
credits makes it active, 512 receive credits being advertised; a flit with a bad CRC is counted, and like one with a reserved
header or a continuation out of place changes no transaction and asks for NAK; a good flit in order is acknowledged, its buffer
is free again, a read request's TAG waits for its transaction, and an error completion is recorded with cause 4 (R380); one out
of order acknowledges only. The 16th NAK in a row for one flit takes the link down. -/
def Obligations.TetherLinkStates : Prop :=
  ∀ s : State,
    let lost (u : State) : State :=
      let isRead (r : Req) : Bool := !r.write && (match r.src with | .host .. => true | _ => false)
      let a : State := { u with
        teth := { txq := (((u.teth.sent ++ u.teth.replay).filter (fun x => x.2.msg.kept)).map (fun x => { x.2 with again := false })) ++
                    u.teth.txq.filter (fun m => m.msg.kept)
                  rxq := u.teth.rxq.filter (fun x => match x.req with | some r => r.write | none => true), writes := u.teth.writes
                  later := u.teth.later.filter (fun i => !i.reads) }
        dies := u.dies.map (fun d => (d.1, { d.2 with
          waiting := d.2.waiting.filter (fun r => !isRead r), accepted := d.2.accepted.filter (fun r => !isRead r) })) }
      let b := ((a.setBits 0x600000 4).count 0x600010 1).setTth 2
      b.raise 34 7 0 (b.regN 0x600000) 0
    (s.tth = 1 → exec .tetherDown s = .next (lost s)) ∧
    (s.tth ≠ 1 → exec .tetherDown s = .next s) ∧
    (∀ cred : BitVec 11, s.tth ≠ 1 → 256 ≤ cred.toNat → s.domainOn 176 = true →
      exec (.tetherTrained cred) s = .next ((({ s with
        teth := { txq := s.teth.txq, rxq := s.teth.rxq, writes := s.teth.writes, later := s.teth.later, rxCred := 512 }
        out := s.out ++ [.advert 512] } : State).setFld 0x600004 0 11 cred.toNat).setTth 1)) ∧
    (∀ cred : BitVec 11, (s.tth = 1 ∨ cred.toNat < 256 ∨ s.domainOn 176 = false) → exec (.tetherTrained cred) s = .next s) ∧
    (∀ f : List Byte, (s.tth ≠ 1 ∨ f.length ≠ 272) → exec (.tetherFlit f) s = .next s) ∧
    (∀ f : List Byte, s.tth = 1 → f.length = 272 →
      let h := leAt f 256 8
      let l := leAt f 264 4
      let good := decide (leAt f 268 4 = (crc32c (l % 1024) (f.take 268)).toNat)
      let inOrder := l % 1024 = (s.teth.good + 1) % 1024
      let goesOn := bits h 2 2 = 3
      let t1 := s.teth.acked (bits l 10 10) (l.testBit 20)
      let ends (u : State) : State := if 16 ≤ t1.nakRun then lost u else u
      (good = false → exec (.tetherFlit f) s =
        .next { s.count 0x60000C 1 with teth := { s.teth with naking := true } }) ∧
      (good = true → (goesOn ∧ h ≠ 12 ∨ inOrder ∧ ¬(goesOn ↔ s.teth.more = true)) → exec (.tetherFlit f) s =
        .next { s with teth := { s.teth with naking := true } }) ∧
      (good = true → (goesOn → h = 12) →
        (inOrder → (goesOn ↔ s.teth.more = true) →
          let u : State := { s with teth := { t1 with
            good := l % 1024, naking := false, returned := (t1.returned + bits l 21 11) % 2 ^ 32
            rxCred := t1.rxCred - 1, credOut := t1.credOut + 1
            more := decide (¬goesOn) && decide (h % 4 ≠ 0) && decide (256 ≤ bits h 18 9)
            tags := if h % 4 = 0 ∧ (bits h 2 2 = 1 ∨ bits h 2 2 = 2) then t1.tags ++ [bits h 4 8] else t1.tags } }
          (h % 4 ≠ 3 → exec (.tetherFlit f) s = .next (ends u)) ∧
          (h % 4 = 3 → exec (.tetherFlit f) s = .next (ends (u.tthErr 4 (bits h 2 2) (bits h 27 37 * 64 + bits h 12 6))))) ∧
        (¬inOrder → exec (.tetherFlit f) s = .next (ends { s with teth := t1 }))))

/-- An event is queued with the next SEQ (R446, R448, R449): a record of the same event, class and unit in the same stage is
merged into the one queued, its REPEAT one higher; an event on no route takes its SEQ and is not queued; a full queue loses it,
counts EVT_LOST and marks the next record with GAP, but not while the firmware is switched (R430). The records of one kc stand
in ascending CODE, class and unit, whatever their order, and take their numbers in that order. EVENT_DELIVER (R450, R451): the
first queued record that one of its routes can take now is served on all that can: R while the Tether is active and the ring has
room, I while the Tether is active and R is served or not asked, P and S at any time. It leaves the queue once every route set
for it has been served, and else waits with what has been served noted. When no record can be served, or the firmware does not
run, the queue waits. SENSOR_REFRESH (R403, R454, R455): reading 0 is the power drawn; any other reading goes to its register,
and to the power window's for input voltage and temperatures; a reading whose source is off reads 8000H; reading 3 is the cap in
force. One outside the ranges of operation is remembered for the light bar, one back within them forgotten. A reading above its
limit warns once, and again only after it has fallen below 31/32 of it; readings are taken in their order. In OFF nothing is
measured. -/
def Obligations.EventsAreDeliveredAndSensorsRefreshed : Prop :=
  ((∀ (s : State) (ix scls u d0 d1 : Nat),
    let same (e : Ev) : Bool := decide (e.ix = ix) && decide (e.scls = scls) && decide (e.unit = u) && decide (e.stage = s.stageNo)
    let t := s.raise ix scls u d0 d1
    (s.queued.any same = true → t = { s with events := s.events.map (fun e =>
      if (!e.gone && same e) = true then { e with rep := min (e.rep + 1) 0xFFFF } else e) }) ∧
    (s.queued.any same = false →
      let unrouted := decide (s.routeOf ix u = 0)
      let full := !unrouted && decide (256 ≤ s.queued.length) && s.boot.switching.isNone
      t.regN 0x106014 = (s.regN 0x106014 + 1) % 2 ^ 32 ∧
      t.regN 0x106018 = (if full then min (s.regN 0x106018 + 1) (2 ^ 32 - 1) else s.regN 0x106018) ∧
      t.gap = (if full then true else if unrouted then s.gap else false) ∧
      t.queued.length = s.queued.length + (if (unrouted || full) = true then 0 else 1) ∧
      ∃ e, t.events = s.events.filter (fun x => !t.ofThisKc x) ++ evInsert e (s.events.filter t.ofThisKc) ∧
        e.ix = ix ∧ e.scls = scls ∧ e.unit = u ∧ e.seq = s.regN 0x106014 ∧ e.stage = s.stageNo ∧ e.kc = min s.kc 8191 ∧
        e.d0 = d0 % 2 ^ 32 ∧ e.d1 = d1 % 2 ^ 32 ∧ e.rep = 0 ∧ e.served = 0 ∧ e.gone = (unrouted || full) ∧
        e.flags = (if 0 < s.late then 2 else 0) + (if (s.gap && !unrouted && !full) = true then 4 else 0))) ∧
  ∀ (e : Ev) (l : List Ev), (l.Pairwise (fun a b => evBefore a b = true)) →
    (evInsert e l).Pairwise (fun a b => evBefore a b = true) ∧ (evInsert e l).map (fun x => x.seq) = l.map (fun x => x.seq) ++ [e.seq]) ∧
  (∀ s : State,
    let can (e : Ev) (k : Nat) : Prop := (s.routeOf e.ix e.unit).testBit k = true ∧ e.served.testBit k = false ∧
      (k = 0 → (s.reg 0x106000).getLsbD 0 = true ∧ (s.regN 0x10600C + 2 ^ 32 - s.regN 0x106010) % 2 ^ 32 < s.evSize ∧ s.tth = 1) ∧
      (k = 1 → s.tth = 1 ∧ ((s.routeOf e.ix e.unit).testBit 0 = false ∨ e.served.testBit 0 = true))
    let able (e : Ev) : Prop := s.routeOf e.ix e.unit &&& (15 - e.served) = 0 ∨ ∃ k < 4, can e k
    (s.firmwareRuns = false → exec .eventDeliver s = .next s) ∧
    (s.firmwareRuns = true → (∀ e ∈ s.queued, ¬ able e) → exec .eventDeliver s = .next s) ∧
    (∀ pre e post, s.firmwareRuns = true → s.queued = pre ++ e :: post → (∀ x ∈ pre, ¬ able x) → able e →
      let r := s.serve e
      let left := r.1.routeOf e.ix e.unit &&& (15 - r.2)
      (left = 0 → exec .eventDeliver s = .next { r.1 with events := r.1.events.erase e }) ∧
      (left ≠ 0 → exec .eventDeliver s =
        .next { r.1 with events := r.1.events.map (fun x => if x = e then { e with served := r.2 } else x) }) ∧
      (e.served = 0 →
        let i := s.regN 0x10600C
        let msg : HMsg := .mem (s.regN 0x106004 + 2 ^ 32 * s.regN 0x106008 + 32 * (i % s.evSize)) (e.bytes (1 - i / s.evSize % 2))
        let u := (s.toHost 7 msg).setRegN 0x10600C (i + 1)
        (s.routeOf e.ix e.unit = 1 → r = (u, 1)) ∧
        (s.routeOf e.ix e.unit = 2 → r = (s.trigger 16, 2)) ∧
        (s.routeOf e.ix e.unit = 3 → can e 0 → r = (u.trigger 16, 3)) ∧
        (s.routeOf e.ix e.unit = 4 → ∀ eid, s.side.recv = some eid →
          r = (s.sideSend (BitVec.ofNat 8 eid :: 0xF0#8 :: e.bytes 0), 4)) ∧
        (s.routeOf e.ix e.unit = 8 → r = ((s.capture noRank 0x106020 (1 + evCode e.ix * 2 ^ 16) []).alert, 8))))) ∧
  (∀ s : State, (s.phase = 0 → ∀ rs, exec (.sensorRefresh rs) s = .next s) ∧
    (s.phase ≠ 0 → exec (.sensorRefresh []) s = .next s ∧
    (∀ v : Word, exec (.sensorRefresh [(0, v)]) s = .next { s with drawNow := v.toNat }) ∧
    (∀ (n : Fin 18) (v : Word), n.val ≠ 0 →
      let x := if n.val = 3 then s.fld 0x200010 0 16 else if s.sensorOn n = true then v.toNat else 0x8000
      let others := s.svc.beyond.filter (fun k => decide (k ≠ n.val))
      let s0 := ({ s with svc := { s.svc with beyond := if beyondRange n v.toNat = true then n.val :: others else others } } : State).setRegN
        (0x106100 + 4 * n.val) x
      let s1 : State := match n.val with
        | 1 => { s0.setRegN 0x20001C x with svc := { s0.svc with uv := s0.svc.uv && decide (v.toNat < 44000) } }
        | 2 => s0.setRegN 0x200020 x
        | 16 => s0.setRegN 0x200028 (x % 2 ^ 16)
        | 17 => s0.setRegN 0x200024 (x % 2 ^ 16)
        | _ => s0
      let lim := s.regN (0x106180 + 4 * n.val)
      ((lim = 0 ∨ x = 0x8000) → exec (.sensorRefresh [(n, v)]) s = .next s1) ∧
      (lim ≠ 0 → x ≠ 0x8000 → readingOf n lim < readingOf n x →
        (sget zeroBool s.warned n = true → exec (.sensorRefresh [(n, v)]) s = .next s1) ∧
        (sget zeroBool s.warned n = false → exec (.sensorRefresh [(n, v)]) s =
          .next (({ s1 with warned := sput zeroBool s1.warned n true } : State).raise 45 0 0 n x))) ∧
      (lim ≠ 0 → x ≠ 0x8000 → readingOf n x ≤ readingOf n lim → 32 * readingOf n x < 31 * readingOf n lim →
        exec (.sensorRefresh [(n, v)]) s = .next { s1 with warned := sput zeroBool s1.warned n false }) ∧
      (lim ≠ 0 → x ≠ 0x8000 → readingOf n x ≤ readingOf n lim → 31 * readingOf n lim ≤ 32 * readingOf n x →
        exec (.sensorRefresh [(n, v)]) s = .next s1)) ∧
    (∀ (r : List (Fin 18 × Word)) (e : Fin 18 × Word) (t : State), exec (.sensorRefresh r) s = .next t → t.phase ≠ 0 →
      exec (.sensorRefresh (r ++ [e])) s = exec (.sensorRefresh [e]) t)))

/-- R455: a reading of sensor n that rises above a non-zero TLM_WARNn raises EV_TLM_WARN once, and again only after a reading
below 31/32 of it; nothing else follows from the warning, the caps among it. 8000H says that the reading's source is off (R454).
-/
def Obligations.WarningsAreRaisedOnce : Prop :=
  ∀ (s : State) (n : Fin 18) (v : Word), s.phase ≠ 0 → 0 < n.val → ∃ t, exec (.sensorRefresh [(n, v)]) s = .next t ∧
    let lim := s.regN (0x106180 + 4 * n.val)
    let x := t.regN (0x106100 + 4 * n.val)
    let above := lim ≠ 0 ∧ x ≠ 0x8000 ∧ readingOf n lim < readingOf n x
    let below := lim ≠ 0 ∧ x ≠ 0x8000 ∧ 32 * readingOf n x < 31 * readingOf n lim ∧ readingOf n x ≤ readingOf n lim
    let was := sget zeroBool s.warned n
    (above ∧ was = false → t.events = (s.raise 45 0 0 n x).events) ∧
    (¬ (above ∧ was = false) → t.events = s.events) ∧
    (above → sget zeroBool t.warned n = true) ∧ (below → sget zeroBool t.warned n = false) ∧
    (¬ above → ¬ below → sget zeroBool t.warned n = was) ∧
    (∀ m, m ≠ n.val → sget zeroBool t.warned m = sget zeroBool s.warned m) ∧
    t.loess = s.loess ∧ t.clusters = s.clusters ∧ t.rings = s.rings ∧ t.ports = s.ports ∧ t.pstate = s.pstate ∧
    t.regN 0x20000C = s.regN 0x20000C ∧ t.regN 0x200010 = s.regN 0x200010

/-! Waybill rings (chapter 13) -/

/-- WBR_DB in its turn: a doorbell stores TAIL, taking its slot; on a ring that runs, one that announces more waybills than the
ring has room for halts it with cause 3: HALT and CAUSE, the index, and EV_WBR_HALT with the ring's status and the SEQ expected
there (R351, R376). WBR_CTL and RESUME in their turn (R350, R356): enabling a ring starts its indices at 0, ends a halt and
takes its SEQ from WBR_SEQ; a SIZE outside 4 to 12, and disabling a ring with waybills under way, are refused with BUSYW, the
other fields being written; RESUME of a halted ring with nothing under way goes on at TAIL, with one under way it is refused,
and of a ring that is not halted it does nothing. A write of WBR_CTL with RESUME does both, the enable first. -/
def Obligations.DoorbellsAnnounceAndRingsRun : Prop :=
  (∀ (s : State) (r : Fin 16) (tail : Word), s.InTurn →
    let old := s.regN (ra r 0x14)
    let head := s.regN (ra r 0x18)
    let s1 := s.arrived.setRegN (ra r 0x14) tail.toNat
    let s2 := ((s1.setFld (ra r 0x24) 0 1 1).setFld (ra r 0x24) 1 2 3).setRing r { s.ring r with haltIx := head }
    let room := s.ringSize r - (old + 2 ^ 32 - s.regN (ra r 0x1C)) % 2 ^ 32
    let new := (tail.toNat + 2 ^ 32 - old) % 2 ^ 32
    (s.phase = 0 → exec (.wbrDoorbell r tail) s = .next s.arrived) ∧
    (s.phase ≠ 0 → (s.ringOn r = false ∨ s.ringHalted r = true ∨ new ≤ room) → exec (.wbrDoorbell r tail) s = .next s1) ∧
    (s.phase ≠ 0 → s.ringOn r = true → s.ringHalted r = false → room < new →
      exec (.wbrDoorbell r tail) s = .next (s2.raise 32 5 r (s2.live (ra r 0x24)) (s.expectedSeq r head)))) ∧
  (∀ (s : State) (r : Fin 16), s.InTurn → s.phase ≠ 0 →
    (∀ v : Word,
      let n := bits v.toNat 1 4
      let stuck := s.ringOn r && !v.toNat.testBit 0 && decide (s.regN (ra r 0x18) ≠ s.regN (ra r 0x1C))
      let s1 := s.arrived.writeBut (.ring r) (ra r 0) v.toNat ((if n < 4 ∨ 12 < n then 0x1E else 0) + (if stuck then 1 else 0))
      let zero := ((s1.setRegN (ra r 0x14) 0).setRegN (ra r 0x18) 0).setRegN (ra r 0x1C) 0
      let fresh := (zero.setFld (ra r 0x24) 0 3 0).setRing r { seqBase := s1.regN (ra r 0x20) }
      let s2 := if s.ringOn r = false ∧ v.toNat.testBit 0 = true then fresh else s1
      (v.toNat.testBit 6 = false → exec (.wbrEnable r v) s = .next s2) ∧
      (v.toNat.testBit 6 = true → exec (.wbrEnable r v) s = .next (s2.ringResume r))) ∧
    (s.ringHalted r = false → exec (.wbrResume r) s = .next s.arrived) ∧
    (s.ringHalted r = true → (s.ring r).taken ≠ [] → exec (.wbrResume r) s = .next (s.arrived.busyW (.ring r))) ∧
    (s.ringHalted r = true → (s.ring r).taken = [] →
      ∃ t, exec (.wbrResume r) s = .next t ∧ t.regN (ra r 0x18) = s.regN (ra r 0x14) ∧ t.regN (ra r 0x1C) = s.regN (ra r 0x14) ∧
        t.ringHalted r = false ∧ t.ring r = { seqBase := s.regN (ra r 0x20), ixBase := s.regN (ra r 0x14),
                                              issued := (s.ring r).issued, returned := (s.ring r).issued } ∧
        (∀ q, q ≠ r.val → t.ring q = s.ring q) ∧ t.teth = s.arrived.teth ∧ t.clusters = s.clusters ∧ t.loess = s.loess))

/-- R352: a ring's ledger has TOTAL SIZE; WAYBILL_TAKE of 64 bytes, of a failed fetch too, adds 1 to ISSUED, or takes nothing
while the bitmap it names cannot be read; a receipt adds 1 to RETURNED, enabling the ring resets both; with LDG_SEL at 32 + r
the ledger is read in LDG_TOTAL, LDG_ISSUED, LDG_RETURNED and LDG_HELD. -/
def Obligations.RingLedgersCount : Prop :=
  ∀ (s : State) (r : Fin 16),
    (s.fld 0x500 0 6 = 32 + r.val → s.phase ≠ 0 →
      s.readReg 0x504 = BitVec.ofNat 32 (s.ringSize r) ∧ s.readReg 0x510 = BitVec.ofNat 32 (s.ring r).issued ∧
      s.readReg 0x514 = BitVec.ofNat 32 (s.ring r).returned ∧
      s.readReg 0x50C = BitVec.ofNat 32 (((s.ring r).issued + 2 ^ 32 - (s.ring r).returned) % 2 ^ 32)) ∧
    (∀ (x : Option (List Byte)) (ecc : List (Nat × EccCase)) (fault : Option Word), s.mayTake r = true → s.mayFlit 1 = true →
      s.ready = true → (∀ bs ∈ x, bs.length = 64) →
      ∃ t, exec (.waybillTake r x ecc fault) s = .next t ∧
        ((∀ bs ∈ x, wbSet (leAt bs 0 2) = true → leAt bs 12 4 / 2 ^ 30 = 3 →
            s.rangeUp (leAt bs 16 4 + 2 ^ 32 * leAt bs 20 4) 256 = true) → t.regN (ra r 0x18) ≠ s.regN (ra r 0x18)) ∧
        (t.regN (ra r 0x18) = s.regN (ra r 0x18) → t = s) ∧
        (t.regN (ra r 0x18) ≠ s.regN (ra r 0x18) →
          (t.ring r).issued = ((s.ring r).issued + 1) % 2 ^ 32 ∧
          ((t.ring r).taken = (s.ring r).taken → (t.ring r).returned = ((s.ring r).returned + 1) % 2 ^ 32) ∧
          ((t.ring r).taken ≠ (s.ring r).taken → (t.ring r).returned = (s.ring r).returned) ∧
          ∀ q : Nat, q ≠ r.val → t.ring q = s.ring q)) ∧
    (∀ (w : Wb) (st : Nat) (res : List Nat),
      ((s.finish r w st res).ring r).returned = ((s.ring r).returned + 1) % 2 ^ 32 ∧
      ((s.finish r w st res).ring r).issued = (s.ring r).issued ∧ ∀ q : Nat, q ≠ r.val → (s.finish r w st res).ring q = s.ring q) ∧
    (∀ v : Word, s.phase ≠ 0 → s.InTurn → s.wbMask (ra r 0) = 0 → s.ringOn r = false → v.toNat.testBit 0 = true →
      v.toNat.testBit 6 = false → 4 ≤ bits v.toNat 1 4 → bits v.toNat 1 4 ≤ 12 →
      ∃ t, exec (.wbrEnable r v) s = .next t ∧
        (t.ring r).issued = 0 ∧ (t.ring r).returned = 0 ∧ t.ringSize r = 2 ^ bits v.toNat 1 4)

/-- WAYBILL_TAKE (R355, R356, R370, R376): where a waybill may be taken and a flit may be sent, the fetch goes out as a read of
64 B at the ring's next place, and its answer leaves a slot toward the module to take. A failed fetch, a CRC or a SEQ that does
not fit is answered BADCRC or BADSEQ and halts the ring, a failed fetch being a Tether error of cause 4; a version or an opcode
the module does not have, or before READY an opcode that is not served then (R353), is answered and the ring goes on; HEAD moves
on in each case. Else nothing is taken. -/
def Obligations.WaybillsAreChecked : Prop :=
  ∀ (s : State) (r : Fin 16) (bs : List Byte) (ecc : List (Nat × EccCase)) (fault : Option Word), bs.length = 64 →
    let ix := s.regN (ra r 0x18)
    let seq := s.expectedSeq r ix
    let place := s.reg64 (ra r 4) + 64 * (ix % s.ringSize r)
    let f := (s.sendMsg { act := 7, due := s.stageNo, msg := .fetch place 64 }).fromHost 7
    let s1 := f.takeOne r
    let irq := (leAt bs 2 1).testBit 1
    let opc := leAt bs 0 2
    let crcOk := decide ((crc32c seq (bs.take 60)).toNat = leAt bs 60 4)
    let takes (t : State) : Prop := exec (.waybillTake r (some bs) ecc fault) s = .next t
    ((s.mayTake r = false ∨ s.mayFlit 1 = false) → takes s ∧ exec (.waybillTake r none ecc fault) s = .next s) ∧
    (s.mayTake r = true → s.mayFlit 1 = true →
      exec (.waybillTake r none ecc fault) s =
        .next ((((f.tthErr 4 0 place).takeOne r).receipt r ix seq 0 1 [] false).haltRing r ix 1) ∧
      (s.ready = false → opc = 0x100 → (s.ring r).taken ≠ [] → takes s) ∧
      ((s.ready = true ∨ opc ≠ 0x100 ∨ (s.ring r).taken = []) →
        (crcOk = false → takes ((s1.receipt r ix seq 0 1 [] false).haltRing r ix 1)) ∧
        (crcOk = true → leAt bs 4 4 ≠ seq → takes ((s1.receipt r ix (leAt bs 4 4) opc 2 [seq] irq).haltRing r ix 2)) ∧
        (crcOk = true → leAt bs 4 4 = seq →
          (leAt bs 3 1 ≠ 1 → takes (s1.receipt r ix seq opc 3 [] irq)) ∧
          (leAt bs 3 1 = 1 → opc ∉ wbOpcodes → takes (s1.receipt r ix seq opc 4 [] irq)) ∧
          (leAt bs 3 1 = 1 → opc ∈ wbOpcodes → s.ready = false → opc ∉ [0x100, 0x101, 0x102] →
            ¬ (s.boot.recovery = true ∧ opc = 0x900) → takes (s1.receipt r ix seq opc 8 [0xFFFFFFFF, 0] irq)))))

/-- WAYBILL_TAKE of a good waybill (R353, R355, R364): reserved bits and parameters, then, its cluster bitmap read with what the
decoder meets in it, clusters and power state are checked in that order and the first failure is answered, a poisoned bitmap
MEMERR; else the waybill is taken, and its opcode's command may start it, or a fault of the firmware's own answers it INTERNAL
with its code and EV_WBR_INTERNAL. In HOLD and STANDBY no bitmap is read. While its bitmap cannot be reached, nothing is taken.
-/
def Obligations.GoodWaybillsAreTaken : Prop :=
  ∀ (s : State) (r : Fin 16) (bs : List Byte) (ecc : List (Nat × EccCase)) (fault : Option Word), bs.length = 64 →
    s.mayTake r = true → s.mayFlit 1 = true → s.ready = true →
    let ix := s.regN (ra r 0x18)
    let seq := s.expectedSeq r ix
    let f := (s.sendMsg { act := 7, due := s.stageNo, msg := .fetch (s.reg64 (ra r 4) + 64 * (ix % s.ringSize r)) 64 }).fromHost 7
    let opc := leAt bs 0 2
    let fl := leAt bs 2 1
    let ps := (List.range 12).map (fun k => leAt bs (12 + 4 * k) 4)
    let kind3 := wbSet opc && decide (ps.getD 0 0 / 2 ^ 30 = 3)
    let low := decide (s.pstate = 2) || decide (s.pstate = 3)
    let reads := kind3 && !low && !pastEnd (pPair ps 1) 256
    let rsvd := decide (4 ≤ fl) || decide (leAt bs 10 2 ≠ 0)
    let g := if reads = true then (f.eccReads [(pPair ps 1, 256)] mgmtWho ecc).mgmtTraffic false [(pPair ps 1, 256)] else f
    let clus := if (low && kind3) = true then [0] else g.clusterSet opc ps (if reads = true then g.loessRead (pPair ps 1) 256 else [])
    let takes (t : State) : Prop := exec (.waybillTake r (some bs) ecc fault) s = .next t
    (crc32c seq (bs.take 60)).toNat = leAt bs 60 4 → leAt bs 4 4 = seq → leAt bs 3 1 = 1 → opc ∈ wbOpcodes →
    (∀ k, f.wbHead opc rsvd ps = some k → takes ((f.takeOne r).receipt r ix seq opc 5 [k] (fl.testBit 1))) ∧
    (f.wbHead opc rsvd ps = none →
      (reads = true → f.rangeUp (pPair ps 1) 256 = false → takes s) ∧
      (reads = true → f.rangeUp (pPair ps 1) 256 = true → (g.firstPoison (pPair ps 1) 256).isSome = true →
        takes ((g.takeOne r).receipt r ix seq opc 0x0C [0, 0] (fl.testBit 1))) ∧
      ((reads = false ∨ (f.rangeUp (pPair ps 1) 256 = true ∧ g.firstPoison (pPair ps 1) 256 = none)) →
        (∀ st res, g.wbChecks opc rsvd ps clus = some (st, res) →
          takes ((g.takeOne r).receipt r ix seq opc st res (fl.testBit 1))) ∧
        (g.wbChecks opc rsvd ps clus = none →
          (∀ code, fault = some code →
            takes (((g.takeOne r).receipt r ix seq opc 0xFF [code.toNat] (fl.testBit 1)).raise 33 5 r code.toNat 0)) ∧
          (fault = none →
            let w : Wb := { ix := ix, opc := opc, seq := seq, irq := fl.testBit 1, fence := fl.testBit 0, params := ps
                            tmo := leAt bs 8 2, clus := clus }
            takes ((g.takeOne r).setRing r { (g.takeOne r).ring r with taken := ((g.takeOne r).ring r).taken ++ [w] })))))

/-- A waybill starts only in its turn (R358): whatever the opcode, a waybill that the start rules keep waiting changes nothing,
one that conflicts with another ring's is answered BUSY with that ring, one that the power state forbids POWER (R361), one that
a service sequence keeps out STATE (R417); else its rows are switched on (R398) and it acts once what it reaches is there.
WAYBILL_TIMEOUT ends a waybill that has a limit and does not act yet with TIMEOUT, a pause that still waits for it being undone;
one that acts, or has no limit, goes on, as every one does while the firmware is switched (R354, R362). A receipt (R357): the
waybill leaves those taken, DONE moves on by one, one 32-byte message goes to the receipt ring at the waybill's index, with its
SEQ, opcode, status, PHASE and five result words, its CRC over the 28 bytes before it; with IRQ, of the waybill or the ring, the
ring's vector is triggered: its message follows, or while it is masked it is pending (R383). Without, nothing does. -/
def Obligations.WaybillsStartAndEnd : Prop :=
  (∀ (s : State) (opc r ix : Nat) (w : Wb) (up : Wb → Bool) (f : State → Wb → State), s.wb r ix = some w → w.opc = opc →
    s.interprets = true →
    let kept := s.svcPhase ≠ 0 ∧ wbClass opc ∈ [2, 3, 4, 5, 6, 7, 9] ∧ opc ≠ 0x700 ∧ opc ≠ 0x701
    (s.startOf r w = .waits → s.startWb opc r ix up f = s) ∧
    (∀ q, s.startOf r w = .busy q → s.startWb opc r ix up f = s.finish r w 7 [q]) ∧
    (s.startOf r w = .starts →
      (s.powerForbids opc w.params w.clus = true → s.startWb opc r ix up f = s.finish r w 0x0E [s.pstate]) ∧
      (s.powerForbids opc w.params w.clus = false → kept → s.startWb opc r ix up f = s.finish r w 8 [0xFFFFFFFF, s.svcPhase]) ∧
      (s.powerForbids opc w.params w.clus = false → ¬ kept → up w = false → s.startWb opc r ix up f = s) ∧
      (s.powerForbids opc w.params w.clus = false → ¬ kept → up w = true → s.startWb opc r ix up f = f (s.switchOn w.clus) w)) ∧
    (w.phase ≠ 0 → s.startOf r w = .waits) ∧
    (wbExclusive opc = true → s.startedCount ≠ 0 → s.startOf r w = .waits) ∧
    (16 ≤ s.startedCount → s.startOf r w = .waits)) ∧
  (∀ (s : State) (r : Fin 16) (i : Word),
    (s.wb r i.toNat = none → exec (.waybillTimeout r i) s = .next s) ∧
    ∀ w : Wb, s.wb r i.toNat = some w →
    let mine (p : Pause) : Prop := p.wb = some (r.val, w.ix) ∧ p.st = 1
    (s.interprets = true → w.phase < 2 → wbLimited w.opc w.tmo = true →
      (∀ p, s.pause = some p → mine p → exec (.waybillTimeout r i) s = .next (({ s with pause := none } : State).finish r w 9 [])) ∧
      ((∀ p, s.pause = some p → ¬ mine p) → exec (.waybillTimeout r i) s = .next (s.finish r w 9 []))) ∧
    ((2 ≤ w.phase ∨ wbLimited w.opc w.tmo = false ∨ s.interprets = false) → exec (.waybillTimeout r i) s = .next s)) ∧
  (∀ (s : State) (r : Nat) (w : Wb) (st : Nat) (res : List Nat), r < 16 → res.length ≤ 5 → s.ringSize r ≠ 0 →
    let t := s.finish r w st res
    let tells := w.irq = true ∨ (s.reg (ra r 0)).getLsbD 5 = true
    (t.ring r).taken = (s.ring r).taken.filter (fun x => decide (x.ix ≠ w.ix)) ∧
    t.regN (ra r 0x1C) = (s.regN (ra r 0x1C) + 1) % 2 ^ 32 ∧
    (∀ q, q ≠ r → t.ring q = s.ring q) ∧ t.loess = s.loess ∧ t.clusters = s.clusters ∧
    ∃ bs more, t.teth.txq = s.teth.txq ++
        { act := 7, due := s.stageNo, msg := .mem (s.reg64 (ra r 0x0C) + 32 * (w.ix % s.ringSize r)) bs } :: more ∧
      bs.length = 32 ∧ leAt bs 0 4 = w.seq % 2 ^ 32 ∧ leAt bs 4 2 = w.opc % 2 ^ 16 ∧ leAt bs 6 1 = st % 2 ^ 8 ∧
      leAt bs 7 1 = 1 - w.ix / s.ringSize r % 2 ∧ (∀ k < 5, leAt bs (8 + 4 * k) 4 = res.getD k 0 % 2 ^ 32) ∧
      leAt bs 28 4 = (crc32c w.seq (bs.take 28)).toNat ∧
      (¬ tells → more = []) ∧
      (tells → s.boot.switching = none → (s.reg 0x600020).getLsbD r = false → r ∉ s.unmasked →
        more = [{ act := 7, due := s.stageNo, msg := s.irqMsg r }]) ∧
      (tells → s.boot.switching = none → (s.reg 0x600020).getLsbD r = true → more = [] ∧ (t.reg 0x600024).getLsbD r = true))

/-- READY, ECHO, IDENT, SENSORS, ITN_QUERY and GLZ_QUERY that start are answered with what R365 gives: READY once the module is
ready (its words) or start-up has failed (the cause), and waits else; ECHO with its word and, but in recovery, the low word of
the stage; IDENT with part, clusters, bank and serial number; SENSORS with voltage, current, the two temperatures and throttle
count; the queries with their cluster's registers as a read returns them. -/
def Obligations.QueriesAreAnswered : Prop :=
  ∀ (s : State) (r : Fin 16) (i : Word) (w : Wb),
    let s1 := s.switchOn w.clus
    let words (n : Nat) (os : List Nat) : List Nat := os.map (fun o => (s1.readReg (ca n o)).toNat)
    (s.Starts 0x100 r i.toNat w →
      (s.ready = true → exec (.ready r i) s =
        .next (s1.finish r w 0 [s1.identReg, (s1.readReg 0x100004).toNat, s1.regN 0x20002C])) ∧
      (s.ready = false → s.failed = true → exec (.ready r i) s = .next (s1.finish r w 0x12 [s.fld 0x200000 4 4])) ∧
      (s.ready = false → s.failed = false → exec (.ready r i) s = .next (s1.setWb r { w with phase := 1 }))) ∧
    (s.Starts 0x101 r i.toNat w → exec (.echo r i) s =
      .next (s1.finish r w 0 [w.params.getD 0 0, if s.boot.recovery then 0 else s.regN 0x400])) ∧
    (s.Starts 0x102 r i.toNat w → exec (.ident r i) s =
      .next (s1.finish r w 0 [s.identReg, s.presentCount, if (if s.boot.recovery then s.boot.sel else s.boot.act) then 1 else 0,
        Config.serial.toNat % 2 ^ 32, Config.serial.toNat / 2 ^ 32 % 2 ^ 32])) ∧
    (s.Starts 0x800 r i.toNat w → exec (.sensors r i) s =
      .next (s1.finish r w 0 [s.regN 0x20001C, s.regN 0x200020, bitsOf 32 (signedOf 16 (s.fld 0x200024 0 16)),
        bitsOf 32 (signedOf 16 (s.fld 0x200028 0 16)), s.regN 0x200018])) ∧
    (s.Starts 0x204 r i.toNat w → exec (.itnQuery r i) s =
      .next (s1.finish r w 0 (words (w.params.getD 0 0) [0xA00, 0xA04, 0xA08, 0xA0C, 0xA10]))) ∧
    (s.Starts 0x402 r i.toNat w → exec (.glzQuery r i) s =
      .next (s1.finish r w 0 (words (w.params.getD 0 0) [0x304, 0x308, 0x30C, 0x318, 0x31C])))

/-- RESET_WARM, RESET_ENGINE and RESET_CLUSTER that start reset what they name (R404 to R406) and are answered after it: with
the stage, the engines or the number of clusters. In the last kc of a stage they wait, RESET_WARM during a power transition too
(R407); a module in a low power state is ACTIVE after RESET_WARM. CANCEL ends a waybill that does not act yet with ABORTED, a
pause that waits for it being undone, and says whether it found one (R363). What the resets leave (R405, R406, R408): a cluster
that a CLU reset ends with is idle, without staged itinerary, tasks, streams, tags or queue entries, its tiles empty; an engine
that an ENG reset ends with has an empty tandem unit; a WARM reset leaves no predicate, pause, relay, reduction, escalation or
tandem record, and the module alone, with KIND 3 in PWR_RSTCAUSE. -/
def Obligations.ResetWaybillsAct : Prop :=
  (∀ (s : State) (r : Fin 16) (i : Word) (w : Wb),
    let s1 := s.switchOn w.clus
    let s2 := s1.setWb r { w with phase := 2 }
    (s.Starts 0x103 r i.toNat w →
      let x := s2.warmReset (some (r.val, w.ix))
      let t := match s1.pstate with
        | 1 => x.rowsOn (List.range 128)
        | 2 => x.leaveHold
        | 3 => x.leaveStandby
        | _ => x
      ((s.trans.isSome = true ∨ s.lastKc = true) → exec (.resetWarm r i) s = .next s) ∧
      (s.trans = none → s.lastKc = false → exec (.resetWarm r i) s = .next (t.finish r w 0 [t.regN 0x400]).svcRetry)) ∧
    (s.Starts 0x104 r i.toNat w →
      let m := w.params.getD 0 0
      let t := (List.range 16).foldl (fun s e => if m.testBit e then s.resetEngine1 e else s) s2
      (s.lastKc = true → exec (.resetEngine r i) s = .next s) ∧
      (s.lastKc = false → exec (.resetEngine r i) s = .next (t.finish r w 0 [m]))) ∧
    (s.Starts 0x105 r i.toNat w →
      (s.lastKc = true → exec (.resetCluster r i) s = .next s) ∧
      (s.lastKc = false → exec (.resetCluster r i) s = .next ((s2.resetClusters w.clus).finish r w 0 [w.clus.length]))) ∧
    (s.Starts 0x106 r i.toNat w →
      let q := w.params.getD 0 0
      let hit (x : Wb) : Bool := decide (x.seq = w.params.getD 1 0) && decide (x.phase < 2) && !(decide (q = r.val) && decide (x.ix = w.ix))
      ((s.ring q).taken.find? hit = none → exec (.cancel r i) s = .next (s1.finish r w 0 [0])) ∧
      (∀ x, (s.ring q).taken.find? hit = some x →
        let mine (p : Pause) : Prop := p.wb = some (q, x.ix) ∧ p.st = 1
        ((∀ p, s.pause = some p → ¬ mine p) → exec (.cancel r i) s =
          .next ((s1.finish q x 0x0F [0, r, w.seq]).finish r w 0 [1])) ∧
        (∀ p, s.pause = some p → mine p → exec (.cancel r i) s =
          .next ((({ s1 with pause := none } : State).finish q x 0x0F [0, r, w.seq]).finish r w 0 [1]))))) ∧
  ((∀ (s : State) (ns : List Nat) (n : Nat),
    let c := (s.resetClusters (ns ++ [n])).cl n
    c.st = 0 ∧ c.stopc = 0 ∧ c.slot0 = {} ∧ c.slot1 = {} ∧ c.staging = [] ∧ c.streams = [] ∧ c.tags = [] ∧ c.loadQ = [] ∧ c.storeQ = [] ∧
    c.scaleQ = [] ∧ c.manQ = [] ∧ c.tile0 = {} ∧ c.tile1 = {} ∧ c.mop = none ∧ c.glz = none ∧ c.issued = c.returned) ∧
  (∀ (s : State) (e : Nat), (s.resetEngine1 e).unit e = {}) ∧
  ∀ (s : State) (but : Option (Nat × Nat)),
    let t := s.warmReset but
    t.preds = [] ∧ t.pause = none ∧ t.relays = [] ∧ t.reds = [] ∧ t.order = [] ∧ t.starved = [] ∧ t.tandem = [] ∧ t.cvn = {} ∧
    t.fld 0x200008 0 2 = 3)

/-- START, STOP, RESUME, UNLOAD, PAUSE (R242, R294, R300, R365): a set with a cluster in the wrong state is answered STATE with
the first such cluster and its state, a stage not in the future PAST with the current stage; else START and RESUME wait for
their stage, STOP marks the running clusters and waits for the boundary, UNLOAD idles those that were not and takes them out of
a pause, PAUSE, unless another waits or settles, waits for its boundary. -/
def Obligations.ItineraryWaybillsAct : Prop :=
  ∀ (s : State) (r : Fin 16) (i : Word) (w : Wb),
    let s1 := s.switchOn w.clus
    let wrong (bad : Nat → Bool) : Option (List Nat) := (w.clus.find? (fun n => bad (s1.cl n).st)).map (fun n => [n, (s1.cl n).st])
    let stage := pPair w.params 3
    let now := [s.stageNo % 2 ^ 32, s.stageNo / 2 ^ 32 % 2 ^ 32]
    let begins (t : State) : State := t.setWb r { w with phase := 1, stage := stage }
    (s.Starts 0x201 r i.toNat w →
      (∀ res, wrong (fun st => decide (st ≠ 1) && decide (st ≠ 4)) = some res →
        exec (.start r i) s = .next (s1.finish r w 8 res)) ∧
      (wrong (fun st => decide (st ≠ 1) && decide (st ≠ 4)) = none →
        (stage ≤ s.stageNo → exec (.start r i) s = .next (s1.finish r w 0x11 now)) ∧
        (s.stageNo < stage → exec (.start r i) s = .next (begins s1)))) ∧
    (s.Starts 0x703 r i.toNat w →
      (∀ res, wrong (fun st => decide (st ≠ 3)) = some res → exec (.resume r i) s = .next (s1.finish r w 8 res)) ∧
      (wrong (fun st => decide (st ≠ 3)) = none →
        (stage ≤ s.stageNo → exec (.resume r i) s = .next (s1.finish r w 0x11 now)) ∧
        (s.stageNo < stage → exec (.resume r i) s = .next (begins s1)))) ∧
    (s.Starts 0x202 r i.toNat w →
      let runs := w.clus.filter (fun n => decide ((s1.cl n).st = 2))
      let t := runs.foldl (fun s n => if (s.cl n).stopDue.isSome then s else s.setCl n { s.cl n with stopDue := some 1 }) s1
      exec (.stop r i) s = .next (t.setWb r { w with phase := 2, done := w.clus.length - runs.length })) ∧
    (s.Starts 0x203 r i.toNat w →
      (∀ res, wrong (fun st => decide (st = 2)) = some res → exec (.unload r i) s = .next (s1.finish r w 8 res)) ∧
      (wrong (fun st => decide (st = 2)) = none →
        let had := w.clus.filter (fun n => decide ((s1.cl n).st ≠ 0))
        exec (.unload r i) s = .next ((had.foldl State.unload s1).trimPause.evalMismatch.finish r w 0 [had.length]) ∧
        ∀ ns n, had = ns ++ [n] → ((had.foldl State.unload s1).cl n).st = 0)) ∧
    (s.Starts 0x700 r i.toNat w →
      (∀ p, s.pause = some p → (p.st = 1 ∨ p.st = 2) →
        exec (.pause r i) s = .next (s1.finish r w 8 [w.clus.headD 0, (s1.cl (w.clus.headD 0)).st])) ∧
      ((∀ p, s.pause = some p → p.st ≠ 1 ∧ p.st ≠ 2) → exec (.pause r i) s =
        .next (({ s1 with pause := some { clus := w.clus, b := stage, wb := some (r.val, w.ix) } } : State).setWb r { w with phase := 1 })))

/-- LOAD (R241, R367): once its image can be reached, with what the decoder meets there, a poisoned image is MEMERR and undoes
everything; one that fails a check is REFUSED with its cause, section and entry, counted when its signature fails; else the
sections the set chooses are in their clusters, and it is answered DONE with their number and IMGID; in this kc no direct write
of their tasks and regions stands (R360). SAVE and RESTORE (R295, R296, R299): SAVE with no set paused is answered STATE (two
words the spec leaves open), past the end of memory BADPARAM; else it writes the paused set's image, with what the decoder meets
at its edges, and is answered with the image's length and stage. RESTORE takes the image up and is answered with its clusters,
or is MEMERR, or REFUSED with a cause and record. Each waits until its range can be reached. -/
def Obligations.ImageWaybillsAct : Prop :=
  (∀ (s : State) (r : Fin 16) (i : Word) (w : Wb) (ecc : List (Nat × EccCase)),
    let s1 := s.switchOn w.clus
    let a := pPair w.params 3
    let all := decide (w.params.getD 0 0 / 2 ^ 30 = 1)
    let u := (s1.eccImage a ecc).mgmtTraffic false [(a, max 256 (s1.imageAt a).bs.length)]
    s.Starts 0x200 r i.toNat w →
    (s.rangeUp a (max 256 (s.imageAt a).bs.length) = false → exec (.load r i ecc) s = .next s) ∧
    (s.rangeUp a (max 256 (s.imageAt a).bs.length) = true →
      (∀ n, u.loadImage a w.clus all = .poison n → exec (.load r i ecc) s = .next (u.finish r w 0x0C [0, 0])) ∧
      (∀ c e, u.loadImage a w.clus all = .refused c e → exec (.load r i ecc) s =
        .next ((if c = 9 then u.authFail else u).finish r w 0x0A [c, e.1, e.2])) ∧
      (∀ l n id, u.loadImage a w.clus all = .done l n id →
        exec (.load r i ecc) s = .next ((w.clus.foldl (fun s k => s.wbWrote (ca k 0x800) 0x200 (2 ^ 32 - 1)) l.trimPause).finish r w 0
          [n, id % 2 ^ 32, id / 2 ^ 32 % 2 ^ 32]) ∧
        l = u.loadChosen (u.imageAt a) (if all = true then (u.imageAt a).sects.map (u.imageAt a).secNo else w.clus)))) ∧
  (∀ (s : State) (r : Fin 16) (i : Word) (w : Wb) (ecc : List (Nat × EccCase)),
    let s1 := s.switchOn w.clus
    let b := pPair w.params 0
    (s.Starts 0x701 r i.toNat w →
      let open2 := [(Config.openWord 0x701 0).toNat, (Config.openWord 0x701 1).toNat]
      (s.pause = none → s.rangeUp b 0 = true → exec (.save r i ecc) s = .next (s1.finish r w 8 open2)) ∧
      (∀ p, s.pause = some p →
        let size := 4096 + recSize * p.clus.length
        (s.rangeUp b size = false → exec (.save r i ecc) s = .next s) ∧
        (s.rangeUp b size = true →
          (p.st ≠ 3 → exec (.save r i ecc) s = .next (s1.finish r w 8 open2)) ∧
          (p.st = 3 → pastEnd b size = true → exec (.save r i ecc) s = .next (s1.finish r w 5 [0])) ∧
          (p.st = 3 → pastEnd b size = false →
            let img := s1.saveImage p
            let v := ((s1.noteSaved p).eccEdges b img.1.length mgmtWho ecc).mgmtTraffic true [(b, img.1.length)]
            exec (.save r i ecc) s = .next ((v.agentWrite b img.1 mgmtWho).draw.finish r w 0
              [img.1.length % 2 ^ 32, img.1.length / 2 ^ 32 % 2 ^ 32, img.2 % 2 ^ 32, img.2 / 2 ^ 32 % 2 ^ 32]))))) ∧
    (s.Starts 0x702 r i.toNat w →
      let size := 4096 + recSize * leAt (s.loessRead b 32) 24 4
      (s.rangeUp b size = false → exec (.restore r i ecc) s = .next s) ∧
      (s.rangeUp b size = true →
        (pastEnd b 4096 = true → exec (.restore r i ecc) s = .next (s1.finish r w 0x0A [1, 0])) ∧
        (pastEnd b 4096 = false →
          let u := (s1.eccSaved b ecc).mgmtTraffic true [(b, 4096 + recSize * leAt (s1.loessRead b 32) 24 4)]
          (∀ n, u.restoreImage b = .poison n → exec (.restore r i ecc) s = .next (u.finish r w 0x0C [0, 0])) ∧
          (∀ c k, u.restoreImage b = .refused c k → exec (.restore r i ecc) s = .next (u.finish r w 0x0A [c, k])) ∧
          (∀ l n, u.restoreImage b = .done l n → exec (.restore r i ecc) s =
            .next ((l.presentList.foldl (fun s k => if (s.cl k).st = 3 then s.wbWrote (ca k 0) 0x1000 (2 ^ 32 - 1) else s) l).finish r w 0 [n]))))))

/-- JOB, COPY, CHECKSUM (R224, R226, R364 to R366), once their ranges can be reached, with what the decoder meets there: a
waybill's job waits for BEDROCK_JOB, or is refused with its cause and EV_LSM_JOB; COPY moves its range, to the poisoned codeword
if it meets one; CHECKSUM answers the range's check and says when it is not the one expected; a poisoned codeword is MEMERR with
the bytes before it. -/
def Obligations.LoessWaybillsAct : Prop :=
  ∀ (s : State) (r : Fin 16) (i : Word) (w : Wb) (ecc : List (Nat × EccCase)),
    let s1 := s.switchOn w.clus
    let src := pPair w.params 0
    let two (x : Nat) : List Nat := [x % 2 ^ 32, x / 2 ^ 32 % 2 ^ 32]
    (s.Starts 0x300 r i.toNat w →
      let u := (s1.eccReads [(src, 64)] mgmtWho ecc).mgmtTraffic false [(src, 64)]
      let d := jobOf (u.loessRead src 64)
      (s.rangeUp src 64 = false → exec (.jobWaybill r i ecc) s = .next s) ∧
      (s.rangeUp src 64 = true →
        (u.firstPoison src 64 ≠ none → exec (.jobWaybill r i ecc) s = .next (u.finish r w 0x0C [0, 0])) ∧
        (u.firstPoison src 64 = none →
          (jobRefusedBy d = 0 → exec (.jobWaybill r i ecc) s =
            .next ((u.sendJob { src := .waybill r i, d := d, ord := u.jobOrd }).setWb r { w with phase := 2 })) ∧
          (jobRefusedBy d ≠ 0 → exec (.jobWaybill r i ecc) s =
            .next ((u.jobFault (Config.jobDie (u.loessRead src 64) % 8) (jobRefusedBy d) 0 true).finish r w 0x0A [jobRefusedBy d]))))) ∧
    (s.Starts 0x301 r i.toNat w →
      let dst := pPair w.params 2
      let n := pPair w.params 4
      let v := (s1.eccReads [(src, n)] mgmtWho ecc).eccEdges dst n mgmtWho ecc
      ((s.rangeUp src n = false ∨ s.rangeUp dst n = false) → exec (.copy r i ecc) s = .next s) ∧
      (s.rangeUp src n = true → s.rangeUp dst n = true →
        (v.firstPoison src n = none →
          let u := v.mgmtTraffic false [(src, n), (dst, n)]
          exec (.copy r i ecc) s = .next ((u.agentWrite dst (u.loessRead src n) mgmtWho).finish r w 0 (two n))) ∧
        (∀ d, v.firstPoison src n = some d →
          let u := v.mgmtTraffic false [(src, d), (dst, d)]
          exec (.copy r i ecc) s = .next ((u.agentWrite dst (u.loessRead src d) mgmtWho).finish r w 0x0C (two d))))) ∧
    (s.Starts 0x801 r i.toNat w →
      let n := pPair w.params 2
      let wide := (w.params.getD 4 0).testBit 0
      let u := (s1.eccReads [(src, n)] mgmtWho ecc).mgmtTraffic false [(src, n)]
      let v := if wide then (crc64 0 (u.loessRead src n)).toNat else (crc32c 0 (u.loessRead src n)).toNat
      let want := if wide then pPair w.params 5 else w.params.getD 5 0
      (s.rangeUp src n = false → exec (.checksum r i ecc) s = .next s) ∧
      (s.rangeUp src n = true →
        (∀ d, u.firstPoison src n = some d → exec (.checksum r i ecc) s = .next (u.finish r w 0x0C (two d))) ∧
        (u.firstPoison src n = none →
          ((w.params.getD 4 0).testBit 1 = false ∨ v = want → exec (.checksum r i ecc) s = .next (u.finish r w 0 (two v))) ∧
          ((w.params.getD 4 0).testBit 1 = true → v ≠ want → exec (.checksum r i ecc) s = .next (u.finish r w 0x10 (two v))))))

/-- GLOAD, GSWITCH, PROPOSE, WCLEAR (R140, R144, R174, R176, R360): GLOAD, once its table can be reached, asks every cluster of
its set for the load, or is BUSY when one loads already, or MEMERR; GSWITCH asks every cluster for the switch and waits for the
boundary; PROPOSE is answered with the proposal over the largest entries of the windows; WCLEAR empties the windows of the named
slots, unless one records now: then it is BUSY with BUSYW in those clusters. A scale proposal (R140) has no free value on
finite, non-negative windows of a symmetric slot: the larger of P and N over QMAX as a binary32 code, zero point 0; infinity is
refused with NOPROP; empty windows answer 1.0 and say so. -/
def Obligations.GlazeAndWindowWaybillsAct : Prop :=
  (∀ (s : State) (r : Fin 16) (i : Word) (w : Wb) (ecc : List (Nat × EccCase)),
    let s1 := s.switchOn w.clus
    (s.Starts 0x400 r i.toNat w →
      let a := pPair w.params 3
      let u := (s1.eccReads [(a, 8320)] mgmtWho ecc).mgmtTraffic false [(a, 8320)]
      let l : GLoad := { addr := a, epoch := w.params.getD 5 0, wb := some (r.val, w.ix, u.loessRead a 8320) }
      (s.rangeUp a 8320 = false → exec (.gload r i ecc) s = .next s) ∧
      (s.rangeUp a 8320 = true →
        (w.clus.any (fun n => (s1.cl n).gbusy) = true → exec (.gload r i ecc) s = .next (s1.finish r w 7 [0xFF])) ∧
        (w.clus.any (fun n => (s1.cl n).gbusy) = false →
          (u.firstPoison a 8320 ≠ none → exec (.gload r i ecc) s = .next (u.finish r w 0x0C [0, 0])) ∧
          (u.firstPoison a 8320 = none → exec (.gload r i ecc) s =
            .next ((w.clus.foldl (fun s n => s.setCl n ((s.cl n).requestLoad l)) u).setWb r { w with phase := 2 }))))) ∧
    (s.Starts 0x401 r i.toNat w →
      ∃ t : State, exec (.gswitchWaybill r i) s = .next (t.setWb r { w with phase := 2 }) ∧
        (∀ n ∈ w.clus, t.cl n = { s1.cl n with gswitch := true }) ∧ (∀ n, n ∉ w.clus → t.cl n = s1.cl n) ∧
        t = { s1 with clusters := t.clusters }) ∧
    (s.Starts 0x500 r i.toNat w →
      let p3 := w.params.getD 3 0
      let codes (neg : Bool) : List Nat := w.clus.flatMap (fun n => (List.range (s1.depth n)).map (fun e =>
        let x := sget noWin (s1.cl n).wins (p3 % 16 * 16 + e)
        if neg then x.2 else x.1))
      let a := proposal (p3.testBit 4) (p3.testBit 5) ((codes false).foldl max 0) ((codes true).foldl max 0)
      exec (.propose r i) s = .next (s1.finish r w a.1 a.2)) ∧
    (s.Starts 0x501 r i.toNat w →
      let slots := (List.range 16).filter (fun k => (w.params.getD 3 0).testBit k)
      let busy := w.clus.filter (fun n => slots.any (s1.recording n))
      (busy ≠ [] → exec (.wclear r i) s =
        .next ((busy.foldl (fun s n => s.busyW (.cluster n)) s1).finish r w 7 [0xFF, 0, 0, 0, 0x204])) ∧
      (busy = [] →
        ∃ t : State, exec (.wclear r i) s = .next (t.finish r w 0 [w.clus.length]) ∧
          t = { s1 with clusters := t.clusters
                        wbSlots := w.clus.flatMap (fun n => slots.map (fun k => (n, k))) ++ s1.wbSlots } ∧
          (∀ n ∈ w.clus, ∀ k ∈ slots, (∀ e < 16, sget noWin (t.cl n).wins (k * 16 + e) = noWin (k * 16 + e)) ∧
            sget zeroNat (t.cl n).fill k = 0) ∧
          (∀ n ∈ w.clus, ∀ k < 16, k ∉ slots → (∀ e < 16, sget noWin (t.cl n).wins (k * 16 + e) = sget noWin (s1.cl n).wins (k * 16 + e)) ∧
            sget zeroNat (t.cl n).fill k = sget zeroNat (s1.cl n).fill k) ∧
          ∀ n, n ∉ w.clus → t.cl n = s1.cl n))) ∧
  (∀ (int4 : Bool) (p n : Nat), p ≤ f32Inf → n ≤ f32Inf →
    ((p = f32Inf ∨ n = f32Inf) → proposal false int4 p n = (0x0B, [0, 0, p, n])) ∧
    (p = 0 → n = 0 → proposal false int4 p n = (0, [0x3F800000, 0, 0, 0, 1])) ∧
    (p < f32Inf → n < f32Inf → (p ≠ 0 ∨ n ≠ 0) → proposal false int4 p n =
      (0, [(f32OfReal (f32Real (max p n) / ((if int4 then 7 else 127 : Nat) : Rat))).code, 0, p, n, 0])))

/-- HOLD, PORT, MUSTER, DISBAND (R229, R317, R322, R360, R365): HOLD writes and arms LSM_CTL of the named stacks and waits for
them; PORT acts on its port in the states R317 allows and answers STATE in others; MUSTER, once its image can be reached, leaves
the old domain and begins the muster of its route book when its checks pass, fails with the first cause else, and is MEMERR on a
poisoned image; DISBAND leaves the domain once nothing runs. What they write of LSM_CTL, its ARM and LNK_CTL stands against
direct writes of the kc. A PORT waybill that acts is answered when its port reaches what it asks for, QUIESCED, ACTIVE or OFF,
with the port's state; DOWN instead answers it FAILED with the cause; till then, and while another port changes, it waits
(R365). A module that leaves its domain is alone, with no book, muster, vote or reduction, RBID 0 and its own module number
kept; clusters, Loess memory and the states of its ports stay (R365, R406). -/
def Obligations.StackAndLinkWaybillsAct : Prop :=
  (∀ (s : State) (r : Fin 16) (i : Word) (w : Wb),
    let s1 := s.switchOn w.clus
    let s2 := s1.setWb r { w with phase := 2 }
    (s.Starts 0x302 r i.toNat w →
      let p := w.params.getD 0 0
      let one (s : State) (k : Nat) : State :=
        if p.testBit k then (((s.plainWrite (.stack k) (sa k 4) (bits p 8 1)).setFld (sa k 0xFF0) 2 1 1).wbWrote (sa k 4) 4 1).wbWrote (sa k 0xFF0) 4 3
        else s
      exec (.hold r i) s = .next (((List.range 8).foldl one s1).setWb r { w with phase := 2 })) ∧
    (s.Starts 0x601 r i.toNat w →
      let p := w.params.getD 0 0 % 16
      let op := w.params.getD 0 0 / 16 % 4
      let st := s.lnk p
      (op = 0 → (st = 2 ∨ st = 3) → exec (.port r i) s = .next ((s2.portQuiesce p).portReceipts p)) ∧
      (op = 0 → st ≠ 2 → st ≠ 3 → exec (.port r i) s = .next (s1.finish r w 8 [p, st])) ∧
      (op = 1 → (st = 3 ∨ st = 4) → exec (.port r i) s = .next (s2.portRetrain p)) ∧
      (op = 1 → st ≠ 3 → st ≠ 4 → exec (.port r i) s = .next (s1.finish r w 8 [p, st])) ∧
      (op = 2 → exec (.port r i) s = .next (((s2.portEnable p).portReceipts p).wbWrote (pa p 4) 4 1)) ∧
      (op = 3 → exec (.port r i) s = .next (((s2.portOff p).setFld (pa p 4) 0 1 0).wbWrote (pa p 4) 4 1))) ∧
    (∀ ecc, s.Starts 0x600 r i.toNat w →
      let a := pPair w.params 3
      let n := max 256 (s.imageAt a).bs.length
      let own := w.params.getD 0 0
      let far := pastEnd a 256
      let u := (if far = true then s1 else s1.eccImage a ecc).mgmtTraffic false (if far = true then [] else [(a, n)])
      let u2 := u.setWb r { w with phase := 2 }
      let book := if far = true then none else (u.imageAt a).book own
      let begins (b : Book) : State :=
        let x := u2.leaveDomain.mapCl (fun c => { c with rseq := [] })
        let y : State := { x with cvn := { book := some b, s0 := pPair w.params 1, wb := some (r.val, w.ix) } }
        ((y.setRegN 0x500000 (1 + (if b.lead = own then 8 else 0) + own * 16)).setReg64 0x500004 b.rbid).musterStep
      (s.rangeUp a n = false → exec (.muster r i ecc) s = .next s) ∧
      (s.rangeUp a n = true →
        (∀ d, far = false → u.firstPoison a n = some d →
          exec (.muster r i ecc) s = .next (u.finish r w 0x0C [d % 2 ^ 32, d / 2 ^ 32 % 2 ^ 32])) ∧
        ((far = true ∨ u.firstPoison a n = none) →
          (∀ b, book = some b → u.musterCause (some b) own = 0 → exec (.muster r i ecc) s = .next (begins b)) ∧
          (u.musterCause book own ≠ 0 → exec (.muster r i ecc) s =
            .next (({ u2 with cvn := { u2.cvn with wb := some (r.val, w.ix) } } : State).musterFail (u.musterCause book own)))))) ∧
    (s.Starts 0x602 r i.toNat w →
      (∀ res, s1.anyRuns = some res → exec (.disband r i) s = .next (s1.finish r w 8 res)) ∧
      (s1.anyRuns = none → exec (.disband r i) s = .next (s1.leaveDomain.finish r w 0 [s1.leaveDomain.regN 0x500000])))) ∧
  (∀ (s : State) (p r : Nat) (w : Wb), r < 16 → (s.ring r).taken = [w] → (∀ q, q < 16 → q ≠ r → (s.ring q).taken = []) →
    let waits := w.opc = 0x601 ∧ w.phase = 2 ∧ w.params.getD 0 0 % 16 = p
    let goal := match w.params.getD 0 0 / 16 % 4 with | 0 => 3 | 3 => 0 | _ => 2
    (¬ waits → s.portReceipts p = s) ∧
    (waits → s.lnk p = goal → s.portReceipts p = s.finish r w 0 [s.regN (pa p 0)]) ∧
    (waits → s.lnk p ≠ goal → s.lnk p = 4 → s.portReceipts p = s.finish r w 0x0A [s.fld (pa p 0) 3 3]) ∧
    (waits → s.lnk p ≠ goal → s.lnk p ≠ 4 → s.portReceipts p = s)) ∧
  (∀ s : State,
    let t := s.leaveDomain
    t.dstate = 0 ∧ t.cvn = {} ∧ t.reds = [] ∧ t.early = [] ∧ t.reg64 0x500004 = 0 ∧ t.modnum = s.modnum ∧ t.clusters = s.clusters ∧
    t.loess = s.loess ∧ (∀ p < 16, t.lnk p = s.lnk p ∧ (t.port p).vin = 0 ∧ (t.port p).vout = 0))

/-- UPDATE, FWSWITCH, ATTEST (R430, R435, R436, R440 to R442): a package is read whole once it can be reached; of a stack not in
HOLD it is STATE, poisoned MEMERR; one that fails verification writes nothing but the failure count and is answered AUTH with
its cause; else it is in flash, its target's counter rising where it takes effect at once, and answered with version and
counter, or its stack restarts with it. FWSWITCH needs every cluster stopped; a bank that does not verify is not switched to;
the new bank's receipt raises the counter, the fallback's answers REFUSED with the old bank, interrupts that waited being sent.
ATTEST writes the report for its nonce. -/
def Obligations.SecurityWaybillsAct : Prop :=
  ∀ (s : State) (r : Fin 16) (i : Word) (w : Wb) (ecc : List (Nat × EccCase)),
    let s1 := s.switchOn w.clus
    let a := pPair w.params 0
    (s.Starts 0x900 r i.toNat w →
      let n := w.params.getD 2 0
      let t := w.params.getD 3 0 % 16
      let k := w.params.getD 3 0 / 256
      let u := (s1.eccReads [(a, n)] mgmtWho ecc).mgmtTraffic false [(a, n)]
      let bs := u.loessRead a n
      let b := u.packageBank bs
      let done (x : State) : Host.Outcome State Fault Refusal := .next ((x.finish r w 0 [b.version.toNat, x.arb t]).svcRetry)
      (s.rangeUp a n = false → exec (.update r i ecc) s = .next s) ∧
      (s.rangeUp a n = true →
        (t = 1 → u.stackState k ≠ 4 → exec (.update r i ecc) s = .next (s1.finish r w 8 [k, u.stackState k])) ∧
        ((t = 1 → u.stackState k = 4) →
          (u.firstPoison a n ≠ none → exec (.update r i ecc) s = .next (u.finish r w 0x0C [0, 0])) ∧
          (u.firstPoison a n = none →
            (u.packageCause bs t ≠ 0 → exec (.update r i ecc) s = .next (u.authFail.finish r w 0x0D [u.packageCause bs t])) ∧
            (u.packageCause bs t = 0 →
              (t = 0 → s.boot.recovery = false → exec (.update r i ecc) s = done (u.setBankOf (!u.boot.act) b)) ∧
              (t = 0 → s.boot.recovery = true → exec (.update r i ecc) s =
                done (let x := u.setBankOf (!u.boot.sel) b; { x with boot := { x.boot with sel := !u.boot.sel, rise := true } })) ∧
              (t = 1 →
                let x : State := { u with boot := { u.boot with bedsOld := sput noFw u.boot.bedsOld k (some b) } }
                exec (.update r i ecc) s =
                  .next (((x.setStack k 6).setDie k { x.die k with fwNew := some b }).setWb r { w with phase := 2 })) ∧
              (t = 2 → exec (.update r i ecc) s = done (({ u with boot := { u.boot with glz := some (payloadOf bs, b) } } : State).fuse 2 b)) ∧
              (t = 3 → exec (.update r i ecc) s = done (({ u with boot := { u.boot with rtn := some (payloadOf bs, b) } } : State).fuse 3 b))))))) ∧
    (s.boot.switching = none → s.Starts 0x901 r i.toNat w →
      let other := s.bankOf !s.boot.act
      (∀ res, s1.anyRuns = some res → exec (.fwswitch r i) s = .next (s1.finish r w 8 res)) ∧
      (s1.anyRuns = none → s.bankCause other ≠ 0 →
        exec (.fwswitch r i) s = .next (s1.authFail.finish r w 0x0A [1, if s.boot.act then 1 else 0])) ∧
      (s1.anyRuns = none → s.bankCause other = 0 →
        let t := s1.setWb r { w with phase := 2 }
        exec (.fwswitch r i) s = .next { t with boot := { t.boot with switching := some (r.val, w.ix, !s.boot.act) } })) ∧
    (∀ b, s.boot.switching = some (r.val, i.toNat, b) →
      let t := ((({ s with boot := { s.boot with switching := none, sel := b } } : State).runBank b).fuse 0 (s.bankOf b)).heldIrqs
      t.wb r i.toNat = some w →
      exec (.fwswitch r i) s = .next ((t.finish r w 0 [(s.bankOf b).version.toNat, if b then 1 else 0]).svcRetry)) ∧
    (∀ b, s.boot.switching = some (r.val, i.toNat, b) →
      let t := (({ s with boot := { s.boot with switching := none } } : State).runBank s.boot.act).heldIrqs
      t.wb r i.toNat = some w →
      exec .fwswitchFallback s = .next ((t.finish r w 0x0A [1, if s.boot.act then 1 else 0]).svcRetry)) ∧
    (s.boot.switching = none → exec .fwswitchFallback s = .next s) ∧
    (s.Starts 0x902 r i.toNat w →
      let v := (s1.eccEdges a 11376 mgmtWho ecc).mgmtTraffic false [(a, 11376)]
      (s.rangeUp a 11376 = false → exec (.attest r i ecc) s = .next s) ∧
      (s.rangeUp a 11376 = true → exec (.attest r i ecc) s =
        .next ((v.agentWrite a (v.report ((w.params.drop 2).take 8)) mgmtWho).draw.finish r w 0 [11376])))

/-- PSTATE, CAP, KSTEP (R398, R399, R401, R402, R412): during a transition PSTATE waits; a transition R399 does not list is
answered STATE; one out of the running states with a cluster running or in a domain too (a word the spec leaves open each); a
waybill allowed begins its transition: from ACTIVE and IDLE at the next boundary, from HOLD and STANDBY at once. CAP writes and
arms its cap, which stands against direct writes of the kc, or is BUSY with BUSYW above the grade's maximum; KSTEP sets the step
of the next boundary while nothing runs and the module is not mustered. -/
def Obligations.PowerWaybillsAct : Prop :=
  ∀ (s : State) (r : Fin 16) (i : Word) (w : Wb),
    let s1 := s.switchOn w.clus
    let s2 := s1.setWb r { w with phase := 2 }
    let t := w.params.getD 0 0
    (s.Starts 0xA00 r i.toNat w →
      let listed := (s.pstate, t) ∈ [(0, 1), (0, 2), (0, 3), (1, 0), (1, 2), (1, 3), (2, 0), (2, 3), (3, 0)]
      let begins : State :=
        if s.pstate = 3 then (if s.svcPhase = 5 then (s2.svcEvent 40).setSvcPhase 0 else s2).leaveStandby
        else if s.pstate = 2 then (if t = 0 then s2.leaveHold else s2.enterStandby.svcRetry)
        else { s2.setFld 0x200000 1 3 4 with trans := some (t, false) }
      (s.trans.isSome = true → exec (.pstate r i) s = .next s) ∧
      (s.trans = none →
        (¬ listed → exec (.pstate r i) s = .next (s1.finish r w 8 [(Config.openWord 0xA00 0).toNat, s.pstate])) ∧
        (listed → ¬ (s.pstate < 2 ∧ 2 ≤ t) → exec (.pstate r i) s = .next begins) ∧
        (listed → s.pstate < 2 → 2 ≤ t →
          (∀ res, s1.anyRuns = some res → exec (.pstate r i) s = .next (s1.finish r w 8 res)) ∧
          (s1.anyRuns = none → s.dstate = 0 → exec (.pstate r i) s = .next begins) ∧
          (s1.anyRuns = none → s.dstate ≠ 0 →
            exec (.pstate r i) s = .next (s1.finish r w 8 [(Config.openWord 0xA00 1).toNat, s.dstate]))))) ∧
    (s.Starts 0xA01 r i.toNat w →
      (s.gradeMax < t → exec (.cap r i) s = .next ((s1.busyW .power).finish r w 7 [0xFF, 0, 0, 0, 0x0C])) ∧
      (t ≤ s.gradeMax → exec (.cap r i) s = .next (((((s1.plainWrite .power 0x20000C t).setFld 0x200FF0 2 1 1).wbWrote 0x20000C 4 0xFFFF).wbWrote
        0x200FF0 4 3).setWb r { w with phase := 2 }))) ∧
    (s.Starts 0xA02 r i.toNat w →
      (∀ res, s1.anyRuns = some res → exec (.kstep r i) s = .next (s1.finish r w 8 res)) ∧
      (s1.anyRuns = none → s.mustered = true →
        exec (.kstep r i) s = .next (s1.finish r w 8 [(Config.openWord 0xA02 0).toNat, s.dstate])) ∧
      (s1.anyRuns = none → s.mustered = false → exec (.kstep r i) s =
        .next (({ s1 with kstepTo := some t } : State).setWb r { w with phase := 2 })))

/-! Registers (chapters 01, 10, 15, 19, 20) -/

/-- Reads in their turn: reading a counter's low word holds its high word for the next read (R11); DB_READ so holds HEAD and
DONE (R368), QNT_WPOS its partner (R144). The word answered, with the TAG of its request, is the register's, or the copy held
for it, once; a register without a partner is answered alone; an address that is not aligned is, over an active Tether, answered
with all ones and recorded (R10, R375). A read of no register, or of a register whose power domain is off, returns 0 (R10,
R459). -/
def Obligations.ReadsHoldPartnerWords : Prop :=
  (∀ (s : State) (addr : Nat) (r : Fin 16) (cl : ClusterNo),
    (s.InTurn →
      (∀ w, addr % 4 = 0 → winOf addr = some w →
        (pairLow w (addr - w.base) = true → s.winOn w = true →
          exec (.counterLowRead addr) s = .next ((s.hold (addr + 4)).answerRead addr)) ∧
        ((pairLow w (addr - w.base) = false ∨ s.winOn w = false) → exec (.counterLowRead addr) s = .next (s.answerRead addr))) ∧
      (addr % 4 = 0 → winOf addr = none → exec (.counterLowRead addr) s = .next (s.answerRead addr)) ∧
      (addr % 4 ≠ 0 → s.tth = 1 →
        exec (.counterLowRead addr) s = .next ((s.tthErr 1 2 addr).completeWord addr 0xFFFFFFFF#32)) ∧
      (addr % 4 ≠ 0 → s.tth ≠ 1 → exec (.counterLowRead addr) s = .next s) ∧
      exec (.wbrDbRead r) s = .next (((s.hold (ra r 0x18)).hold (ra r 0x1C)).answerRead (ra r 0x14)) ∧
      exec (.qntWposRead cl) s = .next ((s.hold (ca cl 0x20C)).answerRead (ca cl 0x208))) ∧
    (s.hold (addr + 4)).hostRead (addr + 4) =
      (s.readReg (addr + 4), { s.hold (addr + 4) with latch := sput noWord (s.hold (addr + 4)).latch (addr + 4) none }) ∧
    (sget noWord s.latch addr = none → s.hostRead addr = (s.readReg addr, s)) ∧
    (let x := s.hostRead addr
    s.answerRead addr = { x.2 with teth := { x.2.teth with
      tags := s.teth.tags.drop 1
      txq := s.teth.txq ++ [{ act := 1, due := s.stageNo, msg := .word x.1, addr := addr, space := 2, tag := s.teth.tags.headD 0 }] } })) ∧
  (∀ (s : State) (a : Nat),
    (winOf a = none → s.readReg a = 0) ∧
    (∀ w, winOf a = some w → s.winOn w = false → s.readReg a = 0) ∧
    (∀ w, winOf a = some w → fldsOf s.grade w (a - w.base) = [] → s.readReg a = 0))

/-- REGISTER_WRITE in its turn takes its slot toward the module (R376) and nothing else changes when it names no register or a
window whose domain is off (R10, R459); over an active Tether an unaligned one is recorded as an error (R375); to a register of
a window with no controls it stores what its fields' access types allow, RWA fields in the shadow (R12, R280), but for bits that
a waybill has written in this kc (R360); to a register with a row of its own it does what that row does. A field that is refused
keeps its value and sets BUSYW (R12). What a plain write leaves (R12, R13, R52): RW bits take the value written, W1C bits
written 1 read 0 but for those set in the same kc, every other bit of the register stays; where no record waits for the clear of
its VALID (R209), no other register changes. A write of a counter and an increment of it in one kc: the written value with the
increment added, whichever comes first among the commands of the kc (R460). ARM in its turn marks its block pending, DISARM
clears the mark, unless a waybill has armed the block in this kc (R360), in a window whose domain is on; in one that is off
nothing happens but the slot taken (R279, R280, R376). -/
def Obligations.RegisterWritesFollowTheirFields : Prop :=
  ((∀ (s : State) (a : Nat) (v : Word), s.InTurn →
    let f := s.arrived
    (a % 4 ≠ 0 → exec (.registerWrite a v) s = .next (if s.tth = 1 then f.tthErr 1 2 a else f)) ∧
    (a % 4 = 0 → winOf a = none → exec (.registerWrite a v) s = .next f) ∧
    (∀ w, winOf a = some w → a % 4 = 0 →
      ((fldsOf s.grade w (a - w.base) = [] ∨ s.winOn w = false) → exec (.registerWrite a v) s = .next f) ∧
      (fldsOf s.grade w (a - w.base) ≠ [] → s.winOn w = true → armOf w ≠ some a →
        (w = .ration ∨ w = .mgmt ∨ w = .caravan ∨ ∃ e, w = .engine e) →
        (s.wbMask a = 0 → exec (.registerWrite a v) s = .next (f.plainWrite w a v.toNat)) ∧
        exec (.registerWrite a v) s = .next (f.plainWrite w a
          (mixBits (s.wbMask a) (mixBits (rwaMask (fldsOf s.grade w (a - w.base))) (s.shadowOf a) (s.regN a)) v.toNat))))) ∧
  (∀ (s : State) (r u : Fin 16) (v : Word), s.InTurn →
    ∀ e ∈ ([(ra r 0, .wbrEnable r v), (ra r 0x14, .wbrDoorbell r v), (ha u 0x10, .chkFeedw u v), (0x106000, .evtEnable v),
        (0x106010, .evtRdWrite v), (0x600020, .tthImaskWrite v), (0x200034, .pwrEngrst v), (0x700, .tndModeWrite v)] : List (Nat × Instr)),
      s.phase ≠ 0 → s.wbMask e.1 = 0 → exec (.registerWrite e.1 v) s = exec e.2 s) ∧
  ∀ (s : State) (w : Win) (a v no : Nat),
    let t := s.plainWrite w a (mixBits no (s.regN a) v)
    s.writeBut w a v no = (if no = 0 then t else t.setBits (busyPlace w).1 (2 ^ (busyPlace w).2))) ∧
  (∀ (s : State) (w : Win) (a v i : Nat), i < 32 → v < 2 ^ 32 →
    let fs := fldsOf s.grade w (a - w.base)
    let has (p : Fld → Bool) : Bool := fs.any (fun f => p f && decide (f.lo ≤ i) && decide (i < f.lo + f.len))
    let rw := has (fun f => f.acc = .rw || f.acc = .rws)
    let w1c := has (fun f => f.acc = .w1c)
    let t := s.plainWrite w a v
    let k := sget noCaught s.caught a
    k.regs = [] → (sget noCount s.counted ((regPair w a).getD a)).2 = 0 →
      (rw = true → w1c = false → k.bits.testBit i = false → (t.reg a).getLsbD i = v.testBit i) ∧
      (rw = false → w1c = true → k.bits.testBit i = false → (t.reg a).getLsbD i = ((s.reg a).getLsbD i && !v.testBit i)) ∧
      (rw = false → w1c = true → v.testBit i = true → k.bits.testBit i = true → (t.reg a).getLsbD i = true) ∧
      (rw = false → w1c = false → k.bits.testBit i = false → (t.reg a).getLsbD i = (s.reg a).getLsbD i) ∧
      (∀ b, b ≠ a → t.reg b = s.reg b) ∧ t.loess = s.loess ∧ t.clusters = s.clusters) ∧
  (∀ (s : State) (w : Win) (a v n : Nat) (c : RClass) (i : Nat), v < 2 ^ 32 → 0 < n → regPair w a = none →
    fldsOf s.grade w (a - w.base) = [⟨0, 32, .rw, c, i⟩] → (sget noCount s.counted a).2 = 0 →
      ((s.count a n).plainWrite w a v).regN a = min (v + n) (2 ^ 32 - 1) ∧
      ((s.plainWrite w a v).count a n).regN a = min (v + n) (2 ^ 32 - 1)) ∧
  (∀ (s : State) (x : ArmWin), s.InTurn →
    let w := ArmWin.win x
    let a := w.base + 0xFF0
    let f := s.arrived
    (s.winOn w = true →
      exec (.arm x) s = .next (f.setFld a 2 1 1) ∧ ((f.setFld a 2 1 1).reg a).getLsbD 2 = true ∧
      (s.wbMask a = 0 → exec (.disarm x) s = .next (f.setFld a 2 1 0) ∧ ((f.setFld a 2 1 0).reg a).getLsbD 2 = false) ∧
      (s.wbMask a ≠ 0 → exec (.disarm x) s = .next f)) ∧
    (s.winOn w = false → exec (.arm x) s = .next f ∧ exec (.disarm x) s = .next f))

/-- Check units, commands in their turn (R387, R391 to R393): START takes the initial value of ALG folded with FOLD, CHK_COUNT
0, MATCH 0; a feed of 1, 2 or 4 bytes passes its low bytes in order, counts them and keeps the unit busy, and is refused while
it is busy; CMP sets MATCH, or clears it, sets MISMATCH and raises EV_CHK_MISMATCH; START and CMP of a busy unit wait for the
end of its feed, where what waits acts in its order. Feeding a unit a list of bytes in parts is feeding it whole (R387): what
the unit holds does not depend on how the bytes were cut. R387's check: r starts as all ones with the fold, each byte in message
order is taken in and followed by eight shifts with P, and the check is r with all ones; on the ASCII bytes 123456789 with fold
0 the two algorithms give the values of R387's table. -/
def Obligations.CheckUnitsWork : Prop :=
  ((∀ (s : State) (u : Fin 16) (v : Word), s.phase ≠ 0 → s.InTurn →
    let c := sget idleChk s.checks u
    let f := s.arrived
    let put (d : Chk) : State := { f with checks := sput idleChk s.checks u d }
    let feed (n : Nat) : Host.Outcome State Fault Refusal :=
      .next ((put { c with
        acc := if c.wide then crcFeed 64 poly64 c.acc (leBytes n v.toNat)
          else (crcFeed 32 poly32 (c.acc.setWidth 32) (leBytes n v.toNat)).setWidth 64
        busy := 47 * n }).count (ha u 0x2C) n)
    let wide := (s.reg (ha u 0)).getLsbD 0
    let fold := BitVec.ofNat 64 (if wide then s.reg64 (ha u 0x14) else s.regN (ha u 0x14))
    let init := if wide then BitVec.allOnes 64 else 0xFFFFFFFF#64
    let queued (o : ChkOp) : Host.Outcome State Fault Refusal := .next (put { c with queue := c.queue ++ [o] })
    (c.busy = 0 → exec (.chkStart u) s =
      .next (((put { c with wide := wide, acc := init ^^^ fold }).setRegN (ha u 0x2C) 0).setFld (ha u 4) 1 1 0)) ∧
    (0 < c.busy → exec (.chkStart u) s = queued .start ∧ exec (.chkCmp u) s = queued .compare) ∧
    (c.busy = 0 → exec (.chkFeedb u v) s = feed 1 ∧ exec (.chkFeedh u v) s = feed 2 ∧ exec (.chkFeedw u v) s = feed 4) ∧
    (0 < c.busy → ∀ i ∈ ([.chkFeedb u v, .chkFeedh u v, .chkFeedw u v] : List Instr), exec i s = .next (f.setBits (ha u 4) 8)) ∧
    (let want := if c.wide then s.reg64 (ha u 0x1C) else s.regN (ha u 0x1C)
    c.busy = 0 →
      (c.result = want → exec (.chkCmp u) s = .next (f.setFld (ha u 4) 1 1 1)) ∧
      (c.result ≠ want → exec (.chkCmp u) s =
        .next (((f.setFld (ha u 4) 1 1 0).setBits (ha u 4) 4).raise 36 6 u (c.result % 2 ^ 32) (s.regN (ha u 0x1C)))))) ∧
  ∀ (s : State) (u n : Nat),
    let c := sget idleChk s.checks u
    (n < c.busy → s.chkTick n u = { s with checks := sput idleChk s.checks u { c with busy := c.busy - n } }) ∧
    (c.busy ≤ n → s.chkTick n u =
      c.queue.foldl (State.chkDo u) { s with checks := sput idleChk s.checks u { c with busy := 0, queue := [] } })) ∧
  (∀ (c : Chk) (xs ys : List Byte), ((c.feed xs).feed ys).result = (c.feed (xs ++ ys)).result ∧ (c.feed xs).wide = c.wide) ∧
  ((let shift (p r : Nat) : Nat := (r / 2) ^^^ (if r.testBit 0 then p else 0)
   let eight (p r : Nat) : Nat := (List.replicate 8 ()).foldl (fun r _ => shift p r) r
   let check (w p f : Nat) (bs : List Byte) : Nat :=
     (bs.foldl (fun r b => eight p (r ^^^ b.toNat)) ((2 ^ w - 1) ^^^ f)) ^^^ (2 ^ w - 1)
   (∀ (f : Nat) (bs : List Byte), f < 2 ^ 32 → (crc32c f bs).toNat = check 32 0x82F63B78 f bs) ∧
   ∀ (f : Nat) (bs : List Byte), f < 2 ^ 64 → (crc64 f bs).toNat = check 64 0xC96C5795D7870F42 f bs) ∧
  (let digits : List Byte := [0x31#8, 0x32#8, 0x33#8, 0x34#8, 0x35#8, 0x36#8, 0x37#8, 0x38#8, 0x39#8]
   crc32c 0 digits = 0xE3069283#32 ∧ crc64 0 digits = 0x995DC9BBDF1939FA#64))

/-- GLZ_CTL.SWITCH, DRV_DESC, the footprint pin and TND_CTL in their turn (R176, R210, R292, R301): a switch is asked for;
descriptor words wait in the holding copy, which the last one commits if it passes R191, or are refused while the stream runs; a
pin that leaves clusters which are not idle without a row is refused, and an XA-1792 has none; a change of tandem mode with all
clusters idle restarts the sequence numbers and is refused else, as are MODE 3 and TIMEOUT 0. In a window that is off nothing
happens. EVT_CTL, EVT_RD, TTH_IMASK and TTH_IPEND in their turn (R383, R386, R457): enabling the event ring starts its indices
at 0, a SIZE below 4 being refused; EVT_RD past EVT_WR is refused; each vector that is unmasked while pending sends its message,
in ascending order, ends its pending and sends no second one in its kc; IPEND is W1C. With the Tether window off the interrupt
registers do not act. PWR_ENGRST and PWR_RESET in their turn, and MODULE_RESET (R404, R407, R424, R467): the named engines whose
common domain is on are reset, in ascending order, or the write is refused during a power transition; RESET with KEY A5H resets
the module with cause 2 once its write has been acknowledged, without it nothing happens; the sideband contact resets it with
cause 1, start-up staying at the end of phase A while the lever is open, but its first release after power came with it low only
ends the wait. A reset in the last kc of a stage waits for the next one; of those that wait a module reset governs. -/
def Obligations.ControlRegistersAct : Prop :=
  (∀ (s : State) (cl : ClusterNo) (v : Word), s.InTurn →
    let f := s.arrived
    (s.winOn (.cluster cl) = false → exec (.glzCtlSwitch cl) s = .next f ∧ ∀ w : Fin 16, exec (.drvDescWrite cl w v) s = .next f) ∧
    (s.winOn (.cluster cl) = true →
      exec (.glzCtlSwitch cl) s = .next (f.setCl cl { s.cl cl with gswitch := true }) ∧
      (∀ w : Fin 16,
        let sel := s.fld (ca cl 0x440) 0 6
        ((s.cl cl).descUsed sel = true → exec (.drvDescWrite cl w v) s = .next (f.setBits (ca cl 0xFF0) 8)) ∧
        ((s.cl cl).descUsed sel = false → w.val < 15 → exec (.drvDescWrite cl w v) s = .next (f.setCl cl { s.cl cl with
          dhold := sput (fun _ => 0#32) (s.cl cl).dhold w.val v })) ∧
        ((s.cl cl).descUsed sel = false → w.val = 15 →
          let c := s.cl cl
          let h := sput (fun _ => 0#32) c.dhold 15 v
          let bs := (List.range 16).flatMap (fun i => leBytes 4 (sget (fun _ => 0#32) h i).toNat)
          let ok := (descOf bs).ok (16 * (c.sec.ntask + c.sec.nexec + c.sec.nacc))
          (ok = true → exec (.drvDescWrite cl w v) s =
            .next (f.setCl cl (({ c with dhold := h } : Cluster).setStg (0xF000 + 64 * sel) bs))) ∧
          (ok = false → exec (.drvDescWrite cl w v) s =
            .next (applyAct cl false (f.setCl cl { c with dhold := h }) (.drover 4 sel 0 0 0)))))) ∧
    (s.phase ≠ 0 → s.grade = .xa1792 → ∀ pin, exec (.glbFootPinWrite pin) s = .next f) ∧
    (s.phase ≠ 0 → s.grade = .xa2048 → ∀ pin : Bool,
      let n := if pin then 1 else 0
      (n = s.fld 0x600 0 1 → exec (.glbFootPinWrite pin) s = .next f) ∧
      (n ≠ s.fld 0x600 0 1 → (∃ m ∈ rowSeven, (s.cl m).st ≠ 0) → exec (.glbFootPinWrite pin) s = .next (f.setBits 0xFF0 8)) ∧
      (n ≠ s.fld 0x600 0 1 → (∀ m ∈ rowSeven, (s.cl m).st = 0) → exec (.glbFootPinWrite pin) s = .next (f.setFld 0x600 0 1 n))) ∧
    (s.phase ≠ 0 →
      let mode := v.toNat % 4
      let odd := if bits v.toNat 8 8 = 0 then 0xFF00 else 0
      (mode = 3 → exec (.tndModeWrite v) s = .next (f.writeBut .global 0x700 v.toNat (3 + odd))) ∧
      (mode ≠ 3 → mode = s.tmode → exec (.tndModeWrite v) s = .next (f.writeBut .global 0x700 v.toNat odd)) ∧
      (mode ≠ 3 → mode ≠ s.tmode → (∀ e ∈ s.clusters, e.2.st = 0) → exec (.tndModeWrite v) s =
        .next ((f.mapCl (fun c => { c with tseq := 0 })).writeBut .global 0x700 v.toNat odd)) ∧
      (mode ≠ 3 → mode ≠ s.tmode → (∃ e ∈ s.clusters, e.2.st ≠ 0) → exec (.tndModeWrite v) s =
        .next (f.writeBut .global 0x700 v.toNat (3 + odd))))) ∧
  (∀ (s : State) (v : Word), s.InTurn →
    let f := s.arrived
    (s.phase ≠ 0 →
      (let u := f.writeBut .events 0x106000 v.toNat (if bits v.toNat 1 4 < 4 then 0x1E else 0)
      ((s.reg 0x106000).getLsbD 0 = false → v.toNat.testBit 0 = true → exec (.evtEnable v) s =
        .next ((u.setRegN 0x10600C 0).setRegN 0x106010 0)) ∧
      (((s.reg 0x106000).getLsbD 0 = true ∨ v.toNat.testBit 0 = false) → exec (.evtEnable v) s = .next u)) ∧
      (let ahead := (s.regN 0x10600C + 2 ^ 32 - s.regN 0x106010) % 2 ^ 32
      let moved := (v.toNat + 2 ^ 32 - s.regN 0x106010) % 2 ^ 32
      (moved ≤ ahead → exec (.evtRdWrite v) s = .next (f.setRegN 0x106010 v.toNat)) ∧
      (ahead < moved → exec (.evtRdWrite v) s = .next (f.setBits 0x106000 0x20)))) ∧
    (s.winOn .tether = false → exec (.tthIpendClear v) s = .next f ∧ exec (.tthImaskWrite v) s = .next f) ∧
    (s.winOn .tether = true →
      exec (.tthIpendClear v) s = .next (f.plainWrite .tether 0x600024 v.toNat) ∧
      ∃ t, exec (.tthImaskWrite v) s = .next t ∧
        let sent := (List.range 32).filter (fun i =>
          (s.reg 0x600020).getLsbD i && !v.getLsbD i && (s.reg 0x600024).getLsbD i)
        t.reg 0x600020 = v ∧ (∀ i < 32, (t.reg 0x600024).getLsbD i = ((s.reg 0x600024).getLsbD i && !sent.contains i)) ∧
        t.teth = { f.teth with txq := f.teth.txq ++ sent.map (fun i => { act := 7, due := s.stageNo, msg := s.irqMsg i }) } ∧
        (∀ i, i ∈ t.unmasked ↔ i ∈ sent ∨ i ∈ s.unmasked) ∧ t.loess = s.loess ∧ t.clusters = s.clusters ∧ t.rings = s.rings)) ∧
  ((∀ (s : State) (v : Word), s.phase ≠ 0 → s.InTurn →
    let f := s.arrived
    let waits (u : State) (d : ResetDue) : State := { u with resets := u.resets ++ [d] }
    let keyed := v.toNat.testBit 0 = true ∧ bits v.toNat 8 8 = 0xA5
    (s.trans.isSome = true → exec (.pwrEngrst v) s = .next (f.setBits 0x200FF0 8)) ∧
    (s.trans = none → s.lastKc = true → exec (.pwrEngrst v) s = .next (waits f (.eng v.toNat))) ∧
    (s.trans = none → s.lastKc = false → exec (.pwrEngrst v) s = .next ((List.range 16).foldl
      (fun t e => if v.toNat.testBit e && t.domainOn (128 + e) then t.resetEngine1 e else t) f)) ∧
    (keyed → (s.tth = 1 ∨ s.lastKc = true) → exec (.pwrResetWrite v) s = .next (waits f (.mod 2))) ∧
    (keyed → s.tth ≠ 1 → s.lastKc = false → exec (.pwrResetWrite v) s = .next (f.modReset 2)) ∧
    (¬ keyed → exec (.pwrResetWrite v) s = .next f)) ∧
  (∀ (s : State) (contact : Bool), s.phase ≠ 0 →
    let c := if contact then 1 else 2
    (contact = true → s.side.rstLow = true → s.held = false →
      exec (.moduleReset contact) s = .next { s with side := { s.side with rstLow := false } }) ∧
    ((contact = false ∨ s.side.rstLow = false ∨ s.held = true) →
      let u := if s.lastKc = true then ({ s with resets := s.resets ++ [.mod c] } : State) else s.modReset c
      ((s.held = false ∨ (s.reg 0x104004).getLsbD 9 = true) → exec (.moduleReset contact) s = .next u) ∧
      (s.held = true → (s.reg 0x104004).getLsbD 9 = false → exec (.moduleReset contact) s = .next { u with phase := 1, held := true }))) ∧
  (∀ contact s, s.phase = 0 → exec (.moduleReset contact) s = .next s) ∧
  ∀ (s : State) (m c : Nat) (issued : List ClusterNo),
    (s.resets = [] → s.dueResets = s) ∧ (s.resets = [.eng m] → s.dueResets = ({ s with resets := [] } : State).resetEngines m) ∧
    ((s.resets = [.mod c] ∨ s.resets = [.eng m, .mod c]) →
      s.dueResets = ({ s with resets := [] } : State).modReset c ∧
      (s.phase ≠ 0 → s.lastKc = false →
        exec (.kilnCycle issued) s = exec (.kilnCycle issued) (({ s with resets := [] } : State).modReset c))))

/-! Power, start-up, service, test port, sideband (chapters 16 to 18, 21) -/

/-- Power arrives and fails (R395, R402, R404, R427, R436, R467): POWER_APPLIED to a module that is off resets it to start-up
phase A, counts one mating of the main connector and samples the bus selection, the address contacts and SB_RST_N. BROWN_OUT
turns the module off: its clusters, memory and rings are lost, fuses and flash stay but for the one copy that an UPDATE was
writing, which becomes invalid. UNDERVOLTAGE raises EV_PWR_UV once per excursion; DIE_TRIP switches the clusters off once, with
EV_PWR_TRIP. Power to a module that has it, and the other events without power, do nothing. What a module reset leaves (R404,
R408, R409): start-up at phase B, Loess memory with nothing in it, no cluster, job, event, waybill or port at work, no
transition; fuses, flash banks and revoked slots, the commands that wait, and what was sent before stay. -/
def Obligations.PowerEventsActAndResetsLeave : Prop :=
  (∀ s : State,
    (∀ (smbus : Bool) (strap : Fin 8) (rstLow : Bool),
      (s.phase = 0 → ∃ t, exec (.powerApplied smbus strap rstLow) s = .next t ∧
        t.phase = 1 ∧ t.held = false ∧ t.ready = false ∧ t.failed = false ∧ t.clusters = [] ∧ t.loess = [] ∧ t.rings = [] ∧ t.jobs = [] ∧
        t.side = { smbus := smbus, strap := strap.val, rstLow := rstLow, eid := 0, dyn := 0, recv := none } ∧
        t.boot.cnt = s.boot.cnt ∧ t.boot.revoked = s.boot.revoked ∧ t.boot.fw0 = s.boot.fw0 ∧ t.boot.fw1 = s.boot.fw1 ∧
        sget zeroNat t.svc.life 16 = min (sget zeroNat s.svc.life 16 + 1) (2 ^ 32 - 1) ∧
        ∀ c < 16, sget zeroNat t.svc.life c = sget zeroNat s.svc.life c) ∧
      (s.phase ≠ 0 → exec (.powerApplied smbus strap rstLow) s = .next s)) ∧
    (∃ t, exec (.brownOut false) s = .next t ∧ t.phase = 0 ∧ t.clusters = [] ∧ t.loess = [] ∧ t.rings = [] ∧ t.boot.cnt = s.boot.cnt ∧
      t.boot.revoked = s.boot.revoked ∧ t.boot.fw0 = s.boot.fw0 ∧ t.boot.fw1 = s.boot.fw1 ∧ t.boot.beds = s.boot.beds ∧
      t.boot.bedsOld = s.boot.bedsOld ∧ t.boot.glz = s.boot.glz ∧ t.boot.rtn = s.boot.rtn) ∧
    (∀ (r : Fin 16) (w : Wb), (s.ring r).taken = [w] → (∀ q, q ≠ r.val → (s.ring q).taken = []) → w.opc = 0x900 → 1 ≤ w.phase →
      s.boot.recovery = false →
      let bs := s.loessRead (pPair w.params 0) (w.params.getD 2 0)
      let target := w.params.getD 3 0 % 16
      let b : FwBank := { s.packageBank bs with ok := false }
      s.packageCause bs target = 0 →
        ∃ t, exec (.brownOut true) s = .next t ∧ t.phase = 0 ∧ t.loess = [] ∧ t.boot.cnt = s.boot.cnt ∧ t.boot.beds = s.boot.beds ∧
          (target = 0 → t.bankOf (!s.boot.act) = b ∧ t.bankOf s.boot.act = s.bankOf s.boot.act) ∧
          (target = 1 → t.bedBefore (w.params.getD 3 0 / 256) = b) ∧
          (target = 2 → t.boot.glz = some (payloadOf bs, b)) ∧ (target = 3 → t.boot.rtn = some (payloadOf bs, b))) ∧
    (s.phase ≠ 0 → s.svc.uv = false →
      exec .undervoltage s = .next (({ s with svc := { s.svc with uv := true } } : State).raise 37 0 0 (s.regN 0x20001C) 0)) ∧
    ((s.phase = 0 ∨ s.svc.uv = true) → exec .undervoltage s = .next s) ∧
    (s.phase ≠ 0 → s.tripped = false →
      let u := ({ s with tripped := true, svc := { s.svc with tripped := true } } : State).raise 38 0 0 (s.regN 0x200024) 0
      exec .dieTrip s = .next u ∧ ∀ n < 2048, u.clOn n = false) ∧
    ((s.phase = 0 ∨ s.tripped = true) → exec .dieTrip s = .next s)) ∧
  (∀ (s : State) (cause : Nat),
    let t := s.modReset cause
    t.phase = 2 ∧ t.held = false ∧ t.trans = none ∧ t.kc = 0 ∧ t.late = 0 ∧ t.clusters = [] ∧ t.preds = [] ∧ t.loess = [] ∧
    t.poison = [] ∧ t.pmes = [] ∧ t.dies = [] ∧ t.jobs = [] ∧ t.notices = [] ∧ t.ports = [] ∧ t.reds = [] ∧ t.relays = [] ∧
    t.tandem = [] ∧ t.rings = [] ∧ t.events = [] ∧ t.pause = none ∧ t.checks = [] ∧
    t.boot.cnt = s.boot.cnt ∧ t.boot.revoked = s.boot.revoked ∧ t.boot.fw0 = s.boot.fw0 ∧ t.boot.fw1 = s.boot.fw1 ∧
    t.boot.meas = [] ∧ t.pending = s.pending ∧ t.out = s.out ∧ t.grade = s.grade)

/-- Service is asked for (R417, R421, R422, R423): SVC_REQ, SVC_FORCE, SVC_CANCEL and SVC_RELEASE in their turn. A request
begins phase 1 with EV_SVC_REQUEST, in HOLD and STANDBY phase 4; it is put off while a PSTATE, UPDATE or FWSWITCH, a power
transition or a module reset runs, and ignored before READY, in a sequence or a forced quiesce; a cancel in phases 1 to 3 ends
the sequence with EV_SVC_CANCEL and undoes a pause of its own that has not begun, in phase 5 the module leaves STANDBY; a force
begins a forced quiesce with EV_SVC_FORCED, in HOLD and STANDBY phase 4 at once, and is ignored from phase 4 on. The service
sequence goes on (R417, R418, R419, R422): the end of the wait of phase 3 begins phase 4 with RELTMO; phase 2 ends when no
cluster runs, with nothing to save in phase 4; a set that has paused is saved first, once the clusters beside it are stopped and
the range is up, and phase 3 begins with SAVED; a wait that ends before the pause has settled makes no save. Phase 4 ends, when
every port has been served, every receipt and event record acknowledged and every started waybill answered, in STANDBY and phase
5 with EV_SVC_SAFE; the resets of a forced quiesce come before its phase 4. In other states nothing happens. -/
def Obligations.ServiceRunsItsPhases : Prop :=
  ((∀ s : State, s.InTurn →
    let f := s.arrived
    exec .svcReq s = .next f.svcRequest ∧ exec .svcForce s = .next f.svcForce ∧ exec .svcCancel s = .next f.svcCancel ∧
    (s.svcPhase = 3 → exec .svcRelease s = .next f.startDrain) ∧ (s.svcPhase ≠ 3 → exec .svcRelease s = .next f)) ∧
  ∀ s : State,
    let off : Prop := s.phase ≠ 6 ∧ s.ready = false
    let asked : State := { s with svc := { s.svc with asked := true } }
    let cleared := (((s.svcBit 3 0).svcBit 4 0).svcBit 5 0).svcBit 6 0
    let taken : State := { cleared with svc := { cleared.svc with asked := false, saving := false } }
    let forced := (s.svcBit 6 1).svcEvent 41
    let ended := (s.svcEvent 40).setSvcPhase 0
    (s.svcPhase ≠ 0 → s.svcRequest = s) ∧
    (s.svcPhase = 0 → s.modResetRuns = true → s.svcRequest = asked) ∧
    (s.svcPhase = 0 → s.modResetRuns = false →
      (off ∨ s.svc.forcedDue = true → s.svcRequest = s) ∧
      (¬ off → s.svc.forcedDue = false →
        ((s.busyBig = true ∨ s.trans.isSome = true) → s.svcRequest = asked) ∧
        (s.busyBig = false → s.trans = none →
          (s.pstate ≠ 2 → s.pstate ≠ 3 → s.svcRequest = (taken.setSvcPhase 1).svcEvent 39) ∧
          ((s.pstate = 2 ∨ s.pstate = 3) →
            s.svcRequest = (if (s.reg 0x104000).getLsbD 4 then taken.svcBit 4 1 else taken).startDrain)))) ∧
    (s.svc.forcedDue = true → s.svcCancel = s) ∧
    (s.svc.forcedDue = false →
      (1 ≤ s.svcPhase → s.svcPhase ≤ 3 →
        (s.pause = none → s.svcCancel = { ended with pause := none, svc := { ended.svc with saving := false } }) ∧
        ∀ p, s.pause = some p →
          let own := s.svc.saving = true ∧ p.st = 1 ∧ p.wb = none
          (own → s.svcCancel = { ended with pause := none, svc := { ended.svc with saving := false } }) ∧
          (¬ own → s.svcCancel = { ended with pause := some p, svc := { ended.svc with saving := false } })) ∧
      (s.svcPhase = 5 → s.svcCancel = ended.leaveStandby) ∧
      ((s.svcPhase = 0 ∨ s.svcPhase = 4) → s.svcCancel = s)) ∧
    (off ∨ 4 ≤ s.svcPhase ∨ s.svc.forcedDue = true → s.svcForce = s) ∧
    (¬ off → s.svcPhase < 4 → s.svc.forcedDue = false →
      ((s.pstate = 2 ∨ s.pstate = 3) → s.svcForce = forced.startDrain) ∧
      (s.pstate ≠ 2 → s.pstate ≠ 3 → s.svcForce = { forced with svc := { forced.svc with forcedDue := true, asked := false } })) ∧
    ((∀ p < 16, s.lnk p ≠ 2) → s.startDrain = s.setSvcPhase 4) ∧
    ∀ p < 16, s.lnk p = 2 → (∀ q < 16, q ≠ p → s.lnk q ≠ 2) →
      s.startDrain = (s.setSvcPhase 4).leavePort p ∧ ((s.startDrain).port p).quiesce = true) ∧
  (∀ s : State,
    let runs := s.presentList.any (fun n => decide ((s.cl n).st = 2))
    (s.svcPhase = 3 → exec .svcWaitExpiry s = .next ((s.svcBit 5 1).startDrain)) ∧
    (s.svcPhase = 2 → s.svc.saving = true → s.mustered = true → (∀ p, s.pause = some p → p.st ≠ 3) →
      exec .svcWaitExpiry s = .next (({ s with svc := { s.svc with saving := false } } : State).svcBit 4 1).stopRunning) ∧
    (s.svcPhase ≠ 3 → (s.svcPhase ≠ 2 ∨ s.svc.saving = false ∨ s.mustered = false ∨ ∃ p, s.pause = some p ∧ p.st = 3) →
      exec .svcWaitExpiry s = .next s) ∧
    ((s.svcPhase ≠ 2 ∨ s.svc.forcedDue = true) → exec .svcStopped s = .next s) ∧
    (s.svcPhase = 2 → s.svc.forcedDue = false →
      (s.svc.saving = false → (runs = true → exec .svcStopped s = .next s) ∧ (runs = false → exec .svcStopped s = .next s.startDrain)) ∧
      (s.svc.saving = true → s.pause = none → exec .svcStopped s = .next s) ∧
      (∀ p, s.svc.saving = true → s.pause = some p →
        let a := s.reg64 0x104008
        let img := (s.saveImage p).1
        let s1 := ((s.noteSaved p).mgmtTraffic true [(a, img.length)]).agentWrite a img mgmtWho
        (p.st ≠ 3 → exec .svcStopped s = .next s) ∧
        (p.st = 3 → runs = true → exec .svcStopped s = .next s.stopRunning) ∧
        (p.st = 3 → runs = false → s.rangeUp a (4096 + recSize * p.clus.length) = false → exec .svcStopped s = .next s) ∧
        (p.st = 3 → runs = false → s.rangeUp a (4096 + recSize * p.clus.length) = true → exec .svcStopped s =
          .next ((({ s1.draw with svc := { s1.svc with saving := false } } : State).svcBit 3 1).setSvcPhase 3)))) ∧
    (let served : Prop := s.svcPhase = 4 ∧ ∀ p < 16, s.lnk p = 0 ∨ s.lnk p = 3 ∨ s.lnk p = 4
     let told : Prop := (∀ m ∈ s.teth.txq, m.msg.isMem = false) ∧ (∀ m ∈ s.teth.sent, m.2.msg.isMem = false) ∧
      (∀ m ∈ s.teth.replay, m.2.msg.isMem = false) ∧ s.queued = []
     let done : Prop := ∀ r < 16, ∀ w ∈ (s.ring r).taken, w.phase = 0
     (served ∧ told ∧ done →
      exec .svcDrained s = .next ((({ s.leaveDomain with phase := 6 } : State).enterStandby.setSvcPhase 5).svcEvent 42)) ∧
     (¬ (served ∧ told ∧ done) → exec .svcDrained s = .next s)) ∧
    ((s.phase = 6 ∨ s.ready = true) → s.svc.forcedDue = true → exec .forcedQuiesceReset s =
      .next (((List.range 16).foldl State.resetEngine1
        ({ s with svc := { s.svc with forcedDue := false, saving := false } } : State)).startDrain)) ∧
    ((s.svc.forcedDue = false ∨ (s.phase ≠ 6 ∧ s.ready = false)) → exec .forcedQuiesceReset s = .next s))

/-- Start-up runs its phases (R409, R410, R411, R423, R424, R437, R467): A waits for the lever and for SB_RST_N; B runs the bank
selected, else the other, else it stops with cause 1 in recovery; D and E follow, where a glaze image or ration tables that an
UPDATE has written are checked; E waits while EXTEST is loaded, and at its end READY is raised at kc 0. A phase that fails
leaves the cause R410 gives it and no READY. After an 8 s press start-up ends with the phase under way, in STANDBY without
READY. Where start-up is over, has failed or waits, nothing happens. The packages stored in flash that phase B checks (R433,
R434, R437, R441): where every stored package verifies, the measurements are made and phase C follows; a bedrock image that
fails gives way to the one its stack ran before, if that verifies; where it does not, or where the glaze image or the ration
tables fail, start-up ends with cause 1 and BOOTERR the last cause found. The button of a powered module (R413, R414, R423): a
press below 20 ms is none; one shorter than 1 s identifies; from 1 s on it asks for service, or cancels the sequence, or with
SVC_CTL.LOCK only sets DENIED with EV_SVC_REQUEST; one of 8 s has acted by then. At 1 s the bar flashes, but under LOCK; at 8 s
a forced quiesce begins, before READY start-up will stop, at once where the lever holds it. IDENTIFY ends. BTN is set at the
marks and cleared by the release. The ejector lever and the cage latches (R422, R424, R425, R426, R427): closing the lever lets
start-up that waits for it go on; opening it stops start-up after phase A, every domain but the always-on one going off, in
phase 5 it is safe, else it is a violation with EV_SVC_EARLY and a forced quiesce; a closing latch counts a mating and may train
its port, an opening one on a port that is active or trains is a violation and quiesces it; without power the sensors alone
change. A latch or lever that moves where it is does nothing. -/
def Obligations.StartUpButtonAndLeverAct : Prop :=
  ((∀ s : State, s.failed = false → s.held = false → s.tap.waiting = false → (s.svc.forcedDue = false ∨ s.ready = true) →
    let lever := (s.reg 0x104004).getLsbD 9
    let does (t : State) : Prop := exec (.startupPhaseDone .done) s = .next t
    (s.phase = 1 → (lever = true ∧ s.side.rstLow = false → does { s with phase := 2, held := false }) ∧
      (lever = false ∨ s.side.rstLow = true → does { s with held := true })) ∧
    (s.phase = 2 →
      let a := s.bankCause (s.bankOf s.boot.sel)
      let b := s.bankCause (s.bankOf !s.boot.sel)
      (a = 0 → does ((s.bootErr 0).bootBank s.boot.sel).bootStored) ∧
      (a ≠ 0 → b = 0 → does ((s.authFail.bootErr a).bootBank (!s.boot.sel)).bootStored) ∧
      (a ≠ 0 → b ≠ 0 → does (((s.authFail.authFail.bootErr b).measureRom).startFail 1 true))) ∧
    (s.phase = 3 → does s.startD) ∧
    (s.phase = 4 → (s.glazeBad = true → does (s.startFail 5 false)) ∧ (s.glazeBad = false → does s.endD ∧ s.endD.loess = [] ∧ s.endD.phase = 5)) ∧
    (s.phase = 5 → (s.rationsBad = true → does (s.startFail 6 false)) ∧
      (s.rationsBad = false → s.tap.ir = 3 → s.ready = false → does { s with tap := { s.tap with waiting := true } }) ∧
      (s.rationsBad = false → (s.tap.ir ≠ 3 ∨ s.ready = true) → does s.endE)) ∧
    ∀ (c : BitVec 4) (rec : Bool),
      let fails (t : State) : Prop := exec (.startupPhaseDone (.failed c rec)) s = .next t
      (s.phase = 1 → fails s) ∧
      (s.phase = 2 →
        let u := (if rec then s.authFail.measureRom else s.bootBank s.boot.sel).authFail.draw
        fails ((u.bootErr (1 + Config.bootErr s.fresh % 7)).startFail 1 rec)) ∧
      (s.phase = 3 → fails (s.startFail 2 false)) ∧
      (s.phase = 4 → (c = 3 → fails ((s.draw.setStack (Config.failedStack s.fresh % 8) 7).startFail 3 false)) ∧
        (c = 4 → fails (s.startFail 4 false)) ∧ (c ≠ 3 → c ≠ 4 → fails (s.startFail 5 false))) ∧
      (s.phase = 5 → fails (s.startFail 6 false))) ∧
  (∀ s : State, s.failed = false → s.held = false → s.tap.waiting = false → s.svc.forcedDue = true → s.ready = false →
    (s.phase = 3 → exec (.startupPhaseDone .done) s = .next s.startD.startStopped) ∧
    (s.phase = 4 → s.glazeBad = false → exec (.startupPhaseDone .done) s = .next s.endD.startStopped) ∧
    (s.phase = 5 → s.rationsBad = false → exec (.startupPhaseDone .done) s = .next s.startStopped)) ∧
  (∀ s : State, s.startStopped.phase = 6 ∧ s.startStopped.svcPhase = 5 ∧ s.startStopped.pstate = 3 ∧ s.startStopped.ready = s.ready ∧
    s.startStopped.svc.forcedDue = false) ∧
  (∀ s : State, s.ready = false → s.trans = none → s.svc.asked = false → s.endE.phase = 6 ∧ s.endE.ready = true ∧ s.endE.kc = 0) ∧
  (∀ (s : State) (c : Nat) (rec : Bool), 1 ≤ c → c ≤ 6 →
    (s.startFail c rec).failed = true ∧ (s.startFail c rec).fld 0x200000 4 4 = c ∧ (s.startFail c rec).ready = s.ready ∧
      (s.startFail c rec).boot.recovery = rec) ∧
  ∀ (s : State) (e : PhaseEnd), (s.phase = 0 ∨ s.phase = 6 ∨ s.failed = true ∨ s.held = true ∨ s.tap.waiting = true) →
    exec (.startupPhaseDone e) s = .next s) ∧
  (∀ s : State,
    let bed (k : Nat) : Nat := s.storedCause 1 (s.bedOf k)
    let flash (t : Nat) (x : Option (List Byte × FwBank)) : Nat :=
      x.elim (if s.boot.revoked.testBit 0 then 2 else 0) (fun y => s.storedCause t y.2)
    let glz := flash 2 s.boot.glz
    let rtn := flash 3 s.boot.rtn
    ((∀ k < 8, bed k = 0) →
      (glz = 0 → rtn = 0 → s.bootStored = { s.bootMeasure with phase := 3 }) ∧
      (glz ≠ 0 → s.bootStored = (s.authFail.bootErr glz).startFail 1 false) ∧
      (glz = 0 → rtn ≠ 0 → s.bootStored = (s.authFail.bootErr rtn).startFail 1 false)) ∧
    ∀ k < 8, bed k ≠ 0 → (∀ j < 8, j ≠ k → bed j = 0) →
      let old := s.storedCause 1 (s.bedBefore k)
      let u := s.authFail.bootErr (bed k)
      (old ≠ 0 → s.bootStored = (u.authFail.bootErr old).startFail 1 false) ∧
      (old = 0 → glz = 0 → rtn = 0 → s.bootStored = { ({ u with boot := { u.boot with
          beds := sput noFw u.boot.beds k (some (s.bedBefore k)), bedsOld := sput noFw u.boot.bedsOld k (some (s.bedOf k)) } } :
            State).bootMeasure with phase := 3 })) ∧
  (∀ (s : State) (ms : Nat),
    (s.phase ≠ 0 →
      let s0 := s.svcBit 8 0
      let s1 : State := { s0 with svc := { s0.svc with flashed := false } }
      let lock := (s.reg 0x104000).getLsbD 5
      (ms < 20 → exec (.buttonPress ms) s = .next s) ∧
      (20 ≤ ms → ms < 1000 → exec (.buttonPress ms) s = .next { s1 with svc := { s1.svc with identify := true } }) ∧
      (8000 ≤ ms → exec (.buttonPress ms) s = .next s1) ∧
      (1000 ≤ ms → ms < 8000 →
        (lock = true → exec (.buttonPress ms) s = .next ((s1.svcBit 7 1).svcEvent 39)) ∧
        (lock = false → s.svcPhase = 0 → exec (.buttonPress ms) s = .next s1.svcRequest) ∧
        (lock = false → s.svcPhase ≠ 0 → exec (.buttonPress ms) s = .next s1.svcCancel)) ∧
      exec .buttonHeld1s s = .next { s.svcBit 8 1 with svc := { s.svc with flashed := !lock } } ∧
      ((s.phase = 6 ∨ s.ready = true) → exec .buttonHeld8s s = .next (s.svcBit 8 1).svcForce) ∧
      (s.phase ≠ 6 → s.ready = false → s.held = true → exec .buttonHeld8s s = .next (s.svcBit 8 1).startStopped) ∧
      (s.phase ≠ 6 → s.ready = false → s.held = false →
        exec .buttonHeld8s s = .next { s.svcBit 8 1 with svc := { s.svc with forcedDue := true } })) ∧
    (s.phase = 0 → exec (.buttonPress ms) s = .next s ∧ exec .buttonHeld1s s = .next s ∧ exec .buttonHeld8s s = .next s) ∧
    exec .identifyEnd s = .next { s with svc := { s.svc with identify := false } }) ∧
  (∀ (s : State) (p : Fin 16),
    let violate (u : State) (bit : Nat) : State :=
      let v := u.setBits 0x104018 bit
      ({ v with svc := { v.svc with violated := true } } : State).raise 43 0 0 (v.regN 0x104018) 0
    (s.held = true → s.phase = 1 → s.side.rstLow = false → exec .ejectorLeverClose s = .next { s.svcBit 9 1 with phase := 2, held := false }) ∧
    ((s.held = false ∨ s.phase ≠ 1 ∨ s.side.rstLow = true) → exec .ejectorLeverClose s = .next (s.svcBit 9 1)) ∧
    ((s.reg 0x104004).getLsbD 9 = false → exec .ejectorLeverOpen s = .next s) ∧
    ((s.reg 0x104004).getLsbD 9 = true →
      (s.phase ≤ 1 → exec .ejectorLeverOpen s = .next (s.svcBit 9 0)) ∧
      (2 ≤ s.phase → s.phase < 6 → s.ready = false → ∃ t, exec .ejectorLeverOpen s = .next t ∧ t.phase = 1 ∧ t.held = true ∧ t.tth = 0 ∧
        (∀ q < 16, t.lnk q = 0) ∧ (∀ k < 8, t.stackState k = 0) ∧ t.dies = []) ∧
      (2 ≤ s.phase → (6 ≤ s.phase ∨ s.ready = true) →
        (s.svcPhase = 5 → exec .ejectorLeverOpen s = .next (s.svcBit 9 0)) ∧
        (s.svcPhase ≠ 5 → exec .ejectorLeverOpen s = .next (violate (s.svcBit 9 0) (2 ^ 16)).svcForce))) ∧
    ((s.reg 0x104014).getLsbD p = false →
      (s.phase = 0 → exec (.cageLatchClose p) s = .next (s.setFld 0x104014 p 1 1)) ∧
      (s.phase ≠ 0 → exec (.cageLatchClose p) s = .next (((s.setFld 0x104014 p 1 1).mate p).autotrain p)) ∧
      exec (.cageLatchOpen p) s = .next s) ∧
    ((s.reg 0x104014).getLsbD p = true →
      let s1 := s.setFld 0x104014 p 1 0
      let v := violate s1 (2 ^ p.val)
      exec (.cageLatchClose p) s = .next s ∧
      ((s.phase = 0 ∨ (s.lnk p ≠ 1 ∧ s.lnk p ≠ 2 ∧ s.lnk p ≠ 5)) → exec (.cageLatchOpen p) s = .next s1) ∧
      (s.phase ≠ 0 → (s.lnk p = 1 ∨ s.lnk p = 2 ∨ s.lnk p = 5) →
        exec (.cageLatchOpen p) s = .next (v.setPort p { s.port p with quiesce := true }))) ∧
    (sget zeroNat (s.mate p).svc.life p = min (sget zeroNat s.svc.life p + 1) (2 ^ 32 - 1) ∧
      (s.mate p).regN (0x104040 + 4 * p) = min (s.regN (0x104040 + 4 * p) + 1) (2 ^ 32 - 1)))

/-- The test port of a powered module (R467, R469): BYPASS, and every code that names no instruction, shifts the bypass
register, IDCODE the grade's code from bit 0, SAMPLE/PRELOAD the boundary cells; the reset selects IDCODE; EXTEST, CLAMP and
HIGHZ take the contacts over before READY and in STANDBY, EXTEST shifting the cells, and are BYPASS else. Loading another
instruction than EXTEST lets start-up that waits for it end. The contacts float without power and under HIGHZ, show the cells
under EXTEST and CLAMP, and what the module drives else. What the cells capture is open (log entry 110). The sideband endpoint
of a powered module (R456, R468): each PLDM command has one response, with a PEC on SMBus, and changes no other state but the
event receiver it sets; sensors 1 to 17 answer their reading or that they are unavailable; endpoint ID and dynamic address are
taken, the address only with I3C; the module answers at its dynamic address, else at 30H, on SMBus at 60H, with the address
contacts added. Without power nothing is answered. The responses' layout is the model's (log entry 38). -/
def Obligations.TestPortAndSidebandAnswer : Prop :=
  ((∀ (s : State) (cells tdi : List Bool) (code : Byte), s.phase ≠ 0 → s.tap.waiting = false →
    let load (code : Nat) : State := { s with tap := { s.tap with ir := code } }
    let shown (t : State) (bs : List Bool) : State := { t with out := t.out ++ [.tdo bs] }
    let scan (code : Nat) : State :=
      shown { s with tap := { s.tap with ir := code, cells := cells }, fresh := s.fresh + 1 }
        ((List.range cells.length).map (Config.sampled s.fresh))
    let through (bs : List Bool) : List Bool := (false :: bs).take bs.length
    let codeBits : Nat := if s.grade = .xa2048 then 0xA204876B else 0xA179276B
    ((code = 0 ∨ 5 < code.toNat) → exec (.bypass code tdi) s = .next (shown (load 0xFF) (through tdi))) ∧
    (1 ≤ code.toNat → code.toNat ≤ 5 → exec (.bypass code tdi) s = .next s) ∧
    exec .idcode s = .next (shown (load 1) ((List.range 32).map (fun i => codeBits.testBit i))) ∧
    exec (.samplePreload cells) s = .next (scan 2) ∧
    exec .testLogicReset s = .next (load 1) ∧
    ((s.ready = false ∨ s.pstate = 3) →
      exec (.extest cells) s = .next (scan 3) ∧ exec (.clamp tdi) s = .next (shown (load 4) (through tdi)) ∧
      exec (.highz tdi) s = .next (shown (load 5) (through tdi))) ∧
    (s.ready = true → s.pstate ≠ 3 →
      exec (.extest cells) s = .next (shown (load 0xFF) (through cells)) ∧
      exec (.clamp tdi) s = .next (shown (load 0xFF) (through tdi)) ∧ exec (.highz tdi) s = .next (shown (load 0xFF) (through tdi)))) ∧
  (∀ s : State, s.phase ≠ 0 → s.tap.waiting = true →
    exec .testLogicReset s = .next ({ s with tap := { s.tap with ir := 1 } } : State).endE) ∧
  (∀ (s : State) (cells tdi : List Bool) (code : Byte), s.phase = 0 →
    ∀ i ∈ ([.bypass code tdi, .idcode, .samplePreload cells, .extest cells, .clamp tdi, .highz tdi, .testLogicReset] : List Instr),
      exec i s = .next s) ∧
  ∀ s : State,
    let level (b : Bool) : Level := if b then .high else .low
    let cell (k : Nat) : Level := level (s.tap.cells.getD (Config.boundaryCell k) false)
    ((s.phase = 0 ∨ s.tap.ir = 5) → s.sbReady = .float ∧ s.sbFault = .float ∧ s.sbAlertN = .float) ∧
    (s.phase ≠ 0 → (s.tap.ir = 3 ∨ s.tap.ir = 4) → s.sbReady = cell 0 ∧ s.sbFault = cell 1 ∧ s.sbAlertN = cell 2) ∧
    (s.phase ≠ 0 → s.tap.ir ≠ 3 → s.tap.ir ≠ 4 → s.tap.ir ≠ 5 → s.sbReady = level s.ready ∧ s.sbFault = level s.failed ∧
      s.sbAlertN = (if (s.reg 0x106020).getLsbD 0 then .low else .float))) ∧
  (∀ (s : State) (n : Nat) (eid : Byte) (addr : BitVec 7),
    (s.phase = 0 → ∀ i ∈ ([.getSensorReading n, .getPdr n, .setEventReceiver eid, .getTid, .getPldmVersion, .getPldmTypes, .getPldmCommands,
      .setEndpointId eid, .setdasa addr, .entdaa addr] : List Instr), exec i s = .next s) ∧
    (s.phase ≠ 0 →
    let answer (t : State) (type cmd code : Nat) (data : List Byte) : State :=
      let bs := leBytes 1 t.side.eid ++ leBytes 1 type ++ leBytes 1 cmd ++ leBytes 1 code ++ data
      let pec := BitVec.ofNat 8 ((BitVec.ofNat 8 (t.busAddr * 2 + 1) :: bs).foldl pecStep 0)
      { t with out := t.out ++ [.side (if t.side.smbus then bs ++ [pec] else bs)] }
    (1 ≤ n → n ≤ 17 → s.sensorGone n = false → exec (.getSensorReading n) s =
      .next (answer s 2 0x11 0 (leBytes 1 0 ++ leBytes 4 (s.regN (0x106100 + 4 * n))))) ∧
    (1 ≤ n → n ≤ 17 → s.sensorGone n = true → exec (.getSensorReading n) s = .next (answer s 2 0x11 0 (leBytes 1 1))) ∧
    ((n = 0 ∨ 17 < n) → exec (.getSensorReading n) s = .next (answer s 2 0x11 0x80 []) ∧
      exec (.getPdr n) s = .next (answer s 2 0x51 0x82 [])) ∧
    (1 ≤ n → n ≤ 17 → exec (.getPdr n) s = .next (answer s 2 0x51 0 (Config.pldmPdr n))) ∧
    exec (.setEventReceiver eid) s = .next (answer { s with side := { s.side with recv := some eid.toNat } } 2 0x04 0 []) ∧
    exec .getTid s = .next (answer s 0 0x02 0 [Config.pldmTid]) ∧
    exec .getPldmVersion s = .next (answer s 0 0x03 0 ((List.range 4).map Config.pldmVersion)) ∧
    exec .getPldmTypes s = .next (answer s 0 0x04 0 [0x05#8]) ∧
    exec .getPldmCommands s = .next (answer s 0 0x05 0 [0x02#8, 0x03#8, 0x04#8, 0x05#8, 0x04#8, 0x11#8, 0x51#8]) ∧
    exec (.setEndpointId eid) s = .next { s with side := { s.side with eid := eid.toNat } } ∧
    (s.side.smbus = false →
      exec (.setdasa addr) s = .next { s with side := { s.side with dyn := addr.toNat } } ∧
      exec (.entdaa addr) s = .next { s with side := { s.side with dyn := addr.toNat } }) ∧
    (s.side.smbus = true → exec (.setdasa addr) s = .next s ∧ exec (.entdaa addr) s = .next s) ∧
    s.busAddr = (if s.side.smbus then 0x60 + s.side.strap else if s.side.dyn ≠ 0 then s.side.dyn else 0x30 + s.side.strap)))

/-! The whole machine -/

/-- A step carries out the command at the front of the queue with the rest of the queue; with none waiting the module idles (the
model's choice, log entries 3 and 5). -/
def Obligations.StepRunsTheFrontCommand : Prop :=
  (∀ (s : State) (c : Instr) (rest : List Instr), s.pending = c :: rest → step s = exec c { s with pending := rest }) ∧
  ∀ s : State, s.pending = [] → step s = .next s

/-- No command touches the queue of those that wait, nor the part's grade: a step that goes on leaves the rest of the queue and
the grade as they were. -/
def Obligations.StepsKeepTheQueue : Prop :=
  ∀ s t : State, step s = .next t → t.pending = s.pending.tail ∧ t.grade = s.grade

/-- Every step keeps Loess memory in its canonical form: addresses strictly rising, no byte listed that reads as an unlisted
one. -/
def Obligations.StepsKeepMemoryCanonical : Prop :=
  ∀ s t : State, s.memOk → step s = .next t → t.memOk

/-- No step lowers an anti-rollback counter or returns a revoked root slot (R434, R435), whatever the command: no reset, no
update, no register write and no waybill. -/
def Obligations.StepsNeverUnfuse : Prop :=
  ∀ s t : State, step s = .next t → s.FusesKept t

/-- What power-on reset leaves (R395, R404, R409, R434): no command waiting, start-up phase A, not READY, memory canonical and
empty, no counter raised and no root slot revoked. The grade is the model's choice (log entry 6). -/
def Obligations.ResetStartsUp : Prop :=
  State.reset.memOk ∧ State.reset.pending = [] ∧ State.reset.phase = 1 ∧ State.reset.ready = false ∧ State.reset.loess = [] ∧
  (∀ k, sget zeroNat State.reset.boot.cnt k = 0) ∧ State.reset.boot.revoked = 0 ∧ step State.reset = .next State.reset

/-- No command faults, and none is refused but an itinerary instruction with a field value that the load refuses (R31, R241,
R243): every other command leads to a next state. -/
def Obligations.WellFormedCommandsNeverStop : Prop :=
  ∀ (c : Instr) (s : State), c.wf = true → ∃ t, exec c s = .next t
end

