-- ==== Sys2Proof/Laws/Sparse.lean ====
section
/-! SUPPORT. Laws of the sparse maps: what a read finds after each write, and that every operation keeps the canonical
form. -/

namespace Sys2Proof.Machine

variable {α : Type}

/-! The canonical form as a proposition -/

theorem swf_iff [DecidableEq α] {d : Nat → α} {m : SMap α} :
    swf d m = true ↔ m.Pairwise (fun x y => x.1 < y.1) ∧ ∀ e ∈ m, e.2 ≠ d e.1 := by
  induction m with
  | nil => simp [swf]
  | cons e m ih =>
    cases m with
    | nil => simp [swf]
    | cons f m =>
      rw [swf, Bool.and_eq_true, Bool.and_eq_true, ih, bne_iff_ne, decide_eq_true_iff]
      constructor
      · rintro ⟨⟨hv, hk⟩, hp, hd⟩
        refine ⟨List.pairwise_cons.2 ⟨?_, hp⟩, ?_⟩
        · intro y hy
          rcases List.mem_cons.1 hy with rfl | hy
          · exact hk
          · exact lt_trans hk ((List.pairwise_cons.1 hp).1 y hy)
        · intro y hy
          rcases List.mem_cons.1 hy with rfl | hy
          · exact hv
          · exact hd y hy
      · rintro ⟨hp, hd⟩
        have hp' := List.pairwise_cons.1 hp
        exact ⟨⟨hd e (by simp), hp'.1 f (by simp)⟩, hp'.2, fun y hy => hd y (List.mem_cons_of_mem _ hy)⟩

theorem swf_filter [DecidableEq α] {d : Nat → α} {m : SMap α} (h : swf d m = true) (p : Nat × α → Bool) :
    swf d (m.filter p) = true := by
  rw [swf_iff] at h ⊢
  exact ⟨h.1.filter p, fun e he => h.2 e (List.mem_of_mem_filter he)⟩

/-- Two canonical parts with the keys of the first below those of the second are canonical together. -/
theorem swf_append [DecidableEq α] {d : Nat → α} {m n : SMap α} (hm : swf d m = true) (hn : swf d n = true)
    (h : ∀ x ∈ m, ∀ y ∈ n, x.1 < y.1) : swf d (m ++ n) = true := by
  rw [swf_iff] at hm hn ⊢
  refine ⟨List.pairwise_append.2 ⟨hm.1, hn.1, h⟩, fun e he => ?_⟩
  rcases List.mem_append.1 he with he | he
  · exact hm.2 e he
  · exact hn.2 e he

/-! Single writes -/

theorem mem_sinsert {m : SMap α} {k : Nat} {v : α} {e : Nat × α} : e ∈ sinsert m k v ↔ e = (k, v) ∨ e ∈ m := by
  induction m with
  | nil => simp [sinsert]
  | cons f m ih =>
    rw [sinsert]
    split
    · simp
    · simp only [List.mem_cons, ih]
      tauto

theorem swf_serase [DecidableEq α] {d : Nat → α} {m : SMap α} (h : swf d m = true) (k : Nat) : swf d (serase m k) = true :=
  swf_filter h _

theorem swf_sinsert [DecidableEq α] {d : Nat → α} {m : SMap α} {k : Nat} {v : α} (h : swf d m = true)
    (hk : ∀ e ∈ m, e.1 ≠ k) (hv : v ≠ d k) : swf d (sinsert m k v) = true := by
  rw [swf_iff] at h ⊢
  refine ⟨?_, ?_⟩
  · have hp := h.1
    clear h
    induction m with
    | nil => simp [sinsert]
    | cons f m ih =>
      have hf := List.pairwise_cons.1 hp
      rw [sinsert]
      split
      · rename_i hlt
        refine List.pairwise_cons.2 ⟨fun y hy => ?_, hp⟩
        rcases List.mem_cons.1 hy with rfl | hy
        · exact hlt
        · exact lt_trans hlt (hf.1 y hy)
      · rename_i hge
        refine List.pairwise_cons.2 ⟨fun y hy => ?_, ih (fun e he => hk e (List.mem_cons_of_mem _ he)) hf.2⟩
        rcases mem_sinsert.1 hy with rfl | hy
        · have : f.1 ≠ k := hk f (by simp)
          show f.1 < k
          omega
        · exact hf.1 y hy
  · intro e he
    rcases mem_sinsert.1 he with rfl | he
    · exact hv
    · exact h.2 e he

theorem key_ne_of_mem_serase {m : SMap α} {k : Nat} {e : Nat × α} (h : e ∈ serase m k) : e.1 ≠ k := by
  have := (List.mem_filter.1 h).2
  simpa using this

/-- A write keeps the canonical form. -/
theorem swf_sput [DecidableEq α] {d : Nat → α} {m : SMap α} (h : swf d m = true) (k : Nat) (v : α) :
    swf d (sput d m k v) = true := by
  rw [sput]
  split
  · exact swf_serase h k
  · rename_i hv
    exact swf_sinsert (swf_serase h k) (fun e he => key_ne_of_mem_serase he) hv

theorem sget_serase {d : Nat → α} (m : SMap α) (k i : Nat) :
    sget d (serase m k) i = if i = k then d i else sget d m i := by
  induction m with
  | nil => simp [serase, sget]
  | cons f m ih =>
    obtain ⟨j, v⟩ := f
    have ih' : sget d (List.filter (fun e => e.1 != k) m) i = if i = k then d i else sget d m i := ih
    by_cases hj : j = k
    · subst hj
      rw [serase, List.filter_cons_of_neg (by simp), ih', sget]
      by_cases hi : i = j
      · simp [hi]
      · rw [if_neg hi, if_neg hi, if_neg (fun h => hi h.symm)]
    · rw [serase, List.filter_cons_of_pos (by simp [hj]), sget, sget, ih']
      by_cases hi : j = i
      · subst hi
        simp [hj]
      · rw [if_neg hi, if_neg hi]

theorem sget_sinsert {d : Nat → α} (m : SMap α) (k : Nat) (v : α) (i : Nat) (hk : ∀ e ∈ m, e.1 ≠ k) :
    sget d (sinsert m k v) i = if i = k then v else sget d m i := by
  induction m with
  | nil =>
    by_cases hi : i = k
    · simp [sinsert, sget, hi]
    · simp [sinsert, sget, hi, Ne.symm hi]
  | cons f m ih =>
    obtain ⟨j, w⟩ := f
    have hj : j ≠ k := hk (j, w) (by simp)
    rw [sinsert]
    split
    · rw [sget]
      by_cases hi : i = k
      · simp [hi]
      · rw [if_neg (fun h => hi h.symm), if_neg hi]
    · rw [sget, ih (fun e he => hk e (List.mem_cons_of_mem _ he)), sget]
      by_cases hi : j = i
      · subst hi
        simp [hj]
      · rw [if_neg hi, if_neg hi]

/-- A read after a write: the value written at its key, every other key as before. -/
theorem sget_sput [DecidableEq α] (d : Nat → α) (m : SMap α) (k : Nat) (v : α) (i : Nat) :
    sget d (sput d m k v) i = if i = k then v else sget d m i := by
  rw [sput]
  split
  · rename_i hv
    rw [sget_serase]
    by_cases hi : i = k
    · rw [if_pos hi, if_pos hi, hi, hv]
    · rw [if_neg hi, if_neg hi]
  · rw [sget_sinsert _ _ _ _ (fun e he => key_ne_of_mem_serase he), sget_serase]
    by_cases hi : i = k
    · rw [if_pos hi, if_pos hi]
    · rw [if_neg hi, if_neg hi, if_neg hi]

@[simp] theorem sget_sput_same [DecidableEq α] (d : Nat → α) (m : SMap α) (k : Nat) (v : α) :
    sget d (sput d m k v) k = v := by
  rw [sget_sput, if_pos rfl]

theorem sget_sput_other [DecidableEq α] (d : Nat → α) (m : SMap α) (k : Nat) (v : α) {i : Nat} (h : i ≠ k) :
    sget d (sput d m k v) i = sget d m i := by
  rw [sget_sput, if_neg h]

@[simp] theorem sget_nil (d : Nat → α) (k : Nat) : sget d [] k = d k := rfl

/-! Blocks and ranges -/

theorem sblock_keys [DecidableEq α] {d : Nat → α} (a : Nat) (vs : List α) :
    ∀ e ∈ sblock d a vs, a ≤ e.1 ∧ e.1 < a + vs.length := by
  induction vs generalizing a with
  | nil => simp [sblock]
  | cons v vs ih =>
    intro e he
    rw [sblock] at he
    have step : e ∈ sblock d (a + 1) vs → a ≤ e.1 ∧ e.1 < a + (v :: vs).length := by
      intro h
      have := ih (a + 1) e h
      simp only [List.length_cons]
      omega
    split at he
    · exact step he
    · rcases List.mem_cons.1 he with rfl | he
      · simp
      · exact step he

theorem swf_sblock [DecidableEq α] {d : Nat → α} (a : Nat) (vs : List α) : swf d (sblock d a vs) = true := by
  rw [swf_iff]
  induction vs generalizing a with
  | nil => simp [sblock]
  | cons v vs ih =>
    have h := ih (a + 1)
    rw [sblock]
    split
    · exact h
    · rename_i hv
      refine ⟨List.pairwise_cons.2 ⟨fun y hy => ?_, h.1⟩, fun e he => ?_⟩
      · have := sblock_keys (a + 1) vs y hy
        show a < y.1
        omega
      · rcases List.mem_cons.1 he with rfl | he
        · exact hv
        · exact h.2 e he

/-- A block write keeps the canonical form. -/
theorem swf_sputs [DecidableEq α] {d : Nat → α} {m : SMap α} (h : swf d m = true) (a : Nat) (vs : List α) :
    swf d (sputs d m a vs) = true := by
  rw [sputs]
  refine swf_append (swf_append (swf_filter h _) (swf_sblock a vs) ?_) (swf_filter h _) ?_
  · intro x hx y hy
    have hx' := (List.mem_filter.1 hx).2
    have := (sblock_keys a vs y hy).1
    simp only [decide_eq_true_eq] at hx'
    omega
  · intro x hx y hy
    have hy' := (List.mem_filter.1 hy).2
    simp only [decide_eq_true_eq] at hy'
    rcases List.mem_append.1 hx with hx | hx
    · have hx' := (List.mem_filter.1 hx).2
      simp only [decide_eq_true_eq] at hx'
      omega
    · have := (sblock_keys a vs x hx).2
      omega

theorem swf_sclear [DecidableEq α] {d : Nat → α} {m : SMap α} (h : swf d m = true) (a n : Nat) :
    swf d (sclear m a n) = true :=
  swf_filter h _

/-- A key that a map does not list reads as the default. -/
theorem sget_of_not_mem {d : Nat → α} {m : SMap α} {k : Nat} (h : ∀ e ∈ m, e.1 ≠ k) : sget d m k = d k := by
  induction m with
  | nil => rfl
  | cons f m ih =>
    obtain ⟨j, v⟩ := f
    rw [sget, if_neg (h (j, v) (by simp))]
    exact ih (fun e he => h e (List.mem_cons_of_mem _ he))

theorem sget_append {d : Nat → α} (m n : SMap α) (k : Nat) :
    sget d (m ++ n) k = if m.any (fun e => decide (e.1 = k)) then sget d m k else sget d n k := by
  induction m with
  | nil => simp
  | cons f m ih =>
    obtain ⟨j, v⟩ := f
    rw [List.cons_append, sget, sget, ih]
    by_cases hj : j = k
    · simp [hj]
    · rw [if_neg hj, List.any_cons, show decide ((j, v).1 = k) = false from decide_eq_false hj, Bool.false_or,
        if_neg hj]

/-- Entries dropped by a filter that keeps every entry of key k change nothing at k. -/
theorem sget_filter_keep {d : Nat → α} (m : SMap α) (p : Nat × α → Bool) (k : Nat) (h : ∀ v, p (k, v) = true) :
    sget d (m.filter p) k = sget d m k := by
  induction m with
  | nil => rfl
  | cons f m ih =>
    obtain ⟨j, v⟩ := f
    by_cases hj : j = k
    · subst hj
      rw [List.filter_cons_of_pos (h v), sget, sget, if_pos rfl, if_pos rfl]
    · by_cases hp : p (j, v) = true
      · rw [List.filter_cons_of_pos hp, sget, sget, if_neg hj, if_neg hj, ih]
      · rw [List.filter_cons_of_neg hp, sget, if_neg hj, ih]

theorem sget_sblock [DecidableEq α] {d : Nat → α} (a : Nat) (vs : List α) (k : Nat) (h1 : a ≤ k) (h2 : k < a + vs.length) :
    sget d (sblock d a vs) k = vs.getD (k - a) (d k) := by
  induction vs generalizing a with
  | nil => simp at h2; omega
  | cons v vs ih =>
    rw [sblock]
    by_cases hk : k = a
    · subst hk
      have hno : ∀ e ∈ sblock d (k + 1) vs, e.1 ≠ k := fun e he => by
        have := (sblock_keys (k + 1) vs e he).1
        omega
      split
      · rename_i hv
        rw [sget_of_not_mem hno]
        simp [hv]
      · rw [sget, if_pos rfl]
        simp
    · have hk' : a + 1 ≤ k := by omega
      have hl : k < a + 1 + vs.length := by simp only [List.length_cons] at h2; omega
      have e : k - a = (k - (a + 1)) + 1 := by omega
      split
      · rw [ih (a + 1) hk' hl, e, List.getD_cons_succ]
      · rw [sget, if_neg (fun h => hk h.symm), ih (a + 1) hk' hl, e, List.getD_cons_succ]

/-- A read after a block write: the block's values in its range, every other key as before. -/
theorem sget_sputs [DecidableEq α] (d : Nat → α) (m : SMap α) (a : Nat) (vs : List α) (k : Nat) :
    sget d (sputs d m a vs) k = if a ≤ k ∧ k < a + vs.length then vs.getD (k - a) (d k) else sget d m k := by
  have below : ∀ e ∈ m.filter (fun e => decide (e.1 < a)), e.1 < a := fun e he => by
    simpa using (List.mem_filter.1 he).2
  rw [sputs, sget_append, sget_append, List.any_append]
  by_cases hin : a ≤ k ∧ k < a + vs.length
  · rw [if_pos hin]
    have hno : (m.filter (fun e => decide (e.1 < a))).any (fun e => decide (e.1 = k)) = false := by
      rw [List.any_eq_false]
      intro e he
      have := below e he
      simp only [decide_eq_true_eq]
      omega
    have hno3 : sget d (m.filter (fun e => decide (a + vs.length ≤ e.1))) k = d k := by
      apply sget_of_not_mem
      intro e he
      have := (List.mem_filter.1 he).2
      simp only [decide_eq_true_eq] at this
      omega
    rw [hno, Bool.false_or, if_neg (by simp : ¬(false = true)), sget_sblock a vs k hin.1 hin.2]
    split
    · rfl
    · rename_i hb
      rw [hno3]
      have : sget d (sblock d a vs) k = d k := by
        apply sget_of_not_mem
        intro e he hek
        exact hb (List.any_eq_true.2 ⟨e, he, by simp [hek]⟩)
      rw [← sget_sblock a vs k hin.1 hin.2, this]
  · have hout := hin
    rw [if_neg hin]
    have hno : (sblock d a vs).any (fun e => decide (e.1 = k)) = false := by
      rw [List.any_eq_false]
      intro e he
      have := sblock_keys a vs e he
      simp only [decide_eq_true_eq]
      intro h
      apply hout
      omega
    rw [hno, Bool.or_false]
    by_cases hk : k < a
    · have h1 : sget d (m.filter (fun e => decide (e.1 < a))) k = sget d m k :=
        sget_filter_keep m _ k (fun v => by simpa using hk)
      have h3 : sget d (m.filter (fun e => decide (a + vs.length ≤ e.1))) k = d k := by
        apply sget_of_not_mem
        intro e he
        have := (List.mem_filter.1 he).2
        simp only [decide_eq_true_eq] at this
        omega
      split
      · exact h1
      · rename_i hb
        rw [h3, ← h1]
        refine (sget_of_not_mem fun e he hek => hb ?_).symm
        exact List.any_eq_true.2 ⟨e, he, by simp [hek]⟩
    · have hge : a + vs.length ≤ k := by
        by_contra hc
        exact hout ⟨by omega, by omega⟩
      have hnb : (m.filter (fun e => decide (e.1 < a))).any (fun e => decide (e.1 = k)) = false := by
        rw [List.any_eq_false]
        intro e he
        have := below e he
        simp only [decide_eq_true_eq]
        omega
      rw [hnb, if_neg (by simp)]
      exact sget_filter_keep m _ k (fun v => by simpa using hge)

theorem sget_swindow {d : Nat → α} (m : SMap α) (a n k : Nat) (h1 : a ≤ k) (h2 : k < a + n) :
    sget d (swindow m a n) k = sget d m k :=
  sget_filter_keep m _ k (fun v => by simp [h1, h2])

/-- The block read is the reads of its keys. -/
theorem sgets_eq {d : Nat → α} (m : SMap α) (a n : Nat) : sgets d m a n = (List.range n).map (fun i => sget d m (a + i)) := by
  rw [sgets]
  apply List.map_congr_left
  intro i hi
  exact sget_swindow m a n (a + i) (by omega) (by have := List.mem_range.1 hi; omega)

@[simp] theorem length_sgets {d : Nat → α} (m : SMap α) (a n : Nat) : (sgets d m a n).length = n := by
  rw [sgets_eq]
  simp

theorem sget_sclear {d : Nat → α} (m : SMap α) (a n k : Nat) :
    sget d (sclear m a n) k = if a ≤ k ∧ k < a + n then d k else sget d m k := by
  split
  · rename_i h
    apply sget_of_not_mem
    intro e he hk
    have := (List.mem_filter.1 he).2
    subst hk
    simp [h.1, h.2] at this
  · rename_i h
    apply sget_filter_keep
    intro v
    simp only [Bool.not_eq_true', Bool.and_eq_false_iff, decide_eq_false_iff_not]
    by_cases h1 : a ≤ k
    · exact Or.inr fun h2 => h ⟨h1, h2⟩
    · exact Or.inl h1

end Sys2Proof.Machine
end

