-- ==== Sys2Proof/Laws/Keeps.lean ====
section
/-! SUPPORT. What no command may disturb: the queue of waiting commands and the module's grade, the canonical form of
Loess memory, the anti-rollback counters and the revoked root slots (R435). `Keeps` is the relation between a state and a
later one; every operation of the model is shown to keep it, and the proofs over all commands put these lemmas together. -/

namespace Sys2Proof.Machine

/-- From s to t nothing of this is disturbed. -/
structure Keeps (s t : State) : Prop where
  pending : t.pending = s.pending
  grade : t.grade = s.grade
  loess : swf zeroByte s.loess = true → swf zeroByte t.loess = true
  counters : ∀ k, sget zeroNat s.boot.cnt k ≤ sget zeroNat t.boot.cnt k
  revoked : ∀ k, k < 4 → s.boot.revoked.testBit k = true → t.boot.revoked.testBit k = true

theorem Keeps.refl (s : State) : Keeps s s := ⟨rfl, rfl, id, fun _ => le_refl _, fun _ _ => id⟩

theorem Keeps.trans {s t u : State} (h : Keeps s t) (k : Keeps t u) : Keeps s u :=
  ⟨k.pending.trans h.pending, k.grade.trans h.grade, fun x => k.loess (h.loess x),
    fun i => le_trans (h.counters i) (k.counters i), fun i hi x => k.revoked i hi (h.revoked i hi x)⟩

/-- An update of fields that `Keeps` does not speak of. -/
theorem keeps_mk {s0 s : State} (h : Keeps s0 s)
    {x_regs : SMap Word} {x_shadow : SMap (Option Word)} {x_snap : SMap (Option Word)} {x_latch : SMap (Option Word)}
    {x_caught : SMap Caught} {x_unmasked : List Nat} {x_counted : SMap (Nat × Nat)} {x_seqMark : Nat} {x_wbRegs : List
    (Nat × Nat × Nat)} {x_wbSlots : List (Nat × Nat)} {x_phase : Nat} {x_held : Bool} {x_trans : Option (Nat × Bool)}
    {x_tripped : Bool} {x_gated : SMap Bool} {x_kstepTo : Option Nat} {x_resets : List ResetDue} {x_draws : List Nat}
    {x_drawNow : Nat} {x_tdieLim : Option Nat} {x_warned : SMap Bool} {x_kc : Nat} {x_late : Nat} {x_hung : Bool}
    {x_setpLate : Bool} {x_gstep : Bool} {x_clusters : SMap Cluster} {x_preds : SMap Nat} {x_poison : SMap Bool}
    {x_sel : SMap Nat} {x_wr : SMap Bool} {x_pmes : SMap Pme} {x_dies : SMap Stack} {x_jobs : List Job} {x_jobOrd :
    Nat} {x_written : SMap (Option Who)} {x_notices : List Notice} {x_noted : List (Nat × Nat × Who)} {x_wheel : SMap
    Nat} {x_order : SMap (List Nat)} {x_starved : SMap Bool} {x_ports : SMap Port} {x_cvn : Cvn} {x_relays : List
    RelaySt} {x_reds : List Red} {x_early : List (Nat × List Byte)} {x_tandem : SMap TUnit} {x_teth : Teth} {x_rings :
    SMap Ring} {x_events : List Ev} {x_gap : Bool} {x_pause : Option Pause} {x_checks : SMap Chk} {x_svc : Svc} {x_tap
    : Tap} {x_side : Side} {x_out : List Out} {x_fresh : Nat} {x_saved : List (List Byte × Cluster)} :
    Keeps s0 (State.mk s.pending s.grade x_regs x_shadow x_snap x_latch x_caught x_unmasked x_counted x_seqMark
    x_wbRegs x_wbSlots x_phase x_held x_trans x_tripped x_gated x_kstepTo x_resets x_draws x_drawNow x_tdieLim
    x_warned x_kc x_late x_hung x_setpLate x_gstep x_clusters x_preds s.loess x_poison x_sel x_wr x_pmes x_dies x_jobs
    x_jobOrd x_written x_notices x_noted x_wheel x_order x_starved x_ports x_cvn x_relays x_reds x_early x_tandem
    x_teth x_rings x_events x_gap x_pause x_checks x_svc s.boot x_tap x_side x_out x_fresh x_saved) := ⟨h.pending, h.grade, h.loess, h.counters, h.revoked⟩

/-- The same as an equation, for rewriting. -/
theorem keeps_mk_eq {s0 s : State}
    {x_regs : SMap Word} {x_shadow : SMap (Option Word)} {x_snap : SMap (Option Word)} {x_latch : SMap (Option Word)}
    {x_caught : SMap Caught} {x_unmasked : List Nat} {x_counted : SMap (Nat × Nat)} {x_seqMark : Nat} {x_wbRegs : List
    (Nat × Nat × Nat)} {x_wbSlots : List (Nat × Nat)} {x_phase : Nat} {x_held : Bool} {x_trans : Option (Nat × Bool)}
    {x_tripped : Bool} {x_gated : SMap Bool} {x_kstepTo : Option Nat} {x_resets : List ResetDue} {x_draws : List Nat}
    {x_drawNow : Nat} {x_tdieLim : Option Nat} {x_warned : SMap Bool} {x_kc : Nat} {x_late : Nat} {x_hung : Bool}
    {x_setpLate : Bool} {x_gstep : Bool} {x_clusters : SMap Cluster} {x_preds : SMap Nat} {x_poison : SMap Bool}
    {x_sel : SMap Nat} {x_wr : SMap Bool} {x_pmes : SMap Pme} {x_dies : SMap Stack} {x_jobs : List Job} {x_jobOrd :
    Nat} {x_written : SMap (Option Who)} {x_notices : List Notice} {x_noted : List (Nat × Nat × Who)} {x_wheel : SMap
    Nat} {x_order : SMap (List Nat)} {x_starved : SMap Bool} {x_ports : SMap Port} {x_cvn : Cvn} {x_relays : List
    RelaySt} {x_reds : List Red} {x_early : List (Nat × List Byte)} {x_tandem : SMap TUnit} {x_teth : Teth} {x_rings :
    SMap Ring} {x_events : List Ev} {x_gap : Bool} {x_pause : Option Pause} {x_checks : SMap Chk} {x_svc : Svc} {x_tap
    : Tap} {x_side : Side} {x_out : List Out} {x_fresh : Nat} {x_saved : List (List Byte × Cluster)} :
    Keeps s0 (State.mk s.pending s.grade x_regs x_shadow x_snap x_latch x_caught x_unmasked x_counted x_seqMark
    x_wbRegs x_wbSlots x_phase x_held x_trans x_tripped x_gated x_kstepTo x_resets x_draws x_drawNow x_tdieLim
    x_warned x_kc x_late x_hung x_setpLate x_gstep x_clusters x_preds s.loess x_poison x_sel x_wr x_pmes x_dies x_jobs
    x_jobOrd x_written x_notices x_noted x_wheel x_order x_starved x_ports x_cvn x_relays x_reds x_early x_tandem
    x_teth x_rings x_events x_gap x_pause x_checks x_svc s.boot x_tap x_side x_out x_fresh x_saved) = Keeps s0 s :=
  propext ⟨fun h => ⟨h.pending, h.grade, h.loess, h.counters, h.revoked⟩, fun h => ⟨h.pending, h.grade, h.loess, h.counters, h.revoked⟩⟩

/-- The same where the boot record changes too, but for its counters and revoked slots. -/
theorem keeps_boot_eq {s0 s : State}
    {b_sel : Bool} {b_act : Bool} {b_fw0 : FwBank} {b_fw1 : FwBank} {b_recovery : Bool} {b_rise : Bool} {b_switching :
    Option (Nat × Nat × Bool)} {b_irqs : List Nat} {b_meas : SMap (List Byte)} {b_glz : Option (List Byte × FwBank)}
    {b_rtn : Option (List Byte × FwBank)} {b_beds : SMap (Option FwBank)} {b_bedsOld : SMap (Option FwBank)}
    {x_regs : SMap Word} {x_shadow : SMap (Option Word)} {x_snap : SMap (Option Word)} {x_latch : SMap (Option Word)}
    {x_caught : SMap Caught} {x_unmasked : List Nat} {x_counted : SMap (Nat × Nat)} {x_seqMark : Nat} {x_wbRegs : List
    (Nat × Nat × Nat)} {x_wbSlots : List (Nat × Nat)} {x_phase : Nat} {x_held : Bool} {x_trans : Option (Nat × Bool)}
    {x_tripped : Bool} {x_gated : SMap Bool} {x_kstepTo : Option Nat} {x_resets : List ResetDue} {x_draws : List Nat}
    {x_drawNow : Nat} {x_tdieLim : Option Nat} {x_warned : SMap Bool} {x_kc : Nat} {x_late : Nat} {x_hung : Bool}
    {x_setpLate : Bool} {x_gstep : Bool} {x_clusters : SMap Cluster} {x_preds : SMap Nat} {x_poison : SMap Bool}
    {x_sel : SMap Nat} {x_wr : SMap Bool} {x_pmes : SMap Pme} {x_dies : SMap Stack} {x_jobs : List Job} {x_jobOrd :
    Nat} {x_written : SMap (Option Who)} {x_notices : List Notice} {x_noted : List (Nat × Nat × Who)} {x_wheel : SMap
    Nat} {x_order : SMap (List Nat)} {x_starved : SMap Bool} {x_ports : SMap Port} {x_cvn : Cvn} {x_relays : List
    RelaySt} {x_reds : List Red} {x_early : List (Nat × List Byte)} {x_tandem : SMap TUnit} {x_teth : Teth} {x_rings :
    SMap Ring} {x_events : List Ev} {x_gap : Bool} {x_pause : Option Pause} {x_checks : SMap Chk} {x_svc : Svc} {x_tap
    : Tap} {x_side : Side} {x_out : List Out} {x_fresh : Nat} {x_saved : List (List Byte × Cluster)} :
    Keeps s0 (State.mk s.pending s.grade x_regs x_shadow x_snap x_latch x_caught x_unmasked x_counted x_seqMark
    x_wbRegs x_wbSlots x_phase x_held x_trans x_tripped x_gated x_kstepTo x_resets x_draws x_drawNow x_tdieLim
    x_warned x_kc x_late x_hung x_setpLate x_gstep x_clusters x_preds s.loess x_poison x_sel x_wr x_pmes x_dies x_jobs
    x_jobOrd x_written x_notices x_noted x_wheel x_order x_starved x_ports x_cvn x_relays x_reds x_early x_tandem
    x_teth x_rings x_events x_gap x_pause x_checks x_svc (Boot.mk b_sel b_act b_fw0 b_fw1 s.boot.cnt s.boot.revoked
    b_recovery b_rise b_switching b_irqs b_meas b_glz b_rtn b_beds b_bedsOld) x_tap x_side x_out x_fresh x_saved) = Keeps s0 s :=
  propext ⟨fun h => ⟨h.pending, h.grade, h.loess, h.counters, h.revoked⟩, fun h => ⟨h.pending, h.grade, h.loess, h.counters, h.revoked⟩⟩

/-- An update that writes Loess memory in canonical form. -/
theorem keeps_loess {s0 s : State} (h : Keeps s0 s) {m : SMap Byte} (hm : swf zeroByte s.loess = true → swf zeroByte m = true)
    {x_regs : SMap Word} {x_shadow : SMap (Option Word)} {x_snap : SMap (Option Word)} {x_latch : SMap (Option Word)}
    {x_caught : SMap Caught} {x_unmasked : List Nat} {x_counted : SMap (Nat × Nat)} {x_seqMark : Nat} {x_wbRegs : List
    (Nat × Nat × Nat)} {x_wbSlots : List (Nat × Nat)} {x_phase : Nat} {x_held : Bool} {x_trans : Option (Nat × Bool)}
    {x_tripped : Bool} {x_gated : SMap Bool} {x_kstepTo : Option Nat} {x_resets : List ResetDue} {x_draws : List Nat}
    {x_drawNow : Nat} {x_tdieLim : Option Nat} {x_warned : SMap Bool} {x_kc : Nat} {x_late : Nat} {x_hung : Bool}
    {x_setpLate : Bool} {x_gstep : Bool} {x_clusters : SMap Cluster} {x_preds : SMap Nat} {x_poison : SMap Bool}
    {x_sel : SMap Nat} {x_wr : SMap Bool} {x_pmes : SMap Pme} {x_dies : SMap Stack} {x_jobs : List Job} {x_jobOrd :
    Nat} {x_written : SMap (Option Who)} {x_notices : List Notice} {x_noted : List (Nat × Nat × Who)} {x_wheel : SMap
    Nat} {x_order : SMap (List Nat)} {x_starved : SMap Bool} {x_ports : SMap Port} {x_cvn : Cvn} {x_relays : List
    RelaySt} {x_reds : List Red} {x_early : List (Nat × List Byte)} {x_tandem : SMap TUnit} {x_teth : Teth} {x_rings :
    SMap Ring} {x_events : List Ev} {x_gap : Bool} {x_pause : Option Pause} {x_checks : SMap Chk} {x_svc : Svc} {x_tap
    : Tap} {x_side : Side} {x_out : List Out} {x_fresh : Nat} {x_saved : List (List Byte × Cluster)} :
    Keeps s0 (State.mk s.pending s.grade x_regs x_shadow x_snap x_latch x_caught x_unmasked x_counted x_seqMark
    x_wbRegs x_wbSlots x_phase x_held x_trans x_tripped x_gated x_kstepTo x_resets x_draws x_drawNow x_tdieLim
    x_warned x_kc x_late x_hung x_setpLate x_gstep x_clusters x_preds m x_poison x_sel x_wr x_pmes x_dies x_jobs
    x_jobOrd x_written x_notices x_noted x_wheel x_order x_starved x_ports x_cvn x_relays x_reds x_early x_tandem
    x_teth x_rings x_events x_gap x_pause x_checks x_svc s.boot x_tap x_side x_out x_fresh x_saved) := ⟨h.pending, h.grade, fun x => hm (h.loess x), h.counters, h.revoked⟩

/-- An update of the boot record that leaves counters and revoked slots. -/
theorem keeps_boot {s0 s : State} (h : Keeps s0 s) {b : Boot} (hc : b.cnt = s.boot.cnt) (hr : b.revoked = s.boot.revoked)
    {x_regs : SMap Word} {x_shadow : SMap (Option Word)} {x_snap : SMap (Option Word)} {x_latch : SMap (Option Word)}
    {x_caught : SMap Caught} {x_unmasked : List Nat} {x_counted : SMap (Nat × Nat)} {x_seqMark : Nat} {x_wbRegs : List
    (Nat × Nat × Nat)} {x_wbSlots : List (Nat × Nat)} {x_phase : Nat} {x_held : Bool} {x_trans : Option (Nat × Bool)}
    {x_tripped : Bool} {x_gated : SMap Bool} {x_kstepTo : Option Nat} {x_resets : List ResetDue} {x_draws : List Nat}
    {x_drawNow : Nat} {x_tdieLim : Option Nat} {x_warned : SMap Bool} {x_kc : Nat} {x_late : Nat} {x_hung : Bool}
    {x_setpLate : Bool} {x_gstep : Bool} {x_clusters : SMap Cluster} {x_preds : SMap Nat} {x_poison : SMap Bool}
    {x_sel : SMap Nat} {x_wr : SMap Bool} {x_pmes : SMap Pme} {x_dies : SMap Stack} {x_jobs : List Job} {x_jobOrd :
    Nat} {x_written : SMap (Option Who)} {x_notices : List Notice} {x_noted : List (Nat × Nat × Who)} {x_wheel : SMap
    Nat} {x_order : SMap (List Nat)} {x_starved : SMap Bool} {x_ports : SMap Port} {x_cvn : Cvn} {x_relays : List
    RelaySt} {x_reds : List Red} {x_early : List (Nat × List Byte)} {x_tandem : SMap TUnit} {x_teth : Teth} {x_rings :
    SMap Ring} {x_events : List Ev} {x_gap : Bool} {x_pause : Option Pause} {x_checks : SMap Chk} {x_svc : Svc} {x_tap
    : Tap} {x_side : Side} {x_out : List Out} {x_fresh : Nat} {x_saved : List (List Byte × Cluster)} :
    Keeps s0 (State.mk s.pending s.grade x_regs x_shadow x_snap x_latch x_caught x_unmasked x_counted x_seqMark
    x_wbRegs x_wbSlots x_phase x_held x_trans x_tripped x_gated x_kstepTo x_resets x_draws x_drawNow x_tdieLim
    x_warned x_kc x_late x_hung x_setpLate x_gstep x_clusters x_preds s.loess x_poison x_sel x_wr x_pmes x_dies x_jobs
    x_jobOrd x_written x_notices x_noted x_wheel x_order x_starved x_ports x_cvn x_relays x_reds x_early x_tandem
    x_teth x_rings x_events x_gap x_pause x_checks x_svc b x_tap x_side x_out x_fresh x_saved) :=
  ⟨h.pending, h.grade, h.loess, fun k => hc ▸ h.counters k,
    fun k hk x => hr ▸ h.revoked k hk x⟩

theorem keeps_ite {s0 : State} {c : Prop} [Decidable c] {a b : State} (ha : Keeps s0 a) (hb : Keeps s0 b) :
    Keeps s0 (if c then a else b) := by
  split
  · exact ha
  · exact hb

theorem keeps_foldl {s0 : State} {β : Type} {f : State → β → State} (hf : ∀ s x, Keeps s0 s → Keeps s0 (f s x)) {l : List β} {s : State}
    (h : Keeps s0 s) : Keeps s0 (l.foldl f s) := by
  induction l generalizing s with
  | nil => exact h
  | cons x l ih => exact ih (hf s x h)

theorem keeps_foldl_fst {s0 : State} {β γ : Type} {f : State × γ → β → State × γ} (hf : ∀ r x, Keeps s0 r.1 → Keeps s0 (f r x).1)
    {l : List β} {r : State × γ} (h : Keeps s0 r.1) : Keeps s0 (l.foldl f r).1 := by
  induction l generalizing r with
  | nil => exact h
  | cons x l ih => exact ih (hf r x h)

/-- Every state an optional result holds. -/
structure KeepsOpt (s0 : State) (o : Option State) : Prop where
  get : ∀ t, o = some t → Keeps s0 t

theorem keepsOpt_none {s0 : State} : KeepsOpt s0 none := ⟨by
  intro _ h
  cases h⟩

theorem keepsOpt_some {s0 t : State} (h : Keeps s0 t) : KeepsOpt s0 (some t) := ⟨by
  intro _ e
  cases e
  exact h⟩

theorem keepsOpt_map {s0 : State} {β : Type} {f : β → State} (h : ∀ x, Keeps s0 (f x)) {o : Option β} :
    KeepsOpt s0 (o.map f) := by
  cases o with
  | none => exact keepsOpt_none
  | some x => exact keepsOpt_some (h x)

theorem keepsOpt_get {s0 t : State} {o : Option State} (e : o = some t) (h : KeepsOpt s0 o) : Keeps s0 t := h.get t e

/-- Every state an outcome goes on with. -/
structure KeepsOut (s0 : State) (o : Host.Outcome State Fault Refusal) : Prop where
  get : ∀ t, o = .next t → Keeps s0 t

theorem keepsOut_next {s0 t : State} (h : Keeps s0 t) : KeepsOut s0 (.next t) := ⟨by
  intro _ e
  cases e
  exact h⟩

theorem keepsOut_refused {s0 : State} {r : Refusal} : KeepsOut s0 (.refused r) := ⟨by
  intro _ e
  cases e⟩

theorem keepsOut_fault {s0 : State} {r : Fault} : KeepsOut s0 (.fault r) := ⟨by
  intro _ e
  cases e⟩

theorem keeps_fst {s0 t : State} {β : Type} {p : State × β} {b : β} (e : p = (t, b)) (h : Keeps s0 p.1) : Keeps s0 t := by
  subst e
  exact h

theorem keeps_snd {s0 t : State} {β : Type} {p : β × State} {b : β} (e : p = (b, t)) (h : Keeps s0 p.2) : Keeps s0 t := by
  subst e
  exact h

end Sys2Proof.Machine
end

