-- ==== Sys2Proof/Laws/KeepsOps.lean ====
section
/-! SUPPORT. `Keeps` for the operations of Ops, Ecc. -/

set_option linter.all false

namespace Sys2Proof.Machine

theorem State.setReg_keeps {z : State} (s : State) (a : Nat) (v : Word)
    (hk : Keeps z s) : Keeps z (State.setReg s a v) := by
  unfold State.setReg
  try dsimp only
  iterate 24 (try any_goals (first | with_reducible assumption | simp only [keeps_mk_eq] | split))

theorem State.setRegN_keeps {z : State} (s : State) (a : Nat) (v : Nat)
    (hk : Keeps z s) : Keeps z (State.setRegN s a v) := by
  unfold State.setRegN
  try dsimp only
  iterate 24 (try any_goals (first | with_reducible assumption | with_reducible apply State.setReg_keeps | split))

theorem State.setFld_keeps {z : State} (s : State) (a : Nat) (lo : Nat) (n : Nat) (v : Nat)
    (hk : Keeps z s) : Keeps z (State.setFld s a lo n v) := by
  unfold State.setFld
  try dsimp only
  iterate 24 (try any_goals (first | with_reducible assumption | with_reducible apply State.setRegN_keeps | split))

theorem State.setReg64_keeps {z : State} (s : State) (a : Nat) (v : Nat)
    (hk : Keeps z s) : Keeps z (State.setReg64 s a v) := by
  unfold State.setReg64
  try dsimp only
  iterate 24 (try any_goals (first | with_reducible assumption | with_reducible apply State.setRegN_keeps | split))

theorem State.noteCount_keeps {z : State} (s : State) (a : Nat) (old : Nat) (n : Nat)
    (hk : Keeps z s) : Keeps z (State.noteCount s a old n) := by
  unfold State.noteCount
  try dsimp only
  iterate 24 (try any_goals (first | with_reducible assumption | with_reducible apply keeps_ite | simp only [keeps_mk_eq] | split))

theorem State.count_keeps {z : State} (s : State) (a : Nat) (n : Nat)
    (hk : Keeps z s) : Keeps z (State.count s a n) := by
  unfold State.count
  try dsimp only
  iterate 24 (try any_goals (first | with_reducible assumption | with_reducible apply State.noteCount_keeps | with_reducible apply State.setRegN_keeps | split))

theorem State.count64_keeps {z : State} (s : State) (a : Nat) (n : Nat)
    (hk : Keeps z s) : Keeps z (State.count64 s a n) := by
  unfold State.count64
  try dsimp only
  iterate 24 (try any_goals (first | with_reducible assumption | with_reducible apply State.noteCount_keeps | with_reducible apply State.setReg64_keeps | with_reducible apply keeps_ite | split))

theorem State.newKc_keeps {z : State} (s : State)
    (hk : Keeps z s) : Keeps z (State.newKc s) := by
  unfold State.newKc
  try dsimp only
  iterate 24 (try any_goals (first | with_reducible assumption | with_reducible apply keeps_ite | simp only [keeps_mk_eq] | split))

theorem State.wbWrote_keeps {z : State} (s : State) (a : Nat) (len : Nat) (mask : Nat)
    (hk : Keeps z s) : Keeps z (State.wbWrote s a len mask) := by
  unfold State.wbWrote
  try dsimp only
  iterate 24 (try any_goals (first | with_reducible assumption | simp only [keeps_mk_eq] | split))

theorem State.setCl_keeps {z : State} (s : State) (n : Nat) (c : Cluster)
    (hk : Keeps z s) : Keeps z (State.setCl s n c) := by
  unfold State.setCl
  try dsimp only
  iterate 24 (try any_goals (first | with_reducible assumption | simp only [keeps_mk_eq] | split))

theorem State.setDie_keeps {z : State} (s : State) (k : Nat) (d : Stack)
    (hk : Keeps z s) : Keeps z (State.setDie s k d) := by
  unfold State.setDie
  try dsimp only
  iterate 24 (try any_goals (first | with_reducible assumption | simp only [keeps_mk_eq] | split))

theorem State.setPort_keeps {z : State} (s : State) (p : Nat) (x : Port)
    (hk : Keeps z s) : Keeps z (State.setPort s p x) := by
  unfold State.setPort
  try dsimp only
  iterate 24 (try any_goals (first | with_reducible assumption | simp only [keeps_mk_eq] | split))

theorem State.setRing_keeps {z : State} (s : State) (r : Nat) (x : Ring)
    (hk : Keeps z s) : Keeps z (State.setRing s r x) := by
  unfold State.setRing
  try dsimp only
  iterate 24 (try any_goals (first | with_reducible assumption | simp only [keeps_mk_eq] | split))

theorem State.setPme_keeps {z : State} (s : State) (p : Nat) (x : Pme)
    (hk : Keeps z s) : Keeps z (State.setPme s p x) := by
  unfold State.setPme
  try dsimp only
  iterate 24 (try any_goals (first | with_reducible assumption | simp only [keeps_mk_eq] | split))

theorem State.setUnit_keeps {z : State} (s : State) (e : Nat) (x : TUnit)
    (hk : Keeps z s) : Keeps z (State.setUnit s e x) := by
  unfold State.setUnit
  try dsimp only
  iterate 24 (try any_goals (first | with_reducible assumption | simp only [keeps_mk_eq] | split))

theorem State.setBits_keeps {z : State} (s : State) (a : Nat) (m : Nat)
    (hk : Keeps z s) : Keeps z (State.setBits s a m) := by
  unfold State.setBits
  try dsimp only
  iterate 24 (try any_goals (first | with_reducible assumption | with_reducible apply State.setRegN_keeps | with_reducible apply keeps_ite | simp only [keeps_mk_eq] | split))

theorem State.noteClear_keeps {z : State} (s : State) (a : Nat) (m : Nat)
    (hk : Keeps z s) : Keeps z (State.noteClear s a m) := by
  unfold State.noteClear
  try dsimp only
  iterate 24 (try any_goals (first | with_reducible assumption | with_reducible apply keeps_ite | simp only [keeps_mk_eq] | split))

theorem State.dropBits_keeps {z : State} (s : State) (a : Nat) (m : Nat)
    (hk : Keeps z s) : Keeps z (State.dropBits s a m) := by
  unfold State.dropBits
  try dsimp only
  iterate 24 (try any_goals (first | with_reducible assumption | with_reducible apply State.setReg_keeps | with_reducible apply keeps_ite | simp only [keeps_mk_eq] | split))

theorem State.putRegs_keeps {z : State} (s : State) (rs : List (Nat × Nat))
    (hk : Keeps z s) : Keeps z (State.putRegs s rs) := by
  unfold State.putRegs
  try dsimp only
  iterate 24 (try any_goals (first | with_reducible assumption | (intro _ _ _; try dsimp only) | intro _ | with_reducible apply State.setRegN_keeps | with_reducible apply keeps_foldl | split))

theorem State.capture_keeps {z : State} (s : State) (rank : Nat → Nat) (a : Nat) (v : Nat) (rest : List (Nat × Nat))
    (hk : Keeps z s) : Keeps z (State.capture s rank a v rest) := by
  unfold State.capture
  try dsimp only
  iterate 24 (try any_goals (first | with_reducible assumption | with_reducible apply State.putRegs_keeps | with_reducible apply keeps_ite | simp only [keeps_mk_eq] | split))

theorem State.busyW_keeps {z : State} (s : State) (w : Win)
    (hk : Keeps z s) : Keeps z (State.busyW s w) := by
  unfold State.busyW
  try dsimp only
  iterate 24 (try any_goals (first | with_reducible assumption | with_reducible apply State.setBits_keeps | split))

theorem State.toHost_keeps {z : State} (s : State) (act : Nat) (m : HMsg)
    (hk : Keeps z s) : Keeps z (State.toHost s act m) := by
  unfold State.toHost
  try dsimp only
  iterate 24 (try any_goals (first | with_reducible assumption | with_reducible apply keeps_ite | simp only [keeps_mk_eq] | split))

theorem State.fromHost_keeps {z : State} (s : State) (act : Nat)
    (hk : Keeps z s) : Keeps z (State.fromHost s act) := by
  unfold State.fromHost
  try dsimp only
  iterate 24 (try any_goals (first | with_reducible assumption | with_reducible apply keeps_ite | simp only [keeps_mk_eq] | split))

theorem State.complete_keeps {z : State} (s : State) (space : Nat) (addr : Nat) (tag : Nat) (m : HMsg)
    (hk : Keeps z s) : Keeps z (State.complete s space addr tag m) := by
  unfold State.complete
  try dsimp only
  iterate 24 (try any_goals (first | with_reducible assumption | with_reducible apply keeps_ite | simp only [keeps_mk_eq] | split))

theorem State.takeTag_keeps {z : State} (s : State)
    (hk : Keeps z s) : Keeps z (State.takeTag s).2 := by
  unfold State.takeTag
  try dsimp only
  iterate 24 (try any_goals (first | with_reducible assumption | with_reducible apply keeps_ite | simp only [keeps_mk_eq] | split))

theorem State.completeWord_keeps {z : State} (s : State) (a : Nat) (v : Word)
    (hk : Keeps z s) : Keeps z (State.completeWord s a v) := by
  unfold State.completeWord
  try dsimp only
  iterate 24 (try any_goals (first | with_reducible assumption | with_reducible apply State.complete_keeps | with_reducible apply State.takeTag_keeps | with_reducible apply keeps_ite | with_reducible refine keeps_fst (by assumption) ?_ | with_reducible refine keeps_snd (by assumption) ?_ | split))

theorem State.trigger_keeps {z : State} (s : State) (v : Nat)
    (hk : Keeps z s) : Keeps z (State.trigger s v) := by
  unfold State.trigger
  try dsimp only
  iterate 24 (try any_goals (first | with_reducible assumption | with_reducible apply State.setBits_keeps | with_reducible apply State.toHost_keeps | with_reducible apply keeps_ite | simp only [keeps_mk_eq, keeps_boot_eq] | split))

theorem State.queueEvent_keeps {z : State} (s : State) (e : Ev)
    (hk : Keeps z s) : Keeps z (State.queueEvent s e) := by
  unfold State.queueEvent
  try dsimp only
  iterate 24 (try any_goals (first | with_reducible assumption | with_reducible apply keeps_ite | simp only [keeps_mk_eq] | split))

theorem State.raise_keeps {z : State} (s : State) (i : Nat) (scls : Nat) (u : Nat) (d0 : Nat) (d1 : Nat) (isHeld : Bool)
    (hk : Keeps z s) : Keeps z (State.raise s i scls u d0 d1 isHeld) := by
  unfold State.raise
  try dsimp only
  iterate 24 (try any_goals (first | with_reducible assumption | intro _ | with_reducible apply State.setRegN_keeps | with_reducible apply State.count_keeps | with_reducible apply State.queueEvent_keeps | with_reducible apply keeps_ite | simp only [keeps_mk_eq] | split))

theorem State.setTth_keeps {z : State} (s : State) (st : Nat)
    (hk : Keeps z s) : Keeps z (State.setTth s st) := by
  unfold State.setTth
  try dsimp only
  iterate 24 (try any_goals (first | with_reducible assumption | with_reducible apply State.setFld_keeps | with_reducible apply State.trigger_keeps | with_reducible apply keeps_ite | split))

theorem State.tthErr_keeps {z : State} (s : State) (cause : Nat) (space : Nat) (addr : Nat)
    (hk : Keeps z s) : Keeps z (State.tthErr s cause space addr) := by
  unfold State.tthErr
  try dsimp only
  iterate 24 (try any_goals (first | with_reducible assumption | with_reducible apply State.capture_keeps | with_reducible apply State.trigger_keeps | with_reducible apply State.raise_keeps | with_reducible apply keeps_ite | split))

theorem State.putFlags_keeps {z : State} (s : State) (n : Nat) (f : Flg) (isHeld : Bool)
    (hk : Keeps z s) : Keeps z (State.putFlags s n f isHeld) := by
  unfold State.putFlags
  try dsimp only
  iterate 24 (try any_goals (first | with_reducible assumption | intro _ | with_reducible apply State.setBits_keeps | with_reducible apply State.raise_keeps | with_reducible apply keeps_ite | simp only [keeps_mk_eq] | split))

theorem State.stopCl_keeps {z : State} (s : State) (n : Nat) (cause : Nat)
    (hk : Keeps z s) : Keeps z (State.stopCl s n cause) := by
  unfold State.stopCl
  try dsimp only
  iterate 24 (try any_goals (first | with_reducible assumption | with_reducible apply State.setCl_keeps | with_reducible apply keeps_ite | simp only [keeps_mk_eq] | split))

theorem State.diverge_keeps {z : State} (s : State) (cause : Nat) (own : TRec)
    (hk : Keeps z s) : Keeps z (State.diverge s cause own) := by
  unfold State.diverge
  try dsimp only
  iterate 24 (try any_goals (first | with_reducible assumption | (intro _ _ _; try dsimp only) | intro _ | with_reducible apply State.count_keeps | with_reducible apply State.capture_keeps | with_reducible apply State.raise_keeps | with_reducible apply State.stopCl_keeps | with_reducible apply keeps_ite | with_reducible apply keeps_foldl | split))

theorem State.compare_keeps {z : State} (s : State) (own : TRec) (partner : TRec)
    (hk : Keeps z s) : Keeps z (State.compare s own partner) := by
  unfold State.compare
  try dsimp only
  iterate 24 (try any_goals (first | with_reducible assumption | with_reducible apply State.count64_keeps | with_reducible apply State.diverge_keeps | with_reducible apply keeps_ite | split))

theorem State.tandemOwn_keeps {z : State} (s : State) (e : Nat) (r : TRec)
    (hk : Keeps z s) : Keeps z (State.tandemOwn s e r) := by
  unfold State.tandemOwn
  try dsimp only
  iterate 24 (try any_goals (first | with_reducible assumption | with_reducible apply State.setUnit_keeps | with_reducible apply State.compare_keeps | with_reducible apply keeps_ite | simp only [keeps_mk_eq] | split))

theorem State.tandemPartner_keeps {z : State} (s : State) (e : Nat) (r : TRec)
    (hk : Keeps z s) : Keeps z (State.tandemPartner s e r) := by
  unfold State.tandemPartner
  try dsimp only
  iterate 24 (try any_goals (first | with_reducible assumption | with_reducible apply State.setUnit_keeps | with_reducible apply State.compare_keeps | with_reducible apply keeps_ite | simp only [keeps_mk_eq] | split))

theorem State.sendRecord_keeps {z : State} (s : State) (r : TRec)
    (hk : Keeps z s) : Keeps z (State.sendRecord s r) := by
  unfold State.sendRecord
  try dsimp only
  iterate 24 (try any_goals (first | with_reducible assumption | with_reducible apply State.setPort_keeps | with_reducible apply keeps_ite | simp only [keeps_mk_eq] | split))

theorem State.tandemRecord_keeps {z : State} (s : State) (n : Nat) (tile : Nat) (fmt : Nat) (task : Nat) (step : Nat) (k : Nat) (stage : Nat) (bs : List Byte)
    (hk : Keeps z s) : Keeps z (State.tandemRecord s n tile fmt task step k stage bs) := by
  unfold State.tandemRecord
  try dsimp only
  iterate 24 (try any_goals (first | with_reducible assumption | with_reducible apply State.setCl_keeps | with_reducible apply State.sendRecord_keeps | with_reducible apply State.tandemOwn_keeps | with_reducible apply State.tandemPartner_keeps | with_reducible apply keeps_ite | simp only [keeps_mk_eq] | split))

theorem State.trapTaken_keeps {z : State} (s : State) (n : Nat) (isHeld : Bool)
    (hk : Keeps z s) : Keeps z (State.trapTaken s n isHeld) := by
  unfold State.trapTaken
  try dsimp only
  iterate 24 (try any_goals (first | with_reducible assumption | with_reducible apply State.raise_keeps | with_reducible apply State.stopCl_keeps | with_reducible apply keeps_ite | split))

theorem State.recordEvent_keeps {z : State} (s : State) (n : Nat) (ix : Nat) (a : Nat)
    (hk : Keeps z s) : Keeps z (State.recordEvent s n ix a) := by
  unfold State.recordEvent
  try dsimp only
  iterate 24 (try any_goals (first | with_reducible assumption | intro _ | with_reducible apply keeps_ite | simp only [keeps_mk_eq] | split))

theorem State.keepCaught_keeps {z : State} (s : State) (w : Win) (a : Nat) (v : Nat)
    (hk : Keeps z s) : Keeps z (State.keepCaught s w a v) := by
  unfold State.keepCaught
  try dsimp only
  iterate 24 (try any_goals (first | with_reducible assumption | with_reducible apply State.putRegs_keeps | with_reducible apply State.setRegN_keeps | with_reducible apply State.trapTaken_keeps | with_reducible apply State.trigger_keeps | with_reducible apply keeps_ite | simp only [keeps_mk_eq] | split))

theorem State.drift_keeps {z : State} (s : State) (n : Nat) (slot : Nat) (isHeld : Bool)
    (hk : Keeps z s) : Keeps z (State.drift s n slot isHeld) := by
  unfold State.drift
  try dsimp only
  iterate 24 (try any_goals (first | with_reducible assumption | with_reducible apply State.setBits_keeps | with_reducible apply State.raise_keeps | with_reducible apply keeps_ite | split))

theorem State.jobFault_keeps {z : State} (s : State) (k : Nat) (cause : Nat) (wid : Nat) (wb : Bool) (isHeld : Bool)
    (hk : Keeps z s) : Keeps z (State.jobFault s k cause wid wb isHeld) := by
  unfold State.jobFault
  try dsimp only
  iterate 24 (try any_goals (first | with_reducible assumption | with_reducible apply State.capture_keeps | with_reducible apply State.raise_keeps | with_reducible apply keeps_ite | split))

theorem applyAct_keeps {z : State} (n : Nat) (isHeld : Bool) (s : State) (a : Act)
    (hk : Keeps z s) : Keeps z (applyAct n isHeld s a) := by
  unfold applyAct
  try dsimp only
  iterate 24 (try any_goals (first | with_reducible assumption | with_reducible apply State.putFlags_keeps | with_reducible apply State.setBits_keeps | with_reducible apply State.capture_keeps | with_reducible apply State.recordEvent_keeps | with_reducible apply State.trapTaken_keeps | with_reducible apply State.raise_keeps | with_reducible apply State.hazard_keeps | with_reducible apply State.count_keeps | with_reducible apply State.drift_keeps | with_reducible apply State.dropBits_keeps | with_reducible apply State.count64_keeps | with_reducible apply State.noteCount_keeps | with_reducible apply State.jobFault_keeps | with_reducible apply State.stopCl_keeps | with_reducible apply State.tandemRecord_keeps | with_reducible apply keeps_ite | simp only [keeps_mk_eq] | split))

theorem State.acts_keeps {z : State} (s : State) (n : Nat) (o : Option Nat) (as : List Act)
    (hk : Keeps z s) : Keeps z (State.acts s n o as) := by
  unfold State.acts
  try dsimp only
  iterate 24 (try any_goals (first | with_reducible assumption | (intro _ _ _; try dsimp only) | intro _ | with_reducible apply State.setCl_keeps | with_reducible apply applyAct_keeps | with_reducible apply keeps_ite | with_reducible apply keeps_foldl | simp only [keeps_mk_eq] | split))

theorem State.putBytes_keeps {z : State} (s : State) (a : Nat) (bs : List Byte)
    (hk : Keeps z s) : Keeps z (State.putBytes s a bs) := by
  exact keeps_loess hk (fun w => swf_sputs w _ _)

theorem State.putGran_keeps {z : State} (s : State) (g : Nat) (ws : List WByte)
    (hk : Keeps z s) : Keeps z (State.putGran s g ws) := by
  unfold State.putGran
  try dsimp only
  iterate 24 (try any_goals (first | with_reducible assumption | (intro _ _ _; try dsimp only) | intro _ | with_reducible apply State.putBytes_keeps | with_reducible apply keeps_ite | with_reducible apply keeps_foldl | simp only [keeps_mk_eq] | split))

theorem State.writeGran_keeps {z : State} (s : State) (own : Bool) (g : Nat) (ws : List WByte)
    (hk : Keeps z s) : Keeps z (State.writeGran s own g ws) := by
  unfold State.writeGran
  try dsimp only
  iterate 24 (try any_goals (first | with_reducible assumption | with_reducible apply State.putBytes_keeps | with_reducible apply State.putGran_keeps | with_reducible apply keeps_ite | simp only [keeps_mk_eq] | split))

theorem State.loessWriteAux_keeps {z : State} (own : Nat → Bool) (fuel : Nat) (s : State) (a : Nat) (bs : List Byte)
    (h : Keeps z s) : Keeps z (State.loessWriteAux s own fuel a bs) := by
  induction fuel generalizing s a bs with
  | zero => exact h
  | succ n ih =>
    unfold State.loessWriteAux
    split
    · exact h
    · exact ih _ _ _ (State.writeGran_keeps _ _ _ _ h)


theorem State.loessWriteBy_keeps {z : State} (s : State) (own : Nat → Bool) (a : Nat) (bs : List Byte)
    (hk : Keeps z s) : Keeps z (State.loessWriteBy s own a bs) := by
  exact State.loessWriteAux_keeps _ _ _ _ _ hk

theorem State.loessWrite_keeps {z : State} (s : State) (a : Nat) (bs : List Byte)
    (hk : Keeps z s) : Keeps z (State.loessWrite s a bs) := by
  unfold State.loessWrite
  try dsimp only
  iterate 24 (try any_goals (first | with_reducible assumption | with_reducible apply State.loessWriteBy_keeps | split))

theorem State.noteWrite_keeps {z : State} (s : State) (page : Nat) (k : Nat) (who : Who)
    (hk : Keeps z s) : Keeps z (State.noteWrite s page k who) := by
  unfold State.noteWrite
  try dsimp only
  iterate 24 (try any_goals (first | with_reducible assumption | (intro _ _ _; try dsimp only) | intro _ | with_reducible apply keeps_ite | with_reducible apply keeps_foldl | simp only [keeps_mk_eq] | split))

theorem State.noteRange_keeps {z : State} (s : State) (a : Nat) (n : Nat) (who : Who)
    (hk : Keeps z s) : Keeps z (State.noteRange s a n who) := by
  unfold State.noteRange
  try dsimp only
  iterate 24 (try any_goals (first | with_reducible assumption | (intro _ _ _; try dsimp only) | intro _ | with_reducible apply State.noteWrite_keeps | with_reducible apply keeps_ite | with_reducible apply keeps_foldl | split))

theorem State.agentWrite_keeps {z : State} (s : State) (a : Nat) (bs : List Byte) (who : Who)
    (hk : Keeps z s) : Keeps z (State.agentWrite s a bs who) := by
  unfold State.agentWrite
  try dsimp only
  iterate 24 (try any_goals (first | with_reducible assumption | with_reducible apply State.loessWrite_keeps | with_reducible apply State.noteRange_keeps | with_reducible apply keeps_ite | split))

theorem State.request_keeps {z : State} (s : State) (r : Req)
    (hk : Keeps z s) : Keeps z (State.request s r) := by
  unfold State.request
  try dsimp only
  iterate 24 (try any_goals (first | with_reducible assumption | with_reducible apply State.setDie_keeps | with_reducible apply keeps_ite | simp only [keeps_mk_eq] | split))

theorem State.claim_keeps {z : State} (s : State) (r : Req) (rs : List (Nat × Nat))
    (hk : Keeps z s) : Keeps z (State.claim s r rs) := by
  unfold State.claim
  try dsimp only
  iterate 24 (try any_goals (first | with_reducible assumption | (intro _ _ _; try dsimp only) | intro _ | with_reducible apply State.setDie_keeps | with_reducible apply keeps_ite | with_reducible apply keeps_foldl | simp only [keeps_mk_eq] | split))

theorem State.sendSlot_keeps {z : State} (s : State) (p : Nat) (act : Nat) (kind : Nat) (data : List Byte)
    (hk : Keeps z s) : Keeps z (State.sendSlot s p act kind data) := by
  unfold State.sendSlot
  try dsimp only
  iterate 24 (try any_goals (first | with_reducible assumption | with_reducible apply State.setPort_keeps | with_reducible apply keeps_ite | simp only [keeps_mk_eq] | split))

theorem State.dackOut_keeps {z : State} (s : State) (p : Nat) (dseq : Nat) (cl : Nat) (status : Nat)
    (hk : Keeps z s) : Keeps z (State.dackOut s p dseq cl status) := by
  unfold State.dackOut
  try dsimp only
  iterate 24 (try any_goals (first | with_reducible assumption | with_reducible apply State.sendSlot_keeps | with_reducible apply keeps_ite | split))

theorem State.receipt_keeps {z : State} (s : State) (r : Nat) (ix : Nat) (seq : Nat) (opc : Nat) (status : Nat) (res : List Nat) (irq : Bool)
    (hk : Keeps z s) : Keeps z (State.receipt s r ix seq opc status res irq) := by
  unfold State.receipt
  try dsimp only
  iterate 24 (try any_goals (first | with_reducible assumption | with_reducible apply State.toHost_keeps | with_reducible apply State.setRegN_keeps | with_reducible apply State.setRing_keeps | with_reducible apply State.trigger_keeps | with_reducible apply keeps_ite | simp only [keeps_mk_eq] | split))

theorem State.finish_keeps {z : State} (s : State) (r : Nat) (w : Wb) (status : Nat) (res : List Nat)
    (hk : Keeps z s) : Keeps z (State.finish s r w status res) := by
  unfold State.finish
  try dsimp only
  iterate 24 (try any_goals (first | with_reducible assumption | with_reducible apply State.setRing_keeps | with_reducible apply State.receipt_keeps | with_reducible apply keeps_ite | simp only [keeps_mk_eq] | split))

theorem State.setWb_keeps {z : State} (s : State) (r : Nat) (w : Wb)
    (hk : Keeps z s) : Keeps z (State.setWb s r w) := by
  unfold State.setWb
  try dsimp only
  iterate 24 (try any_goals (first | with_reducible assumption | intro _ | with_reducible apply State.setRing_keeps | with_reducible apply keeps_ite | simp only [keeps_mk_eq] | split))

theorem State.draw_keeps {z : State} (s : State)
    (hk : Keeps z s) : Keeps z (State.draw s) := by
  unfold State.draw
  try dsimp only
  iterate 24 (try any_goals (first | with_reducible assumption | simp only [keeps_mk_eq] | split))

theorem State.activate_keeps {z : State} (s : State) (k : Nat) (l : Nat)
    (hk : Keeps z s) : Keeps z (State.activate s k l) := by
  unfold State.activate
  try dsimp only
  iterate 24 (try any_goals (first | with_reducible assumption | intro _ | with_reducible apply State.count64_keeps | with_reducible apply State.setDie_keeps | with_reducible apply State.count_keeps | with_reducible apply keeps_ite | simp only [keeps_mk_eq] | split))

theorem State.throttle_keeps {z : State} (s : State) (k : Nat) (chan : Nat) (row : Nat)
    (hk : Keeps z s) : Keeps z (State.throttle s k chan row) := by
  unfold State.throttle
  try dsimp only
  iterate 24 (try any_goals (first | with_reducible assumption | intro _ | with_reducible apply State.setDie_keeps | with_reducible apply State.count_keeps | with_reducible apply State.raise_keeps | with_reducible apply keeps_ite | simp only [keeps_mk_eq] | split))

theorem State.touch_keeps {z : State} (s : State) (rs : List (Nat × Nat))
    (hk : Keeps z s) : Keeps z (State.touch s rs) := by
  unfold State.touch
  try dsimp only
  iterate 24 (try any_goals (first | with_reducible assumption | (intro _ _ _; try dsimp only) | intro _ | with_reducible apply State.activate_keeps | with_reducible apply keeps_ite | with_reducible apply keeps_foldl | split))

theorem State.mgmtTraffic_keeps {z : State} (s : State) (fg : Bool) (rs : List (Nat × Nat))
    (hk : Keeps z s) : Keeps z (State.mgmtTraffic s fg rs) := by
  unfold State.mgmtTraffic
  try dsimp only
  iterate 24 (try any_goals (first | with_reducible assumption | with_reducible apply State.touch_keeps | with_reducible apply State.claim_keeps | with_reducible apply keeps_ite | split))

theorem State.freeCodeword_keeps {z : State} (s : State) (cw : Nat)
    (hk : Keeps z s) : Keeps z (State.freeCodeword s cw) := by
  unfold State.freeCodeword
  try dsimp only
  iterate 24 (try any_goals (first | with_reducible assumption | intro _ | with_reducible apply State.putBytes_keeps | with_reducible apply keeps_ite | simp only [keeps_mk_eq] | split))

theorem State.uncorrectable_keeps {z : State} (s : State) (cw : Nat) (src : Nat) (who : Nat)
    (hk : Keeps z s) : Keeps z (State.uncorrectable s cw src who) := by
  unfold State.uncorrectable
  try dsimp only
  iterate 24 (try any_goals (first | with_reducible assumption | with_reducible apply State.count_keeps | with_reducible apply State.capture_keeps | with_reducible apply State.raise_keeps | with_reducible apply keeps_ite | simp only [keeps_mk_eq] | split))

theorem State.eccCase_keeps {z : State} (s : State) (cw : Nat) (src : Nat) (who : Nat) (newer : Bool) (c : EccCase)
    (hk : Keeps z s) : Keeps z (State.eccCase s cw src who newer c) := by
  unfold State.eccCase
  try dsimp only
  iterate 24 (try any_goals (first | with_reducible assumption | with_reducible apply State.setDie_keeps | with_reducible apply State.count_keeps | with_reducible apply State.uncorrectable_keeps | with_reducible apply State.freeCodeword_keeps | with_reducible apply keeps_ite | simp only [keeps_mk_eq] | split))

theorem State.eccAt_keeps {z : State} (s : State) (own : Nat → Bool) (cw : Nat) (src : Nat) (who : Nat) (c : EccCase)
    (hk : Keeps z s) : Keeps z (State.eccAt s own cw src who c) := by
  unfold State.eccAt
  try dsimp only
  iterate 24 (try any_goals (first | with_reducible assumption | with_reducible apply State.eccCase_keeps | with_reducible apply keeps_ite | split))

theorem State.eccReads_keeps {z : State} (s : State) (rs : List (Nat × Nat)) (who : Who) (ecc : List (Nat × EccCase))
    (hk : Keeps z s) : Keeps z (State.eccReads s rs who ecc) := by
  unfold State.eccReads
  try dsimp only
  iterate 24 (try any_goals (first | with_reducible assumption | (intro _ _ _; try dsimp only) | intro _ | with_reducible apply State.eccAt_keeps | with_reducible apply keeps_ite | with_reducible apply keeps_foldl | split))

theorem State.eccEdges_keeps {z : State} (s : State) (a : Nat) (n : Nat) (who : Who) (ecc : List (Nat × EccCase))
    (hk : Keeps z s) : Keeps z (State.eccEdges s a n who ecc) := by
  unfold State.eccEdges
  try dsimp only
  iterate 24 (try any_goals (first | with_reducible assumption | (intro _ _ _; try dsimp only) | intro _ | with_reducible apply State.eccAt_keeps | with_reducible apply keeps_ite | with_reducible apply keeps_foldl | split))

end Sys2Proof.Machine
end

