-- ==== Sys2Proof/Laws/KeepsCluster.lean ====
section
/-! SUPPORT. `Keeps` for the operations of Itinerary, ArrayCmds, GlazeCmds, DroverCmds, LoessCmds. -/

set_option linter.all false

namespace Sys2Proof.Machine

theorem State.issue_keeps {z : State} (s : State) (n : Nat) (h : Half) (f : Nat → Cluster → Option (Cluster × List Act))
    (hk : Keeps z s) : Keeps z (State.issue s n h f) := by
  unfold State.issue
  try dsimp only
  iterate 24 (try any_goals (first | with_reducible assumption | with_reducible apply State.setCl_keeps | with_reducible apply State.acts_keeps | with_reducible apply keeps_ite | simp only [keeps_mk_eq] | split))

theorem State.setPred_keeps {z : State} (s : State) (cl : Nat) (p : Nat) (v : Bool)
    (hk : Keeps z s) : Keeps z (State.setPred s cl p v) := by
  unfold State.setPred
  try dsimp only
  iterate 24 (try any_goals (first | with_reducible assumption | with_reducible apply State.raise_keeps | with_reducible apply keeps_ite | simp only [keeps_mk_eq] | split))

theorem State.openPmes_keeps {z : State} (s : State) (n : Nat) (task : Nat)
    (hk : Keeps z s) : Keeps z (State.openPmes s n task) := by
  unfold State.openPmes
  try dsimp only
  iterate 24 (try any_goals (first | with_reducible assumption | intro _ | with_reducible apply keeps_ite | simp only [keeps_mk_eq] | split))

theorem State.unitStep_keeps {z : State} (s : State) (n : Nat) (o : Option Nat) (f : Cluster → Option (Cluster × List Act))
    (hk : Keeps z s) : Keeps z (State.unitStep s n o f) := by
  unfold State.unitStep
  try dsimp only
  iterate 24 (try any_goals (first | with_reducible assumption | with_reducible apply State.setCl_keeps | with_reducible apply State.acts_keeps | with_reducible apply keeps_ite | simp only [keeps_mk_eq] | split))

theorem State.runActs_keeps {z : State} (s : State) (n : Nat) (as : List RunAct)
    (hk : Keeps z s) : Keeps z (State.runActs s n as) := by
  unfold State.runActs
  try dsimp only
  iterate 24 (try any_goals (first | with_reducible assumption | (intro _ _ _; try dsimp only) | intro _ | with_reducible apply State.acts_keeps | with_reducible apply keeps_ite | with_reducible apply keeps_foldl | split))

theorem State.claimLoad_keeps {z : State} (s : State) (before : State) (n : Nat)
    (hk : Keeps z s) : Keeps z (State.claimLoad s before n) := by
  unfold State.claimLoad
  try dsimp only
  iterate 24 (try any_goals (first | with_reducible assumption | with_reducible apply State.claim_keeps | with_reducible apply keeps_ite | simp only [keeps_mk_eq] | split))

theorem State.putBank_keeps {z : State} (s : State) (n : Nat) (l : GLoad) (img : List Byte)
    (hk : Keeps z s) : Keeps z (State.putBank s n l img) := by
  unfold State.putBank
  try dsimp only
  iterate 24 (try any_goals (first | with_reducible assumption | with_reducible apply State.setCl_keeps | with_reducible apply applyAct_keeps | with_reducible apply keeps_ite | simp only [keeps_mk_eq] | split))

theorem State.loadDone_keeps {z : State} (s : State) (n : Nat) (l : GLoad)
    (hk : Keeps z s) : Keeps z (State.loadDone s n l) := by
  unfold State.loadDone
  try dsimp only
  iterate 24 (try any_goals (first | with_reducible assumption | with_reducible apply State.touch_keeps | with_reducible apply State.setCl_keeps | with_reducible apply State.stopCl_keeps | with_reducible apply State.putBank_keeps | with_reducible apply keeps_ite | simp only [keeps_mk_eq] | split))

theorem State.loadReceipt_keeps {z : State} (s : State) (l : GLoad)
    (hk : Keeps z s) : Keeps z (State.loadReceipt s l) := by
  unfold State.loadReceipt
  try dsimp only
  iterate 24 (try any_goals (first | with_reducible assumption | with_reducible apply State.finish_keeps | with_reducible apply keeps_ite | simp only [keeps_mk_eq] | split))

theorem State.hazard_keeps {z : State} (s : State) (n : Nat) (page : Nat) (who : Who) (stage : Nat)
    (hk : Keeps z s) : Keeps z (State.hazard s n page who stage) := by
  unfold State.hazard
  try dsimp only
  iterate 24 (try any_goals (first | with_reducible assumption | (intro _ _ _; try dsimp only) | intro _ | with_reducible apply State.acts_keeps | with_reducible apply State.setCl_keeps | with_reducible apply keeps_ite | with_reducible apply keeps_foldl | simp only [keeps_mk_eq] | split))

theorem State.arm_keeps {z : State} (s : State) (n : Nat) (w : Watch)
    (hk : Keeps z s) : Keeps z (State.arm s n w) := by
  unfold State.arm
  try dsimp only
  iterate 24 (try any_goals (first | with_reducible assumption | (intro _ _ _; try dsimp only) | intro _ | with_reducible apply State.setCl_keeps | with_reducible apply State.hazard_keeps | with_reducible apply keeps_ite | with_reducible apply keeps_foldl | simp only [keeps_mk_eq] | split))

theorem State.drvFault_keeps {z : State} (s : State) (n : Nat) (dn : Nat) (cause : Nat) (addr : Nat)
    (hk : Keeps z s) : Keeps z (State.drvFault s n dn cause addr) := by
  unfold State.drvFault
  try dsimp only
  iterate 24 (try any_goals (first | with_reducible assumption | with_reducible apply State.setCl_keeps | with_reducible apply State.acts_keeps | with_reducible apply keeps_ite | simp only [keeps_mk_eq] | split))

theorem State.relayStore_keeps {z : State} (s : State) (n : Nat) (k : Nat) (w : Relay) (ws : List WByte)
    (hk : Keeps z s) : Keeps z (State.relayStore s n k w ws) := by
  unfold State.relayStore
  try dsimp only
  iterate 24 (try any_goals (first | with_reducible assumption | intro _ | with_reducible apply State.setPort_keeps | with_reducible apply keeps_ite | simp only [keeps_mk_eq] | split))

theorem State.issueWrite_keeps {z : State} (s : State) (n : Nat) (dn : Nat)
    (hk : Keeps z s) : Keeps z (State.issueWrite s n dn) := by
  unfold State.issueWrite
  try dsimp only
  iterate 24 (try any_goals (first | with_reducible assumption | with_reducible apply State.drvFault_keeps | with_reducible apply State.setCl_keeps | with_reducible apply State.count_keeps | with_reducible apply State.raise_keeps | with_reducible apply State.relayStore_keeps | with_reducible apply State.request_keeps | with_reducible apply keeps_ite | simp only [keeps_mk_eq] | split))

theorem State.issueAhead_keeps {z : State} (s : State) (n : Nat) (dn : Nat)
    (hk : Keeps z s) : Keeps z (State.issueAhead s n dn) := by
  unfold State.issueAhead
  try dsimp only
  iterate 24 (try any_goals (first | with_reducible assumption | with_reducible apply State.setCl_keeps | with_reducible apply State.count_keeps | with_reducible apply State.request_keeps | with_reducible apply keeps_ite | simp only [keeps_mk_eq] | split))

theorem State.issueRead_keeps {z : State} (s : State) (n : Nat) (dn : Nat)
    (hk : Keeps z s) : Keeps z (State.issueRead s n dn) := by
  unfold State.issueRead
  try dsimp only
  iterate 24 (try any_goals (first | with_reducible assumption | with_reducible apply State.issueAhead_keeps | with_reducible apply State.drvFault_keeps | with_reducible apply State.arm_keeps | with_reducible apply State.setCl_keeps | with_reducible apply State.acts_keeps | with_reducible apply State.request_keeps | with_reducible apply keeps_ite | simp only [keeps_mk_eq] | split))

theorem State.dropAccepted_keeps {z : State} (s : State) (k : Nat) (i : Nat)
    (hk : Keeps z s) : Keeps z (State.dropAccepted s k i) := by
  unfold State.dropAccepted
  try dsimp only
  iterate 24 (try any_goals (first | with_reducible assumption | with_reducible apply State.setDie_keeps | with_reducible apply keeps_ite | simp only [keeps_mk_eq] | split))

theorem State.answerTag_keeps {z : State} (s : State) (r : Req) (data : List Byte) (poison : Bool)
    (hk : Keeps z s) : Keeps z (State.answerTag s r data poison) := by
  unfold State.answerTag
  try dsimp only
  iterate 24 (try any_goals (first | with_reducible assumption | with_reducible apply State.setCl_keeps | with_reducible apply keeps_ite | simp only [keeps_mk_eq] | split))

theorem State.performRead_keeps {z : State} (s : State) (k : Nat) (i : Nat) (r : Req) (ecc : List (Fin 8 × EccCase))
    (hk : Keeps z s) : Keeps z (State.performRead s k i r ecc) := by
  unfold State.performRead
  try dsimp only
  iterate 24 (try any_goals (first | with_reducible assumption | (intro _ _ _; try dsimp only) | intro _ | with_reducible apply State.eccCase_keeps | with_reducible apply State.dropAccepted_keeps | with_reducible apply State.activate_keeps | with_reducible apply State.tthErr_keeps | with_reducible apply State.complete_keeps | with_reducible apply State.answerTag_keeps | with_reducible apply keeps_ite | with_reducible apply keeps_foldl | simp only [keeps_mk_eq] | split))

theorem State.carDone_keeps {z : State} (s : State) (src : ReqSrc)
    (hk : Keeps z s) : Keeps z (State.carDone s src) := by
  unfold State.carDone
  try dsimp only
  iterate 24 (try any_goals (first | with_reducible assumption | with_reducible apply State.dackOut_keeps | with_reducible apply keeps_ite | simp only [keeps_mk_eq] | split))

theorem State.performWrite_keeps {z : State} (s : State) (k : Nat) (i : Nat) (r : Req) (ecc : List (Fin 8 × EccCase))
    (hk : Keeps z s) : Keeps z (State.performWrite s k i r ecc) := by
  unfold State.performWrite
  try dsimp only
  iterate 24 (try any_goals (first | with_reducible assumption | (intro _ _ _; try dsimp only) | intro _ | with_reducible apply State.eccCase_keeps | with_reducible apply State.writeGran_keeps | with_reducible apply State.dropAccepted_keeps | with_reducible apply State.activate_keeps | with_reducible apply State.answerTag_keeps | with_reducible apply State.carDone_keeps | with_reducible apply keeps_ite | with_reducible apply keeps_foldl | simp only [keeps_mk_eq] | split))

theorem State.writeAt_keeps {z : State} (s : State) (k : Nat) (i : Nat) (ecc : List (Fin 8 × EccCase))
    (hk : Keeps z s) : Keeps z (State.writeAt s k i ecc) := by
  unfold State.writeAt
  try dsimp only
  iterate 24 (try any_goals (first | with_reducible assumption | with_reducible apply State.performWrite_keeps | with_reducible apply keeps_ite | simp only [keeps_mk_eq] | split))

theorem State.acceptReq_keeps {z : State} (s : State) (k : Nat) (act : Nat)
    (hk : Keeps z s) : KeepsOpt z (State.acceptReq s k act) := by
  unfold State.acceptReq
  try dsimp only
  iterate 24 (try any_goals (first | with_reducible assumption | intro _ | with_reducible apply State.setDie_keeps | with_reducible apply State.setCl_keeps | with_reducible apply State.noteWrite_keeps | with_reducible apply keeps_ite | simp only [keeps_mk_eq] | with_reducible apply keepsOpt_none | with_reducible apply keepsOpt_some | with_reducible apply keepsOpt_map | split))

theorem State.scrubStep_keeps {z : State} (s : State) (k : Nat) (ecc : List (Fin 8 × EccCase))
    (hk : Keeps z s) : KeepsOpt z (State.scrubStep s k ecc) := by
  unfold State.scrubStep
  try dsimp only
  iterate 24 (try any_goals (first | with_reducible assumption | (intro _ _ _; try dsimp only) | intro _ | with_reducible apply State.eccCase_keeps | with_reducible apply State.setDie_keeps | with_reducible apply State.setFld_keeps | with_reducible apply State.count_keeps | with_reducible apply State.activate_keeps | with_reducible apply keeps_ite | with_reducible apply keeps_foldl | with_reducible apply keeps_foldl_fst | simp only [keeps_mk_eq] | with_reducible apply keepsOpt_none | with_reducible apply keepsOpt_some | with_reducible apply keepsOpt_map | split))

theorem State.wearStep_keeps {z : State} (s : State) (k : Nat)
    (hk : Keeps z s) : KeepsOpt z (State.wearStep s k) := by
  unfold State.wearStep
  try dsimp only
  iterate 24 (try any_goals (first | with_reducible assumption | with_reducible apply State.setDie_keeps | with_reducible apply keeps_ite | simp only [keeps_mk_eq] | with_reducible apply keepsOpt_none | with_reducible apply keepsOpt_some | with_reducible apply keepsOpt_map | split))

theorem State.retryStep_keeps {z : State} (s : State) (k : Nat)
    (hk : Keeps z s) : KeepsOpt z (State.retryStep s k) := by
  unfold State.retryStep
  try dsimp only
  iterate 24 (try any_goals (first | with_reducible assumption | with_reducible apply State.setDie_keeps | with_reducible apply State.acceptReq_keeps | with_reducible apply keeps_ite | simp only [keeps_mk_eq] | with_reducible apply keepsOpt_none | with_reducible apply keepsOpt_some | with_reducible apply keepsOpt_map | with_reducible refine keepsOpt_get (by assumption) ?_ | split))

theorem State.memoryStep_keeps {z : State} (s : State) (k : Nat) (ecc : List (Fin 8 × EccCase)) (act : Nat)
    (hk : Keeps z s) : KeepsOpt z (State.memoryStep s k ecc act) := by
  unfold State.memoryStep
  try dsimp only
  iterate 24 (try any_goals (first | with_reducible assumption | with_reducible apply State.setDie_keeps | with_reducible apply State.acceptReq_keeps | with_reducible apply State.scrubStep_keeps | with_reducible apply State.wearStep_keeps | with_reducible apply State.retryStep_keeps | with_reducible apply keeps_ite | simp only [keeps_mk_eq] | with_reducible apply keepsOpt_none | with_reducible apply keepsOpt_some | with_reducible apply keepsOpt_map | with_reducible refine keepsOpt_get (by assumption) ?_ | split))

theorem State.armJob_keeps {z : State} (s : State) (n : Nat) (j : Job)
    (hk : Keeps z s) : Keeps z (State.armJob s n j) := by
  unfold State.armJob
  try dsimp only
  iterate 24 (try any_goals (first | with_reducible assumption | with_reducible apply State.arm_keeps | with_reducible apply keeps_ite | split))

theorem State.sendJob_keeps {z : State} (s : State) (j : Job)
    (hk : Keeps z s) : Keeps z (State.sendJob s j) := by
  unfold State.sendJob
  try dsimp only
  iterate 24 (try any_goals (first | with_reducible assumption | with_reducible apply State.claim_keeps | with_reducible apply keeps_ite | simp only [keeps_mk_eq] | split))

theorem State.noteRuns_keeps {z : State} (s : State) (j : Job) (runs : List (Nat × Nat))
    (hk : Keeps z s) : Keeps z (State.noteRuns s j runs) := by
  unfold State.noteRuns
  try dsimp only
  iterate 24 (try any_goals (first | with_reducible assumption | (intro _ _ _; try dsimp only) | intro _ | with_reducible apply State.noteWrite_keeps | with_reducible apply keeps_ite | with_reducible apply keeps_foldl | split))

theorem jobRun_write_keeps {z : State} (r : JobRun) (own : Nat → Bool) (a : Nat) (bs : List Byte)
    (hk : Keeps z r.s) : Keeps z (r.write own a bs).s :=
  State.loessWriteBy_keeps _ _ _ _ hk

theorem jobRun_guarded_keeps {z : State} (r : JobRun) (own : Nat → Bool) (rs : List (Nat × Nat)) (k : JobRun → JobRun)
    (hk : Keeps z r.s) (h : Keeps z (k { r with reads := rs ++ r.reads }).s) : Keeps z (r.guarded own rs k).s := by
  unfold JobRun.guarded
  split
  · exact hk
  · split
    · exact hk
    · exact h

theorem keeps_foldl_jobRun {z : State} {β : Type} {f : JobRun → β → JobRun}
    (hf : ∀ r x, Keeps z r.s → Keeps z (f r x).s) {l : List β} {r : JobRun} (h : Keeps z r.s) :
    Keeps z (l.foldl f r).s := by
  induction l generalizing r with
  | nil => exact h
  | cons x l ih => exact ih (hf r x h)

theorem jobBlock_keeps {z : State} (d : JobD) (own : Nat → Bool) (r : JobRun) (b : Nat × Nat)
    (hk : Keeps z r.s) : Keeps z (jobBlock d own r b).s :=
  jobRun_guarded_keeps _ _ _ _ hk (keeps_foldl_jobRun (fun r _ h => jobRun_write_keeps r _ _ _ h) hk)

theorem jobRow_keeps {z : State} (d : JobD) (own : Nat → Bool) (r : JobRun) (i : Nat)
    (hk : Keeps z r.s) : Keeps z (jobRow d own r i).s := by
  refine jobRun_guarded_keeps _ _ _ _ hk ?_
  dsimp only
  split
  · exact hk
  · exact jobRun_guarded_keeps _ _ _ _ hk (jobRun_write_keeps _ _ _ _ hk)

theorem State.runJob_keeps {z : State} (s : State) (j : Job) (hk : Keeps z s) : Keeps z (State.runJob s j).s := by
  unfold State.runJob JobRun.cleanse
  dsimp only
  simp only [keeps_mk_eq]
  split
  · exact keeps_foldl_jobRun (fun r _ h => keeps_foldl_jobRun (fun r _ h => jobBlock_keeps _ _ _ _ h) h) hk
  · exact keeps_foldl_jobRun (fun r _ h => jobRow_keeps _ _ _ _ h) hk
  · exact keeps_foldl_jobRun (fun r _ h => jobRun_write_keeps _ _ _ _ h) hk


theorem State.workJob_keeps {z : State} (s : State) (j : Job)
    (hk : Keeps z s) : Keeps z (State.workJob s j) := by
  unfold State.workJob
  dsimp only
  simp only [keeps_mk_eq]
  exact State.touch_keeps _ _ (State.noteRuns_keeps _ _ _ (State.runJob_keeps _ _ hk))

end Sys2Proof.Machine
end

