-- ==== Sys2Proof/Laws/KeepsPorts.lean ====
section
/-! SUPPORT. `Keeps` for the operations of Caravan, Reduction, Reset, RegRead, Ports, CheckUnits, TetherCmds, Grant, Events. -/

set_option linter.all false

namespace Sys2Proof.Machine

theorem State.setLnk_keeps {z : State} (s : State) (p : Nat) (st : Nat) (cause : Nat)
    (hk : Keeps z s) : Keeps z (State.setLnk s p st cause) := by
  unfold State.setLnk
  try dsimp only
  iterate 24 (try any_goals (first | with_reducible assumption | with_reducible apply State.setFld_keeps | split))

theorem State.emitFrame_keeps {z : State} (s : State) (p : Nat) (f : SentFrame)
    (hk : Keeps z s) : Keeps z (State.emitFrame s p f) := by
  unfold State.emitFrame
  try dsimp only
  iterate 24 (try any_goals (first | with_reducible assumption | intro _ | with_reducible apply State.setPort_keeps | with_reducible apply keeps_ite | simp only [keeps_mk_eq] | split))

theorem State.fillSlot_keeps {z : State} (s : State) (p : Nat) (t : TxSlot)
    (hk : Keeps z s) : Keeps z (State.fillSlot s p t) := by
  unfold State.fillSlot
  try dsimp only
  iterate 24 (try any_goals (first | with_reducible assumption | intro _ | with_reducible apply State.setPort_keeps | with_reducible apply State.emitFrame_keeps | with_reducible apply keeps_ite | simp only [keeps_mk_eq] | split))

theorem State.linkStep_keeps {z : State} (s : State) (p : Nat) (act : Nat)
    (hk : Keeps z s) : KeepsOpt z (State.linkStep s p act) := by
  unfold State.linkStep
  try dsimp only
  iterate 24 (try any_goals (first | with_reducible assumption | intro _ | with_reducible apply State.setPort_keeps | with_reducible apply State.fillSlot_keeps | with_reducible apply State.emitFrame_keeps | with_reducible apply State.count_keeps | with_reducible apply keeps_ite | simp only [keeps_mk_eq] | with_reducible apply keepsOpt_none | with_reducible apply keepsOpt_some | with_reducible apply keepsOpt_map | split))

theorem State.linkIdle_keeps {z : State} (s : State) (p : Nat)
    (hk : Keeps z s) : Keeps z (State.linkIdle s p) := by
  unfold State.linkIdle
  try dsimp only
  iterate 24 (try any_goals (first | with_reducible assumption | with_reducible apply State.fillSlot_keeps | with_reducible apply keeps_ite | split))

theorem State.setDecision_keeps {z : State} (s : State) (take : Bool) (pause : Bool)
    (hk : Keeps z s) : Keeps z (State.setDecision s take pause) := by
  unfold State.setDecision
  try dsimp only
  iterate 24 (try any_goals (first | with_reducible assumption | (intro _ _ _; try dsimp only) | intro _ | with_reducible apply State.setPort_keeps | with_reducible apply keeps_ite | with_reducible apply keeps_foldl | simp only [keeps_mk_eq] | split))

theorem State.passVote_keeps {z : State} (s : State)
    (hk : Keeps z s) : Keeps z (State.passVote s) := by
  unfold State.passVote
  try dsimp only
  iterate 24 (try any_goals (first | with_reducible assumption | intro _ | with_reducible apply State.setDecision_keeps | with_reducible apply State.setPort_keeps | with_reducible apply keeps_ite | simp only [keeps_mk_eq] | split))

theorem State.takeVb_keeps {z : State} (s : State) (p : Nat) (vb : Nat)
    (hk : Keeps z s) : Keeps z (State.takeVb s p vb) := by
  unfold State.takeVb
  try dsimp only
  iterate 24 (try any_goals (first | with_reducible assumption | with_reducible apply State.setPort_keeps | with_reducible apply State.setDecision_keeps | with_reducible apply State.passVote_keeps | with_reducible apply keeps_ite | simp only [keeps_mk_eq] | split))

theorem State.tandemPortLost_keeps {z : State} (s : State) (p : Nat)
    (hk : Keeps z s) : Keeps z (State.tandemPortLost s p) := by
  unfold State.tandemPortLost
  try dsimp only
  iterate 24 (try any_goals (first | with_reducible assumption | with_reducible apply State.diverge_keeps | with_reducible apply keeps_ite | split))

theorem State.portReceipts_keeps {z : State} (s : State) (p : Nat)
    (hk : Keeps z s) : Keeps z (State.portReceipts s p) := by
  unfold State.portReceipts
  try dsimp only
  iterate 24 (try any_goals (first | with_reducible assumption | (intro _ _ _; try dsimp only) | intro _ | with_reducible apply State.finish_keeps | with_reducible apply keeps_ite | with_reducible apply keeps_foldl | simp only [keeps_mk_eq] | split))

theorem State.portDown_keeps {z : State} (s : State) (p : Nat) (cause : Nat)
    (hk : Keeps z s) : Keeps z (State.portDown s p cause) := by
  unfold State.portDown
  try dsimp only
  iterate 24 (try any_goals (first | with_reducible assumption | with_reducible apply State.setPort_keeps | with_reducible apply State.setLnk_keeps | with_reducible apply State.raise_keeps | with_reducible apply State.tandemPortLost_keeps | with_reducible apply State.portReceipts_keeps | with_reducible apply keeps_ite | split))

theorem State.train_keeps {z : State} (s : State) (p : Nat) (recal : Bool)
    (hk : Keeps z s) : Keeps z (State.train s p recal) := by
  unfold State.train
  try dsimp only
  iterate 24 (try any_goals (first | with_reducible assumption | intro _ | with_reducible apply State.setPort_keeps | with_reducible apply State.setLnk_keeps | with_reducible apply keeps_ite | simp only [keeps_mk_eq] | split))

theorem State.leavePort_keeps {z : State} (s : State) (p : Nat)
    (hk : Keeps z s) : Keeps z (State.leavePort s p) := by
  unfold State.leavePort
  try dsimp only
  iterate 24 (try any_goals (first | with_reducible assumption | with_reducible apply State.fillSlot_keeps | with_reducible apply State.setPort_keeps | with_reducible apply keeps_ite | simp only [keeps_mk_eq] | split))

theorem State.takeRx_keeps {z : State} (s : State) (p : Nat) (f : Nat × List Byte → Bool)
    (hk : Keeps z s) : ∀ x t, (State.takeRx s p f) = some (x, t) → Keeps z t := by
  unfold State.takeRx
  dsimp only
  intro x t e
  cases hf : (State.port s p).rx.find? f with
  | none => rw [hf] at e; cases e
  | some m =>
    rw [hf] at e
    cases e
    exact State.setPort_keeps _ _ _ hk

theorem State.takeControl_keeps {z : State} (s : State) (p : Nat) (type : Nat)
    (hk : Keeps z s) : ∀ x t, (State.takeControl s p type) = some (x, t) → Keeps z t := by
  unfold State.takeControl
  try dsimp only
  iterate 24 (try any_goals (first | with_reducible assumption | with_reducible apply State.takeRx_keeps | exact State.takeRx_keeps _ _ _  hk _ _ (by with_reducible assumption) | with_reducible apply keeps_ite | with_reducible apply keepsOpt_none | with_reducible apply keepsOpt_some | with_reducible apply keepsOpt_map | split))

theorem State.musterFail_keeps {z : State} (s : State) (cause : Nat)
    (hk : Keeps z s) : Keeps z (State.musterFail s cause) := by
  unfold State.musterFail
  try dsimp only
  iterate 24 (try any_goals (first | with_reducible assumption | with_reducible apply State.setFld_keeps | with_reducible apply State.raise_keeps | with_reducible apply State.finish_keeps | with_reducible apply keeps_ite | simp only [keeps_mk_eq] | split))

theorem State.passGo_keeps {z : State} (s : State) (t0 : Nat)
    (hk : Keeps z s) : Keeps z (State.passGo s t0) := by
  unfold State.passGo
  try dsimp only
  iterate 24 (try any_goals (first | with_reducible assumption | (intro _ _ _; try dsimp only) | intro _ | with_reducible apply State.sendSlot_keeps | with_reducible apply keeps_ite | with_reducible apply keeps_foldl | simp only [keeps_mk_eq] | split))

theorem State.musterStep_keeps {z : State} (s : State)
    (hk : Keeps z s) : Keeps z (State.musterStep s) := by
  unfold State.musterStep
  try dsimp only
  iterate 24 (try any_goals (first | with_reducible assumption | (intro _ _ _; try dsimp only) | intro _ | with_reducible apply State.passGo_keeps | with_reducible apply State.sendSlot_keeps | with_reducible apply keeps_ite | with_reducible apply keeps_foldl | simp only [keeps_mk_eq] | split))

theorem State.deliver_keeps {z : State} (s : State) (p : Nat) (dseq : Nat) (cl : Nat) (start : Nat) (n : Nat) (a : Nat) (bs : List Byte) (ecc : List (Nat × EccCase))
    (hk : Keeps z s) : Keeps z (State.deliver s p dseq cl start n a bs ecc) := by
  unfold State.deliver
  try dsimp only
  iterate 24 (try any_goals (first | with_reducible assumption | intro _ | with_reducible apply State.request_keeps | with_reducible apply keeps_ite | split))

theorem State.dackEntry_keeps {z : State} (s : State) (p : Nat) (dseq : Nat) (cl : Nat) (status : Nat)
    (hk : Keeps z s) : Keeps z (State.dackEntry s p dseq cl status) := by
  unfold State.dackEntry
  try dsimp only
  iterate 24 (try any_goals (first | with_reducible assumption | with_reducible apply State.raise_keeps | with_reducible apply State.stopCl_keeps | with_reducible apply State.setCl_keeps | with_reducible apply keeps_ite | simp only [keeps_mk_eq] | split))

theorem State.sendChunk_keeps {z : State} (s : State) (r : Red) (members : List Nat) (phase : Nat) (k : Nat) (cfmt : Nat) (dfmt : Nat) (dbits : Nat) (items : List Nat)
    (hk : Keeps z s) : Keeps z (State.sendChunk s r members phase k cfmt dfmt dbits items) := by
  unfold State.sendChunk
  try dsimp only
  iterate 24 (try any_goals (first | with_reducible assumption | (intro _ _ _; try dsimp only) | intro _ | with_reducible apply State.sendSlot_keeps | with_reducible apply keeps_ite | with_reducible apply keeps_foldl | simp only [keeps_mk_eq] | split))

theorem State.setRed_keeps {z : State} (s : State) (r : Red)
    (hk : Keeps z s) : Keeps z (State.setRed s r) := by
  unfold State.setRed
  try dsimp only
  iterate 24 (try any_goals (first | with_reducible assumption | intro _ | with_reducible apply keeps_ite | simp only [keeps_mk_eq] | split))

theorem State.dropRed_keeps {z : State} (s : State) (r : Red)
    (hk : Keeps z s) : Keeps z (State.dropRed s r) := by
  unfold State.dropRed
  try dsimp only
  iterate 24 (try any_goals (first | with_reducible assumption | simp only [keeps_mk_eq] | split))

theorem State.redFault_keeps {z : State} (s : State) (cl : Nat) (ring : Nat) (cause : Nat)
    (hk : Keeps z s) : Keeps z (State.redFault s cl ring cause) := by
  unfold State.redFault
  try dsimp only
  iterate 24 (try any_goals (first | with_reducible assumption | with_reducible apply State.capture_keeps | with_reducible apply State.raise_keeps | with_reducible apply State.stopCl_keeps | with_reducible apply keeps_ite | split))

theorem State.redNan_keeps {z : State} (s : State) (r : Red) (step : Nat) (elem : Nat) (origin : Nat)
    (hk : Keeps z s) : Keeps z (State.redNan s r step elem origin) := by
  unfold State.redNan
  try dsimp only
  iterate 24 (try any_goals (first | with_reducible assumption | with_reducible apply State.capture_keeps | with_reducible apply State.raise_keeps | with_reducible apply keeps_ite | split))

theorem State.redStore_keeps {z : State} (s : State) (r : Red)
    (hk : Keeps z s) : Keeps z (State.redStore s r) := by
  unfold State.redStore
  try dsimp only
  iterate 24 (try any_goals (first | with_reducible assumption | (intro _ _ _; try dsimp only) | intro _ | with_reducible apply State.setCl_keeps | with_reducible apply State.dropRed_keeps | with_reducible apply State.setRed_keeps | with_reducible apply keeps_ite | with_reducible apply keeps_foldl | simp only [keeps_mk_eq] | split))

theorem State.redResult_keeps {z : State} (s : State) (r : Red) (m : Nat) (k : Nat) (xs : List (Val × Nat))
    (hk : Keeps z s) : Keeps z (State.redResult s r m k xs) := by
  unfold State.redResult
  try dsimp only
  iterate 24 (try any_goals (first | with_reducible assumption | (intro _ _ _; try dsimp only) | intro _ | with_reducible apply State.redStore_keeps | with_reducible apply keeps_ite | with_reducible apply keeps_foldl | simp only [keeps_mk_eq] | split))

theorem State.redChunk_keeps {z : State} (s : State) (r : Red) (members : List Nat) (k : Nat) (incoming : Option (List Val))
    (hk : Keeps z s) : Keeps z (State.redChunk s r members k incoming) := by
  unfold State.redChunk
  try dsimp only
  iterate 24 (try any_goals (first | with_reducible assumption | (intro _ _ _; try dsimp only) | intro _ | with_reducible apply State.putFlags_keeps | with_reducible apply State.count_keeps | with_reducible apply State.redNan_keeps | with_reducible apply State.sendChunk_keeps | with_reducible apply State.redResult_keeps | with_reducible apply keeps_ite | with_reducible apply keeps_foldl | simp only [keeps_mk_eq] | split))

theorem State.redGather_keeps {z : State} (s : State) (r : Red) (members : List Nat) (k : Nat) (cfmt : Nat) (items : List Nat)
    (hk : Keeps z s) : Keeps z (State.redGather s r members k cfmt items) := by
  unfold State.redGather
  try dsimp only
  iterate 24 (try any_goals (first | with_reducible assumption | intro _ | with_reducible apply State.sendChunk_keeps | with_reducible apply State.redResult_keeps | with_reducible apply keeps_ite | split))

theorem State.redPart_keeps {z : State} (s : State) (r : Red) (h : Nat) (body : List Byte)
    (hk : Keeps z s) : Keeps z (State.redPart s r h body) := by
  unfold State.redPart
  try dsimp only
  iterate 24 (try any_goals (first | with_reducible assumption | with_reducible apply State.dropRed_keeps | with_reducible apply State.redFault_keeps | with_reducible apply State.setRed_keeps | with_reducible apply State.redChunk_keeps | with_reducible apply State.redGather_keeps | with_reducible apply keeps_ite | simp only [keeps_mk_eq] | split))

theorem State.giveSlot_keeps {z : State} (s : State) (p : Nat)
    (hk : Keeps z s) : Keeps z (State.giveSlot s p) := by
  unfold State.giveSlot
  try dsimp only
  iterate 24 (try any_goals (first | with_reducible assumption | with_reducible apply State.setPort_keeps | with_reducible apply keeps_ite | simp only [keeps_mk_eq] | split))

theorem State.redSlot_keeps {z : State} (s : State) (p : Nat) (m : List Byte)
    (hk : Keeps z s) : Keeps z (State.redSlot s p m) := by
  unfold State.redSlot
  try dsimp only
  iterate 24 (try any_goals (first | with_reducible assumption | with_reducible apply State.giveSlot_keeps | with_reducible apply State.redPart_keeps | with_reducible apply State.redFault_keeps | with_reducible apply keeps_ite | simp only [keeps_mk_eq] | split))

theorem State.redStart_keeps {z : State} (s : State) (cl : Nat) (o : Nat) (f : RedF) (rstages : Nat) (members : List Nat)
    (hk : Keeps z s) : Keeps z (State.redStart s cl o f rstages members) := by
  unfold State.redStart
  try dsimp only
  iterate 24 (try any_goals (first | with_reducible assumption | (intro _ _ _; try dsimp only) | intro _ | with_reducible apply State.count_keeps | with_reducible apply State.setCl_keeps | with_reducible apply State.acts_keeps | with_reducible apply State.redChunk_keeps | with_reducible apply State.redSlot_keeps | with_reducible apply keeps_ite | with_reducible apply keeps_foldl | simp only [keeps_mk_eq] | split))

theorem State.resetRegs_keeps {z : State} (s : State) (k : RKind) (inScope : Win → Bool)
    (hk : Keeps z s) : Keeps z (State.resetRegs s k inScope) := by
  unfold State.resetRegs
  try dsimp only
  iterate 24 (try any_goals (first | with_reducible assumption | with_reducible apply keeps_ite | simp only [keeps_mk_eq] | split))

theorem State.dropShadows_keeps {z : State} (s : State) (inScope : Win → Bool)
    (hk : Keeps z s) : Keeps z (State.dropShadows s inScope) := by
  unfold State.dropShadows
  try dsimp only
  iterate 24 (try any_goals (first | with_reducible assumption | with_reducible apply keeps_ite | simp only [keeps_mk_eq] | split))

theorem State.runRefresh_keeps {z : State} (s : State) (k : Nat) (waits : Mit → Bool)
    (hk : Keeps z s) : Keeps z (State.runRefresh s k waits) := by
  unfold State.runRefresh
  try dsimp only
  iterate 24 (try any_goals (first | with_reducible assumption | (intro _ _ _; try dsimp only) | intro _ | with_reducible apply State.throttle_keeps | with_reducible apply State.setDie_keeps | with_reducible apply keeps_ite | with_reducible apply keeps_foldl | simp only [keeps_mk_eq] | split))

theorem State.settleReq_keeps {z : State} (s : State) (k : Nat) (j : Nat) (q : Req)
    (hk : Keeps z s) : Keeps z (State.settleReq s k j q) := by
  unfold State.settleReq
  try dsimp only
  iterate 24 (try any_goals (first | with_reducible assumption | with_reducible apply State.runRefresh_keeps | with_reducible apply State.performWrite_keeps | with_reducible apply State.performRead_keeps | with_reducible apply keeps_ite | split))

theorem State.settleRanges_keeps {z : State} (s : State) (k : Nat) (rs : List (Nat × Nat))
    (hk : Keeps z s) : Keeps z (State.settleRanges s k rs) := by
  unfold State.settleRanges
  try dsimp only
  iterate 24 (try any_goals (first | with_reducible assumption | (intro _ _ _; try dsimp only) | intro _ | with_reducible apply State.settleReq_keeps | with_reducible apply keeps_ite | with_reducible apply keeps_foldl | simp only [keeps_mk_eq] | split))

theorem State.settleOne_keeps {z : State} (n : Nat) (k : Nat) (s : State)
    (hk : Keeps z s) : Keeps z (State.settleOne n k s) := by
  unfold State.settleOne
  try dsimp only
  iterate 24 (try any_goals (first | with_reducible assumption | with_reducible apply State.dropAccepted_keeps | with_reducible apply State.settleReq_keeps | with_reducible apply keeps_ite | simp only [keeps_mk_eq] | split))

theorem State.quietDie_keeps {z : State} (s : State) (n : Nat) (k : Nat)
    (hk : Keeps z s) : Keeps z (State.quietDie s n k) := by
  unfold State.quietDie
  try dsimp only
  iterate 24 (try any_goals (first | with_reducible assumption | (intro _ _ _; try dsimp only) | intro _ | with_reducible apply State.setDie_keeps | with_reducible apply State.noteWrite_keeps | with_reducible apply State.settleOne_keeps | with_reducible apply keeps_ite | with_reducible apply keeps_foldl | simp only [keeps_mk_eq] | split))

theorem State.quietJob_keeps {z : State} (n : Nat) (s : State) (j : Job)
    (hk : Keeps z s) : Keeps z (State.quietJob n s j) := by
  unfold State.quietJob
  try dsimp only
  iterate 24 (try any_goals (first | with_reducible assumption | (intro _ _ _; try dsimp only) | intro _ | with_reducible apply State.settleRanges_keeps | with_reducible apply State.runRefresh_keeps | with_reducible apply State.workJob_keeps | with_reducible apply State.jobFault_keeps | with_reducible apply keeps_ite | with_reducible apply keeps_foldl | split))

theorem State.quietJobs_keeps {z : State} (s : State) (n : Nat)
    (hk : Keeps z s) : Keeps z (State.quietJobs s n) := by
  unfold State.quietJobs
  try dsimp only
  iterate 24 (try any_goals (first | with_reducible assumption | (intro _ _ _; try dsimp only) | intro _ | with_reducible apply State.quietJob_keeps | with_reducible apply keeps_ite | with_reducible apply keeps_foldl | simp only [keeps_mk_eq] | split))

theorem State.closePmes_keeps {z : State} (s : State) (n : Nat) (task : Nat)
    (hk : Keeps z s) : Keeps z (State.closePmes s n task) := by
  unfold State.closePmes
  try dsimp only
  iterate 24 (try any_goals (first | with_reducible assumption | (intro _ _ _; try dsimp only) | intro _ | with_reducible apply keeps_ite | with_reducible apply keeps_foldl | simp only [keeps_mk_eq] | split))

theorem State.freePmes_keeps {z : State} (s : State) (n : Nat)
    (hk : Keeps z s) : Keeps z (State.freePmes s n) := by
  unfold State.freePmes
  try dsimp only
  iterate 24 (try any_goals (first | with_reducible assumption | with_reducible apply keeps_ite | simp only [keeps_mk_eq] | split))

theorem State.resetCl_keeps {z : State} (s : State) (k : RKind) (n : Nat)
    (hk : Keeps z s) : Keeps z (State.resetCl s k n) := by
  unfold State.resetCl
  try dsimp only
  iterate 24 (try any_goals (first | with_reducible assumption | (intro _ _ _; try dsimp only) | intro _ | with_reducible apply State.quietDie_keeps | with_reducible apply State.quietJobs_keeps | with_reducible apply State.closePmes_keeps | with_reducible apply State.setCl_keeps | with_reducible apply State.resetRegs_keeps | with_reducible apply State.freePmes_keeps | with_reducible apply keeps_ite | with_reducible apply keeps_foldl | simp only [keeps_mk_eq] | split))

theorem State.abortNaming_keeps {z : State} (s : State) (ns : List Nat) (reason : Nat)
    (hk : Keeps z s) : Keeps z (State.abortNaming s ns reason) := by
  unfold State.abortNaming
  try dsimp only
  iterate 24 (try any_goals (first | with_reducible assumption | (intro _ _ _; try dsimp only) | intro _ | with_reducible apply State.finish_keeps | with_reducible apply keeps_ite | with_reducible apply keeps_foldl | split))

theorem State.breakPause_keeps {z : State} (s : State) (ns : List Nat)
    (hk : Keeps z s) : Keeps z (State.breakPause s ns) := by
  unfold State.breakPause
  try dsimp only
  iterate 24 (try any_goals (first | with_reducible assumption | (intro _ _ _; try dsimp only) | intro _ | with_reducible apply State.setCl_keeps | with_reducible apply keeps_ite | with_reducible apply keeps_foldl | simp only [keeps_mk_eq] | split))

theorem State.evalMismatch_keeps {z : State} (s : State)
    (hk : Keeps z s) : Keeps z (State.evalMismatch s) := by
  unfold State.evalMismatch
  try dsimp only
  iterate 24 (try any_goals (first | with_reducible assumption | intro _ | with_reducible apply State.setFld_keeps | with_reducible apply State.raise_keeps | with_reducible apply keeps_ite | split))

theorem State.resetClusters_keeps {z : State} (s : State) (ns : List Nat)
    (hk : Keeps z s) : Keeps z (State.resetClusters s ns) := by
  unfold State.resetClusters
  try dsimp only
  iterate 24 (try any_goals (first | with_reducible assumption | (intro _ _ _; try dsimp only) | intro _ | with_reducible apply State.abortNaming_keeps | with_reducible apply State.breakPause_keeps | with_reducible apply State.resetCl_keeps | with_reducible apply State.evalMismatch_keeps | with_reducible apply keeps_ite | with_reducible apply keeps_foldl | split))

theorem State.resetEngine1_keeps {z : State} (s : State) (e : Nat)
    (hk : Keeps z s) : Keeps z (State.resetEngine1 s e) := by
  unfold State.resetEngine1
  try dsimp only
  iterate 24 (try any_goals (first | with_reducible assumption | (intro _ _ _; try dsimp only) | intro _ | with_reducible apply State.abortNaming_keeps | with_reducible apply State.breakPause_keeps | with_reducible apply State.resetCl_keeps | with_reducible apply State.setUnit_keeps | with_reducible apply State.resetRegs_keeps | with_reducible apply keeps_ite | with_reducible apply keeps_foldl | split))

theorem State.leaveDomain_keeps {z : State} (s : State)
    (hk : Keeps z s) : Keeps z (State.leaveDomain s) := by
  unfold State.leaveDomain
  try dsimp only
  iterate 24 (try any_goals (first | with_reducible assumption | (intro _ _ _; try dsimp only) | intro _ | with_reducible apply State.giveSlot_keeps | with_reducible apply State.setPort_keeps | with_reducible apply State.setFld_keeps | with_reducible apply State.setReg64_keeps | with_reducible apply keeps_ite | with_reducible apply keeps_foldl | simp only [keeps_mk_eq] | split))

theorem State.abortTaken_keeps {z : State} (s : State) (but : Option (Nat × Nat))
    (hk : Keeps z s) : Keeps z (State.abortTaken s but) := by
  unfold State.abortTaken
  try dsimp only
  iterate 24 (try any_goals (first | with_reducible assumption | (intro _ _ _; try dsimp only) | intro _ | with_reducible apply State.finish_keeps | with_reducible apply keeps_ite | with_reducible apply keeps_foldl | split))

theorem State.effReset_keeps {z : State} (s : State)
    (hk : Keeps z s) : Keeps z (State.effReset s) := by
  unfold State.effReset
  try dsimp only
  iterate 24 (try any_goals (first | with_reducible assumption | with_reducible apply State.setFld_keeps | with_reducible apply keeps_ite | split))

theorem State.ageless_keeps {z : State} (s : State)
    (hk : Keeps z s) : Keeps z (State.ageless s) := by
  unfold State.ageless
  try dsimp only
  iterate 24 (try any_goals (first | with_reducible assumption | intro _ | with_reducible apply keeps_ite | simp only [keeps_mk_eq] | split))

theorem State.warmReset_keeps {z : State} (s : State) (but : Option (Nat × Nat))
    (hk : Keeps z s) : Keeps z (State.warmReset s but) := by
  unfold State.warmReset
  try dsimp only
  iterate 24 (try any_goals (first | with_reducible assumption | (intro _ _ _; try dsimp only) | intro _ | with_reducible apply State.abortTaken_keeps | with_reducible apply State.resetCl_keeps | with_reducible apply State.leaveDomain_keeps | with_reducible apply State.resetRegs_keeps | with_reducible apply State.setFld_keeps | with_reducible apply State.effReset_keeps | with_reducible apply State.ageless_keeps | with_reducible apply State.evalMismatch_keeps | with_reducible apply keeps_ite | with_reducible apply keeps_foldl | simp only [keeps_mk_eq] | split))

theorem State.afreshKeeping_keeps {z : State} (s : State) (k : RKind) (phase : Nat)
    (hk : Keeps z s) : Keeps z (State.afreshKeeping s k phase) := by
  unfold State.afreshKeeping
  exact ⟨hk.pending, hk.grade, fun _ => rfl, hk.counters, hk.revoked⟩

theorem State.porReset_keeps {z : State} (s : State)
    (hk : Keeps z s) : Keeps z (State.porReset s) := by
  unfold State.porReset
  try dsimp only
  iterate 24 (try any_goals (first | with_reducible assumption | with_reducible apply State.afreshKeeping_keeps | split))

theorem State.modReset_keeps {z : State} (s : State) (cause : Nat)
    (hk : Keeps z s) : Keeps z (State.modReset s cause) := by
  unfold State.modReset
  try dsimp only
  iterate 24 (try any_goals (first | with_reducible assumption | with_reducible apply State.afreshKeeping_keeps | with_reducible apply State.setFld_keeps | with_reducible apply State.effReset_keeps | with_reducible apply keeps_ite | split))

theorem State.resetEngines_keeps {z : State} (s : State) (mask : Nat)
    (hk : Keeps z s) : Keeps z (State.resetEngines s mask) := by
  unfold State.resetEngines
  try dsimp only
  iterate 24 (try any_goals (first | with_reducible assumption | (intro _ _ _; try dsimp only) | intro _ | with_reducible apply State.resetEngine1_keeps | with_reducible apply keeps_ite | with_reducible apply keeps_foldl | split))

theorem State.resetNow_keeps {z : State} (s : State) (d : ResetDue)
    (hk : Keeps z s) : Keeps z (State.resetNow s d) := by
  unfold State.resetNow
  try dsimp only
  iterate 24 (try any_goals (first | with_reducible assumption | with_reducible apply State.resetEngines_keeps | with_reducible apply State.modReset_keeps | with_reducible apply keeps_ite | simp only [keeps_mk_eq] | split))

theorem State.resetOr_keeps {z : State} (s : State) (d : ResetDue) (acked : Bool)
    (hk : Keeps z s) : Keeps z (State.resetOr s d acked) := by
  unfold State.resetOr
  try dsimp only
  iterate 24 (try any_goals (first | with_reducible assumption | with_reducible apply State.resetNow_keeps | with_reducible apply keeps_ite | simp only [keeps_mk_eq] | split))

theorem State.dueResets_keeps {z : State} (s : State)
    (hk : Keeps z s) : Keeps z (State.dueResets s) := by
  unfold State.dueResets
  try dsimp only
  iterate 24 (try any_goals (first | with_reducible assumption | (intro _ _ _; try dsimp only) | intro _ | with_reducible apply State.resetNow_keeps | with_reducible apply keeps_ite | with_reducible apply keeps_foldl | simp only [keeps_mk_eq] | split))

theorem State.hostRead_keeps {z : State} (s : State) (a : Nat)
    (hk : Keeps z s) : Keeps z (State.hostRead s a).2 := by
  unfold State.hostRead
  try dsimp only
  iterate 24 (try any_goals (first | with_reducible assumption | with_reducible apply keeps_ite | simp only [keeps_mk_eq] | split))

theorem State.hold_keeps {z : State} (s : State) (a : Nat)
    (hk : Keeps z s) : Keeps z (State.hold s a) := by
  unfold State.hold
  try dsimp only
  iterate 24 (try any_goals (first | with_reducible assumption | simp only [keeps_mk_eq] | split))

theorem State.answerRead_keeps {z : State} (s : State) (a : Nat)
    (hk : Keeps z s) : Keeps z (State.answerRead s a) := by
  unfold State.answerRead
  try dsimp only
  iterate 24 (try any_goals (first | with_reducible assumption | with_reducible apply State.completeWord_keeps | with_reducible apply State.hostRead_keeps | with_reducible apply keeps_ite | with_reducible refine keeps_fst (by assumption) ?_ | with_reducible refine keeps_snd (by assumption) ?_ | split))

theorem State.redrift_keeps {z : State} (s : State) (w : Win) (o : Nat)
    (hk : Keeps z s) : Keeps z (State.redrift s w o) := by
  unfold State.redrift
  try dsimp only
  iterate 24 (try any_goals (first | with_reducible assumption | with_reducible apply State.drift_keeps | with_reducible apply keeps_ite | simp only [keeps_mk_eq] | split))

theorem State.recount_keeps {z : State} (s : State) (w : Win) (a : Nat) (v : Nat)
    (hk : Keeps z s) : Keeps z (State.recount s w a v) := by
  unfold State.recount
  try dsimp only
  iterate 24 (try any_goals (first | with_reducible assumption | with_reducible apply State.setRegN_keeps | with_reducible apply State.redrift_keeps | with_reducible apply State.setReg64_keeps | with_reducible apply keeps_ite | simp only [keeps_mk_eq] | split))

theorem State.plainWrite_keeps {z : State} (s : State) (w : Win) (a : Nat) (v : Nat)
    (hk : Keeps z s) : Keeps z (State.plainWrite s w a v) := by
  unfold State.plainWrite
  try dsimp only
  iterate 24 (try any_goals (first | with_reducible assumption | with_reducible apply State.setRegN_keeps | with_reducible apply State.recount_keeps | with_reducible apply State.keepCaught_keeps | with_reducible apply State.noteClear_keeps | with_reducible apply keeps_ite | simp only [keeps_mk_eq] | split))

theorem State.writeBut_keeps {z : State} (s : State) (w : Win) (a : Nat) (v : Nat) (no : Nat)
    (hk : Keeps z s) : Keeps z (State.writeBut s w a v no) := by
  unfold State.writeBut
  try dsimp only
  iterate 24 (try any_goals (first | with_reducible assumption | with_reducible apply State.plainWrite_keeps | with_reducible apply State.busyW_keeps | with_reducible apply keeps_ite | split))

theorem State.portQuiesce_keeps {z : State} (s : State) (p : Nat)
    (hk : Keeps z s) : Keeps z (State.portQuiesce s p) := by
  unfold State.portQuiesce
  try dsimp only
  iterate 24 (try any_goals (first | with_reducible assumption | with_reducible apply State.setPort_keeps | with_reducible apply keeps_ite | simp only [keeps_mk_eq] | split))

theorem State.portRetrain_keeps {z : State} (s : State) (p : Nat)
    (hk : Keeps z s) : Keeps z (State.portRetrain s p) := by
  unfold State.portRetrain
  try dsimp only
  iterate 24 (try any_goals (first | with_reducible assumption | with_reducible apply State.train_keeps | with_reducible apply keeps_ite | split))

theorem State.portEnable_keeps {z : State} (s : State) (p : Nat)
    (hk : Keeps z s) : Keeps z (State.portEnable s p) := by
  unfold State.portEnable
  try dsimp only
  iterate 24 (try any_goals (first | with_reducible assumption | with_reducible apply State.setFld_keeps | with_reducible apply State.train_keeps | with_reducible apply keeps_ite | split))

theorem State.portOff_keeps {z : State} (s : State) (p : Nat)
    (hk : Keeps z s) : Keeps z (State.portOff s p) := by
  unfold State.portOff
  try dsimp only
  iterate 24 (try any_goals (first | with_reducible assumption | with_reducible apply State.setPort_keeps | with_reducible apply State.setLnk_keeps | with_reducible apply State.tandemPortLost_keeps | with_reducible apply State.portReceipts_keeps | with_reducible apply keeps_ite | split))

theorem State.portDisable_keeps {z : State} (s : State) (p : Nat)
    (hk : Keeps z s) : Keeps z (State.portDisable s p) := by
  unfold State.portDisable
  try dsimp only
  iterate 24 (try any_goals (first | with_reducible assumption | with_reducible apply State.portOff_keeps | with_reducible apply State.setFld_keeps | split))

theorem State.autotrain_keeps {z : State} (s : State) (p : Nat)
    (hk : Keeps z s) : Keeps z (State.autotrain s p) := by
  unfold State.autotrain
  try dsimp only
  iterate 24 (try any_goals (first | with_reducible assumption | with_reducible apply State.portRetrain_keeps | with_reducible apply keeps_ite | split))

theorem State.mate_keeps {z : State} (s : State) (c : Nat)
    (hk : Keeps z s) : Keeps z (State.mate s c) := by
  unfold State.mate
  try dsimp only
  iterate 24 (try any_goals (first | with_reducible assumption | with_reducible apply State.count_keeps | with_reducible apply State.raise_keeps | with_reducible apply keeps_ite | simp only [keeps_mk_eq] | split))

theorem State.setChk_keeps {z : State} (s : State) (u : Nat) (c : Chk)
    (hk : Keeps z s) : Keeps z (State.setChk s u c) := by
  unfold State.setChk
  try dsimp only
  iterate 24 (try any_goals (first | with_reducible assumption | simp only [keeps_mk_eq] | split))

theorem State.chkStarted_keeps {z : State} (s : State) (u : Nat) (wide : Bool) (fold : Nat)
    (hk : Keeps z s) : Keeps z (State.chkStarted s u wide fold) := by
  unfold State.chkStarted
  try dsimp only
  iterate 24 (try any_goals (first | with_reducible assumption | with_reducible apply State.setChk_keeps | with_reducible apply State.setRegN_keeps | with_reducible apply State.setFld_keeps | with_reducible apply keeps_ite | simp only [keeps_mk_eq] | split))

theorem State.chkCompared_keeps {z : State} (s : State) (u : Nat)
    (hk : Keeps z s) : Keeps z (State.chkCompared s u) := by
  unfold State.chkCompared
  try dsimp only
  iterate 24 (try any_goals (first | with_reducible assumption | with_reducible apply State.setFld_keeps | with_reducible apply State.setBits_keeps | with_reducible apply State.raise_keeps | with_reducible apply keeps_ite | split))

theorem State.chkDo_keeps {z : State} (u : Nat) (s : State) (o : ChkOp)
    (hk : Keeps z s) : Keeps z (State.chkDo u s o) := by
  unfold State.chkDo
  try dsimp only
  iterate 24 (try any_goals (first | with_reducible assumption | with_reducible apply State.chkStarted_keeps | with_reducible apply State.compare_keeps | with_reducible apply State.chkCompared_keeps | with_reducible apply State.plainWrite_keeps | with_reducible apply keeps_ite | simp only [keeps_mk_eq] | split))

theorem State.chkPut_keeps {z : State} (s : State) (u : Nat) (o : ChkOp)
    (hk : Keeps z s) : Keeps z (State.chkPut s u o) := by
  unfold State.chkPut
  try dsimp only
  iterate 24 (try any_goals (first | with_reducible assumption | with_reducible apply State.setChk_keeps | with_reducible apply State.chkDo_keeps | with_reducible apply keeps_ite | simp only [keeps_mk_eq] | split))

theorem State.chkBegin_keeps {z : State} (s : State) (u : Nat)
    (hk : Keeps z s) : Keeps z (State.chkBegin s u) := by
  unfold State.chkBegin
  try dsimp only
  iterate 24 (try any_goals (first | with_reducible assumption | with_reducible apply State.chkPut_keeps | split))

theorem State.chkCompare_keeps {z : State} (s : State) (u : Nat)
    (hk : Keeps z s) : Keeps z (State.chkCompare s u) := by
  unfold State.chkCompare
  try dsimp only
  iterate 24 (try any_goals (first | with_reducible assumption | with_reducible apply State.chkPut_keeps | with_reducible apply State.compare_keeps | split))

theorem State.chkFeed_keeps {z : State} (s : State) (u : Nat) (n : Nat) (v : Nat)
    (hk : Keeps z s) : Keeps z (State.chkFeed s u n v) := by
  unfold State.chkFeed
  try dsimp only
  iterate 24 (try any_goals (first | with_reducible assumption | with_reducible apply State.busyW_keeps | with_reducible apply State.setChk_keeps | with_reducible apply State.count_keeps | with_reducible apply keeps_ite | split))

theorem State.chkTick_keeps {z : State} (n : Nat) (s : State) (u : Nat)
    (hk : Keeps z s) : Keeps z (State.chkTick n s u) := by
  unfold State.chkTick
  try dsimp only
  iterate 24 (try any_goals (first | with_reducible assumption | (intro _ _ _; try dsimp only) | intro _ | with_reducible apply State.setChk_keeps | with_reducible apply State.chkDo_keeps | with_reducible apply keeps_ite | with_reducible apply keeps_foldl | simp only [keeps_mk_eq] | split))

theorem State.writeChk_keeps {z : State} (s : State) (u : Nat) (o : Nat) (v : Nat)
    (hk : Keeps z s) : Keeps z (State.writeChk s u o v) := by
  unfold State.writeChk
  try dsimp only
  iterate 24 (try any_goals (first | with_reducible assumption | with_reducible apply State.chkCompare_keeps | with_reducible apply State.chkPut_keeps | with_reducible apply State.chkBegin_keeps | with_reducible apply State.chkFeed_keeps | with_reducible apply State.plainWrite_keeps | with_reducible apply keeps_ite | split))

theorem State.putFlit_keeps {z : State} (s : State) (fseq : Nat) (m : TxMsg)
    (hk : Keeps z s) : Keeps z (State.putFlit s fseq m) := by
  unfold State.putFlit
  try dsimp only
  iterate 24 (try any_goals (first | with_reducible assumption | with_reducible apply keeps_ite | simp only [keeps_mk_eq] | split))

theorem State.sendFlit_keeps {z : State} (s : State) (m : TxMsg) (f : HMsg) (head : Nat)
    (hk : Keeps z s) : Keeps z (State.sendFlit s m f head) := by
  unfold State.sendFlit
  try dsimp only
  iterate 24 (try any_goals (first | with_reducible assumption | with_reducible apply State.putFlit_keeps | with_reducible apply keeps_ite | simp only [keeps_mk_eq] | split))

theorem State.sendMsg_keeps {z : State} (s : State) (m : TxMsg)
    (hk : Keeps z s) : Keeps z (State.sendMsg s m) := by
  unfold State.sendMsg
  try dsimp only
  iterate 24 (try any_goals (first | with_reducible assumption | (intro _ _ _; try dsimp only) | intro _ | with_reducible apply State.sendFlit_keeps | with_reducible apply keeps_ite | with_reducible apply keeps_foldl | simp only [keeps_mk_eq] | split))

theorem State.tetherStep_keeps {z : State} (s : State) (act : Nat)
    (hk : Keeps z s) : KeepsOpt z (State.tetherStep s act) := by
  unfold State.tetherStep
  try dsimp only
  iterate 24 (try any_goals (first | with_reducible assumption | intro _ | with_reducible apply State.putFlit_keeps | with_reducible apply State.count_keeps | with_reducible apply State.sendMsg_keeps | with_reducible apply keeps_ite | simp only [keeps_mk_eq] | with_reducible apply keepsOpt_none | with_reducible apply keepsOpt_some | with_reducible apply keepsOpt_map | split))

theorem State.tetherTake_keeps {z : State} (s : State) (act : Nat)
    (hk : Keeps z s) : KeepsOpt z (State.tetherTake s act) := by
  unfold State.tetherTake
  try dsimp only
  iterate 24 (try any_goals (first | with_reducible assumption | (intro _ _ _; try dsimp only) | intro _ | with_reducible apply State.request_keeps | with_reducible apply keeps_ite | with_reducible apply keeps_foldl | with_reducible apply keeps_foldl_fst | simp only [keeps_mk_eq] | with_reducible apply keepsOpt_none | with_reducible apply keepsOpt_some | with_reducible apply keepsOpt_map | split))

theorem State.tetherLost_keeps {z : State} (s : State)
    (hk : Keeps z s) : Keeps z (State.tetherLost s) := by
  unfold State.tetherLost
  try dsimp only
  iterate 24 (try any_goals (first | with_reducible assumption | intro _ | with_reducible apply State.setBits_keeps | with_reducible apply State.count_keeps | with_reducible apply State.setTth_keeps | with_reducible apply State.raise_keeps | with_reducible apply keeps_ite | simp only [keeps_mk_eq] | split))

theorem State.hostGet_keeps {z : State} (s : State) (addr : Nat) (len : Nat) (ecc : List (Nat × EccCase))
    (hk : Keeps z s) : Keeps z (State.hostGet s addr len ecc) := by
  unfold State.hostGet
  try dsimp only
  iterate 24 (try any_goals (first | with_reducible assumption | with_reducible apply State.tthErr_keeps | with_reducible apply State.complete_keeps | with_reducible apply State.request_keeps | with_reducible apply State.takeTag_keeps | with_reducible apply keeps_ite | simp only [keeps_mk_eq] | with_reducible refine keeps_fst (by assumption) ?_ | with_reducible refine keeps_snd (by assumption) ?_ | split))

theorem State.hostPut_keeps {z : State} (s : State) (addr : Nat) (data : List Byte) (ecc : List (Nat × EccCase))
    (hk : Keeps z s) : Keeps z (State.hostPut s addr data ecc) := by
  unfold State.hostPut
  try dsimp only
  iterate 24 (try any_goals (first | with_reducible assumption | intro _ | with_reducible apply State.tthErr_keeps | with_reducible apply State.fromHost_keeps | with_reducible apply keeps_ite | simp only [keeps_mk_eq] | split))

theorem State.hostReject_keeps {z : State} (s : State) (write : Bool) (addr : Nat) (size : Nat)
    (hk : Keeps z s) : Keeps z (State.hostReject s write addr size) := by
  unfold State.hostReject
  try dsimp only
  iterate 24 (try any_goals (first | with_reducible assumption | with_reducible apply State.tthErr_keeps | with_reducible apply State.fromHost_keeps | with_reducible apply State.completeWord_keeps | with_reducible apply keeps_ite | split))

theorem State.glazeStep_keeps {z : State} (s : State) (n : Nat) (act : Nat)
    (hk : Keeps z s) : KeepsOpt z (State.glazeStep s n act) := by
  unfold State.glazeStep
  try dsimp only
  iterate 24 (try any_goals (first | with_reducible assumption | with_reducible apply State.setCl_keeps | with_reducible apply keeps_ite | simp only [keeps_mk_eq] | with_reducible apply keepsOpt_none | with_reducible apply keepsOpt_some | with_reducible apply keepsOpt_map | split))

theorem State.rewind_keeps {z : State} (s : State) (w : Wheel) (unit : Nat)
    (hk : Keeps z s) : Keeps z (State.rewind s w unit) := by
  unfold State.rewind
  try dsimp only
  iterate 24 (try any_goals (first | with_reducible assumption | with_reducible apply keeps_ite | simp only [keeps_mk_eq] | split))

theorem State.sideSend_keeps {z : State} (s : State) (bs : List Byte)
    (hk : Keeps z s) : Keeps z (State.sideSend s bs) := by
  unfold State.sideSend
  try dsimp only
  iterate 24 (try any_goals (first | with_reducible assumption | (intro _ _ _; try dsimp only) | intro _ | with_reducible apply keeps_ite | with_reducible apply keeps_foldl | simp only [keeps_mk_eq] | split))

theorem State.alert_keeps {z : State} (s : State)
    (hk : Keeps z s) : Keeps z (State.alert s) := by
  unfold State.alert
  try dsimp only
  iterate 24 (try any_goals (first | with_reducible assumption | with_reducible apply keeps_ite | simp only [keeps_mk_eq] | split))

theorem State.serveRoute_keeps {z : State} (s : State) (e : Ev) (k : Nat)
    (hk : Keeps z s) : Keeps z (State.serveRoute s e k) := by
  unfold State.serveRoute
  try dsimp only
  iterate 24 (try any_goals (first | with_reducible assumption | with_reducible apply State.toHost_keeps | with_reducible apply State.setRegN_keeps | with_reducible apply State.trigger_keeps | with_reducible apply State.sideSend_keeps | with_reducible apply State.capture_keeps | with_reducible apply State.alert_keeps | with_reducible apply keeps_ite | simp only [keeps_mk_eq] | split))

theorem State.sense_keeps {z : State} (s : State) (n : Nat) (v : Nat)
    (hk : Keeps z s) : Keeps z (State.sense s n v) := by
  unfold State.sense
  try dsimp only
  iterate 24 (try any_goals (first | with_reducible assumption | with_reducible apply State.setRegN_keeps | with_reducible apply State.raise_keeps | with_reducible apply keeps_ite | simp only [keeps_mk_eq] | split))

end Sys2Proof.Machine
end

