-- ==== Sys2Proof/Laws/KeepsStages.lean ====
section
/-! SUPPORT. `Keeps` for the operations of Sign, Image, SaveImage, Power, Service, Boundary, Stages. -/

set_option linter.all false

namespace Sys2Proof.Machine

theorem State.authFail_keeps {z : State} (s : State)
    (hk : Keeps z s) : Keeps z (State.authFail s) := by
  unfold State.authFail
  try dsimp only
  iterate 24 (try any_goals (first | with_reducible assumption | with_reducible apply State.count_keeps | split))

theorem State.measure_keeps {z : State} (s : State) (slot : Nat) (d : List Byte)
    (hk : Keeps z s) : Keeps z (State.measure s slot d) := by
  unfold State.measure
  try dsimp only
  iterate 24 (try any_goals (first | with_reducible assumption | with_reducible apply keeps_ite | simp only [keeps_mk_eq, keeps_boot_eq] | split))

theorem State.forget_keeps {z : State} (s : State) (n : Nat)
    (hk : Keeps z s) : Keeps z (State.forget s n) := by
  unfold State.forget
  try dsimp only
  iterate 24 (try any_goals (first | with_reducible assumption | (intro _ _ _; try dsimp only) | intro _ | with_reducible apply State.quietDie_keeps | with_reducible apply State.quietJobs_keeps | with_reducible apply State.closePmes_keeps | with_reducible apply State.setCl_keeps | with_reducible apply State.freePmes_keeps | with_reducible apply keeps_ite | with_reducible apply keeps_foldl | simp only [keeps_mk_eq] | split))

theorem State.unload_keeps {z : State} (s : State) (n : Nat)
    (hk : Keeps z s) : Keeps z (State.unload s n) := by
  unfold State.unload
  try dsimp only
  iterate 24 (try any_goals (first | with_reducible assumption | with_reducible apply State.forget_keeps | split))

theorem State.loadSection_keeps {z : State} (s : State) (i : Img) (k : Nat) (n : Nat) (m : Bool)
    (hk : Keeps z s) : Keeps z (State.loadSection s i k n m) := by
  unfold State.loadSection
  try dsimp only
  iterate 24 (try any_goals (first | with_reducible assumption | (intro _ _ _; try dsimp only) | intro _ | with_reducible apply State.setCl_keeps | with_reducible apply State.setRegN_keeps | with_reducible apply keeps_ite | with_reducible apply keeps_foldl | simp only [keeps_mk_eq] | split))

theorem State.loadPmes_keeps {z : State} (s : State) (i : Img) (ns : List Nat) (m : Bool)
    (hk : Keeps z s) : Keeps z (State.loadPmes s i ns m) := by
  unfold State.loadPmes
  try dsimp only
  iterate 24 (try any_goals (first | with_reducible assumption | (intro _ _ _; try dsimp only) | intro _ | with_reducible apply State.setPme_keeps | with_reducible apply keeps_ite | with_reducible apply keeps_foldl | split))

theorem State.eccImage_keeps {z : State} (s : State) (addr : Nat) (ecc : List (Nat × EccCase))
    (hk : Keeps z s) : Keeps z (State.eccImage s addr ecc) := by
  unfold State.eccImage
  try dsimp only
  iterate 24 (try any_goals (first | with_reducible assumption | with_reducible apply State.eccReads_keeps | with_reducible apply keeps_ite | split))

theorem State.loadChosen_keeps {z : State} (s : State) (i : Img) (names : List Nat)
    (hk : Keeps z s) : Keeps z (State.loadChosen s i names) := by
  unfold State.loadChosen
  try dsimp only
  iterate 24 (try any_goals (first | with_reducible assumption | (intro _ _ _; try dsimp only) | intro _ | with_reducible apply State.forget_keeps | with_reducible apply State.loadSection_keeps | with_reducible apply State.loadPmes_keeps | with_reducible apply State.measure_keeps | with_reducible apply State.evalMismatch_keeps | with_reducible apply keeps_ite | with_reducible apply keeps_foldl | split))

theorem State.noteSaved_keeps {z : State} (s : State) (p : Pause)
    (hk : Keeps z s) : Keeps z (State.noteSaved s p) := by
  unfold State.noteSaved
  try dsimp only
  iterate 24 (try any_goals (first | with_reducible assumption | intro _ | with_reducible apply keeps_ite | simp only [keeps_mk_eq] | split))

theorem State.restoreRegs_keeps {z : State} (s : State) (n : Nat) (r : List Byte)
    (hk : Keeps z s) : Keeps z (State.restoreRegs s n r) := by
  unfold State.restoreRegs
  try dsimp only
  iterate 24 (try any_goals (first | with_reducible assumption | (intro _ _ _; try dsimp only) | intro _ | with_reducible apply State.setRegN_keeps | with_reducible apply keeps_ite | with_reducible apply keeps_foldl | split))

theorem State.eccSaved_keeps {z : State} (s : State) (addr : Nat) (ecc : List (Nat × EccCase))
    (hk : Keeps z s) : Keeps z (State.eccSaved s addr ecc) := by
  unfold State.eccSaved
  try dsimp only
  iterate 24 (try any_goals (first | with_reducible assumption | with_reducible apply State.eccReads_keeps | with_reducible apply keeps_ite | split))

theorem State.restoreRec_keeps {z : State} (s : State) (bs : List Byte) (k : Nat)
    (hk : Keeps z s) : Keeps z (State.restoreRec s bs k) := by
  unfold State.restoreRec
  try dsimp only
  iterate 24 (try any_goals (first | with_reducible assumption | intro _ | with_reducible apply State.setCl_keeps | with_reducible apply State.restoreRegs_keeps | with_reducible apply keeps_ite | simp only [keeps_mk_eq] | split))

theorem State.restoreAll_keeps {z : State} (s : State) (bs : List Byte)
    (hk : Keeps z s) : Keeps z (State.restoreAll s bs) := by
  unfold State.restoreAll
  try dsimp only
  iterate 24 (try any_goals (first | with_reducible assumption | (intro _ _ _; try dsimp only) | intro _ | with_reducible apply State.restoreRec_keeps | with_reducible apply State.setReg64_keeps | with_reducible apply State.setRegN_keeps | with_reducible apply State.setFld_keeps | with_reducible apply keeps_ite | with_reducible apply keeps_foldl | simp only [keeps_mk_eq] | split))

theorem State.eachWb_keeps {z : State} {s : State} {f : State → Nat → Wb → State}
    (hf : ∀ s r w, Keeps z s → Keeps z (f s r w)) (hk : Keeps z s) : Keeps z (State.eachWb s f) :=
  keeps_foldl (fun _ _ h => keeps_foldl (fun _ _ h => hf _ _ _ h) h) hk


theorem State.pstateReached_keeps {z : State} (s : State) (st : Nat)
    (hk : Keeps z s) : Keeps z (State.pstateReached s st) := by
  unfold State.pstateReached
  refine State.eachWb_keeps ?_ ?_
  · intro s r w h
    split
    · exact State.finish_keeps _ _ _ _ _ h
    · exact h
  · simp only [keeps_mk_eq]
    exact State.setFld_keeps _ _ _ _ _ hk

theorem State.dropClusters_keeps {z : State} (s : State) (ns : List Nat)
    (hk : Keeps z s) : Keeps z (State.dropClusters s ns) := by
  unfold State.dropClusters
  try dsimp only
  iterate 24 (try any_goals (first | with_reducible assumption | (intro _ _ _; try dsimp only) | intro _ | with_reducible apply State.forget_keeps | with_reducible apply State.setCl_keeps | with_reducible apply State.resetRegs_keeps | with_reducible apply State.dropShadows_keeps | with_reducible apply keeps_ite | with_reducible apply keeps_foldl | split))

theorem State.freshGlaze_keeps {z : State} (s : State) (ns : List Nat)
    (hk : Keeps z s) : Keeps z (State.freshGlaze s ns) := by
  unfold State.freshGlaze
  try dsimp only
  iterate 24 (try any_goals (first | with_reducible assumption | (intro _ _ _; try dsimp only) | intro _ | with_reducible apply State.setCl_keeps | with_reducible apply keeps_ite | with_reducible apply keeps_foldl | split))

theorem State.rowsOn_keeps {z : State} (s : State) (ds : List Nat)
    (hk : Keeps z s) : Keeps z (State.rowsOn s ds) := by
  unfold State.rowsOn
  try dsimp only
  iterate 24 (try any_goals (first | with_reducible assumption | (intro _ _ _; try dsimp only) | intro _ | with_reducible apply State.freshGlaze_keeps | with_reducible apply keeps_ite | with_reducible apply keeps_foldl | simp only [keeps_mk_eq] | split))

theorem State.clearArms_keeps {z : State} (s : State)
    (hk : Keeps z s) : Keeps z (State.clearArms s) := by
  unfold State.clearArms
  try dsimp only
  iterate 24 (try any_goals (first | with_reducible assumption | with_reducible apply keeps_ite | simp only [keeps_mk_eq] | split))

theorem State.computeOff_keeps {z : State} (s : State)
    (hk : Keeps z s) : Keeps z (State.computeOff s) := by
  unfold State.computeOff
  try dsimp only
  iterate 24 (try any_goals (first | with_reducible assumption | (intro _ _ _; try dsimp only) | intro _ | with_reducible apply State.dropClusters_keeps | with_reducible apply State.resetRegs_keeps | with_reducible apply State.portOff_keeps | with_reducible apply State.leaveDomain_keeps | with_reducible apply State.clearArms_keeps | with_reducible apply State.evalMismatch_keeps | with_reducible apply keeps_ite | with_reducible apply keeps_foldl | simp only [keeps_mk_eq] | split))

theorem State.setStack_keeps {z : State} (s : State) (k : Nat) (st : Nat)
    (hk : Keeps z s) : Keeps z (State.setStack s k st) := by
  unfold State.setStack
  try dsimp only
  iterate 24 (try any_goals (first | with_reducible assumption | with_reducible apply State.setFld_keeps | split))

theorem State.stackIn_keeps {z : State} (s : State) (k : Nat)
    (hk : Keeps z s) : Keeps z (State.stackIn s k) := by
  unfold State.stackIn
  try dsimp only
  iterate 24 (try any_goals (first | with_reducible assumption | with_reducible apply State.setStack_keeps | with_reducible apply State.setDie_keeps | with_reducible apply keeps_ite | simp only [keeps_mk_eq] | split))

theorem State.stackOut_keeps {z : State} (s : State) (k : Nat)
    (hk : Keeps z s) : Keeps z (State.stackOut s k) := by
  unfold State.stackOut
  try dsimp only
  iterate 24 (try any_goals (first | with_reducible assumption | with_reducible apply State.setStack_keeps | with_reducible apply keeps_ite | split))

theorem State.settleTrans_keeps {z : State} (s : State)
    (hk : Keeps z s) : Keeps z (State.settleTrans s) := by
  unfold State.settleTrans
  try dsimp only
  iterate 24 (try any_goals (first | with_reducible assumption | (intro _ _ _; try dsimp only) | intro _ | with_reducible apply State.pstateReached_keeps | with_reducible apply State.freshGlaze_keeps | with_reducible apply State.newKc_keeps | with_reducible apply State.portEnable_keeps | with_reducible apply keeps_ite | with_reducible apply keeps_foldl | simp only [keeps_mk_eq] | split))

theorem State.enterHold_keeps {z : State} (s : State)
    (hk : Keeps z s) : Keeps z (State.enterHold s) := by
  unfold State.enterHold
  try dsimp only
  iterate 24 (try any_goals (first | with_reducible assumption | (intro _ _ _; try dsimp only) | intro _ | with_reducible apply State.computeOff_keeps | with_reducible apply State.setFld_keeps | with_reducible apply State.stackIn_keeps | with_reducible apply State.settleTrans_keeps | with_reducible apply keeps_ite | with_reducible apply keeps_foldl | simp only [keeps_mk_eq] | split))

theorem State.leaveHold_keeps {z : State} (s : State)
    (hk : Keeps z s) : Keeps z (State.leaveHold s) := by
  unfold State.leaveHold
  try dsimp only
  iterate 24 (try any_goals (first | with_reducible assumption | (intro _ _ _; try dsimp only) | intro _ | with_reducible apply State.setFld_keeps | with_reducible apply State.stackOut_keeps | with_reducible apply State.settleTrans_keeps | with_reducible apply keeps_ite | with_reducible apply keeps_foldl | simp only [keeps_mk_eq] | split))

theorem State.enterStandby_keeps {z : State} (s : State)
    (hk : Keeps z s) : Keeps z (State.enterStandby s) := by
  unfold State.enterStandby
  dsimp only
  refine State.pstateReached_keeps _ _ ?_
  exact keeps_loess (State.dropShadows_keeps _ _ (State.resetRegs_keeps _ _ _ (State.computeOff_keeps _ hk))) (fun _ => rfl)

theorem State.leaveStandby_keeps {z : State} (s : State)
    (hk : Keeps z s) : Keeps z (State.leaveStandby s) := by
  unfold State.leaveStandby
  try dsimp only
  iterate 24 (try any_goals (first | with_reducible assumption | with_reducible apply State.setFld_keeps | with_reducible apply State.newKc_keeps | with_reducible apply keeps_ite | simp only [keeps_mk_eq] | split))

theorem State.setSvcPhase_keeps {z : State} (s : State) (p : Nat)
    (hk : Keeps z s) : Keeps z (State.setSvcPhase s p) := by
  unfold State.setSvcPhase
  try dsimp only
  iterate 24 (try any_goals (first | with_reducible assumption | with_reducible apply State.setFld_keeps | split))

theorem State.svcBit_keeps {z : State} (s : State) (b : Nat) (v : Nat)
    (hk : Keeps z s) : Keeps z (State.svcBit s b v) := by
  unfold State.svcBit
  try dsimp only
  iterate 24 (try any_goals (first | with_reducible assumption | with_reducible apply State.setFld_keeps | split))

theorem State.svcEvent_keeps {z : State} (s : State) (i : Nat)
    (hk : Keeps z s) : Keeps z (State.svcEvent s i) := by
  unfold State.svcEvent
  try dsimp only
  iterate 24 (try any_goals (first | with_reducible assumption | with_reducible apply State.raise_keeps | split))

theorem State.stopRunning_keeps {z : State} (s : State)
    (hk : Keeps z s) : Keeps z (State.stopRunning s) := by
  unfold State.stopRunning
  try dsimp only
  iterate 24 (try any_goals (first | with_reducible assumption | (intro _ _ _; try dsimp only) | intro _ | with_reducible apply State.stopCl_keeps | with_reducible apply keeps_ite | with_reducible apply keeps_foldl | split))

theorem State.startDrain_keeps {z : State} (s : State)
    (hk : Keeps z s) : Keeps z (State.startDrain s) := by
  unfold State.startDrain
  try dsimp only
  iterate 24 (try any_goals (first | with_reducible assumption | (intro _ _ _; try dsimp only) | intro _ | with_reducible apply State.leavePort_keeps | with_reducible apply State.setSvcPhase_keeps | with_reducible apply keeps_ite | with_reducible apply keeps_foldl | split))

theorem State.drainStep_keeps {z : State} (s : State)
    (hk : Keeps z s) : Keeps z (State.drainStep s) := by
  unfold State.drainStep
  try dsimp only
  iterate 24 (try any_goals (first | with_reducible assumption | with_reducible apply State.leaveDomain_keeps | with_reducible apply keeps_ite | split))

theorem State.svcRequest_keeps {z : State} (s : State)
    (hk : Keeps z s) : Keeps z (State.svcRequest s) := by
  unfold State.svcRequest
  try dsimp only
  iterate 24 (try any_goals (first | with_reducible assumption | with_reducible apply State.svcBit_keeps | with_reducible apply State.startDrain_keeps | with_reducible apply State.setSvcPhase_keeps | with_reducible apply State.svcEvent_keeps | with_reducible apply keeps_ite | simp only [keeps_mk_eq] | split))

theorem State.svcRetry_keeps {z : State} (s : State)
    (hk : Keeps z s) : Keeps z (State.svcRetry s) := by
  unfold State.svcRetry
  try dsimp only
  iterate 24 (try any_goals (first | with_reducible assumption | with_reducible apply State.svcRequest_keeps | with_reducible apply keeps_ite | split))

theorem State.svcCancel_keeps {z : State} (s : State)
    (hk : Keeps z s) : Keeps z (State.svcCancel s) := by
  unfold State.svcCancel
  try dsimp only
  iterate 24 (try any_goals (first | with_reducible assumption | with_reducible apply State.svcEvent_keeps | with_reducible apply State.setSvcPhase_keeps | with_reducible apply State.leaveStandby_keeps | with_reducible apply keeps_ite | simp only [keeps_mk_eq] | split))

theorem State.svcForce_keeps {z : State} (s : State)
    (hk : Keeps z s) : Keeps z (State.svcForce s) := by
  unfold State.svcForce
  try dsimp only
  iterate 24 (try any_goals (first | with_reducible assumption | with_reducible apply State.svcBit_keeps | with_reducible apply State.svcEvent_keeps | with_reducible apply State.startDrain_keeps | with_reducible apply keeps_ite | simp only [keeps_mk_eq] | split))

theorem State.forcedReset_keeps {z : State} (s : State)
    (hk : Keeps z s) : Keeps z (State.forcedReset s) := by
  unfold State.forcedReset
  try dsimp only
  iterate 24 (try any_goals (first | with_reducible assumption | (intro _ _ _; try dsimp only) | intro _ | with_reducible apply State.resetEngine1_keeps | with_reducible apply State.startDrain_keeps | with_reducible apply keeps_ite | with_reducible apply keeps_foldl | simp only [keeps_mk_eq] | split))

theorem State.svcBoundary_keeps {z : State} (s : State)
    (hk : Keeps z s) : Keeps z (State.svcBoundary s) := by
  unfold State.svcBoundary
  try dsimp only
  iterate 24 (try any_goals (first | with_reducible assumption | with_reducible apply State.setSvcPhase_keeps | with_reducible apply State.stopRunning_keeps | with_reducible apply State.svcBit_keeps | with_reducible apply keeps_ite | simp only [keeps_mk_eq] | split))

theorem State.startStopped_keeps {z : State} (s : State)
    (hk : Keeps z s) : Keeps z (State.startStopped s) := by
  unfold State.startStopped
  try dsimp only
  iterate 24 (try any_goals (first | with_reducible assumption | with_reducible apply State.enterStandby_keeps | with_reducible apply State.setSvcPhase_keeps | with_reducible apply State.svcEvent_keeps | with_reducible apply keeps_ite | simp only [keeps_mk_eq] | split))

theorem State.startCut_keeps {z : State} (s : State)
    (hk : Keeps z s) : Keeps z (State.startCut s) := by
  unfold State.startCut
  try dsimp only
  iterate 24 (try any_goals (first | with_reducible assumption | (intro _ _ _; try dsimp only) | intro _ | with_reducible apply State.portOff_keeps | with_reducible apply State.setTth_keeps | with_reducible apply State.setStack_keeps | with_reducible apply keeps_ite | with_reducible apply keeps_foldl | simp only [keeps_mk_eq] | split))

theorem State.mapCl_keeps {z : State} (s : State) (f : Cluster → Cluster)
    (hk : Keeps z s) : Keeps z (State.mapCl s f) := by
  unfold State.mapCl
  try dsimp only
  iterate 24 (try any_goals (first | with_reducible assumption | with_reducible apply keeps_ite | simp only [keeps_mk_eq] | split))

theorem State.checkClLedger_keeps {z : State} (s : State) (n : Nat)
    (hk : Keeps z s) : Keeps z (State.checkClLedger s n) := by
  unfold State.checkClLedger
  try dsimp only
  iterate 24 (try any_goals (first | with_reducible assumption | with_reducible apply State.capture_keeps | with_reducible apply State.raise_keeps | with_reducible apply keeps_ite | split))

theorem State.checkModLedgers_keeps {z : State} (s : State)
    (hk : Keeps z s) : Keeps z (State.checkModLedgers s) := by
  unfold State.checkModLedgers
  try dsimp only
  iterate 24 (try any_goals (first | with_reducible assumption | with_reducible apply State.capture_keeps | with_reducible apply State.raise_keeps | with_reducible apply keeps_ite | split))

theorem State.checkLedgers_keeps {z : State} (s : State)
    (hk : Keeps z s) : Keeps z (State.checkLedgers s) := by
  unfold State.checkLedgers
  try dsimp only
  iterate 24 (try any_goals (first | with_reducible assumption | (intro _ _ _; try dsimp only) | intro _ | with_reducible apply State.checkModLedgers_keeps | with_reducible apply State.checkClLedger_keeps | with_reducible apply keeps_ite | with_reducible apply keeps_foldl | split))

theorem State.latched_keeps {z : State} (s : State) (w : Win)
    (hk : Keeps z s) : Keeps z (State.latched s w) := by
  unfold State.latched
  try dsimp only
  iterate 24 (try any_goals (first | with_reducible assumption | with_reducible apply State.evalMismatch_keeps | with_reducible apply State.setDie_keeps | with_reducible apply State.setCl_keeps | with_reducible apply keeps_ite | simp only [keeps_mk_eq] | split))

theorem State.latchArm_keeps {z : State} (s : State) (w : Win) (c : Nat) (late : Bool)
    (hk : Keeps z s) : Keeps z (State.latchArm s w c late) := by
  unfold State.latchArm
  try dsimp only
  iterate 24 (try any_goals (first | with_reducible assumption | (intro _ _ _; try dsimp only) | intro _ | with_reducible apply State.setFld_keeps | with_reducible apply State.setBits_keeps | with_reducible apply State.raise_keeps | with_reducible apply State.setRegN_keeps | with_reducible apply State.latched_keeps | with_reducible apply keeps_ite | with_reducible apply keeps_foldl | simp only [keeps_mk_eq] | split))

theorem State.latchArms_keeps {z : State} (s : State) (late : Bool)
    (hk : Keeps z s) : Keeps z (State.latchArms s late) := by
  unfold State.latchArms
  try dsimp only
  iterate 24 (try any_goals (first | with_reducible assumption | (intro _ _ _; try dsimp only) | intro _ | with_reducible apply State.latchArm_keeps | with_reducible apply keeps_foldl | split))

theorem State.joinShadows_keeps {z : State} (s : State)
    (hk : Keeps z s) : Keeps z (State.joinShadows s) := by
  unfold State.joinShadows
  try dsimp only
  iterate 24 (try any_goals (first | with_reducible assumption | (intro _ _ _; try dsimp only) | intro _ | with_reducible apply keeps_ite | with_reducible apply keeps_foldl | simp only [keeps_mk_eq] | split))

theorem State.gritStep_keeps {z : State} (s : State)
    (hk : Keeps z s) : Keeps z (State.gritStep s) := by
  unfold State.gritStep
  try dsimp only
  iterate 24 (try any_goals (first | with_reducible assumption | with_reducible apply State.setReg64_keeps | with_reducible apply keeps_ite | simp only [keeps_mk_eq] | split))

theorem State.advanceAll_keeps {z : State} (s : State)
    (hk : Keeps z s) : Keeps z (State.advanceAll s) := by
  unfold State.advanceAll
  try dsimp only
  iterate 24 (try any_goals (first | with_reducible assumption | (intro _ _ _; try dsimp only) | intro _ | with_reducible apply State.setCl_keeps | with_reducible apply keeps_ite | with_reducible apply keeps_foldl | split))

theorem State.settlePreds_keeps {z : State} (s : State)
    (hk : Keeps z s) : Keeps z (State.settlePreds s) := by
  unfold State.settlePreds
  try dsimp only
  iterate 24 (try any_goals (first | with_reducible assumption | (intro _ _ _; try dsimp only) | intro _ | with_reducible apply State.setFld_keeps | with_reducible apply keeps_ite | with_reducible apply keeps_foldl | simp only [keeps_mk_eq] | split))

theorem State.togglePmes_keeps {z : State} (s : State) (n : Nat) (task : Nat)
    (hk : Keeps z s) : Keeps z (State.togglePmes s n task) := by
  unfold State.togglePmes
  try dsimp only
  iterate 24 (try any_goals (first | with_reducible assumption | (intro _ _ _; try dsimp only) | intro _ | with_reducible apply State.setPme_keeps | with_reducible apply keeps_ite | with_reducible apply keeps_foldl | simp only [keeps_mk_eq] | split))

theorem State.commit_keeps {z : State} (s : State) (n : Nat) (o : Nat)
    (hk : Keeps z s) : Keeps z (State.commit s n o) := by
  unfold State.commit
  try dsimp only
  iterate 24 (try any_goals (first | with_reducible assumption | (intro _ _ _; try dsimp only) | intro _ | with_reducible apply State.togglePmes_keeps | with_reducible apply State.setCl_keeps | with_reducible apply applyAct_keeps | with_reducible apply State.count_keeps | with_reducible apply keeps_ite | with_reducible apply keeps_foldl | simp only [keeps_mk_eq] | split))

theorem State.voidWrites_keeps {z : State} (s : State) (n : Nat) (task : Nat)
    (hk : Keeps z s) : Keeps z (State.voidWrites s n task) := by
  unfold State.voidWrites
  try dsimp only
  iterate 24 (try any_goals (first | with_reducible assumption | intro _ | with_reducible apply keeps_ite | simp only [keeps_mk_eq] | split))

theorem State.discard_keeps {z : State} (s : State) (n : Nat) (o : Nat)
    (hk : Keeps z s) : Keeps z (State.discard s n o) := by
  unfold State.discard
  try dsimp only
  iterate 24 (try any_goals (first | with_reducible assumption | with_reducible apply State.closePmes_keeps | with_reducible apply State.voidWrites_keeps | with_reducible apply State.setCl_keeps | with_reducible apply keeps_ite | split))

theorem State.outcome_keeps {z : State} (s : State) (n : Nat) (o : Nat) (v : Option Bool)
    (hk : Keeps z s) : Keeps z (State.outcome s n o v) := by
  unfold State.outcome
  try dsimp only
  iterate 24 (try any_goals (first | with_reducible assumption | with_reducible apply State.sense_keeps | with_reducible apply State.setCl_keeps | with_reducible apply State.count_keeps | with_reducible apply State.commit_keeps | with_reducible apply State.discard_keeps | with_reducible apply keeps_ite | simp only [keeps_mk_eq] | split))

theorem State.outcomes_keeps {z : State} (s : State)
    (hk : Keeps z s) : Keeps z (State.outcomes s) := by
  unfold State.outcomes
  try dsimp only
  iterate 24 (try any_goals (first | with_reducible assumption | (intro _ _ _; try dsimp only) | intro _ | with_reducible apply State.outcome_keeps | with_reducible apply keeps_ite | with_reducible apply keeps_foldl | split))

theorem State.glazeSwitches_keeps {z : State} (s : State)
    (hk : Keeps z s) : Keeps z (State.glazeSwitches s).1 := by
  unfold State.glazeSwitches
  try dsimp only
  iterate 24 (try any_goals (first | with_reducible assumption | (intro _ _ _; try dsimp only) | intro _ | with_reducible apply State.setCl_keeps | with_reducible apply applyAct_keeps | with_reducible apply State.stopCl_keeps | with_reducible apply keeps_ite | with_reducible apply keeps_foldl | with_reducible apply keeps_foldl_fst | simp only [keeps_mk_eq] | split))

theorem State.stackHolds_keeps {z : State} (s : State)
    (hk : Keeps z s) : Keeps z (State.stackHolds s) := by
  unfold State.stackHolds
  try dsimp only
  iterate 24 (try any_goals (first | with_reducible assumption | (intro _ _ _; try dsimp only) | intro _ | with_reducible apply State.stackIn_keeps | with_reducible apply State.stackOut_keeps | with_reducible apply keeps_ite | with_reducible apply keeps_foldl | split))

theorem State.escOne_keeps {z : State} (s : State) (w : Wheel) (unit : Nat) (was : List Nat) (a : Nat)
    (hk : Keeps z s) : Keeps z (State.escOne s w unit was a).1 := by
  unfold State.escOne
  try dsimp only
  iterate 24 (try any_goals (first | with_reducible assumption | with_reducible apply State.raise_keeps | with_reducible apply State.count_keeps | with_reducible apply keeps_ite | simp only [keeps_mk_eq] | split))

theorem State.escalate_keeps {z : State} (s : State) (w : Wheel) (unit : Nat)
    (hk : Keeps z s) : Keeps z (State.escalate s w unit) := by
  unfold State.escalate
  try dsimp only
  iterate 24 (try any_goals (first | with_reducible assumption | (intro _ _ _; try dsimp only) | intro _ | with_reducible apply State.escOne_keeps | with_reducible apply keeps_ite | with_reducible apply keeps_foldl | with_reducible apply keeps_foldl_fst | simp only [keeps_mk_eq] | with_reducible refine keeps_fst (by assumption) ?_ | with_reducible refine keeps_snd (by assumption) ?_ | split))

theorem State.escalateAll_keeps {z : State} (s : State)
    (hk : Keeps z s) : Keeps z (State.escalateAll s) := by
  unfold State.escalateAll
  try dsimp only
  iterate 24 (try any_goals (first | with_reducible assumption | (intro _ _ _; try dsimp only) | intro _ | with_reducible apply State.escalate_keeps | with_reducible apply keeps_ite | with_reducible apply keeps_foldl | split))

theorem State.stops_keeps {z : State} (s : State) (due : List (Nat × Nat))
    (hk : Keeps z s) : Keeps z (State.stops s due) := by
  unfold State.stops
  try dsimp only
  iterate 24 (try any_goals (first | with_reducible assumption | (intro _ _ _; try dsimp only) | intro _ | with_reducible apply State.setCl_keeps | with_reducible apply keeps_ite | with_reducible apply keeps_foldl | split))

theorem State.unpause_keeps {z : State} (s : State) (ns : List Nat)
    (hk : Keeps z s) : Keeps z (State.unpause s ns) := by
  unfold State.unpause
  try dsimp only
  iterate 24 (try any_goals (first | with_reducible assumption | with_reducible apply keeps_ite | simp only [keeps_mk_eq] | split))

theorem State.capStep_keeps {z : State} (s : State)
    (hk : Keeps z s) : Keeps z (State.capStep s) := by
  unfold State.capStep
  try dsimp only
  iterate 24 (try any_goals (first | with_reducible assumption | (intro _ _ _; try dsimp only) | intro _ | with_reducible apply State.setRegN_keeps | with_reducible apply State.count_keeps | with_reducible apply keeps_ite | with_reducible apply keeps_foldl | simp only [keeps_mk_eq] | split))

theorem State.footStep_keeps {z : State} (s : State)
    (hk : Keeps z s) : Keeps z (State.footStep s) := by
  unfold State.footStep
  try dsimp only
  iterate 24 (try any_goals (first | with_reducible assumption | intro _ | with_reducible apply State.setFld_keeps | with_reducible apply State.dropClusters_keeps | with_reducible apply State.evalMismatch_keeps | with_reducible apply keeps_ite | simp only [keeps_mk_eq] | split))

theorem State.kstepStep_keeps {z : State} (s : State)
    (hk : Keeps z s) : Keeps z (State.kstepStep s) := by
  unfold State.kstepStep
  try dsimp only
  iterate 24 (try any_goals (first | with_reducible assumption | with_reducible apply State.setFld_keeps | with_reducible apply keeps_ite | simp only [keeps_mk_eq] | split))

theorem State.dropEngine_keeps {z : State} (s : State) (e : Nat)
    (hk : Keeps z s) : Keeps z (State.dropEngine s e) := by
  unfold State.dropEngine
  try dsimp only
  iterate 24 (try any_goals (first | with_reducible assumption | with_reducible apply State.setUnit_keeps | with_reducible apply State.resetRegs_keeps | with_reducible apply keeps_ite | split))

theorem State.gateRows_keeps {z : State} (s : State)
    (hk : Keeps z s) : Keeps z (State.gateRows s) := by
  unfold State.gateRows
  try dsimp only
  iterate 24 (try any_goals (first | with_reducible assumption | (intro _ _ _; try dsimp only) | intro _ | with_reducible apply State.dropClusters_keeps | with_reducible apply State.dropEngine_keeps | with_reducible apply keeps_ite | with_reducible apply keeps_foldl | simp only [keeps_mk_eq] | split))

theorem State.pstateStep_keeps {z : State} (s : State)
    (hk : Keeps z s) : Keeps z (State.pstateStep s) := by
  unfold State.pstateStep
  try dsimp only
  iterate 24 (try any_goals (first | with_reducible assumption | with_reducible apply State.rowsOn_keeps | with_reducible apply State.pstateReached_keeps | with_reducible apply State.enterHold_keeps | with_reducible apply State.enterStandby_keeps | with_reducible apply keeps_ite | simp only [keeps_mk_eq] | split))

theorem State.pauseStep_keeps {z : State} (s : State) (decided : Bool)
    (hk : Keeps z s) : Keeps z (State.pauseStep s decided) := by
  unfold State.pauseStep
  try dsimp only
  iterate 24 (try any_goals (first | with_reducible assumption | (intro _ _ _; try dsimp only) | intro _ | with_reducible apply State.setCl_keeps | with_reducible apply State.setFld_keeps | with_reducible apply State.setWb_keeps | with_reducible apply keeps_ite | with_reducible apply keeps_foldl | simp only [keeps_mk_eq] | split))

theorem State.boundaryReceipt_keeps {z : State} (bad : List Nat) (s : State) (r : Nat) (w : Wb)
    (hk : Keeps z s) : Keeps z (State.boundaryReceipt bad s r w) := by
  unfold State.boundaryReceipt
  try dsimp only
  iterate 24 (try any_goals (first | with_reducible assumption | (intro _ _ _; try dsimp only) | intro _ | with_reducible apply State.setCl_keeps | with_reducible apply State.finish_keeps | with_reducible apply State.unpause_keeps | with_reducible apply keeps_ite | with_reducible apply keeps_foldl | split))

theorem State.clearVotes_keeps {z : State} (s : State)
    (hk : Keeps z s) : Keeps z (State.clearVotes s) := by
  unfold State.clearVotes
  try dsimp only
  iterate 24 (try any_goals (first | with_reducible assumption | (intro _ _ _; try dsimp only) | intro _ | with_reducible apply State.setPort_keeps | with_reducible apply keeps_ite | with_reducible apply keeps_foldl | simp only [keeps_mk_eq] | split))

theorem State.timeMessages_keeps {z : State} (s : State)
    (hk : Keeps z s) : Keeps z (State.timeMessages s) := by
  unfold State.timeMessages
  try dsimp only
  iterate 24 (try any_goals (first | with_reducible assumption | (intro _ _ _; try dsimp only) | intro _ | with_reducible apply State.sendSlot_keeps | with_reducible apply keeps_ite | with_reducible apply keeps_foldl | simp only [keeps_mk_eq] | split))

theorem State.ordersFirst_keeps {z : State} (s : State) (late : Bool)
    (hk : Keeps z s) : Keeps z (State.ordersFirst s late) := by
  unfold State.ordersFirst
  try dsimp only
  iterate 24 (try any_goals (first | with_reducible assumption | with_reducible apply State.checkLedgers_keeps | with_reducible apply State.latchArms_keeps | with_reducible apply State.joinShadows_keeps | with_reducible apply State.gritStep_keeps | with_reducible apply State.advanceAll_keeps | with_reducible apply State.outcomes_keeps | with_reducible apply State.settlePreds_keeps | with_reducible apply keeps_ite | split))

theorem State.ordersLast_keeps {z : State} (s : State) (due : List (Nat × Nat))
    (hk : Keeps z s) : Keeps z (State.ordersLast s due) := by
  unfold State.ordersLast
  extract_lets s3 s4 s5
  have h4 : Keeps z s4 := keeps_mk (State.stackHolds_keeps _ hk)
  have h5 : Keeps z s5 := State.escalateAll_keeps _ (State.mapCl_keeps _ _ h4)
  exact State.stops_keeps _ _ (keeps_mk h5)

theorem State.orders_keeps {z : State} (s : State) (late : Bool)
    (hk : Keeps z s) : Keeps z (State.orders s late).1 := by
  exact State.ordersLast_keeps _ _ (State.glazeSwitches_keeps _ (State.ordersFirst_keeps _ _ hk))

theorem State.afterOrders_keeps {z : State} (s : State) (bad : List Nat) (paused : Bool)
    (hk : Keeps z s) : Keeps z (State.afterOrders s bad paused) := by
  unfold State.afterOrders
  try dsimp only
  iterate 24 (try any_goals (first | with_reducible assumption | (intro _ _ _; try dsimp only) | intro _ | with_reducible apply State.timeMessages_keeps | with_reducible apply State.footStep_keeps | with_reducible apply State.kstepStep_keeps | with_reducible apply State.capStep_keeps | with_reducible apply State.eachWb_keeps | with_reducible apply State.boundaryReceipt_keeps | with_reducible apply State.svcBoundary_keeps | with_reducible apply State.pauseStep_keeps | with_reducible apply State.pstateStep_keeps | with_reducible apply State.gateRows_keeps | with_reducible apply State.forcedReset_keeps | with_reducible apply State.svcRetry_keeps | with_reducible apply State.eachWb_keeps | with_reducible apply keeps_ite | split))

theorem State.takeBoundary_keeps {z : State} (s : State) (stage : Nat) (straggles : Bool)
    (hk : Keeps z s) : Keeps z (State.takeBoundary s stage straggles) := by
  unfold State.takeBoundary
  try dsimp only
  iterate 24 (try any_goals (first | with_reducible assumption | with_reducible apply State.setReg64_keeps | with_reducible apply State.newKc_keeps | with_reducible apply State.count_keeps | with_reducible apply State.clearVotes_keeps | with_reducible apply State.afterOrders_keeps | with_reducible apply State.orders_keeps | with_reducible apply keeps_ite | simp only [keeps_mk_eq] | with_reducible refine keeps_fst (by assumption) ?_ | with_reducible refine keeps_snd (by assumption) ?_ | split))

theorem State.extend_keeps {z : State} (s : State)
    (hk : Keeps z s) : Keeps z (State.extend s) := by
  unfold State.extend
  try dsimp only
  iterate 24 (try any_goals (first | with_reducible assumption | intro _ | with_reducible apply State.newKc_keeps | with_reducible apply State.count_keeps | with_reducible apply State.mapCl_keeps | with_reducible apply State.clearVotes_keeps | with_reducible apply State.capture_keeps | with_reducible apply State.raise_keeps | with_reducible apply State.setFld_keeps | with_reducible apply keeps_ite | simp only [keeps_mk_eq] | split))

theorem State.periodEdge_keeps {z : State} (s : State)
    (hk : Keeps z s) : Keeps z (State.periodEdge s) := by
  unfold State.periodEdge
  try dsimp only
  iterate 24 (try any_goals (first | with_reducible assumption | with_reducible apply State.count_keeps | with_reducible apply State.takeBoundary_keeps | with_reducible apply State.dueResets_keeps | with_reducible apply State.extend_keeps | with_reducible apply State.raise_keeps | with_reducible apply keeps_ite | simp only [keeps_mk_eq] | split))

theorem State.holdReceipts_keeps {z : State} (s : State)
    (hk : Keeps z s) : Keeps z (State.holdReceipts s) := by
  unfold State.holdReceipts
  refine State.eachWb_keeps ?_ hk
  intro s r w h
  split
  · exact State.finish_keeps _ _ _ _ _ h
  · exact h

theorem State.countKc_keeps {z : State} (s : State) (n : Nat) (issued : Bool)
    (hk : Keeps z s) : Keeps z (State.countKc s n issued) := by
  unfold State.countKc
  try dsimp only
  iterate 24 (try any_goals (first | with_reducible assumption | with_reducible apply State.count64_keeps | with_reducible apply keeps_ite | split))

theorem State.scrubTarget_keeps {z : State} (s : State) (k : Nat)
    (hk : Keeps z s) : Keeps z (State.scrubTarget s k) := by
  unfold State.scrubTarget
  try dsimp only
  iterate 24 (try any_goals (first | with_reducible assumption | with_reducible apply State.setDie_keeps | with_reducible apply keeps_ite | simp only [keeps_mk_eq] | split))

theorem State.catchUp_keeps {z : State} (s : State)
    (hk : Keeps z s) : Keeps z (State.catchUp s) := by
  unfold State.catchUp
  try dsimp only
  iterate 24 (try any_goals (first | with_reducible assumption | with_reducible apply keeps_ite | simp only [keeps_mk_eq] | split))

theorem State.checkTime_keeps {z : State} (s : State)
    (hk : Keeps z s) : Keeps z (State.checkTime s) := by
  unfold State.checkTime
  try dsimp only
  iterate 24 (try any_goals (first | with_reducible assumption | (intro _ _ _; try dsimp only) | intro _ | with_reducible apply State.chkTick_keeps | with_reducible apply keeps_ite | with_reducible apply keeps_foldl | split))

theorem State.kilnCycle_keeps {z : State} (u : State) (issued : List ClusterNo)
    (hk : Keeps z u) : Keeps z (State.kilnCycle u issued) := by
  unfold State.kilnCycle
  try dsimp only
  iterate 24 (try any_goals (first | with_reducible assumption | (intro _ _ _; try dsimp only) | intro _ | with_reducible apply State.drainStep_keeps | with_reducible apply State.dueResets_keeps | with_reducible apply State.newKc_keeps | with_reducible apply State.setReg64_keeps | with_reducible apply State.checkTime_keeps | with_reducible apply State.scrubTarget_keeps | with_reducible apply State.countKc_keeps | with_reducible apply State.count64_keeps | with_reducible apply State.mapCl_keeps | with_reducible apply State.catchUp_keeps | with_reducible apply keeps_ite | with_reducible apply keeps_foldl | simp only [keeps_mk_eq] | split))

end Sys2Proof.Machine
end

