-- ==== Sys2Proof/Laws/KeepsWaybills.lean ====
section
/-! SUPPORT. `Keeps` for the operations of RegWrite, HostAccess, WbRules, Waybills, Waybills2, BootCmds, StartUp. -/

set_option linter.all false

namespace Sys2Proof.Machine

theorem State.armBlock_keeps {z : State} (s : State) (a : Nat)
    (hk : Keeps z s) : Keeps z (State.armBlock s a) := by
  unfold State.armBlock
  try dsimp only
  iterate 24 (try any_goals (first | with_reducible assumption | with_reducible apply State.setFld_keeps | split))

theorem State.disarmBlock_keeps {z : State} (s : State) (a : Nat)
    (hk : Keeps z s) : Keeps z (State.disarmBlock s a) := by
  unfold State.disarmBlock
  try dsimp only
  iterate 24 (try any_goals (first | with_reducible assumption | with_reducible apply State.setFld_keeps | with_reducible apply keeps_ite | split))

theorem State.writeArm_keeps {z : State} (s : State) (w : Win) (a : Nat) (v : Nat)
    (hk : Keeps z s) : Keeps z (State.writeArm s w a v) := by
  unfold State.writeArm
  try dsimp only
  iterate 24 (try any_goals (first | with_reducible assumption | with_reducible apply State.plainWrite_keeps | with_reducible apply State.disarmBlock_keeps | with_reducible apply State.armBlock_keeps | with_reducible apply keeps_ite | split))

theorem State.writePin_keeps {z : State} (s : State) (pin : Nat)
    (hk : Keeps z s) : Keeps z (State.writePin s pin) := by
  unfold State.writePin
  try dsimp only
  iterate 24 (try any_goals (first | with_reducible assumption | with_reducible apply State.busyW_keeps | with_reducible apply State.setFld_keeps | with_reducible apply keeps_ite | split))

theorem State.writeTnd_keeps {z : State} (s : State) (v : Nat)
    (hk : Keeps z s) : Keeps z (State.writeTnd s v) := by
  unfold State.writeTnd
  try dsimp only
  iterate 24 (try any_goals (first | with_reducible assumption | intro _ | with_reducible apply State.mapCl_keeps | with_reducible apply State.writeBut_keeps | with_reducible apply keeps_ite | simp only [keeps_mk_eq] | split))

theorem State.haltRing_keeps {z : State} (s : State) (r : Nat) (ix : Nat) (cause : Nat)
    (hk : Keeps z s) : Keeps z (State.haltRing s r ix cause) := by
  unfold State.haltRing
  try dsimp only
  iterate 24 (try any_goals (first | with_reducible assumption | with_reducible apply State.setFld_keeps | with_reducible apply State.setRing_keeps | with_reducible apply State.raise_keeps | with_reducible apply keeps_ite | simp only [keeps_mk_eq] | split))

theorem State.ringFresh_keeps {z : State} (s : State) (r : Nat)
    (hk : Keeps z s) : Keeps z (State.ringFresh s r) := by
  unfold State.ringFresh
  try dsimp only
  iterate 24 (try any_goals (first | with_reducible assumption | with_reducible apply State.setRegN_keeps | with_reducible apply State.setFld_keeps | with_reducible apply State.setRing_keeps | with_reducible apply keeps_ite | split))

theorem State.ringResume_keeps {z : State} (s : State) (r : Nat)
    (hk : Keeps z s) : Keeps z (State.ringResume s r) := by
  unfold State.ringResume
  try dsimp only
  iterate 24 (try any_goals (first | with_reducible assumption | with_reducible apply State.busyW_keeps | with_reducible apply State.setRegN_keeps | with_reducible apply State.setFld_keeps | with_reducible apply State.setRing_keeps | with_reducible apply keeps_ite | split))

theorem State.writeRingCtl_keeps {z : State} (s : State) (r : Nat) (v : Nat)
    (hk : Keeps z s) : Keeps z (State.writeRingCtl s r v) := by
  unfold State.writeRingCtl
  try dsimp only
  iterate 24 (try any_goals (first | with_reducible assumption | with_reducible apply State.writeBut_keeps | with_reducible apply State.ringFresh_keeps | with_reducible apply State.ringResume_keeps | with_reducible apply keeps_ite | split))

theorem State.doorbell_keeps {z : State} (s : State) (r : Nat) (tail : Nat)
    (hk : Keeps z s) : Keeps z (State.doorbell s r tail) := by
  unfold State.doorbell
  try dsimp only
  iterate 24 (try any_goals (first | with_reducible assumption | with_reducible apply State.setRegN_keeps | with_reducible apply State.haltRing_keeps | with_reducible apply keeps_ite | split))

theorem State.writeRing_keeps {z : State} (s : State) (r : Nat) (o : Nat) (v : Nat)
    (hk : Keeps z s) : Keeps z (State.writeRing s r o v) := by
  unfold State.writeRing
  try dsimp only
  iterate 24 (try any_goals (first | with_reducible assumption | with_reducible apply State.writeRingCtl_keeps | with_reducible apply State.busyW_keeps | with_reducible apply State.setRegN_keeps | with_reducible apply State.doorbell_keeps | with_reducible apply State.plainWrite_keeps | with_reducible apply keeps_ite | split))

theorem State.writeWindow_keeps {z : State} (s : State) (n : Nat) (v : Nat)
    (hk : Keeps z s) : Keeps z (State.writeWindow s n v) := by
  unfold State.writeWindow
  try dsimp only
  iterate 24 (try any_goals (first | with_reducible assumption | with_reducible apply State.setRegN_keeps | with_reducible apply State.busyW_keeps | with_reducible apply State.setCl_keeps | with_reducible apply keeps_ite | simp only [keeps_mk_eq] | split))

theorem State.writeDesc_keeps {z : State} (s : State) (n : Nat) (w : Nat) (v : Nat)
    (hk : Keeps z s) : Keeps z (State.writeDesc s n w v) := by
  unfold State.writeDesc
  try dsimp only
  iterate 24 (try any_goals (first | with_reducible assumption | with_reducible apply State.busyW_keeps | with_reducible apply State.setCl_keeps | with_reducible apply applyAct_keeps | with_reducible apply keeps_ite | simp only [keeps_mk_eq] | split))

theorem State.writeCluster_keeps {z : State} (s : State) (n : Nat) (o : Nat) (v : Nat)
    (hk : Keeps z s) : Keeps z (State.writeCluster s n o v) := by
  unfold State.writeCluster
  try dsimp only
  iterate 24 (try any_goals (first | with_reducible assumption | with_reducible apply State.busyW_keeps | with_reducible apply State.count_keeps | with_reducible apply State.setCl_keeps | with_reducible apply State.writeWindow_keeps | with_reducible apply State.plainWrite_keeps | with_reducible apply State.writeDesc_keeps | with_reducible apply keeps_ite | simp only [keeps_mk_eq] | split))

theorem State.writeService_keeps {z : State} (s : State) (o : Nat) (v : Nat)
    (hk : Keeps z s) : Keeps z (State.writeService s o v) := by
  unfold State.writeService
  try dsimp only
  iterate 24 (try any_goals (first | with_reducible assumption | with_reducible apply State.plainWrite_keeps | with_reducible apply State.svcRequest_keeps | with_reducible apply State.svcForce_keeps | with_reducible apply State.svcCancel_keeps | with_reducible apply State.startDrain_keeps | with_reducible apply State.setRegN_keeps | with_reducible apply State.busyW_keeps | with_reducible apply keeps_ite | split))

theorem State.measurePolicy_keeps {z : State} (s : State)
    (hk : Keeps z s) : Keeps z (State.measurePolicy s) := by
  unfold State.measurePolicy
  try dsimp only
  iterate 24 (try any_goals (first | with_reducible assumption | with_reducible apply State.measure_keeps | with_reducible apply keeps_ite | split))

theorem State.writeSecurity_keeps {z : State} (s : State) (o : Nat) (v : Nat)
    (hk : Keeps z s) : Keeps z (State.writeSecurity s o v) := by
  unfold State.writeSecurity
  try dsimp only
  iterate 24 (try any_goals (first | with_reducible assumption | with_reducible apply State.busyW_keeps | with_reducible apply State.plainWrite_keeps | with_reducible apply State.measurePolicy_keeps | with_reducible apply keeps_ite | split))

theorem State.writeEvtCtl_keeps {z : State} (s : State) (v : Nat)
    (hk : Keeps z s) : Keeps z (State.writeEvtCtl s v) := by
  unfold State.writeEvtCtl
  try dsimp only
  iterate 24 (try any_goals (first | with_reducible assumption | with_reducible apply State.writeBut_keeps | with_reducible apply State.setRegN_keeps | with_reducible apply keeps_ite | split))

theorem State.writeEvtRd_keeps {z : State} (s : State) (v : Nat)
    (hk : Keeps z s) : Keeps z (State.writeEvtRd s v) := by
  unfold State.writeEvtRd
  try dsimp only
  iterate 24 (try any_goals (first | with_reducible assumption | with_reducible apply State.busyW_keeps | with_reducible apply State.setRegN_keeps | with_reducible apply keeps_ite | split))

theorem State.writeEvents_keeps {z : State} (s : State) (o : Nat) (v : Nat)
    (hk : Keeps z s) : Keeps z (State.writeEvents s o v) := by
  unfold State.writeEvents
  try dsimp only
  iterate 24 (try any_goals (first | with_reducible assumption | with_reducible apply State.writeEvtCtl_keeps | with_reducible apply State.busyW_keeps | with_reducible apply State.plainWrite_keeps | with_reducible apply State.writeEvtRd_keeps | with_reducible apply keeps_ite | split))

theorem State.writeImask_keeps {z : State} (s : State) (v : Nat)
    (hk : Keeps z s) : Keeps z (State.writeImask s v) := by
  unfold State.writeImask
  try dsimp only
  iterate 24 (try any_goals (first | with_reducible assumption | (intro _ _ _; try dsimp only) | intro _ | with_reducible apply State.toHost_keeps | with_reducible apply State.dropBits_keeps | with_reducible apply State.setRegN_keeps | with_reducible apply keeps_ite | with_reducible apply keeps_foldl | simp only [keeps_mk_eq] | split))

theorem State.writeTether_keeps {z : State} (s : State) (o : Nat) (v : Nat)
    (hk : Keeps z s) : Keeps z (State.writeTether s o v) := by
  unfold State.writeTether
  try dsimp only
  iterate 24 (try any_goals (first | with_reducible assumption | with_reducible apply State.writeImask_keeps | with_reducible apply State.plainWrite_keeps | with_reducible apply keeps_ite | split))

theorem State.writeEngrst_keeps {z : State} (s : State) (mask : Nat)
    (hk : Keeps z s) : Keeps z (State.writeEngrst s mask) := by
  unfold State.writeEngrst
  try dsimp only
  iterate 24 (try any_goals (first | with_reducible assumption | with_reducible apply State.busyW_keeps | with_reducible apply State.resetOr_keeps | with_reducible apply keeps_ite | split))

theorem State.writeReset_keeps {z : State} (s : State) (v : Nat)
    (hk : Keeps z s) : Keeps z (State.writeReset s v) := by
  unfold State.writeReset
  try dsimp only
  iterate 24 (try any_goals (first | with_reducible assumption | with_reducible apply State.resetOr_keeps | with_reducible apply keeps_ite | split))

theorem State.writePower_keeps {z : State} (s : State) (o : Nat) (v : Nat)
    (hk : Keeps z s) : Keeps z (State.writePower s o v) := by
  unfold State.writePower
  try dsimp only
  iterate 24 (try any_goals (first | with_reducible assumption | with_reducible apply State.writeReset_keeps | with_reducible apply State.busyW_keeps | with_reducible apply State.plainWrite_keeps | with_reducible apply State.writeEngrst_keeps | with_reducible apply keeps_ite | split))

theorem State.writePort_keeps {z : State} (s : State) (p : Nat) (o : Nat) (v : Nat)
    (hk : Keeps z s) : Keeps z (State.writePort s p o v) := by
  unfold State.writePort
  try dsimp only
  iterate 24 (try any_goals (first | with_reducible assumption | with_reducible apply State.plainWrite_keeps | with_reducible apply State.portEnable_keeps | with_reducible apply State.portDisable_keeps | with_reducible apply State.portRetrain_keeps | with_reducible apply State.portQuiesce_keeps | with_reducible apply keeps_ite | split))

theorem State.writeStack_keeps {z : State} (s : State) (k : Nat) (o : Nat) (v : Nat)
    (hk : Keeps z s) : Keeps z (State.writeStack s k o v) := by
  unfold State.writeStack
  try dsimp only
  iterate 24 (try any_goals (first | with_reducible assumption | with_reducible apply State.busyW_keeps | with_reducible apply State.plainWrite_keeps | with_reducible apply keeps_ite | split))

theorem State.writeReg_keeps {z : State} (s : State) (a : Nat) (v0 : Nat)
    (hk : Keeps z s) : Keeps z (State.writeReg s a v0) := by
  unfold State.writeReg
  try dsimp only
  iterate 24 (try any_goals (first | with_reducible assumption | with_reducible apply State.writeArm_keeps | with_reducible apply State.writeBut_keeps | with_reducible apply State.writePin_keeps | with_reducible apply State.writeTnd_keeps | with_reducible apply State.plainWrite_keeps | with_reducible apply State.writeRing_keeps | with_reducible apply State.writeChk_keeps | with_reducible apply State.writeService_keeps | with_reducible apply State.writeSecurity_keeps | with_reducible apply State.writeEvents_keeps | with_reducible apply State.writePower_keeps | with_reducible apply State.writePort_keeps | with_reducible apply State.writeTether_keeps | with_reducible apply State.writeStack_keeps | with_reducible apply State.writeCluster_keeps | with_reducible apply keeps_ite | simp only [keeps_mk_eq] | split))

theorem State.readCounter_keeps {z : State} (s : State) (a : Nat)
    (hk : Keeps z s) : Keeps z (State.readCounter s a) := by
  unfold State.readCounter
  try dsimp only
  iterate 24 (try any_goals (first | with_reducible assumption | with_reducible apply State.tthErr_keeps | with_reducible apply State.completeWord_keeps | with_reducible apply State.answerRead_keeps | with_reducible apply State.hold_keeps | with_reducible apply keeps_ite | simp only [keeps_mk_eq] | split))

theorem State.hostWriteReg_keeps {z : State} (s : State) (a : Nat) (v : Nat)
    (hk : Keeps z s) : Keeps z (State.hostWriteReg s a v) := by
  unfold State.hostWriteReg
  try dsimp only
  iterate 24 (try any_goals (first | with_reducible assumption | with_reducible apply State.tthErr_keeps | with_reducible apply State.writeReg_keeps | with_reducible apply keeps_ite | split))

theorem State.hostEnable_keeps {z : State} (s : State) (p : Nat) (on : Bool)
    (hk : Keeps z s) : Keeps z (State.hostEnable s p on) := by
  unfold State.hostEnable
  try dsimp only
  iterate 24 (try any_goals (first | with_reducible assumption | with_reducible apply State.portEnable_keeps | with_reducible apply State.portDisable_keeps | with_reducible apply keeps_ite | split))

theorem State.perform_keeps {z : State} (s : State) (i : HostAcc)
    (hk : Keeps z s) : Keeps z (State.perform s i) := by
  unfold State.perform
  try dsimp only
  iterate 24 (try any_goals (first | with_reducible assumption | with_reducible apply State.hostGet_keeps | with_reducible apply State.loessWrite_keeps | with_reducible apply State.hostPut_keeps | with_reducible apply State.hostReject_keeps | with_reducible apply State.hostWriteReg_keeps | with_reducible apply State.readCounter_keeps | with_reducible apply State.hold_keeps | with_reducible apply State.answerRead_keeps | with_reducible apply State.arm_keeps | with_reducible apply State.armBlock_keeps | with_reducible apply State.disarmBlock_keeps | with_reducible apply State.doorbell_keeps | with_reducible apply State.writeRingCtl_keeps | with_reducible apply State.ringResume_keeps | with_reducible apply State.chkBegin_keeps | with_reducible apply State.chkCompare_keeps | with_reducible apply State.chkFeed_keeps | with_reducible apply State.setCl_keeps | with_reducible apply State.writeDesc_keeps | with_reducible apply State.writePin_keeps | with_reducible apply State.writeTnd_keeps | with_reducible apply State.writeEvtCtl_keeps | with_reducible apply State.writeEvtRd_keeps | with_reducible apply State.writeImask_keeps | with_reducible apply State.plainWrite_keeps | with_reducible apply State.hostEnable_keeps | with_reducible apply State.portRetrain_keeps | with_reducible apply State.portQuiesce_keeps | with_reducible apply State.writeEngrst_keeps | with_reducible apply State.writeReset_keeps | with_reducible apply State.svcRequest_keeps | with_reducible apply State.svcForce_keeps | with_reducible apply State.svcCancel_keeps | with_reducible apply State.startDrain_keeps | with_reducible apply keeps_ite | simp only [keeps_mk_eq] | split))

theorem State.hostAccess_keeps {z : State} (s : State) (i : HostAcc)
    (hk : Keeps z s) : Keeps z (State.hostAccess s i) := by
  unfold State.hostAccess
  try dsimp only
  iterate 24 (try any_goals (first | with_reducible assumption | with_reducible apply State.perform_keeps | with_reducible apply State.fromHost_keeps | with_reducible apply keeps_ite | simp only [keeps_mk_eq] | split))

theorem State.hostNext_keeps {z : State} (s : State)
    (hk : Keeps z s) : Keeps z (State.hostNext s) := by
  unfold State.hostNext
  try dsimp only
  iterate 24 (try any_goals (first | with_reducible assumption | with_reducible apply State.perform_keeps | with_reducible apply keeps_ite | simp only [keeps_mk_eq] | split))

theorem State.hostOn_keeps {z : State} (s : State)
    (hk : Keeps z s) : Keeps z (State.hostOn s) := by
  unfold State.hostOn
  try dsimp only
  iterate 24 (try any_goals (first | with_reducible assumption | (intro _ _ _; try dsimp only) | intro _ | with_reducible apply State.hostNext_keeps | with_reducible apply keeps_foldl | split))

theorem State.eccBitmap_keeps {z : State} (s : State) (opc : Nat) (ps : List Nat) (ecc : List (Nat × EccCase))
    (hk : Keeps z s) : Keeps z (State.eccBitmap s opc ps ecc) := by
  unfold State.eccBitmap
  try dsimp only
  iterate 24 (try any_goals (first | with_reducible assumption | with_reducible apply State.eccReads_keeps | with_reducible apply State.mgmtTraffic_keeps | with_reducible apply keeps_ite | split))

theorem State.takeOne_keeps {z : State} (s : State) (r : Nat)
    (hk : Keeps z s) : Keeps z (State.takeOne s r) := by
  unfold State.takeOne
  try dsimp only
  iterate 24 (try any_goals (first | with_reducible assumption | with_reducible apply State.setRegN_keeps | with_reducible apply State.setRing_keeps | with_reducible apply keeps_ite | simp only [keeps_mk_eq] | split))

theorem State.takeWaybill_keeps {z : State} (s : State) (r : Nat) (ix : Nat) (seq : Nat) (bs : List Byte) (ecc : List (Nat × EccCase)) (fault : Option Word)
    (hk : Keeps z s) : Keeps z (State.takeWaybill s r ix seq bs ecc fault) := by
  unfold State.takeWaybill
  try dsimp only
  iterate 24 (try any_goals (first | with_reducible assumption | with_reducible apply State.takeOne_keeps | with_reducible apply State.receipt_keeps | with_reducible apply State.haltRing_keeps | with_reducible apply State.eccBitmap_keeps | with_reducible apply State.raise_keeps | with_reducible apply State.setRing_keeps | with_reducible apply keeps_ite | simp only [keeps_mk_eq] | split))

theorem State.switchOn_keeps {z : State} (s : State) (clus : List Nat)
    (hk : Keeps z s) : Keeps z (State.switchOn s clus) := by
  unfold State.switchOn
  try dsimp only
  iterate 24 (try any_goals (first | with_reducible assumption | intro _ | with_reducible apply State.rowsOn_keeps | split))

theorem State.phaseWb_keeps {z : State} (s : State) (r : Nat) (w : Wb) (p : Nat)
    (hk : Keeps z s) : Keeps z (State.phaseWb s r w p) := by
  unfold State.phaseWb
  try dsimp only
  iterate 24 (try any_goals (first | with_reducible assumption | with_reducible apply State.setWb_keeps | simp only [keeps_mk_eq] | split))

theorem State.undoWb_keeps {z : State} (s : State) (r : Nat) (w : Wb)
    (hk : Keeps z s) : Keeps z (State.undoWb s r w) := by
  unfold State.undoWb
  try dsimp only
  iterate 24 (try any_goals (first | with_reducible assumption | with_reducible apply keeps_ite | simp only [keeps_mk_eq] | split))

theorem State.memErr_keeps {z : State} (s : State) (r : Nat) (w : Wb) (d : Nat)
    (hk : Keeps z s) : Keeps z (State.memErr s r w d) := by
  unfold State.memErr
  try dsimp only
  iterate 24 (try any_goals (first | with_reducible assumption | with_reducible apply State.finish_keeps | split))

theorem State.readyReceipts_keeps {z : State} (s : State) (status : Nat) (res : List Nat)
    (hk : Keeps z s) : Keeps z (State.readyReceipts s status res) := by
  unfold State.readyReceipts
  try dsimp only
  iterate 24 (try any_goals (first | with_reducible assumption | (intro _ _ _; try dsimp only) | intro _ | with_reducible apply State.eachWb_keeps | with_reducible apply State.finish_keeps | with_reducible apply State.eachWb_keeps | with_reducible apply keeps_ite | split))

theorem State.warmActive_keeps {z : State} (s : State) (was : Nat)
    (hk : Keeps z s) : Keeps z (State.warmActive s was) := by
  unfold State.warmActive
  try dsimp only
  iterate 24 (try any_goals (first | with_reducible assumption | with_reducible apply State.rowsOn_keeps | with_reducible apply State.leaveHold_keeps | with_reducible apply State.leaveStandby_keeps | with_reducible apply keeps_ite | simp only [keeps_mk_eq] | split))

theorem State.trimPause_keeps {z : State} (s : State)
    (hk : Keeps z s) : Keeps z (State.trimPause s) := by
  unfold State.trimPause
  try dsimp only
  iterate 24 (try any_goals (first | with_reducible assumption | with_reducible apply keeps_ite | simp only [keeps_mk_eq] | split))

theorem State.musterBegin_keeps {z : State} (s : State) (b : Book) (own : Nat) (s0 : Nat) (wb : Nat × Nat)
    (hk : Keeps z s) : Keeps z (State.musterBegin s b own s0 wb) := by
  unfold State.musterBegin
  try dsimp only
  iterate 24 (try any_goals (first | with_reducible assumption | intro _ | with_reducible apply State.leaveDomain_keeps | with_reducible apply State.mapCl_keeps | with_reducible apply State.setRegN_keeps | with_reducible apply State.setReg64_keeps | with_reducible apply State.musterStep_keeps | with_reducible apply keeps_ite | simp only [keeps_mk_eq] | split))

theorem State.pstateBegin_keeps {z : State} (s : State) (t : Nat)
    (hk : Keeps z s) : Keeps z (State.pstateBegin s t) := by
  unfold State.pstateBegin
  try dsimp only
  iterate 24 (try any_goals (first | with_reducible assumption | with_reducible apply State.svcEvent_keeps | with_reducible apply State.setSvcPhase_keeps | with_reducible apply State.leaveStandby_keeps | with_reducible apply State.leaveHold_keeps | with_reducible apply State.enterStandby_keeps | with_reducible apply State.svcRetry_keeps | with_reducible apply State.setFld_keeps | with_reducible apply keeps_ite | simp only [keeps_mk_eq] | split))

theorem State.fuse_keeps {z : State} (s : State) (t : Nat) (b : FwBank)
    (hk : Keeps z s) : Keeps z (State.fuse s t b) := by
  unfold State.fuse State.arb
  exact ⟨hk.pending, hk.grade, hk.loess, fun k => by
    refine le_trans (hk.counters k) ?_
    dsimp only
    by_cases e : k = t
    · subst e
      rw [sget_sput_same]
      exact le_max_left _ _
    · rw [sget_sput_other _ _ _ _ e], fun k h4 x => by
    have y := hk.revoked k h4 x
    have e : (16 : Nat) = 2 ^ 4 := rfl
    dsimp only
    rw [e, Nat.testBit_mod_two_pow, Nat.testBit_or, y]
    simp [h4]⟩

theorem State.setBankOf_keeps {z : State} (s : State) (b : Bool) (x : FwBank)
    (hk : Keeps z s) : Keeps z (State.setBankOf s b x) := by
  unfold State.setBankOf
  try dsimp only
  iterate 24 (try any_goals (first | with_reducible assumption | with_reducible apply keeps_ite | simp only [keeps_mk_eq, keeps_boot_eq] | split))

theorem State.installPackage_keeps {z : State} (s : State) (r : Nat) (w : Wb) (t : Nat) (bs : List Byte)
    (hk : Keeps z s) : Keeps z (State.installPackage s r w t bs) := by
  unfold State.installPackage
  try dsimp only
  iterate 24 (try any_goals (first | with_reducible assumption | with_reducible apply State.finish_keeps | with_reducible apply State.svcRetry_keeps | with_reducible apply State.setBankOf_keeps | with_reducible apply State.setStack_keeps | with_reducible apply State.setDie_keeps | with_reducible apply State.phaseWb_keeps | with_reducible apply State.fuse_keeps | with_reducible apply keeps_ite | simp only [keeps_mk_eq, keeps_boot_eq] | split))

theorem State.tornWrite_keeps {z : State} (s : State)
    (hk : Keeps z s) : Keeps z (State.tornWrite s) := by
  unfold State.tornWrite
  try dsimp only
  iterate 24 (try any_goals (first | with_reducible assumption | with_reducible apply State.setBankOf_keeps | with_reducible apply keeps_ite | simp only [keeps_mk_eq, keeps_boot_eq] | split))

theorem State.bedRuns_keeps {z : State} (s : State) (k : Nat) (b : FwBank)
    (hk : Keeps z s) : Keeps z (State.bedRuns s k b) := by
  unfold State.bedRuns
  try dsimp only
  iterate 24 (try any_goals (first | with_reducible assumption | with_reducible apply State.setReg_keeps | with_reducible apply State.measure_keeps | with_reducible apply State.fuse_keeps | with_reducible apply keeps_ite | simp only [keeps_mk_eq, keeps_boot_eq] | split))

theorem State.runBank_keeps {z : State} (s : State) (b : Bool)
    (hk : Keeps z s) : Keeps z (State.runBank s b) := by
  unfold State.runBank
  try dsimp only
  iterate 24 (try any_goals (first | with_reducible assumption | with_reducible apply State.measure_keeps | with_reducible apply State.setFld_keeps | with_reducible apply keeps_ite | simp only [keeps_mk_eq, keeps_boot_eq] | split))

theorem State.heldIrqs_keeps {z : State} (s : State)
    (hk : Keeps z s) : Keeps z (State.heldIrqs s) := by
  unfold State.heldIrqs
  try dsimp only
  iterate 24 (try any_goals (first | with_reducible assumption | (intro _ _ _; try dsimp only) | intro _ | with_reducible apply State.trigger_keeps | with_reducible apply keeps_ite | with_reducible apply keeps_foldl | simp only [keeps_mk_eq, keeps_boot_eq] | split))

theorem State.startFail_keeps {z : State} (s : State) (cause : Nat) (recovery : Bool)
    (hk : Keeps z s) : Keeps z (State.startFail s cause recovery) := by
  unfold State.startFail
  try dsimp only
  iterate 24 (try any_goals (first | with_reducible assumption | with_reducible apply State.setFld_keeps | with_reducible apply State.readyReceipts_keeps | with_reducible apply keeps_ite | simp only [keeps_mk_eq, keeps_boot_eq] | split))

theorem State.bootErr_keeps {z : State} (s : State) (c : Nat)
    (hk : Keeps z s) : Keeps z (State.bootErr s c) := by
  unfold State.bootErr
  try dsimp only
  iterate 24 (try any_goals (first | with_reducible assumption | with_reducible apply State.setFld_keeps | split))

theorem State.measureRom_keeps {z : State} (s : State)
    (hk : Keeps z s) : Keeps z (State.measureRom s) := by
  unfold State.measureRom
  try dsimp only
  iterate 24 (try any_goals (first | with_reducible assumption | intro _ | with_reducible apply State.measure_keeps | split))

theorem State.bootBank_keeps {z : State} (s : State) (b : Bool)
    (hk : Keeps z s) : Keeps z (State.bootBank s b) := by
  unfold State.bootBank
  try dsimp only
  iterate 24 (try any_goals (first | with_reducible assumption | with_reducible apply State.measureRom_keeps | with_reducible apply State.runBank_keeps | split))

theorem State.bootMeasure_keeps {z : State} (s : State)
    (hk : Keeps z s) : Keeps z (State.bootMeasure s) := by
  unfold State.bootMeasure
  try dsimp only
  iterate 24 (try any_goals (first | with_reducible assumption | (intro _ _ _; try dsimp only) | intro _ | with_reducible apply State.measure_keeps | with_reducible apply keeps_ite | with_reducible apply keeps_foldl | simp only [keeps_mk_eq] | split))

theorem State.bootBed_keeps {z : State} (s : State) (k : Nat)
    (hk : Keeps z s) : Keeps z (State.bootBed s k) := by
  unfold State.bootBed
  try dsimp only
  iterate 24 (try any_goals (first | with_reducible assumption | with_reducible apply State.authFail_keeps | with_reducible apply State.bootErr_keeps | with_reducible apply keeps_ite | simp only [keeps_mk_eq, keeps_boot_eq] | split))

theorem State.bootStored_keeps {z : State} (s : State)
    (hk : Keeps z s) : Keeps z (State.bootStored s) := by
  unfold State.bootStored
  try dsimp only
  iterate 24 (try any_goals (first | with_reducible assumption | (intro _ _ _; try dsimp only) | intro _ | with_reducible apply State.bootBed_keeps | with_reducible apply State.startFail_keeps | with_reducible apply State.authFail_keeps | with_reducible apply State.bootErr_keeps | with_reducible apply State.bootMeasure_keeps | with_reducible apply keeps_ite | with_reducible apply keeps_foldl | simp only [keeps_mk_eq] | split))

theorem State.bootBanks_keeps {z : State} (s : State)
    (hk : Keeps z s) : Keeps z (State.bootBanks s) := by
  unfold State.bootBanks
  try dsimp only
  iterate 24 (try any_goals (first | with_reducible assumption | with_reducible apply State.bootErr_keeps | with_reducible apply State.bootBank_keeps | with_reducible apply State.bootStored_keeps | with_reducible apply State.authFail_keeps | with_reducible apply State.measureRom_keeps | with_reducible apply State.startFail_keeps | with_reducible apply keeps_ite | split))

theorem State.startD_keeps {z : State} (s : State)
    (hk : Keeps z s) : Keeps z (State.startD s) := by
  unfold State.startD
  try dsimp only
  iterate 24 (try any_goals (first | with_reducible assumption | (intro _ _ _; try dsimp only) | intro _ | with_reducible apply State.portEnable_keeps | with_reducible apply keeps_ite | with_reducible apply keeps_foldl | simp only [keeps_mk_eq] | split))

theorem State.endD_keeps {z : State} (s : State)
    (hk : Keeps z s) : Keeps z (State.endD s) := by
  unfold State.endD
  extract_lets s1 s2
  have h1 : Keeps z s1 := by
    refine keeps_foldl (fun s k h => ?_) hk
    refine State.setReg_keeps _ _ _ ?_
    split
    · exact State.setStack_keeps _ _ _ h
    · exact h
  have h2 : Keeps z s2 := by
    by_cases e : s.boot.glz.isSome = true
    · simp only [s2, e, if_true]
      exact keeps_foldl (fun s n h => State.setCl_keeps _ _ _ h) h1
    · simp only [s2, e, if_false]
      exact h1
  exact keeps_loess h2 (fun _ => rfl)

theorem State.loadRations_keeps {z : State} (s : State)
    (hk : Keeps z s) : Keeps z (State.loadRations s) := by
  unfold State.loadRations
  try dsimp only
  iterate 24 (try any_goals (first | with_reducible assumption | (intro _ _ _; try dsimp only) | intro _ | with_reducible apply State.setRegN_keeps | with_reducible apply keeps_ite | with_reducible apply keeps_foldl | simp only [keeps_mk_eq] | split))

theorem State.raiseReady_keeps {z : State} (s : State)
    (hk : Keeps z s) : Keeps z (State.raiseReady s) := by
  unfold State.raiseReady
  try dsimp only
  iterate 24 (try any_goals (first | with_reducible assumption | with_reducible apply State.loadRations_keeps | with_reducible apply State.setReg64_keeps | with_reducible apply State.setFld_keeps | with_reducible apply State.setReg_keeps | with_reducible apply State.fuse_keeps | with_reducible apply State.draw_keeps | with_reducible apply State.trigger_keeps | with_reducible apply State.readyReceipts_keeps | with_reducible apply keeps_ite | simp only [keeps_mk_eq, keeps_boot_eq] | split))

theorem State.endE_keeps {z : State} (s : State)
    (hk : Keeps z s) : Keeps z (State.endE s) := by
  unfold State.endE
  try dsimp only
  iterate 24 (try any_goals (first | with_reducible assumption | with_reducible apply State.checkLedgers_keeps | with_reducible apply State.raiseReady_keeps | with_reducible apply State.newKc_keeps | with_reducible apply State.pstateReached_keeps | with_reducible apply State.svcRetry_keeps | with_reducible apply keeps_ite | simp only [keeps_mk_eq] | split))

theorem State.phaseDone_keeps {z : State} (s : State)
    (hk : Keeps z s) : Keeps z (State.phaseDone s) := by
  unfold State.phaseDone
  try dsimp only
  iterate 24 (try any_goals (first | with_reducible assumption | with_reducible apply State.bootBanks_keeps | with_reducible apply State.startD_keeps | with_reducible apply State.startFail_keeps | with_reducible apply State.endD_keeps | with_reducible apply State.endE_keeps | with_reducible apply keeps_ite | simp only [keeps_mk_eq] | split))

theorem State.phaseFailed_keeps {z : State} (s : State) (cause : Nat) (recovery : Bool)
    (hk : Keeps z s) : Keeps z (State.phaseFailed s cause recovery) := by
  unfold State.phaseFailed
  try dsimp only
  iterate 24 (try any_goals (first | with_reducible assumption | with_reducible apply State.authFail_keeps | with_reducible apply State.measureRom_keeps | with_reducible apply State.bootBank_keeps | with_reducible apply State.draw_keeps | with_reducible apply State.bootErr_keeps | with_reducible apply State.startFail_keeps | with_reducible apply State.setStack_keeps | with_reducible apply keeps_ite | simp only [keeps_mk_eq] | split))

theorem State.tapLoad_keeps {z : State} (s : State) (code : Nat)
    (hk : Keeps z s) : Keeps z (State.tapLoad s code) := by
  unfold State.tapLoad
  try dsimp only
  iterate 24 (try any_goals (first | with_reducible assumption | with_reducible apply State.endE_keeps | with_reducible apply keeps_ite | simp only [keeps_mk_eq] | split))

theorem State.tapOut_keeps {z : State} (s : State) (bs : List Bool)
    (hk : Keeps z s) : Keeps z (State.tapOut s bs) := by
  unfold State.tapOut
  try dsimp only
  iterate 24 (try any_goals (first | with_reducible assumption | simp only [keeps_mk_eq] | split))

theorem State.tapScan_keeps {z : State} (s : State) (cells : List Bool)
    (hk : Keeps z s) : Keeps z (State.tapScan s cells) := by
  unfold State.tapScan
  try dsimp only
  iterate 24 (try any_goals (first | with_reducible assumption | intro _ | with_reducible apply State.draw_keeps | with_reducible apply State.tapOut_keeps | with_reducible apply keeps_ite | simp only [keeps_mk_eq] | split))

theorem State.tapDrive_keeps {z : State} (s : State) (code : Nat)
    (hk : Keeps z s) : Keeps z (State.tapDrive s code) := by
  unfold State.tapDrive
  try dsimp only
  iterate 24 (try any_goals (first | with_reducible assumption | with_reducible apply State.tapLoad_keeps | with_reducible apply keeps_ite | split))

theorem State.pldm_keeps {z : State} (s : State) (type : Nat) (cmd : Nat) (code : Nat) (data : List Byte)
    (hk : Keeps z s) : Keeps z (State.pldm s type cmd code data) := by
  unfold State.pldm
  try dsimp only
  iterate 24 (try any_goals (first | with_reducible assumption | with_reducible apply State.sideSend_keeps | with_reducible apply keeps_ite | split))

theorem State.assign_keeps {z : State} (s : State) (addr : BitVec 7)
    (hk : Keeps z s) : Keeps z (State.assign s addr) := by
  unfold State.assign
  try dsimp only
  iterate 24 (try any_goals (first | with_reducible assumption | with_reducible apply keeps_ite | simp only [keeps_mk_eq] | split))

/-- A waybill's effect: everything around it keeps, so the waybill does where its own part does. -/
theorem State.startWb_keeps {z : State} {s : State} {opc r ix : Nat} {up : Wb → Bool} {f : State → Wb → State}
    (hf : ∀ t w, Keeps z t → Keeps z (f t w)) (hk : Keeps z s) : Keeps z (State.startWb s opc r ix up f) := by
  unfold State.startWb
  repeat' (first | exact hk | exact State.finish_keeps _ _ _ _ _ hk | exact hf _ _ (State.switchOn_keeps _ _ hk) | split)

theorem firstTaker_keeps {z : State} {f : Nat → Option State} (hf : ∀ a, KeepsOpt z (f a)) (l : List Nat) :
    KeepsOpt z (firstTaker f l) := by
  induction l with
  | nil => exact keepsOpt_none
  | cons a l ih =>
    unfold firstTaker
    split
    · rename_i t e
      exact keepsOpt_some ((hf a).get t e)
    · exact ih

/-- One slot of a wheel: its offers keep where each activity does. -/
theorem State.offer_keeps {z : State} {s : State} {w : Wheel} {unit : Nat} {f : State → Nat → Option State} {idle : State → State}
    (hf : ∀ t a, Keeps z t → KeepsOpt z (f t a)) (hi : ∀ t, Keeps z t → Keeps z (idle t)) (hk : Keeps z s) :
    Keeps z (State.offer s w unit f idle) := by
  unfold State.offer
  dsimp only
  split
  · exact hk
  · have h1 : Keeps z { s with wheel := sput zeroNat s.wheel (wheelKey w unit) (sget zeroNat s.wheel (wheelKey w unit) + 1) } := by
      simp only [keeps_mk_eq]
      exact hk
    cases e : firstTaker (f { s with wheel := sput zeroNat s.wheel (wheelKey w unit) (sget zeroNat s.wheel (wheelKey w unit) + 1) })
        (offered (s.slotOwner w (sget zeroNat s.wheel (wheelKey w unit))) (s.orderOf w unit)) with
    | none => exact hi _ h1
    | some t => exact (firstTaker_keeps (fun a => hf _ a h1) _).get t e

end Sys2Proof.Machine
end

