-- ==== Sys2Proof/Laws/KeepsExec.lean ====
section
/-! SUPPORT. `Keeps` for every command: one lemma per command. -/

set_option linter.all false

namespace Sys2Proof.Machine

theorem State.loadImage_keeps {z : State} {s : State} {addr : Nat} {set : List Nat} {all : Bool} {t : State} {a b : Nat}
    (hk : Keeps z s) (h : s.loadImage addr set all = .done t a b) : Keeps z t := by
  unfold State.loadImage at h
  dsimp only at h
  split at h
  · cases h
  · split at h
    · cases h
    · split at h
      · cases h
      · cases h
        exact State.loadChosen_keeps _ _ _ hk

theorem State.restoreImage_keeps {z : State} {s : State} {addr : Nat} {t : State} {a : Nat}
    (hk : Keeps z s) (h : s.restoreImage addr = .done t a) : Keeps z t := by
  unfold State.restoreImage at h
  dsimp only at h
  split at h
  · cases h
  split at h
  · cases h
  split at h
  · cases h
  split at h
  · cases h
  injection h with h1 h2
  rw [← h1]
  exact State.restoreAll_keeps _ _ hk

theorem State.takers_keeps {z : State} (u : State) (w : Wheel) (unit : Nat) (ecc : List (Fin 8 × EccCase)) (t : State) (a : Nat)
    (hk : Keeps z t) : KeepsOpt z (u.takers w unit ecc t a) := by
  unfold State.takers
  split
  · split
    · exact State.memoryStep_keeps _ _ _ _ hk
    · exact keepsOpt_none
  · split
    · exact State.linkStep_keeps _ _ _ hk
    · exact keepsOpt_none
  · split
    · exact State.tetherStep_keeps _ _ hk
    · exact State.tetherTake_keeps _ _ hk
  · exact State.glazeStep_keeps _ _ _ hk


theorem State.serve_keeps {z : State} (s : State) (e : Ev) (hk : Keeps z s) : Keeps z (s.serve e).1 := by
  unfold State.serve
  refine keeps_foldl_fst (fun r k h => ?_) hk
  split
  · exact State.serveRoute_keeps _ _ _ h
  · exact h

theorem execNop_keeps {z : State} (cl : ClusterNo) (h : Half) (s : State) (hk : Keeps z s) :
    KeepsOut z (execNop cl h s) := by
  unfold execNop
  try dsimp only
  iterate 24 (try any_goals (first | with_reducible assumption | with_reducible apply keepsOut_next | with_reducible apply State.issue_keeps | with_reducible apply keeps_ite | split))

theorem execEndHalf_keeps {z : State} (cl : ClusterNo) (h : Half) (s : State) (hk : Keeps z s) :
    KeepsOut z (execEndHalf cl h s) := by
  unfold execEndHalf
  try dsimp only
  iterate 24 (try any_goals (first | with_reducible assumption | with_reducible apply keepsOut_next | with_reducible apply State.issue_keeps | with_reducible apply keeps_ite | split))

theorem execLoop_keeps {z : State} (cl : ClusterNo) (h : Half) (count : BitVec 16) (target : BitVec 16) (s : State) (hk : Keeps z s) :
    KeepsOut z (execLoop cl h count target s) := by
  unfold execLoop
  try dsimp only
  iterate 24 (try any_goals (first | with_reducible assumption | with_reducible apply keepsOut_next | with_reducible apply keepsOut_refused | with_reducible apply State.count_keeps | with_reducible apply State.setCl_keeps | with_reducible apply keeps_ite | simp only [keeps_mk_eq] | split))

theorem execStagew_keeps {z : State} (cl : ClusterNo) (h : Half) (s : State) (hk : Keeps z s) :
    KeepsOut z (execStagew cl h s) := by
  unfold execStagew
  try dsimp only
  iterate 24 (try any_goals (first | with_reducible assumption | with_reducible apply keepsOut_next | with_reducible apply State.issue_keeps | with_reducible apply keeps_ite | simp only [keeps_mk_eq] | split))

theorem execMop_keeps {z : State} (cl : ClusterNo) (f : MopF) (s : State) (hk : Keeps z s) :
    KeepsOut z (execMop cl f s) := by
  unfold execMop
  try dsimp only
  iterate 24 (try any_goals (first | with_reducible assumption | with_reducible apply keepsOut_next | with_reducible apply keepsOut_refused | with_reducible apply State.issue_keeps | with_reducible apply keeps_ite | split))

theorem execWload_keeps {z : State} (cl : ClusterNo) (desc : BitVec 6) (pack : Bool) (s : State) (hk : Keeps z s) :
    KeepsOut z (execWload cl desc pack s) := by
  unfold execWload
  try dsimp only
  iterate 24 (try any_goals (first | with_reducible assumption | with_reducible apply keepsOut_next | with_reducible apply State.issue_keeps | with_reducible apply keeps_ite | simp only [keeps_mk_eq] | split))

theorem execSwap_keeps {z : State} (cl : ClusterNo) (s : State) (hk : Keeps z s) :
    KeepsOut z (execSwap cl s) := by
  unfold execSwap
  try dsimp only
  iterate 24 (try any_goals (first | with_reducible assumption | with_reducible apply keepsOut_next | with_reducible apply State.issue_keeps | with_reducible apply keeps_ite | simp only [keeps_mk_eq] | split))

theorem execRead_keeps {z : State} (cl : ClusterNo) (f : ReadF) (s : State) (hk : Keeps z s) :
    KeepsOut z (execRead cl f s) := by
  unfold execRead
  try dsimp only
  iterate 24 (try any_goals (first | with_reducible assumption | with_reducible apply keepsOut_next | with_reducible apply keepsOut_refused | with_reducible apply State.issue_keeps | with_reducible apply keeps_ite | split))

theorem execDrain_keeps {z : State} (cl : ClusterNo) (f : ReadF) (s : State) (hk : Keeps z s) :
    KeepsOut z (execDrain cl f s) := by
  unfold execDrain
  try dsimp only
  iterate 24 (try any_goals (first | with_reducible assumption | with_reducible apply keepsOut_next | with_reducible apply keepsOut_refused | with_reducible apply State.issue_keeps | with_reducible apply keeps_ite | split))

theorem execTload_keeps {z : State} (cl : ClusterNo) (f : TloadF) (s : State) (hk : Keeps z s) :
    KeepsOut z (execTload cl f s) := by
  unfold execTload
  try dsimp only
  iterate 24 (try any_goals (first | with_reducible assumption | with_reducible apply keepsOut_next | with_reducible apply keepsOut_refused | with_reducible apply State.issue_keeps | with_reducible apply keeps_ite | split))

theorem execClear_keeps {z : State} (cl : ClusterNo) (tile : Fin 2) (s : State) (hk : Keeps z s) :
    KeepsOut z (execClear cl tile s) := by
  unfold execClear
  try dsimp only
  iterate 24 (try any_goals (first | with_reducible assumption | with_reducible apply keepsOut_next | with_reducible apply State.issue_keeps | with_reducible apply State.discard_keeps | with_reducible apply keeps_ite | split))

theorem execGlz_keeps {z : State} (cl : ClusterNo) (f : GlzF) (s : State) (hk : Keeps z s) :
    KeepsOut z (execGlz cl f s) := by
  unfold execGlz
  try dsimp only
  iterate 24 (try any_goals (first | with_reducible assumption | with_reducible apply keepsOut_next | with_reducible apply keepsOut_refused | with_reducible apply State.issue_keeps | with_reducible apply keeps_ite | split))

theorem execGswitch_keeps {z : State} (cl : ClusterNo) (s : State) (hk : Keeps z s) :
    KeepsOut z (execGswitch cl s) := by
  unfold execGswitch
  try dsimp only
  iterate 24 (try any_goals (first | with_reducible assumption | with_reducible apply keepsOut_next | with_reducible apply State.issue_keeps | with_reducible apply keeps_ite | simp only [keeps_mk_eq] | split))

theorem execGstep_keeps {z : State} (cl : ClusterNo) (s : State) (hk : Keeps z s) :
    KeepsOut z (execGstep cl s) := by
  unfold execGstep
  try dsimp only
  iterate 24 (try any_goals (first | with_reducible assumption | with_reducible apply keepsOut_next | with_reducible apply State.issue_keeps | with_reducible apply keeps_ite | simp only [keeps_mk_eq] | split))

theorem execWadv_keeps {z : State} (cl : ClusterNo) (s : State) (hk : Keeps z s) :
    KeepsOut z (execWadv cl s) := by
  unfold execWadv
  try dsimp only
  iterate 24 (try any_goals (first | with_reducible assumption | with_reducible apply keepsOut_next | with_reducible apply State.issue_keeps | with_reducible apply keeps_ite | simp only [keeps_mk_eq] | split))

theorem execSetp_keeps {z : State} (cl : ClusterNo) (f : SetpF) (s : State) (hk : Keeps z s) :
    KeepsOut z (execSetp cl f s) := by
  unfold execSetp
  try dsimp only
  iterate 24 (try any_goals (first | with_reducible assumption | with_reducible apply keepsOut_next | with_reducible apply keepsOut_refused | with_reducible apply State.issue_keeps | with_reducible apply State.setPred_keeps | with_reducible apply keeps_ite | simp only [keeps_mk_eq] | split))

theorem execStream_keeps {z : State} (cl : ClusterNo) (desc : BitVec 6) (s : State) (hk : Keeps z s) :
    KeepsOut z (execStream cl desc s) := by
  unfold execStream
  try dsimp only
  iterate 24 (try any_goals (first | with_reducible assumption | with_reducible apply keepsOut_next | with_reducible apply State.issue_keeps | with_reducible apply keeps_ite | simp only [keeps_mk_eq] | split))

theorem execSpair_keeps {z : State} (cl : ClusterNo) (f : SpairF) (s : State) (hk : Keeps z s) :
    KeepsOut z (execSpair cl f s) := by
  unfold execSpair
  try dsimp only
  iterate 24 (try any_goals (first | with_reducible assumption | (intro _ _ _; try dsimp only) | intro _ | with_reducible apply keepsOut_next | with_reducible apply keepsOut_refused | with_reducible apply State.issue_keeps | with_reducible apply keeps_ite | with_reducible apply keeps_foldl | simp only [keeps_mk_eq] | split))

theorem execWaits_keeps {z : State} (cl : ClusterNo) (desc : BitVec 6) (s : State) (hk : Keeps z s) :
    KeepsOut z (execWaits cl desc s) := by
  unfold execWaits
  try dsimp only
  iterate 24 (try any_goals (first | with_reducible assumption | with_reducible apply keepsOut_next | with_reducible apply State.issue_keeps | with_reducible apply keeps_ite | split))

theorem execTaskIssue_keeps {z : State} (cl : ClusterNo) (s : State) (hk : Keeps z s) :
    KeepsOut z (execTaskIssue cl s) := by
  unfold execTaskIssue
  try dsimp only
  iterate 24 (try any_goals (first | with_reducible assumption | with_reducible apply keepsOut_next | with_reducible apply State.sense_keeps | with_reducible apply State.count_keeps | with_reducible apply State.setCl_keeps | with_reducible apply State.openPmes_keeps | with_reducible apply keeps_ite | simp only [keeps_mk_eq] | split))

theorem execTaskHalfStart_keeps {z : State} (cl : ClusterNo) (h : Half) (s : State) (hk : Keeps z s) :
    KeepsOut z (execTaskHalfStart cl h s) := by
  unfold execTaskHalfStart
  try dsimp only
  iterate 24 (try any_goals (first | with_reducible assumption | with_reducible apply keepsOut_next | with_reducible apply State.setCl_keeps | with_reducible apply keeps_ite | simp only [keeps_mk_eq] | split))

theorem execOuterProductStep_keeps {z : State} (cl : ClusterNo) (s : State) (hk : Keeps z s) :
    KeepsOut z (execOuterProductStep cl s) := by
  unfold execOuterProductStep
  try dsimp only
  iterate 24 (try any_goals (first | with_reducible assumption | with_reducible apply keepsOut_next | with_reducible apply State.unitStep_keeps | with_reducible apply keeps_ite | split))

theorem execStreamTokenStep_keeps {z : State} (cl : ClusterNo) (s : State) (hk : Keeps z s) :
    KeepsOut z (execStreamTokenStep cl s) := by
  unfold execStreamTokenStep
  try dsimp only
  iterate 24 (try any_goals (first | with_reducible assumption | with_reducible apply keepsOut_next | with_reducible apply State.setCl_keeps | with_reducible apply State.runActs_keeps | with_reducible apply keeps_ite | simp only [keeps_mk_eq] | split))

theorem execWeightRowLoad_keeps {z : State} (cl : ClusterNo) (s : State) (hk : Keeps z s) :
    KeepsOut z (execWeightRowLoad cl s) := by
  unfold execWeightRowLoad
  try dsimp only
  iterate 24 (try any_goals (first | with_reducible assumption | with_reducible apply keepsOut_next | with_reducible apply State.unitStep_keeps | with_reducible apply keeps_ite | split))

theorem execManifestLaneAccept_keeps {z : State} (cl : ClusterNo) (s : State) (hk : Keeps z s) :
    KeepsOut z (execManifestLaneAccept cl s) := by
  unfold execManifestLaneAccept
  try dsimp only
  iterate 24 (try any_goals (first | with_reducible assumption | with_reducible apply keepsOut_next | with_reducible apply State.unitStep_keeps | with_reducible apply keeps_ite | split))

theorem execTileDrainRow_keeps {z : State} (cl : ClusterNo) (tile : Fin 2) (s : State) (hk : Keeps z s) :
    KeepsOut z (execTileDrainRow cl tile s) := by
  unfold execTileDrainRow
  try dsimp only
  iterate 24 (try any_goals (first | with_reducible assumption | with_reducible apply keepsOut_next | with_reducible apply State.unitStep_keeps | with_reducible apply keeps_ite | split))

theorem execGlazeVectorEntry_keeps {z : State} (cl : ClusterNo) (s : State) (hk : Keeps z s) :
    KeepsOut z (execGlazeVectorEntry cl s) := by
  unfold execGlazeVectorEntry
  try dsimp only
  iterate 24 (try any_goals (first | with_reducible assumption | with_reducible apply keepsOut_next | with_reducible apply State.unitStep_keeps | with_reducible apply keeps_ite | simp only [keeps_mk_eq] | split))

theorem execGtload_keeps {z : State} (cl : ClusterNo) (region : BitVec 6) (epoch : BitVec 16) (addr : BitVec 40) (s : State) (hk : Keeps z s) :
    KeepsOut z (execGtload cl region epoch addr s) := by
  unfold execGtload
  try dsimp only
  iterate 24 (try any_goals (first | with_reducible assumption | with_reducible apply keepsOut_next | with_reducible apply keepsOut_refused | with_reducible apply State.issue_keeps | with_reducible apply State.busyW_keeps | with_reducible apply State.claimLoad_keeps | with_reducible apply keeps_ite | simp only [keeps_mk_eq] | split))

theorem execGlazeLoadStart_keeps {z : State} (cl : ClusterNo) (s : State) (hk : Keeps z s) :
    KeepsOut z (execGlazeLoadStart cl s) := by
  unfold execGlazeLoadStart
  try dsimp only
  iterate 24 (try any_goals (first | with_reducible assumption | with_reducible apply keepsOut_next | with_reducible apply State.setCl_keeps | with_reducible apply State.claimLoad_keeps | with_reducible apply keeps_ite | simp only [keeps_mk_eq] | split))

theorem execGlazeLoadDone_keeps {z : State} (cl : ClusterNo) (ecc : List (Nat × EccCase)) (s : State) (hk : Keeps z s) :
    KeepsOut z (execGlazeLoadDone cl ecc s) := by
  unfold execGlazeLoadDone
  try dsimp only
  iterate 24 (try any_goals (first | with_reducible assumption | with_reducible apply keepsOut_next | with_reducible apply State.putBank_keeps | with_reducible apply State.loadReceipt_keeps | with_reducible apply State.eccReads_keeps | with_reducible apply State.loadDone_keeps | with_reducible apply keeps_ite | simp only [keeps_mk_eq] | split))

theorem execLoadQueuePush_keeps {z : State} (cl : ClusterNo) (desc : BitVec 6) (s : State) (hk : Keeps z s) :
    KeepsOut z (execLoadQueuePush cl desc s) := by
  unfold execLoadQueuePush
  try dsimp only
  iterate 24 (try any_goals (first | with_reducible assumption | with_reducible apply keepsOut_next | with_reducible apply State.unitStep_keeps | with_reducible apply keeps_ite | split))

theorem execStoreQueuePush_keeps {z : State} (cl : ClusterNo) (s : State) (hk : Keeps z s) :
    KeepsOut z (execStoreQueuePush cl s) := by
  unfold execStoreQueuePush
  try dsimp only
  iterate 24 (try any_goals (first | with_reducible assumption | with_reducible apply keepsOut_next | with_reducible apply State.unitStep_keeps | with_reducible apply keeps_ite | split))

theorem execStoreQueuePop_keeps {z : State} (cl : ClusterNo) (s : State) (hk : Keeps z s) :
    KeepsOut z (execStoreQueuePop cl s) := by
  unfold execStoreQueuePop
  try dsimp only
  iterate 24 (try any_goals (first | with_reducible assumption | with_reducible apply keepsOut_next | with_reducible apply State.unitStep_keeps | with_reducible apply keeps_ite | split))

theorem execHazardNotice_keeps {z : State} (cl : ClusterNo) (s : State) (hk : Keeps z s) :
    KeepsOut z (execHazardNotice cl s) := by
  unfold execHazardNotice
  try dsimp only
  iterate 24 (try any_goals (first | with_reducible assumption | with_reducible apply keepsOut_next | with_reducible apply State.hazard_keeps | with_reducible apply keeps_ite | simp only [keeps_mk_eq] | split))

theorem execGranuleIssue_keeps {z : State} (cl : ClusterNo) (desc : BitVec 6) (s : State) (hk : Keeps z s) :
    KeepsOut z (execGranuleIssue cl desc s) := by
  unfold execGranuleIssue
  try dsimp only
  iterate 24 (try any_goals (first | with_reducible assumption | with_reducible apply keepsOut_next | with_reducible apply State.issueWrite_keeps | with_reducible apply State.issueRead_keeps | with_reducible apply keeps_ite | split))

theorem execGranuleLand_keeps {z : State} (cl : ClusterNo) (tag : Fin 16) (s : State) (hk : Keeps z s) :
    KeepsOut z (execGranuleLand cl tag s) := by
  unfold execGranuleLand
  try dsimp only
  iterate 24 (try any_goals (first | with_reducible assumption | with_reducible apply keepsOut_next | with_reducible apply State.setCl_keeps | with_reducible apply State.acts_keeps | with_reducible apply keeps_ite | simp only [keeps_mk_eq] | split))

theorem execWriteAck_keeps {z : State} (cl : ClusterNo) (tag : Fin 16) (s : State) (hk : Keeps z s) :
    KeepsOut z (execWriteAck cl tag s) := by
  unfold execWriteAck
  try dsimp only
  iterate 24 (try any_goals (first | with_reducible assumption | with_reducible apply keepsOut_next | with_reducible apply State.setCl_keeps | with_reducible apply keeps_ite | split))

theorem execSpecZeroDone_keeps {z : State} (cl : ClusterNo) (slot : Fin 2) (s : State) (hk : Keeps z s) :
    KeepsOut z (execSpecZeroDone cl slot s) := by
  unfold execSpecZeroDone
  try dsimp only
  iterate 24 (try any_goals (first | with_reducible assumption | with_reducible apply keepsOut_next | with_reducible apply State.setCl_keeps | with_reducible apply State.count_keeps | with_reducible apply State.count64_keeps | with_reducible apply keeps_ite | simp only [keeps_mk_eq] | split))

theorem execRhThrottle_keeps {z : State} (k : Fin 8) (chan : Fin 16) (row : BitVec 22) (s : State) (hk : Keeps z s) :
    KeepsOut z (execRhThrottle k chan row s) := by
  unfold execRhThrottle
  try dsimp only
  iterate 24 (try any_goals (first | with_reducible assumption | with_reducible apply keepsOut_next | with_reducible apply State.throttle_keeps | with_reducible apply keeps_ite | split))

theorem execRowRefresh_keeps {z : State} (k : Fin 8) (chan : Fin 16) (row : BitVec 22) (s : State) (hk : Keeps z s) :
    KeepsOut z (execRowRefresh k chan row s) := by
  unfold execRowRefresh
  try dsimp only
  iterate 24 (try any_goals (first | with_reducible assumption | with_reducible apply keepsOut_next | with_reducible apply State.setDie_keeps | with_reducible apply keeps_ite | simp only [keeps_mk_eq] | split))

theorem execPeriodicCalibration_keeps {z : State} (k : Fin 8) (s : State) (hk : Keeps z s) :
    KeepsOut z (execPeriodicCalibration k s) := by
  unfold execPeriodicCalibration
  try dsimp only
  iterate 24 (try any_goals (first | with_reducible assumption | with_reducible apply keepsOut_next | with_reducible apply State.setDie_keeps | with_reducible apply keeps_ite | simp only [keeps_mk_eq] | split))

theorem execLoessRead_keeps {z : State} (k : Fin 8) (i : Nat) (ecc : List (Fin 8 × EccCase)) (s : State) (hk : Keeps z s) :
    KeepsOut z (execLoessRead k i ecc s) := by
  unfold execLoessRead
  try dsimp only
  iterate 24 (try any_goals (first | with_reducible assumption | with_reducible apply keepsOut_next | with_reducible apply State.performRead_keeps | with_reducible apply keeps_ite | simp only [keeps_mk_eq] | split))

theorem execJob_keeps {z : State} (cl : ClusterNo) (joff : BitVec 17) (s : State) (hk : Keeps z s) :
    KeepsOut z (execJob cl joff s) := by
  unfold execJob
  try dsimp only
  iterate 24 (try any_goals (first | with_reducible assumption | with_reducible apply keepsOut_next | with_reducible apply keepsOut_refused | with_reducible apply State.setCl_keeps | with_reducible apply State.acts_keeps | with_reducible apply State.sendJob_keeps | with_reducible apply State.armJob_keeps | with_reducible apply keeps_ite | simp only [keeps_mk_eq] | split))

theorem execBedrockJob_keeps {z : State} (src : JobSrc) (ecc : List (Nat × EccCase)) (s : State) (hk : Keeps z s) :
    KeepsOut z (execBedrockJob src ecc s) := by
  unfold execBedrockJob
  try dsimp only
  iterate 24 (try any_goals (first | with_reducible assumption | (intro _ _ _; try dsimp only) | intro _ | with_reducible apply keepsOut_next | with_reducible apply State.eccAt_keeps | with_reducible apply State.workJob_keeps | with_reducible apply keeps_ite | with_reducible apply keeps_foldl | simp only [keeps_mk_eq] | split))

theorem execJobComplete_keeps {z : State} (src : JobSrc) (s : State) (hk : Keeps z s) :
    KeepsOut z (execJobComplete src s) := by
  unfold execJobComplete
  try dsimp only
  iterate 24 (try any_goals (first | with_reducible assumption | with_reducible apply keepsOut_next | with_reducible apply State.setCl_keeps | with_reducible apply State.acts_keeps | with_reducible apply State.jobFault_keeps | with_reducible apply State.finish_keeps | with_reducible apply keeps_ite | simp only [keeps_mk_eq] | split))

theorem execLinkDown_keeps {z : State} (p : Fin 16) (s : State) (hk : Keeps z s) :
    KeepsOut z (execLinkDown p s) := by
  unfold execLinkDown
  try dsimp only
  iterate 24 (try any_goals (first | with_reducible assumption | with_reducible apply keepsOut_next | with_reducible apply State.portDown_keeps | with_reducible apply keeps_ite | split))

theorem execTrainingComplete_keeps {z : State} (p : Fin 16) (r : TrainEnd) (s : State) (hk : Keeps z s) :
    KeepsOut z (execTrainingComplete p r s) := by
  unfold execTrainingComplete
  try dsimp only
  iterate 24 (try any_goals (first | with_reducible assumption | with_reducible apply keepsOut_next | with_reducible apply State.portDown_keeps | with_reducible apply State.setRegN_keeps | with_reducible apply State.setPort_keeps | with_reducible apply State.setLnk_keeps | with_reducible apply State.portReceipts_keeps | with_reducible apply State.leavePort_keeps | with_reducible apply keeps_ite | simp only [keeps_mk_eq] | split))

theorem execQuiesceComplete_keeps {z : State} (p : Fin 16) (s : State) (hk : Keeps z s) :
    KeepsOut z (execQuiesceComplete p s) := by
  unfold execQuiesceComplete
  try dsimp only
  iterate 24 (try any_goals (first | with_reducible assumption | with_reducible apply keepsOut_next | with_reducible apply State.setPort_keeps | with_reducible apply State.setLnk_keeps | with_reducible apply State.tandemPortLost_keeps | with_reducible apply State.portReceipts_keeps | with_reducible apply keeps_ite | simp only [keeps_mk_eq] | split))

theorem execCaravanFrame_keeps {z : State} (p : Fin 16) (fec : FecCase) (f : Frame) (s : State) (hk : Keeps z s) :
    KeepsOut z (execCaravanFrame p fec f s) := by
  unfold execCaravanFrame
  try dsimp only
  iterate 24 (try any_goals (first | with_reducible assumption | with_reducible apply keepsOut_next | with_reducible apply State.count_keeps | with_reducible apply State.uncorrectable_keeps | with_reducible apply State.setPort_keeps | with_reducible apply State.takeVb_keeps | with_reducible apply State.portDown_keeps | with_reducible apply keeps_ite | simp only [keeps_mk_eq] | split))

theorem execIdentMessage_keeps {z : State} (p : Fin 16) (s : State) (hk : Keeps z s) :
    KeepsOut z (execIdentMessage p s) := by
  unfold execIdentMessage
  try dsimp only
  iterate 24 (try any_goals (first | with_reducible assumption | exact State.takeControl_keeps _ _ _  hk _ _ (by with_reducible assumption) | with_reducible apply keepsOut_next | with_reducible apply State.setRegN_keeps | with_reducible apply State.portDown_keeps | with_reducible apply keeps_ite | simp only [keeps_mk_eq] | split))

theorem execLeave_keeps {z : State} (p : Fin 16) (s : State) (hk : Keeps z s) :
    KeepsOut z (execLeave p s) := by
  unfold execLeave
  try dsimp only
  iterate 24 (try any_goals (first | with_reducible assumption | exact State.takeControl_keeps _ _ _  hk _ _ (by with_reducible assumption) | with_reducible apply keepsOut_next | with_reducible apply State.setPort_keeps | with_reducible apply State.raise_keeps | with_reducible apply keeps_ite | simp only [keeps_mk_eq] | split))

theorem execTime_keeps {z : State} (p : Fin 16) (trx : BitVec 64) (s : State) (hk : Keeps z s) :
    KeepsOut z (execTime p trx s) := by
  unfold execTime
  try dsimp only
  iterate 24 (try any_goals (first | with_reducible assumption | exact State.takeControl_keeps _ _ _  hk _ _ (by with_reducible assumption) | with_reducible apply keepsOut_next | with_reducible apply State.setRegN_keeps | with_reducible apply State.setFld_keeps | with_reducible apply State.musterStep_keeps | with_reducible apply keeps_ite | simp only [keeps_mk_eq] | split))

theorem execCvnUnlock_keeps {z : State} (s : State) (hk : Keeps z s) :
    KeepsOut z (execCvnUnlock s) := by
  unfold execCvnUnlock
  try dsimp only
  iterate 24 (try any_goals (first | with_reducible assumption | with_reducible apply keepsOut_next | with_reducible apply State.setFld_keeps | with_reducible apply State.raise_keeps | with_reducible apply keeps_ite | simp only [keeps_mk_eq] | split))

theorem execReadyMessage_keeps {z : State} (p : Fin 16) (s : State) (hk : Keeps z s) :
    KeepsOut z (execReadyMessage p s) := by
  unfold execReadyMessage
  try dsimp only
  iterate 24 (try any_goals (first | with_reducible assumption | exact State.takeControl_keeps _ _ _  hk _ _ (by with_reducible assumption) | with_reducible apply keepsOut_next | with_reducible apply State.musterFail_keeps | with_reducible apply State.musterStep_keeps | with_reducible apply keeps_ite | simp only [keeps_mk_eq] | split))

theorem execGo_keeps {z : State} (p : Fin 16) (s : State) (hk : Keeps z s) :
    KeepsOut z (execGo p s) := by
  unfold execGo
  try dsimp only
  iterate 24 (try any_goals (first | with_reducible assumption | exact State.takeControl_keeps _ _ _  hk _ _ (by with_reducible assumption) | with_reducible apply keepsOut_next | with_reducible apply State.musterFail_keeps | with_reducible apply State.passGo_keeps | with_reducible apply keeps_ite | simp only [keeps_mk_eq] | split))

theorem execMusterTimeout_keeps {z : State} (noLock : Bool) (s : State) (hk : Keeps z s) :
    KeepsOut z (execMusterTimeout noLock s) := by
  unfold execMusterTimeout
  try dsimp only
  iterate 24 (try any_goals (first | with_reducible assumption | with_reducible apply keepsOut_next | with_reducible apply State.musterFail_keeps | with_reducible apply keeps_ite | split))

theorem execDelivery_keeps {z : State} (p : Fin 16) (ecc : List (Nat × EccCase)) (s : State) (hk : Keeps z s) :
    KeepsOut z (execDelivery p ecc s) := by
  unfold execDelivery
  try dsimp only
  iterate 24 (try any_goals (first | with_reducible assumption | exact State.takeRx_keeps _ _ _  hk _ _ (by with_reducible assumption) | with_reducible apply keepsOut_next | with_reducible apply State.dackOut_keeps | with_reducible apply State.deliver_keeps | with_reducible apply keeps_ite | simp only [keeps_mk_eq] | split))

theorem execDack_keeps {z : State} (p : Fin 16) (s : State) (hk : Keeps z s) :
    KeepsOut z (execDack p s) := by
  unfold execDack
  try dsimp only
  iterate 24 (try any_goals (first | with_reducible assumption | exact State.takeControl_keeps _ _ _  hk _ _ (by with_reducible assumption) | (intro _ _ _; try dsimp only) | intro _ | with_reducible apply keepsOut_next | with_reducible apply State.dackEntry_keeps | with_reducible apply keeps_ite | with_reducible apply keeps_foldl | simp only [keeps_mk_eq] | split))

theorem execTandemRecords_keeps {z : State} (p : Fin 16) (s : State) (hk : Keeps z s) :
    KeepsOut z (execTandemRecords p s) := by
  unfold execTandemRecords
  try dsimp only
  iterate 24 (try any_goals (first | with_reducible assumption | exact State.takeRx_keeps _ _ _  hk _ _ (by with_reducible assumption) | (intro _ _ _; try dsimp only) | intro _ | with_reducible apply keepsOut_next | with_reducible apply State.tandemPartner_keeps | with_reducible apply keeps_ite | with_reducible apply keeps_foldl | simp only [keeps_mk_eq] | split))

theorem execTandemTimeout_keeps {z : State} (e : Fin 16) (s : State) (hk : Keeps z s) :
    KeepsOut z (execTandemTimeout e s) := by
  unfold execTandemTimeout
  try dsimp only
  iterate 24 (try any_goals (first | with_reducible assumption | (intro _ _ _; try dsimp only) | intro _ | with_reducible apply keepsOut_next | with_reducible apply State.setUnit_keeps | with_reducible apply State.diverge_keeps | with_reducible apply keeps_ite | with_reducible apply keeps_foldl | simp only [keeps_mk_eq] | split))

theorem execReductionChunk_keeps {z : State} (p : Fin 16) (s : State) (hk : Keeps z s) :
    KeepsOut z (execReductionChunk p s) := by
  unfold execReductionChunk
  try dsimp only
  iterate 24 (try any_goals (first | with_reducible assumption | with_reducible apply keepsOut_next | with_reducible apply State.setPort_keeps | with_reducible apply State.redSlot_keeps | with_reducible apply keeps_ite | simp only [keeps_mk_eq] | split))

theorem execRed_keeps {z : State} (cl : ClusterNo) (f : RedF) (s : State) (hk : Keeps z s) :
    KeepsOut z (execRed cl f s) := by
  unfold execRed
  try dsimp only
  iterate 24 (try any_goals (first | with_reducible assumption | with_reducible apply keepsOut_next | with_reducible apply keepsOut_refused | with_reducible apply State.setCl_keeps | with_reducible apply State.redFault_keeps | with_reducible apply State.discard_keeps | with_reducible apply State.redStart_keeps | with_reducible apply keeps_ite | simp only [keeps_mk_eq] | split))

theorem execTrainingPatternDetect_keeps {z : State} (p : Fin 16) (s : State) (hk : Keeps z s) :
    KeepsOut z (execTrainingPatternDetect p s) := by
  unfold execTrainingPatternDetect
  try dsimp only
  iterate 24 (try any_goals (first | with_reducible assumption | with_reducible apply keepsOut_next | with_reducible apply State.autotrain_keeps | with_reducible apply keeps_ite | split))

theorem execCageLatchClose_keeps {z : State} (p : Fin 16) (s : State) (hk : Keeps z s) :
    KeepsOut z (execCageLatchClose p s) := by
  unfold execCageLatchClose
  try dsimp only
  iterate 24 (try any_goals (first | with_reducible assumption | with_reducible apply keepsOut_next | with_reducible apply State.setFld_keeps | with_reducible apply State.mate_keeps | with_reducible apply State.autotrain_keeps | with_reducible apply keeps_ite | split))

theorem execCageLatchOpen_keeps {z : State} (p : Fin 16) (s : State) (hk : Keeps z s) :
    KeepsOut z (execCageLatchOpen p s) := by
  unfold execCageLatchOpen
  try dsimp only
  iterate 24 (try any_goals (first | with_reducible assumption | with_reducible apply keepsOut_next | with_reducible apply State.setFld_keeps | with_reducible apply State.setBits_keeps | with_reducible apply State.raise_keeps | with_reducible apply State.setPort_keeps | with_reducible apply keeps_ite | simp only [keeps_mk_eq] | split))

theorem execTetherDown_keeps {z : State} (s : State) (hk : Keeps z s) :
    KeepsOut z (execTetherDown s) := by
  unfold execTetherDown
  try dsimp only
  iterate 24 (try any_goals (first | with_reducible assumption | with_reducible apply keepsOut_next | with_reducible apply State.tetherLost_keeps | with_reducible apply keeps_ite | split))

theorem execTetherTrained_keeps {z : State} (cred : BitVec 11) (s : State) (hk : Keeps z s) :
    KeepsOut z (execTetherTrained cred s) := by
  unfold execTetherTrained
  try dsimp only
  iterate 24 (try any_goals (first | with_reducible assumption | with_reducible apply keepsOut_next | with_reducible apply State.setFld_keeps | with_reducible apply State.setTth_keeps | with_reducible apply keeps_ite | simp only [keeps_mk_eq] | split))

theorem execTetherFlit_keeps {z : State} (f : List Byte) (s : State) (hk : Keeps z s) :
    KeepsOut z (execTetherFlit f s) := by
  unfold execTetherFlit
  try dsimp only
  iterate 24 (try any_goals (first | with_reducible assumption | with_reducible apply keepsOut_next | with_reducible apply State.count_keeps | with_reducible apply State.tthErr_keeps | with_reducible apply State.tetherLost_keeps | with_reducible apply keeps_ite | simp only [keeps_mk_eq] | split))

theorem execSlotGrant_keeps {z : State} (w : Wheel) (unit : Fin 2048) (ecc : List (Fin 8 × EccCase)) (s : State) (hk : Keeps z s) :
    KeepsOut z (execSlotGrant w unit ecc s) := by
  unfold execSlotGrant
  try dsimp only
  iterate 24 (try any_goals (first | with_reducible assumption | (intro _ _ _; try dsimp only) | intro _ | with_reducible apply keepsOut_next | with_reducible apply State.rewind_keeps | with_reducible apply State.linkIdle_keeps | with_reducible apply State.takers_keeps | with_reducible apply State.offer_keeps | with_reducible apply keeps_ite | split))

theorem execEventDeliver_keeps {z : State} (s : State) (hk : Keeps z s) :
    KeepsOut z (execEventDeliver s) := by
  unfold execEventDeliver
  split
  · exact keepsOut_next hk
  · split
    · exact keepsOut_next hk
    · refine keepsOut_next ?_
      dsimp only
      simp only [keeps_mk_eq]
      exact State.serve_keeps _ _ hk

theorem execSensorRefresh_keeps {z : State} (readings : List (Fin 18 × Word)) (s : State) (hk : Keeps z s) :
    KeepsOut z (execSensorRefresh readings s) := by
  unfold execSensorRefresh
  try dsimp only
  iterate 24 (try any_goals (first | with_reducible assumption | (intro _ _ _; try dsimp only) | intro _ | with_reducible apply keepsOut_next | with_reducible apply State.sense_keeps | with_reducible apply keeps_ite | with_reducible apply keeps_foldl | split))

theorem execPowerApplied_keeps {z : State} (smbus : Bool) (strap : Fin 8) (rstLow : Bool) (s : State) (hk : Keeps z s) :
    KeepsOut z (execPowerApplied s smbus strap rstLow) := by
  unfold execPowerApplied
  try dsimp only
  iterate 24 (try any_goals (first | with_reducible assumption | with_reducible apply keepsOut_next | with_reducible apply State.porReset_keeps | with_reducible apply State.mate_keeps | with_reducible apply keeps_ite | simp only [keeps_mk_eq] | split))

theorem execUndervoltage_keeps {z : State} (s : State) (hk : Keeps z s) :
    KeepsOut z (execUndervoltage s) := by
  unfold execUndervoltage
  try dsimp only
  iterate 24 (try any_goals (first | with_reducible assumption | with_reducible apply keepsOut_next | with_reducible apply State.raise_keeps | with_reducible apply keeps_ite | simp only [keeps_mk_eq] | split))

theorem execDieTrip_keeps {z : State} (s : State) (hk : Keeps z s) :
    KeepsOut z (execDieTrip s) := by
  unfold execDieTrip
  try dsimp only
  iterate 24 (try any_goals (first | with_reducible assumption | with_reducible apply keepsOut_next | with_reducible apply State.raise_keeps | with_reducible apply keeps_ite | simp only [keeps_mk_eq] | split))

theorem execModuleReset_keeps {z : State} (contact : Bool) (s : State) (hk : Keeps z s) :
    KeepsOut z (execModuleReset contact s) := by
  unfold execModuleReset
  try dsimp only
  iterate 24 (try any_goals (first | with_reducible assumption | with_reducible apply keepsOut_next | with_reducible apply State.resetOr_keeps | with_reducible apply keeps_ite | simp only [keeps_mk_eq] | split))

theorem execButtonPress_keeps {z : State} (ms : Nat) (s : State) (hk : Keeps z s) :
    KeepsOut z (execButtonPress ms s) := by
  unfold execButtonPress
  try dsimp only
  iterate 24 (try any_goals (first | with_reducible assumption | with_reducible apply keepsOut_next | with_reducible apply State.svcBit_keeps | with_reducible apply State.svcEvent_keeps | with_reducible apply State.svcRequest_keeps | with_reducible apply State.svcCancel_keeps | with_reducible apply keeps_ite | simp only [keeps_mk_eq] | split))

theorem execButtonHeld1s_keeps {z : State} (s : State) (hk : Keeps z s) :
    KeepsOut z (execButtonHeld1s s) := by
  unfold execButtonHeld1s
  try dsimp only
  iterate 24 (try any_goals (first | with_reducible assumption | with_reducible apply keepsOut_next | with_reducible apply State.svcBit_keeps | with_reducible apply keeps_ite | simp only [keeps_mk_eq] | split))

theorem execButtonHeld8s_keeps {z : State} (s : State) (hk : Keeps z s) :
    KeepsOut z (execButtonHeld8s s) := by
  unfold execButtonHeld8s
  try dsimp only
  iterate 24 (try any_goals (first | with_reducible assumption | with_reducible apply keepsOut_next | with_reducible apply State.svcBit_keeps | with_reducible apply State.svcForce_keeps | with_reducible apply State.startStopped_keeps | with_reducible apply keeps_ite | simp only [keeps_mk_eq] | split))

theorem execIdentifyEnd_keeps {z : State} (s : State) (hk : Keeps z s) :
    KeepsOut z (execIdentifyEnd s) := by
  unfold execIdentifyEnd
  try dsimp only
  iterate 24 (try any_goals (first | with_reducible assumption | with_reducible apply keepsOut_next | with_reducible apply keeps_ite | simp only [keeps_mk_eq] | split))

theorem execSvcStopped_keeps {z : State} (s : State) (hk : Keeps z s) :
    KeepsOut z (execSvcStopped s) := by
  unfold execSvcStopped
  try dsimp only
  iterate 24 (try any_goals (first | with_reducible assumption | with_reducible apply keepsOut_next | with_reducible apply State.stopRunning_keeps | with_reducible apply State.noteSaved_keeps | with_reducible apply State.mgmtTraffic_keeps | with_reducible apply State.agentWrite_keeps | with_reducible apply State.draw_keeps | with_reducible apply State.svcBit_keeps | with_reducible apply State.setSvcPhase_keeps | with_reducible apply State.startDrain_keeps | with_reducible apply keeps_ite | simp only [keeps_mk_eq] | split))

theorem execSvcWaitExpiry_keeps {z : State} (s : State) (hk : Keeps z s) :
    KeepsOut z (execSvcWaitExpiry s) := by
  unfold execSvcWaitExpiry
  try dsimp only
  iterate 24 (try any_goals (first | with_reducible assumption | with_reducible apply keepsOut_next | with_reducible apply State.svcBit_keeps | with_reducible apply State.startDrain_keeps | with_reducible apply State.stopRunning_keeps | with_reducible apply keeps_ite | simp only [keeps_mk_eq] | split))

theorem execSvcDrained_keeps {z : State} (s : State) (hk : Keeps z s) :
    KeepsOut z (execSvcDrained s) := by
  unfold execSvcDrained
  try dsimp only
  iterate 24 (try any_goals (first | with_reducible assumption | with_reducible apply keepsOut_next | with_reducible apply State.leaveDomain_keeps | with_reducible apply State.enterStandby_keeps | with_reducible apply State.setSvcPhase_keeps | with_reducible apply State.svcEvent_keeps | with_reducible apply keeps_ite | simp only [keeps_mk_eq] | split))

theorem execForcedQuiesceReset_keeps {z : State} (s : State) (hk : Keeps z s) :
    KeepsOut z (execForcedQuiesceReset s) := by
  unfold execForcedQuiesceReset
  try dsimp only
  iterate 24 (try any_goals (first | with_reducible assumption | with_reducible apply keepsOut_next | with_reducible apply State.forcedReset_keeps | with_reducible apply keeps_ite | split))

theorem execEjectorLeverOpen_keeps {z : State} (s : State) (hk : Keeps z s) :
    KeepsOut z (execEjectorLeverOpen s) := by
  unfold execEjectorLeverOpen
  try dsimp only
  iterate 24 (try any_goals (first | with_reducible assumption | with_reducible apply keepsOut_next | with_reducible apply State.svcBit_keeps | with_reducible apply State.startCut_keeps | with_reducible apply State.setBits_keeps | with_reducible apply State.raise_keeps | with_reducible apply State.svcForce_keeps | with_reducible apply keeps_ite | simp only [keeps_mk_eq] | split))

theorem execEjectorLeverClose_keeps {z : State} (s : State) (hk : Keeps z s) :
    KeepsOut z (execEjectorLeverClose s) := by
  unfold execEjectorLeverClose
  try dsimp only
  iterate 24 (try any_goals (first | with_reducible assumption | with_reducible apply keepsOut_next | with_reducible apply State.svcBit_keeps | with_reducible apply keeps_ite | simp only [keeps_mk_eq] | split))

theorem execStageBoundary_keeps {z : State} (s : State) (hk : Keeps z s) :
    KeepsOut z (execStageBoundary s) := by
  unfold execStageBoundary
  try dsimp only
  iterate 24 (try any_goals (first | with_reducible assumption | with_reducible apply keepsOut_next | with_reducible apply State.periodEdge_keeps | with_reducible apply keeps_ite | split))

theorem execExtensionPeriodEnd_keeps {z : State} (s : State) (hk : Keeps z s) :
    KeepsOut z (execExtensionPeriodEnd s) := by
  unfold execExtensionPeriodEnd
  try dsimp only
  iterate 24 (try any_goals (first | with_reducible assumption | with_reducible apply keepsOut_next | with_reducible apply State.periodEdge_keeps | with_reducible apply keeps_ite | split))

theorem execStageHung_keeps {z : State} (s : State) (hk : Keeps z s) :
    KeepsOut z (execStageHung s) := by
  unfold execStageHung
  try dsimp only
  iterate 24 (try any_goals (first | with_reducible assumption | with_reducible apply keepsOut_next | with_reducible apply State.raise_keeps | with_reducible apply keeps_ite | simp only [keeps_mk_eq] | split))

theorem execVotePoint_keeps {z : State} (s : State) (hk : Keeps z s) :
    KeepsOut z (execVotePoint s) := by
  unfold execVotePoint
  try dsimp only
  iterate 24 (try any_goals (first | with_reducible assumption | with_reducible apply keepsOut_next | with_reducible apply State.passVote_keeps | with_reducible apply keeps_ite | simp only [keeps_mk_eq] | split))

theorem execLeadDecisionDeadline_keeps {z : State} (s : State) (hk : Keeps z s) :
    KeepsOut z (execLeadDecisionDeadline s) := by
  unfold execLeadDecisionDeadline
  try dsimp only
  iterate 24 (try any_goals (first | with_reducible assumption | with_reducible apply keepsOut_next | with_reducible apply State.setDecision_keeps | with_reducible apply keeps_ite | split))

theorem execMusterStart_keeps {z : State} (s : State) (hk : Keeps z s) :
    KeepsOut z (execMusterStart s) := by
  unfold execMusterStart
  try dsimp only
  iterate 24 (try any_goals (first | with_reducible assumption | with_reducible apply keepsOut_next | with_reducible apply State.setFld_keeps | with_reducible apply State.takeBoundary_keeps | with_reducible apply State.finish_keeps | with_reducible apply keeps_ite | simp only [keeps_mk_eq] | split))

theorem execPauseSettled_keeps {z : State} (s : State) (hk : Keeps z s) :
    KeepsOut z (execPauseSettled s) := by
  unfold execPauseSettled
  try dsimp only
  iterate 24 (try any_goals (first | with_reducible assumption | (intro _ _ _; try dsimp only) | intro _ | with_reducible apply keepsOut_next | with_reducible apply State.setCl_keeps | with_reducible apply State.finish_keeps | with_reducible apply keeps_ite | with_reducible apply keeps_foldl | simp only [keeps_mk_eq] | split))

theorem execHoldTransitionDone_keeps {z : State} (k : Fin 8) (s : State) (hk : Keeps z s) :
    KeepsOut z (execHoldTransitionDone k s) := by
  unfold execHoldTransitionDone
  try dsimp only
  iterate 24 (try any_goals (first | with_reducible assumption | with_reducible apply keepsOut_next | with_reducible apply State.setStack_keeps | with_reducible apply State.settleTrans_keeps | with_reducible apply State.holdReceipts_keeps | with_reducible apply State.svcRetry_keeps | with_reducible apply State.draw_keeps | with_reducible apply State.setDie_keeps | with_reducible apply State.mapCl_keeps | with_reducible apply State.stackIn_keeps | with_reducible apply keeps_ite | simp only [keeps_mk_eq] | split))

theorem execLoessWrite_keeps {z : State} (k : Fin 8) (i : Nat) (ecc : List (Fin 8 × EccCase)) (s : State) (hk : Keeps z s) :
    KeepsOut z (execLoessWrite k i ecc s) := by
  unfold execLoessWrite
  try dsimp only
  iterate 24 (try any_goals (first | with_reducible assumption | with_reducible apply keepsOut_next | with_reducible apply State.writeAt_keeps | with_reducible apply State.hostOn_keeps | with_reducible apply keeps_ite | split))

theorem execKilnCycle_keeps {z : State} (issued : List ClusterNo) (s : State) (hk : Keeps z s) :
    KeepsOut z (execKilnCycle issued s) := by
  unfold execKilnCycle
  try dsimp only
  iterate 24 (try any_goals (first | with_reducible assumption | with_reducible apply keepsOut_next | with_reducible apply State.kilnCycle_keeps | with_reducible apply State.hostOn_keeps | with_reducible apply keeps_ite | split))

theorem execHostLoessRead_keeps {z : State} (addr : Nat) (len : Nat) (ecc : List (Nat × EccCase)) (s : State) (hk : Keeps z s) :
    KeepsOut z (execHostLoessRead addr len ecc s) := by
  unfold execHostLoessRead
  try dsimp only
  iterate 24 (try any_goals (first | with_reducible assumption | with_reducible apply keepsOut_next | with_reducible apply State.hostAccess_keeps | with_reducible apply keeps_ite | split))

theorem execHostLoessWrite_keeps {z : State} (addr : Nat) (data : List Byte) (ecc : List (Nat × EccCase)) (s : State) (hk : Keeps z s) :
    KeepsOut z (execHostLoessWrite addr data ecc s) := by
  unfold execHostLoessWrite
  try dsimp only
  iterate 24 (try any_goals (first | with_reducible assumption | with_reducible apply keepsOut_next | with_reducible apply State.hostAccess_keeps | with_reducible apply State.loessWrite_keeps | with_reducible apply keeps_ite | split))

theorem execRejectedRegisterAccess_keeps {z : State} (write : Bool) (addr : BitVec 43) (size : Nat) (s : State) (hk : Keeps z s) :
    KeepsOut z (execRejectedRegisterAccess write addr size s) := by
  unfold execRejectedRegisterAccess
  try dsimp only
  iterate 24 (try any_goals (first | with_reducible assumption | with_reducible apply keepsOut_next | with_reducible apply State.hostAccess_keeps | with_reducible apply keeps_ite | split))

theorem execRegisterWrite_keeps {z : State} (addr : Nat) (v : Word) (s : State) (hk : Keeps z s) :
    KeepsOut z (execRegisterWrite addr v s) := by
  unfold execRegisterWrite
  try dsimp only
  iterate 24 (try any_goals (first | with_reducible assumption | with_reducible apply keepsOut_next | with_reducible apply State.hostAccess_keeps | with_reducible apply keeps_ite | split))

theorem execCounterLowRead_keeps {z : State} (addr : Nat) (s : State) (hk : Keeps z s) :
    KeepsOut z (execCounterLowRead addr s) := by
  unfold execCounterLowRead
  try dsimp only
  iterate 24 (try any_goals (first | with_reducible assumption | with_reducible apply keepsOut_next | with_reducible apply State.hostAccess_keeps | with_reducible apply keeps_ite | split))

theorem execQntWposRead_keeps {z : State} (cl : ClusterNo) (s : State) (hk : Keeps z s) :
    KeepsOut z (execQntWposRead cl s) := by
  unfold execQntWposRead
  try dsimp only
  iterate 24 (try any_goals (first | with_reducible assumption | with_reducible apply keepsOut_next | with_reducible apply State.hostAccess_keeps | with_reducible apply keeps_ite | split))

theorem execWbrDbRead_keeps {z : State} (r : Fin 16) (s : State) (hk : Keeps z s) :
    KeepsOut z (execWbrDbRead r s) := by
  unfold execWbrDbRead
  try dsimp only
  iterate 24 (try any_goals (first | with_reducible assumption | with_reducible apply keepsOut_next | with_reducible apply State.hostAccess_keeps | with_reducible apply keeps_ite | split))

theorem execArm_keeps {z : State} (w : ArmWin) (s : State) (hk : Keeps z s) :
    KeepsOut z (execArm w s) := by
  unfold execArm
  try dsimp only
  iterate 24 (try any_goals (first | with_reducible assumption | with_reducible apply keepsOut_next | with_reducible apply State.hostAccess_keeps | with_reducible apply State.arm_keeps | with_reducible apply keeps_ite | split))

theorem execDisarm_keeps {z : State} (w : ArmWin) (s : State) (hk : Keeps z s) :
    KeepsOut z (execDisarm w s) := by
  unfold execDisarm
  try dsimp only
  iterate 24 (try any_goals (first | with_reducible assumption | with_reducible apply keepsOut_next | with_reducible apply State.hostAccess_keeps | with_reducible apply keeps_ite | split))

theorem execWbrDoorbell_keeps {z : State} (r : Fin 16) (tail : Word) (s : State) (hk : Keeps z s) :
    KeepsOut z (execWbrDoorbell r tail s) := by
  unfold execWbrDoorbell
  try dsimp only
  iterate 24 (try any_goals (first | with_reducible assumption | with_reducible apply keepsOut_next | with_reducible apply State.hostAccess_keeps | with_reducible apply keeps_ite | split))

theorem execWbrEnable_keeps {z : State} (r : Fin 16) (v : Word) (s : State) (hk : Keeps z s) :
    KeepsOut z (execWbrEnable r v s) := by
  unfold execWbrEnable
  try dsimp only
  iterate 24 (try any_goals (first | with_reducible assumption | with_reducible apply keepsOut_next | with_reducible apply State.hostAccess_keeps | with_reducible apply keeps_ite | split))

theorem execWbrResume_keeps {z : State} (r : Fin 16) (s : State) (hk : Keeps z s) :
    KeepsOut z (execWbrResume r s) := by
  unfold execWbrResume
  try dsimp only
  iterate 24 (try any_goals (first | with_reducible assumption | with_reducible apply keepsOut_next | with_reducible apply State.hostAccess_keeps | with_reducible apply keeps_ite | split))

theorem execChkStart_keeps {z : State} (u : Fin 16) (s : State) (hk : Keeps z s) :
    KeepsOut z (execChkStart u s) := by
  unfold execChkStart
  try dsimp only
  iterate 24 (try any_goals (first | with_reducible assumption | with_reducible apply keepsOut_next | with_reducible apply State.hostAccess_keeps | with_reducible apply keeps_ite | split))

theorem execChkCmp_keeps {z : State} (u : Fin 16) (s : State) (hk : Keeps z s) :
    KeepsOut z (execChkCmp u s) := by
  unfold execChkCmp
  try dsimp only
  iterate 24 (try any_goals (first | with_reducible assumption | with_reducible apply keepsOut_next | with_reducible apply State.hostAccess_keeps | with_reducible apply keeps_ite | split))

theorem execChkFeedb_keeps {z : State} (u : Fin 16) (v : Word) (s : State) (hk : Keeps z s) :
    KeepsOut z (execChkFeedb u v s) := by
  unfold execChkFeedb
  try dsimp only
  iterate 24 (try any_goals (first | with_reducible assumption | with_reducible apply keepsOut_next | with_reducible apply State.hostAccess_keeps | with_reducible apply State.chkFeed_keeps | with_reducible apply keeps_ite | split))

theorem execChkFeedh_keeps {z : State} (u : Fin 16) (v : Word) (s : State) (hk : Keeps z s) :
    KeepsOut z (execChkFeedh u v s) := by
  unfold execChkFeedh
  try dsimp only
  iterate 24 (try any_goals (first | with_reducible assumption | with_reducible apply keepsOut_next | with_reducible apply State.hostAccess_keeps | with_reducible apply State.chkFeed_keeps | with_reducible apply keeps_ite | split))

theorem execChkFeedw_keeps {z : State} (u : Fin 16) (v : Word) (s : State) (hk : Keeps z s) :
    KeepsOut z (execChkFeedw u v s) := by
  unfold execChkFeedw
  try dsimp only
  iterate 24 (try any_goals (first | with_reducible assumption | with_reducible apply keepsOut_next | with_reducible apply State.hostAccess_keeps | with_reducible apply State.chkFeed_keeps | with_reducible apply keeps_ite | split))

theorem execGlzCtlSwitch_keeps {z : State} (cl : ClusterNo) (s : State) (hk : Keeps z s) :
    KeepsOut z (execGlzCtlSwitch cl s) := by
  unfold execGlzCtlSwitch
  try dsimp only
  iterate 24 (try any_goals (first | with_reducible assumption | with_reducible apply keepsOut_next | with_reducible apply State.hostAccess_keeps | with_reducible apply keeps_ite | split))

theorem execDrvDescWrite_keeps {z : State} (cl : ClusterNo) (w : Fin 16) (v : Word) (s : State) (hk : Keeps z s) :
    KeepsOut z (execDrvDescWrite cl w v s) := by
  unfold execDrvDescWrite
  try dsimp only
  iterate 24 (try any_goals (first | with_reducible assumption | with_reducible apply keepsOut_next | with_reducible apply State.hostAccess_keeps | with_reducible apply keeps_ite | split))

theorem execGlbFootPinWrite_keeps {z : State} (pin : Bool) (s : State) (hk : Keeps z s) :
    KeepsOut z (execGlbFootPinWrite pin s) := by
  unfold execGlbFootPinWrite
  try dsimp only
  iterate 24 (try any_goals (first | with_reducible assumption | with_reducible apply keepsOut_next | with_reducible apply State.hostAccess_keeps | with_reducible apply keeps_ite | split))

theorem execTndModeWrite_keeps {z : State} (v : Word) (s : State) (hk : Keeps z s) :
    KeepsOut z (execTndModeWrite v s) := by
  unfold execTndModeWrite
  try dsimp only
  iterate 24 (try any_goals (first | with_reducible assumption | with_reducible apply keepsOut_next | with_reducible apply State.hostAccess_keeps | with_reducible apply keeps_ite | split))

theorem execEvtEnable_keeps {z : State} (v : Word) (s : State) (hk : Keeps z s) :
    KeepsOut z (execEvtEnable v s) := by
  unfold execEvtEnable
  try dsimp only
  iterate 24 (try any_goals (first | with_reducible assumption | with_reducible apply keepsOut_next | with_reducible apply State.hostAccess_keeps | with_reducible apply keeps_ite | split))

theorem execEvtRdWrite_keeps {z : State} (v : Word) (s : State) (hk : Keeps z s) :
    KeepsOut z (execEvtRdWrite v s) := by
  unfold execEvtRdWrite
  try dsimp only
  iterate 24 (try any_goals (first | with_reducible assumption | with_reducible apply keepsOut_next | with_reducible apply State.hostAccess_keeps | with_reducible apply keeps_ite | split))

theorem execTthImaskWrite_keeps {z : State} (v : Word) (s : State) (hk : Keeps z s) :
    KeepsOut z (execTthImaskWrite v s) := by
  unfold execTthImaskWrite
  try dsimp only
  iterate 24 (try any_goals (first | with_reducible assumption | with_reducible apply keepsOut_next | with_reducible apply State.hostAccess_keeps | with_reducible apply keeps_ite | split))

theorem execTthIpendClear_keeps {z : State} (v : Word) (s : State) (hk : Keeps z s) :
    KeepsOut z (execTthIpendClear v s) := by
  unfold execTthIpendClear
  try dsimp only
  iterate 24 (try any_goals (first | with_reducible assumption | with_reducible apply keepsOut_next | with_reducible apply State.hostAccess_keeps | with_reducible apply keeps_ite | split))

theorem execLnkEnable_keeps {z : State} (p : Fin 16) (on : Bool) (s : State) (hk : Keeps z s) :
    KeepsOut z (execLnkEnable p on s) := by
  unfold execLnkEnable
  try dsimp only
  iterate 24 (try any_goals (first | with_reducible assumption | with_reducible apply keepsOut_next | with_reducible apply State.hostAccess_keeps | with_reducible apply keeps_ite | split))

theorem execLnkRetrain_keeps {z : State} (p : Fin 16) (s : State) (hk : Keeps z s) :
    KeepsOut z (execLnkRetrain p s) := by
  unfold execLnkRetrain
  try dsimp only
  iterate 24 (try any_goals (first | with_reducible assumption | with_reducible apply keepsOut_next | with_reducible apply State.hostAccess_keeps | with_reducible apply keeps_ite | split))

theorem execLnkQuiesce_keeps {z : State} (p : Fin 16) (s : State) (hk : Keeps z s) :
    KeepsOut z (execLnkQuiesce p s) := by
  unfold execLnkQuiesce
  try dsimp only
  iterate 24 (try any_goals (first | with_reducible assumption | with_reducible apply keepsOut_next | with_reducible apply State.hostAccess_keeps | with_reducible apply keeps_ite | split))

theorem execPwrEngrst_keeps {z : State} (mask : Word) (s : State) (hk : Keeps z s) :
    KeepsOut z (execPwrEngrst mask s) := by
  unfold execPwrEngrst
  try dsimp only
  iterate 24 (try any_goals (first | with_reducible assumption | with_reducible apply keepsOut_next | with_reducible apply State.hostAccess_keeps | with_reducible apply keeps_ite | split))

theorem execPwrResetWrite_keeps {z : State} (v : Word) (s : State) (hk : Keeps z s) :
    KeepsOut z (execPwrResetWrite v s) := by
  unfold execPwrResetWrite
  try dsimp only
  iterate 24 (try any_goals (first | with_reducible assumption | with_reducible apply keepsOut_next | with_reducible apply State.hostAccess_keeps | with_reducible apply keeps_ite | split))

theorem execSvcReq_keeps {z : State} (s : State) (hk : Keeps z s) :
    KeepsOut z (execSvcReq s) := by
  unfold execSvcReq
  try dsimp only
  iterate 24 (try any_goals (first | with_reducible assumption | with_reducible apply keepsOut_next | with_reducible apply State.hostAccess_keeps | with_reducible apply keeps_ite | split))

theorem execSvcForce_keeps {z : State} (s : State) (hk : Keeps z s) :
    KeepsOut z (execSvcForce s) := by
  unfold execSvcForce
  try dsimp only
  iterate 24 (try any_goals (first | with_reducible assumption | with_reducible apply keepsOut_next | with_reducible apply State.hostAccess_keeps | with_reducible apply State.svcForce_keeps | with_reducible apply keeps_ite | split))

theorem execSvcCancel_keeps {z : State} (s : State) (hk : Keeps z s) :
    KeepsOut z (execSvcCancel s) := by
  unfold execSvcCancel
  try dsimp only
  iterate 24 (try any_goals (first | with_reducible assumption | with_reducible apply keepsOut_next | with_reducible apply State.hostAccess_keeps | with_reducible apply State.svcCancel_keeps | with_reducible apply keeps_ite | split))

theorem execSvcRelease_keeps {z : State} (s : State) (hk : Keeps z s) :
    KeepsOut z (execSvcRelease s) := by
  unfold execSvcRelease
  try dsimp only
  iterate 24 (try any_goals (first | with_reducible assumption | with_reducible apply keepsOut_next | with_reducible apply State.hostAccess_keeps | with_reducible apply keeps_ite | split))

theorem execWaybillTake_keeps {z : State} (r : Fin 16) (bytes : Option (List Byte)) (ecc : List (Nat × EccCase)) (fault : Option Word) (s0 : State) (hk : Keeps z s0) :
    KeepsOut z (execWaybillTake r bytes ecc s0 fault) := by
  unfold execWaybillTake
  try dsimp only
  iterate 24 (try any_goals (first | with_reducible assumption | with_reducible apply keepsOut_next | with_reducible apply State.sendMsg_keeps | with_reducible apply State.fromHost_keeps | with_reducible apply State.tthErr_keeps | with_reducible apply State.takeOne_keeps | with_reducible apply State.receipt_keeps | with_reducible apply State.haltRing_keeps | with_reducible apply State.takeWaybill_keeps | with_reducible apply keeps_ite | simp only [keeps_mk_eq] | split))

theorem execWaybillTimeout_keeps {z : State} (r : Fin 16) (i : Word) (s : State) (hk : Keeps z s) :
    KeepsOut z (execWaybillTimeout r i s) := by
  unfold execWaybillTimeout
  try dsimp only
  iterate 24 (try any_goals (first | with_reducible assumption | with_reducible apply keepsOut_next | with_reducible apply State.undoWb_keeps | with_reducible apply State.finish_keeps | with_reducible apply keeps_ite | simp only [keeps_mk_eq] | split))

theorem execReady_keeps {z : State} (r : Fin 16) (i : Word) (s : State) (hk : Keeps z s) :
    KeepsOut z (execReady r i s) := by
  unfold execReady
  try dsimp only
  iterate 24 (try any_goals (first | with_reducible assumption | (intro _ _ _; try dsimp only) | intro _ | with_reducible apply keepsOut_next | with_reducible apply State.finish_keeps | with_reducible apply State.phaseWb_keeps | with_reducible apply State.startWb_keeps | with_reducible apply keeps_ite | split))

theorem execEcho_keeps {z : State} (r : Fin 16) (i : Word) (s : State) (hk : Keeps z s) :
    KeepsOut z (execEcho r i s) := by
  unfold execEcho
  try dsimp only
  iterate 24 (try any_goals (first | with_reducible assumption | (intro _ _ _; try dsimp only) | intro _ | with_reducible apply keepsOut_next | with_reducible apply State.finish_keeps | with_reducible apply State.startWb_keeps | with_reducible apply keeps_ite | split))

theorem execIdent_keeps {z : State} (r : Fin 16) (i : Word) (s : State) (hk : Keeps z s) :
    KeepsOut z (execIdent r i s) := by
  unfold execIdent
  try dsimp only
  iterate 24 (try any_goals (first | with_reducible assumption | (intro _ _ _; try dsimp only) | intro _ | with_reducible apply keepsOut_next | with_reducible apply State.finish_keeps | with_reducible apply State.startWb_keeps | with_reducible apply keeps_ite | split))

theorem execResetWarm_keeps {z : State} (r : Fin 16) (i : Word) (s : State) (hk : Keeps z s) :
    KeepsOut z (execResetWarm r i s) := by
  unfold execResetWarm
  try dsimp only
  iterate 24 (try any_goals (first | with_reducible assumption | (intro _ _ _; try dsimp only) | intro _ | with_reducible apply keepsOut_next | with_reducible apply State.phaseWb_keeps | with_reducible apply State.warmReset_keeps | with_reducible apply State.warmActive_keeps | with_reducible apply State.finish_keeps | with_reducible apply State.svcRetry_keeps | with_reducible apply State.startWb_keeps | with_reducible apply keeps_ite | split))

theorem execResetEngine_keeps {z : State} (r : Fin 16) (i : Word) (s : State) (hk : Keeps z s) :
    KeepsOut z (execResetEngine r i s) := by
  unfold execResetEngine
  try dsimp only
  iterate 24 (try any_goals (first | with_reducible assumption | (intro _ _ _; try dsimp only) | intro _ | with_reducible apply keepsOut_next | with_reducible apply State.resetEngine1_keeps | with_reducible apply State.phaseWb_keeps | with_reducible apply State.finish_keeps | with_reducible apply State.startWb_keeps | with_reducible apply keeps_ite | with_reducible apply keeps_foldl | split))

theorem execResetCluster_keeps {z : State} (r : Fin 16) (i : Word) (s : State) (hk : Keeps z s) :
    KeepsOut z (execResetCluster r i s) := by
  unfold execResetCluster
  try dsimp only
  iterate 24 (try any_goals (first | with_reducible assumption | (intro _ _ _; try dsimp only) | intro _ | with_reducible apply keepsOut_next | with_reducible apply State.phaseWb_keeps | with_reducible apply State.resetClusters_keeps | with_reducible apply State.finish_keeps | with_reducible apply State.startWb_keeps | with_reducible apply keeps_ite | split))

theorem execCancel_keeps {z : State} (r : Fin 16) (i : Word) (s : State) (hk : Keeps z s) :
    KeepsOut z (execCancel r i s) := by
  unfold execCancel
  try dsimp only
  iterate 24 (try any_goals (first | with_reducible assumption | (intro _ _ _; try dsimp only) | intro _ | with_reducible apply keepsOut_next | with_reducible apply State.undoWb_keeps | with_reducible apply State.finish_keeps | with_reducible apply State.startWb_keeps | with_reducible apply keeps_ite | simp only [keeps_mk_eq] | split))

theorem execLoad_keeps {z : State} (r : Fin 16) (i : Word) (ecc : List (Nat × EccCase)) (s : State) (hk : Keeps z s) :
    KeepsOut z (execLoad r i ecc s) := by
  unfold execLoad
  refine keepsOut_next (State.startWb_keeps (fun t w h => ?_) hk)
  dsimp only
  split
  · exact State.memErr_keeps _ _ _ _ (State.mgmtTraffic_keeps _ _ _ (State.eccImage_keeps _ _ _ h))
  · refine State.finish_keeps _ _ _ _ _ ?_
    split
    · exact State.authFail_keeps _ (State.mgmtTraffic_keeps _ _ _ (State.eccImage_keeps _ _ _ h))
    · exact State.mgmtTraffic_keeps _ _ _ (State.eccImage_keeps _ _ _ h)
  · rename_i e
    exact State.finish_keeps _ _ _ _ _ (keeps_foldl (fun _ _ k => State.wbWrote_keeps _ _ _ _ k)
      (State.trimPause_keeps _ (State.loadImage_keeps (State.mgmtTraffic_keeps _ _ _ (State.eccImage_keeps _ _ _ h)) e)))

theorem execStart_keeps {z : State} (r : Fin 16) (i : Word) (s : State) (hk : Keeps z s) :
    KeepsOut z (execStart r i s) := by
  unfold execStart
  try dsimp only
  iterate 24 (try any_goals (first | with_reducible assumption | (intro _ _ _; try dsimp only) | intro _ | with_reducible apply keepsOut_next | with_reducible apply State.finish_keeps | with_reducible apply State.setWb_keeps | with_reducible apply State.startWb_keeps | with_reducible apply keeps_ite | simp only [keeps_mk_eq] | split))

theorem execStop_keeps {z : State} (r : Fin 16) (i : Word) (s : State) (hk : Keeps z s) :
    KeepsOut z (execStop r i s) := by
  unfold execStop
  try dsimp only
  iterate 24 (try any_goals (first | with_reducible assumption | (intro _ _ _; try dsimp only) | intro _ | with_reducible apply keepsOut_next | with_reducible apply State.stopCl_keeps | with_reducible apply State.setWb_keeps | with_reducible apply State.startWb_keeps | with_reducible apply keeps_ite | with_reducible apply keeps_foldl | simp only [keeps_mk_eq] | split))

theorem execUnload_keeps {z : State} (r : Fin 16) (i : Word) (s : State) (hk : Keeps z s) :
    KeepsOut z (execUnload r i s) := by
  unfold execUnload
  try dsimp only
  iterate 24 (try any_goals (first | with_reducible assumption | (intro _ _ _; try dsimp only) | intro _ | with_reducible apply keepsOut_next | with_reducible apply State.finish_keeps | with_reducible apply State.unload_keeps | with_reducible apply State.trimPause_keeps | with_reducible apply State.evalMismatch_keeps | with_reducible apply State.startWb_keeps | with_reducible apply keeps_ite | with_reducible apply keeps_foldl | simp only [keeps_mk_eq] | split))

theorem execItnQuery_keeps {z : State} (r : Fin 16) (i : Word) (s : State) (hk : Keeps z s) :
    KeepsOut z (execItnQuery r i s) := by
  unfold execItnQuery
  try dsimp only
  iterate 24 (try any_goals (first | with_reducible assumption | (intro _ _ _; try dsimp only) | intro _ | with_reducible apply keepsOut_next | with_reducible apply State.finish_keeps | with_reducible apply State.startWb_keeps | with_reducible apply keeps_ite | split))

theorem execJobWaybill_keeps {z : State} (r : Fin 16) (i : Word) (ecc : List (Nat × EccCase)) (s : State) (hk : Keeps z s) :
    KeepsOut z (execJobWaybill r i ecc s) := by
  unfold execJobWaybill
  try dsimp only
  iterate 24 (try any_goals (first | with_reducible assumption | (intro _ _ _; try dsimp only) | intro _ | with_reducible apply keepsOut_next | with_reducible apply State.eccReads_keeps | with_reducible apply State.mgmtTraffic_keeps | with_reducible apply State.memErr_keeps | with_reducible apply State.jobFault_keeps | with_reducible apply State.finish_keeps | with_reducible apply State.sendJob_keeps | with_reducible apply State.phaseWb_keeps | with_reducible apply State.startWb_keeps | with_reducible apply keeps_ite | simp only [keeps_mk_eq] | split))

theorem execCopy_keeps {z : State} (r : Fin 16) (i : Word) (ecc : List (Nat × EccCase)) (s : State) (hk : Keeps z s) :
    KeepsOut z (execCopy r i ecc s) := by
  unfold execCopy
  try dsimp only
  iterate 24 (try any_goals (first | with_reducible assumption | (intro _ _ _; try dsimp only) | intro _ | with_reducible apply keepsOut_next | with_reducible apply State.eccReads_keeps | with_reducible apply State.eccEdges_keeps | with_reducible apply State.mgmtTraffic_keeps | with_reducible apply State.agentWrite_keeps | with_reducible apply State.memErr_keeps | with_reducible apply State.finish_keeps | with_reducible apply State.startWb_keeps | with_reducible apply keeps_ite | simp only [keeps_mk_eq] | split))

theorem execHold_keeps {z : State} (r : Fin 16) (i : Word) (s : State) (hk : Keeps z s) :
    KeepsOut z (execHold r i s) := by
  unfold execHold
  try dsimp only
  iterate 24 (try any_goals (first | with_reducible assumption | (intro _ _ _; try dsimp only) | intro _ | with_reducible apply keepsOut_next | with_reducible apply State.plainWrite_keeps | with_reducible apply State.armBlock_keeps | with_reducible apply State.wbWrote_keeps | with_reducible apply State.phaseWb_keeps | with_reducible apply State.startWb_keeps | with_reducible apply keeps_ite | with_reducible apply keeps_foldl | split))

theorem execGload_keeps {z : State} (r : Fin 16) (i : Word) (ecc : List (Nat × EccCase)) (s : State) (hk : Keeps z s) :
    KeepsOut z (execGload r i ecc s) := by
  unfold execGload
  try dsimp only
  iterate 24 (try any_goals (first | with_reducible assumption | (intro _ _ _; try dsimp only) | intro _ | with_reducible apply keepsOut_next | with_reducible apply State.eccReads_keeps | with_reducible apply State.mgmtTraffic_keeps | with_reducible apply State.finish_keeps | with_reducible apply State.memErr_keeps | with_reducible apply State.setCl_keeps | with_reducible apply State.phaseWb_keeps | with_reducible apply State.startWb_keeps | with_reducible apply keeps_ite | with_reducible apply keeps_foldl | simp only [keeps_mk_eq] | split))

theorem execGswitchWaybill_keeps {z : State} (r : Fin 16) (i : Word) (s : State) (hk : Keeps z s) :
    KeepsOut z (execGswitchWaybill r i s) := by
  unfold execGswitchWaybill
  try dsimp only
  iterate 24 (try any_goals (first | with_reducible assumption | (intro _ _ _; try dsimp only) | intro _ | with_reducible apply keepsOut_next | with_reducible apply State.setCl_keeps | with_reducible apply State.phaseWb_keeps | with_reducible apply State.startWb_keeps | with_reducible apply keeps_ite | with_reducible apply keeps_foldl | simp only [keeps_mk_eq] | split))

theorem execGlzQuery_keeps {z : State} (r : Fin 16) (i : Word) (s : State) (hk : Keeps z s) :
    KeepsOut z (execGlzQuery r i s) := by
  unfold execGlzQuery
  try dsimp only
  iterate 24 (try any_goals (first | with_reducible assumption | (intro _ _ _; try dsimp only) | intro _ | with_reducible apply keepsOut_next | with_reducible apply State.finish_keeps | with_reducible apply State.startWb_keeps | with_reducible apply keeps_ite | split))

theorem execPropose_keeps {z : State} (r : Fin 16) (i : Word) (s : State) (hk : Keeps z s) :
    KeepsOut z (execPropose r i s) := by
  unfold execPropose
  try dsimp only
  iterate 24 (try any_goals (first | with_reducible assumption | (intro _ _ _; try dsimp only) | intro _ | with_reducible apply keepsOut_next | with_reducible apply State.finish_keeps | with_reducible apply State.startWb_keeps | with_reducible apply keeps_ite | with_reducible apply keeps_foldl | split))

theorem execWclear_keeps {z : State} (r : Fin 16) (i : Word) (s : State) (hk : Keeps z s) :
    KeepsOut z (execWclear r i s) := by
  unfold execWclear
  try dsimp only
  iterate 24 (try any_goals (first | with_reducible assumption | (intro _ _ _; try dsimp only) | intro _ | with_reducible apply keepsOut_next | with_reducible apply State.busyW_keeps | with_reducible apply State.finish_keeps | with_reducible apply State.setCl_keeps | with_reducible apply State.startWb_keeps | with_reducible apply keeps_ite | with_reducible apply keeps_foldl | simp only [keeps_mk_eq] | split))

theorem execMuster_keeps {z : State} (r : Fin 16) (i : Word) (ecc : List (Nat × EccCase)) (s : State) (hk : Keeps z s) :
    KeepsOut z (execMuster r i s ecc) := by
  unfold execMuster
  try dsimp only
  iterate 24 (try any_goals (first | with_reducible assumption | (intro _ _ _; try dsimp only) | intro _ | with_reducible apply keepsOut_next | with_reducible apply State.eccImage_keeps | with_reducible apply State.mgmtTraffic_keeps | with_reducible apply State.memErr_keeps | with_reducible apply State.phaseWb_keeps | with_reducible apply State.musterBegin_keeps | with_reducible apply State.musterFail_keeps | with_reducible apply State.startWb_keeps | with_reducible apply keeps_ite | simp only [keeps_mk_eq] | split))

theorem execPort_keeps {z : State} (r : Fin 16) (i : Word) (s : State) (hk : Keeps z s) :
    KeepsOut z (execPort r i s) := by
  unfold execPort
  try dsimp only
  iterate 24 (try any_goals (first | with_reducible assumption | (intro _ _ _; try dsimp only) | intro _ | with_reducible apply keepsOut_next | with_reducible apply State.phaseWb_keeps | with_reducible apply State.portQuiesce_keeps | with_reducible apply State.portReceipts_keeps | with_reducible apply State.finish_keeps | with_reducible apply State.portRetrain_keeps | with_reducible apply State.portEnable_keeps | with_reducible apply State.wbWrote_keeps | with_reducible apply State.portDisable_keeps | with_reducible apply State.startWb_keeps | with_reducible apply keeps_ite | simp only [keeps_mk_eq] | split))

theorem execDisband_keeps {z : State} (r : Fin 16) (i : Word) (s : State) (hk : Keeps z s) :
    KeepsOut z (execDisband r i s) := by
  unfold execDisband
  try dsimp only
  iterate 24 (try any_goals (first | with_reducible assumption | (intro _ _ _; try dsimp only) | intro _ | with_reducible apply keepsOut_next | with_reducible apply State.finish_keeps | with_reducible apply State.leaveDomain_keeps | with_reducible apply State.startWb_keeps | with_reducible apply keeps_ite | simp only [keeps_mk_eq] | split))

theorem execPause_keeps {z : State} (r : Fin 16) (i : Word) (s : State) (hk : Keeps z s) :
    KeepsOut z (execPause r i s) := by
  unfold execPause
  try dsimp only
  iterate 24 (try any_goals (first | with_reducible assumption | (intro _ _ _; try dsimp only) | intro _ | with_reducible apply keepsOut_next | with_reducible apply State.finish_keeps | with_reducible apply State.phaseWb_keeps | with_reducible apply State.startWb_keeps | with_reducible apply keeps_ite | simp only [keeps_mk_eq] | split))

theorem execSave_keeps {z : State} (r : Fin 16) (i : Word) (ecc : List (Nat × EccCase)) (s : State) (hk : Keeps z s) :
    KeepsOut z (execSave r i ecc s) := by
  unfold execSave
  try dsimp only
  iterate 24 (try any_goals (first | with_reducible assumption | (intro _ _ _; try dsimp only) | intro _ | with_reducible apply keepsOut_next | with_reducible apply State.finish_keeps | with_reducible apply State.noteSaved_keeps | with_reducible apply State.eccEdges_keeps | with_reducible apply State.mgmtTraffic_keeps | with_reducible apply State.agentWrite_keeps | with_reducible apply State.draw_keeps | with_reducible apply State.startWb_keeps | with_reducible apply keeps_ite | simp only [keeps_mk_eq] | split))

theorem execRestore_keeps {z : State} (r : Fin 16) (i : Word) (ecc : List (Nat × EccCase)) (s : State) (hk : Keeps z s) :
    KeepsOut z (execRestore r i ecc s) := by
  unfold execRestore
  refine keepsOut_next (State.startWb_keeps (fun t w h => ?_) hk)
  dsimp only
  split
  · exact State.finish_keeps _ _ _ _ _ h
  split
  · exact State.memErr_keeps _ _ _ _ (State.mgmtTraffic_keeps _ _ _ (State.eccSaved_keeps _ _ _ h))
  · exact State.finish_keeps _ _ _ _ _ (State.mgmtTraffic_keeps _ _ _ (State.eccSaved_keeps _ _ _ h))
  · rename_i e
    refine State.finish_keeps _ _ _ _ _ (keeps_foldl (fun t k h => ?_)
      (State.restoreImage_keeps (State.mgmtTraffic_keeps _ _ _ (State.eccSaved_keeps _ _ _ h)) e))
    split
    · exact State.wbWrote_keeps _ _ _ _ h
    · exact h

theorem execResume_keeps {z : State} (r : Fin 16) (i : Word) (s : State) (hk : Keeps z s) :
    KeepsOut z (execResume r i s) := by
  unfold execResume
  try dsimp only
  iterate 24 (try any_goals (first | with_reducible assumption | (intro _ _ _; try dsimp only) | intro _ | with_reducible apply keepsOut_next | with_reducible apply State.finish_keeps | with_reducible apply State.setWb_keeps | with_reducible apply State.startWb_keeps | with_reducible apply keeps_ite | simp only [keeps_mk_eq] | split))

theorem execSensors_keeps {z : State} (r : Fin 16) (i : Word) (s : State) (hk : Keeps z s) :
    KeepsOut z (execSensors r i s) := by
  unfold execSensors
  try dsimp only
  iterate 24 (try any_goals (first | with_reducible assumption | (intro _ _ _; try dsimp only) | intro _ | with_reducible apply keepsOut_next | with_reducible apply State.finish_keeps | with_reducible apply State.startWb_keeps | with_reducible apply keeps_ite | split))

theorem execChecksum_keeps {z : State} (r : Fin 16) (i : Word) (ecc : List (Nat × EccCase)) (s : State) (hk : Keeps z s) :
    KeepsOut z (execChecksum r i ecc s) := by
  unfold execChecksum
  try dsimp only
  iterate 24 (try any_goals (first | with_reducible assumption | (intro _ _ _; try dsimp only) | intro _ | with_reducible apply keepsOut_next | with_reducible apply State.eccReads_keeps | with_reducible apply State.mgmtTraffic_keeps | with_reducible apply State.memErr_keeps | with_reducible apply State.finish_keeps | with_reducible apply State.startWb_keeps | with_reducible apply keeps_ite | simp only [keeps_mk_eq] | split))

theorem execPstate_keeps {z : State} (r : Fin 16) (i : Word) (s : State) (hk : Keeps z s) :
    KeepsOut z (execPstate r i s) := by
  unfold execPstate
  try dsimp only
  iterate 24 (try any_goals (first | with_reducible assumption | (intro _ _ _; try dsimp only) | intro _ | with_reducible apply keepsOut_next | with_reducible apply State.finish_keeps | with_reducible apply State.phaseWb_keeps | with_reducible apply State.pstateBegin_keeps | with_reducible apply State.startWb_keeps | with_reducible apply keeps_ite | simp only [keeps_mk_eq] | split))

theorem execCap_keeps {z : State} (r : Fin 16) (i : Word) (s : State) (hk : Keeps z s) :
    KeepsOut z (execCap r i s) := by
  unfold execCap
  try dsimp only
  iterate 24 (try any_goals (first | with_reducible assumption | (intro _ _ _; try dsimp only) | intro _ | with_reducible apply keepsOut_next | with_reducible apply State.busyW_keeps | with_reducible apply State.finish_keeps | with_reducible apply State.plainWrite_keeps | with_reducible apply State.armBlock_keeps | with_reducible apply State.wbWrote_keeps | with_reducible apply State.phaseWb_keeps | with_reducible apply State.startWb_keeps | with_reducible apply keeps_ite | split))

theorem execKstep_keeps {z : State} (r : Fin 16) (i : Word) (s : State) (hk : Keeps z s) :
    KeepsOut z (execKstep r i s) := by
  unfold execKstep
  try dsimp only
  iterate 24 (try any_goals (first | with_reducible assumption | (intro _ _ _; try dsimp only) | intro _ | with_reducible apply keepsOut_next | with_reducible apply State.finish_keeps | with_reducible apply State.phaseWb_keeps | with_reducible apply State.startWb_keeps | with_reducible apply keeps_ite | simp only [keeps_mk_eq] | split))

theorem execUpdate_keeps {z : State} (r : Fin 16) (i : Word) (ecc : List (Nat × EccCase)) (s : State) (hk : Keeps z s) :
    KeepsOut z (execUpdate r i ecc s) := by
  unfold execUpdate
  try dsimp only
  iterate 24 (try any_goals (first | with_reducible assumption | (intro _ _ _; try dsimp only) | intro _ | with_reducible apply keepsOut_next | with_reducible apply State.eccReads_keeps | with_reducible apply State.mgmtTraffic_keeps | with_reducible apply State.finish_keeps | with_reducible apply State.memErr_keeps | with_reducible apply State.authFail_keeps | with_reducible apply State.installPackage_keeps | with_reducible apply State.startWb_keeps | with_reducible apply keeps_ite | simp only [keeps_mk_eq] | split))

theorem execBrownOut_keeps {z : State} (torn : Bool) (s : State) (hk : Keeps z s) :
    KeepsOut z (execBrownOut s torn) := by
  unfold execBrownOut
  try dsimp only
  iterate 24 (try any_goals (first | with_reducible assumption | with_reducible apply keepsOut_next | with_reducible apply State.tornWrite_keeps | with_reducible apply State.afreshKeeping_keeps | with_reducible apply keeps_ite | split))

theorem execBedrockFwRestart_keeps {z : State} (k : Fin 8) (ok : Bool) (s : State) (hk : Keeps z s) :
    KeepsOut z (execBedrockFwRestart k ok s) := by
  unfold execBedrockFwRestart
  try dsimp only
  iterate 24 (try any_goals (first | with_reducible assumption | with_reducible apply keepsOut_next | with_reducible apply State.setStack_keeps | with_reducible apply State.setDie_keeps | with_reducible apply State.bedRuns_keeps | with_reducible apply State.setBits_keeps | with_reducible apply State.settleTrans_keeps | with_reducible apply State.finish_keeps | with_reducible apply State.svcRetry_keeps | with_reducible apply keeps_ite | simp only [keeps_mk_eq] | split))

theorem execFwswitch_keeps {z : State} (r : Fin 16) (i : Word) (s : State) (hk : Keeps z s) :
    KeepsOut z (execFwswitch r i s) := by
  unfold execFwswitch
  try dsimp only
  iterate 24 (try any_goals (first | with_reducible assumption | (intro _ _ _; try dsimp only) | intro _ | with_reducible apply keepsOut_next | with_reducible apply State.runBank_keeps | with_reducible apply State.fuse_keeps | with_reducible apply State.heldIrqs_keeps | with_reducible apply State.finish_keeps | with_reducible apply State.svcRetry_keeps | with_reducible apply State.authFail_keeps | with_reducible apply State.phaseWb_keeps | with_reducible apply State.startWb_keeps | with_reducible apply keeps_ite | simp only [keeps_mk_eq, keeps_boot_eq] | split))

theorem execFwswitchFallback_keeps {z : State} (s : State) (hk : Keeps z s) :
    KeepsOut z (execFwswitchFallback s) := by
  unfold execFwswitchFallback
  try dsimp only
  iterate 24 (try any_goals (first | with_reducible assumption | with_reducible apply keepsOut_next | with_reducible apply State.runBank_keeps | with_reducible apply State.heldIrqs_keeps | with_reducible apply State.finish_keeps | with_reducible apply State.svcRetry_keeps | with_reducible apply keeps_ite | simp only [keeps_mk_eq, keeps_boot_eq] | split))

theorem execAttest_keeps {z : State} (r : Fin 16) (i : Word) (ecc : List (Nat × EccCase)) (s : State) (hk : Keeps z s) :
    KeepsOut z (execAttest r i ecc s) := by
  unfold execAttest
  try dsimp only
  iterate 24 (try any_goals (first | with_reducible assumption | (intro _ _ _; try dsimp only) | intro _ | with_reducible apply keepsOut_next | with_reducible apply State.eccEdges_keeps | with_reducible apply State.mgmtTraffic_keeps | with_reducible apply State.agentWrite_keeps | with_reducible apply State.draw_keeps | with_reducible apply State.finish_keeps | with_reducible apply State.startWb_keeps | with_reducible apply keeps_ite | split))

theorem execStartupPhaseDone_keeps {z : State} (r : PhaseEnd) (s : State) (hk : Keeps z s) :
    KeepsOut z (execStartupPhaseDone r s) := by
  unfold execStartupPhaseDone
  try dsimp only
  iterate 24 (try any_goals (first | with_reducible assumption | with_reducible apply keepsOut_next | with_reducible apply State.phaseDone_keeps | with_reducible apply State.phaseFailed_keeps | with_reducible apply State.startStopped_keeps | with_reducible apply keeps_ite | simp only [keeps_mk_eq] | split))

theorem execBypass_keeps {z : State} (code : Byte) (tdi : List Bool) (s : State) (hk : Keeps z s) :
    KeepsOut z (execBypass s code tdi) := by
  unfold execBypass
  try dsimp only
  iterate 24 (try any_goals (first | with_reducible assumption | with_reducible apply keepsOut_next | with_reducible apply State.tapLoad_keeps | with_reducible apply State.tapOut_keeps | with_reducible apply keeps_ite | split))

theorem execIdcode_keeps {z : State} (s : State) (hk : Keeps z s) :
    KeepsOut z (execIdcode s) := by
  unfold execIdcode
  try dsimp only
  iterate 24 (try any_goals (first | with_reducible assumption | with_reducible apply keepsOut_next | with_reducible apply State.tapLoad_keeps | with_reducible apply State.tapOut_keeps | with_reducible apply keeps_ite | split))

theorem execSamplePreload_keeps {z : State} (cells : List Bool) (s : State) (hk : Keeps z s) :
    KeepsOut z (execSamplePreload cells s) := by
  unfold execSamplePreload
  try dsimp only
  iterate 24 (try any_goals (first | with_reducible assumption | with_reducible apply keepsOut_next | with_reducible apply State.tapLoad_keeps | with_reducible apply State.tapScan_keeps | with_reducible apply keeps_ite | split))

theorem execExtest_keeps {z : State} (cells : List Bool) (s : State) (hk : Keeps z s) :
    KeepsOut z (execExtest s cells) := by
  unfold execExtest
  try dsimp only
  iterate 24 (try any_goals (first | with_reducible assumption | with_reducible apply keepsOut_next | with_reducible apply State.tapDrive_keeps | with_reducible apply State.tapScan_keeps | with_reducible apply State.tapOut_keeps | with_reducible apply keeps_ite | split))

theorem execClamp_keeps {z : State} (tdi : List Bool) (s : State) (hk : Keeps z s) :
    KeepsOut z (execClamp s tdi) := by
  unfold execClamp
  try dsimp only
  iterate 24 (try any_goals (first | with_reducible assumption | with_reducible apply keepsOut_next | with_reducible apply State.tapDrive_keeps | with_reducible apply State.tapOut_keeps | with_reducible apply keeps_ite | split))

theorem execHighz_keeps {z : State} (tdi : List Bool) (s : State) (hk : Keeps z s) :
    KeepsOut z (execHighz s tdi) := by
  unfold execHighz
  try dsimp only
  iterate 24 (try any_goals (first | with_reducible assumption | with_reducible apply keepsOut_next | with_reducible apply State.tapDrive_keeps | with_reducible apply State.tapOut_keeps | with_reducible apply keeps_ite | split))

theorem execTestLogicReset_keeps {z : State} (s : State) (hk : Keeps z s) :
    KeepsOut z (execTestLogicReset s) := by
  unfold execTestLogicReset
  try dsimp only
  iterate 24 (try any_goals (first | with_reducible assumption | with_reducible apply keepsOut_next | with_reducible apply State.tapLoad_keeps | with_reducible apply keeps_ite | split))

theorem execGetSensorReading_keeps {z : State} (sensor : Nat) (s : State) (hk : Keeps z s) :
    KeepsOut z (execGetSensorReading sensor s) := by
  unfold execGetSensorReading
  try dsimp only
  iterate 24 (try any_goals (first | with_reducible assumption | with_reducible apply keepsOut_next | with_reducible apply State.pldm_keeps | with_reducible apply keeps_ite | split))

theorem execGetPdr_keeps {z : State} (handle : Nat) (s : State) (hk : Keeps z s) :
    KeepsOut z (execGetPdr handle s) := by
  unfold execGetPdr
  try dsimp only
  iterate 24 (try any_goals (first | with_reducible assumption | with_reducible apply keepsOut_next | with_reducible apply State.pldm_keeps | with_reducible apply keeps_ite | split))

theorem execSetEventReceiver_keeps {z : State} (eid : Byte) (s : State) (hk : Keeps z s) :
    KeepsOut z (execSetEventReceiver eid s) := by
  unfold execSetEventReceiver
  try dsimp only
  iterate 24 (try any_goals (first | with_reducible assumption | with_reducible apply keepsOut_next | with_reducible apply State.pldm_keeps | with_reducible apply keeps_ite | simp only [keeps_mk_eq] | split))

theorem execGetTid_keeps {z : State} (s : State) (hk : Keeps z s) :
    KeepsOut z (execGetTid s) := by
  unfold execGetTid
  try dsimp only
  iterate 24 (try any_goals (first | with_reducible assumption | with_reducible apply keepsOut_next | with_reducible apply State.pldm_keeps | with_reducible apply keeps_ite | split))

theorem execGetPldmVersion_keeps {z : State} (s : State) (hk : Keeps z s) :
    KeepsOut z (execGetPldmVersion s) := by
  unfold execGetPldmVersion
  try dsimp only
  iterate 24 (try any_goals (first | with_reducible assumption | with_reducible apply keepsOut_next | with_reducible apply State.pldm_keeps | with_reducible apply keeps_ite | split))

theorem execGetPldmTypes_keeps {z : State} (s : State) (hk : Keeps z s) :
    KeepsOut z (execGetPldmTypes s) := by
  unfold execGetPldmTypes
  try dsimp only
  iterate 24 (try any_goals (first | with_reducible assumption | with_reducible apply keepsOut_next | with_reducible apply State.pldm_keeps | with_reducible apply keeps_ite | split))

theorem execGetPldmCommands_keeps {z : State} (s : State) (hk : Keeps z s) :
    KeepsOut z (execGetPldmCommands s) := by
  unfold execGetPldmCommands
  try dsimp only
  iterate 24 (try any_goals (first | with_reducible assumption | with_reducible apply keepsOut_next | with_reducible apply State.pldm_keeps | with_reducible apply keeps_ite | split))

theorem execSetEndpointId_keeps {z : State} (eid : Byte) (s : State) (hk : Keeps z s) :
    KeepsOut z (execSetEndpointId eid s) := by
  unfold execSetEndpointId
  try dsimp only
  iterate 24 (try any_goals (first | with_reducible assumption | with_reducible apply keepsOut_next | with_reducible apply keeps_ite | simp only [keeps_mk_eq] | split))

theorem execSetdasa_keeps {z : State} (addr : BitVec 7) (s : State) (hk : Keeps z s) :
    KeepsOut z (execSetdasa addr s) := by
  unfold execSetdasa
  try dsimp only
  iterate 24 (try any_goals (first | with_reducible assumption | with_reducible apply keepsOut_next | with_reducible apply State.assign_keeps | with_reducible apply keeps_ite | split))

theorem execEntdaa_keeps {z : State} (addr : BitVec 7) (s : State) (hk : Keeps z s) :
    KeepsOut z (execEntdaa addr s) := by
  unfold execEntdaa
  try dsimp only
  iterate 24 (try any_goals (first | with_reducible assumption | with_reducible apply keepsOut_next | with_reducible apply State.assign_keeps | with_reducible apply keeps_ite | split))

end Sys2Proof.Machine
end

