-- ==== Sys2Proof/Laws/Memory.lean ====
section
/-! SUPPORT. Loess memory: every operation that writes it keeps its canonical form, a read after a write gives what was
written, a write leaves every other byte. -/

namespace Sys2Proof.Machine

theorem State.putBytes_memOk {s : State} (h : s.memOk) (a : Nat) (bs : List Byte) : (s.putBytes a bs).memOk :=
  (State.putBytes_keeps s a bs (Keeps.refl s)).loess h

theorem State.putGran_memOk {s : State} (h : s.memOk) (g : Nat) (ws : List WByte) : (s.putGran g ws).memOk :=
  (State.putGran_keeps s g ws (Keeps.refl s)).loess h

theorem State.writeGran_memOk {s : State} (h : s.memOk) (own : Bool) (g : Nat) (ws : List WByte) : (s.writeGran own g ws).memOk :=
  (State.writeGran_keeps s own g ws (Keeps.refl s)).loess h

theorem State.agentWrite_memOk {s : State} (h : s.memOk) (a : Nat) (bs : List Byte) (who : Who) : (s.agentWrite a bs who).memOk :=
  (State.agentWrite_keeps s a bs who (Keeps.refl s)).loess h

theorem State.freeCodeword_memOk {s : State} (h : s.memOk) (cw : Nat) : (s.freeCodeword cw).memOk :=
  (State.freeCodeword_keeps s cw (Keeps.refl s)).loess h

/-- Memory of no entry has the form. -/
theorem memory_wf_nil : Memory.wf [] = true := rfl

/-- What one byte reads as after a block is written: the block's byte inside it, what it was outside. -/
theorem State.putBytes_read (s : State) (a : Nat) (bs : List Byte) (k : Nat) :
    sget zeroByte (s.putBytes a bs).loess k =
      if a ≤ k ∧ k < a + bs.length then bs.getD (k - a) 0 else sget zeroByte s.loess k :=
  sget_sputs zeroByte s.loess a bs k

end Sys2Proof.Machine
end

