-- ==== Sys2Proof/Laws/Starts.lean ====
section
/-! SUPPORT. What the conditions of Safety.lean give: an instruction that issues, a unit that steps and a waybill that starts
do what their meaning says. -/

namespace Sys2Proof.Machine

theorem issuing_of_issues {s : State} {n : Nat} {h : Half} {o : Nat} (hi : s.Issues n h o) : s.issuing n h = some o := by
  obtain ⟨h1, h2, h3, h4, h5, h6, h7⟩ := hi
  unfold State.issuing
  cases h
  · simp [h1, h2, h4, h5, h6, h7]
  · have h8 := h3 rfl
    simp [h1, h2, h4, h5, h6, h7, h8.1, h8.2]

theorem issue_of_issues {s : State} {n : Nat} {h : Half} {o : Nat} (hi : s.Issues n h o)
    (f : Nat → Cluster → Option (Cluster × List Act)) :
    s.issue n h f = match f o (s.cl n) with
      | none => s
      | some r => (s.setCl n (r.1.pass1 h)).acts n (some o) r.2 := by
  cases hf : f o (s.cl n) <;> simp [State.issue, issuing_of_issues hi, hf]

/-- An instruction that has no side effects. -/
theorem issue_plain {s : State} {n : Nat} {h : Half} {o : Nat} (hi : s.Issues n h o)
    {f : Nat → Cluster → Option (Cluster × List Act)} {c : Cluster} (hf : f o (s.cl n) = some (c, [])) :
    s.issue n h f = s.setCl n (c.pass1 h) := by
  rw [issue_of_issues hi, hf]
  simp [State.acts]

/-- An instruction that must wait changes nothing. -/
theorem issue_waits {s : State} {n : Nat} {h : Half} {o : Nat} (hi : s.Issues n h o)
    {f : Nat → Cluster → Option (Cluster × List Act)} (hf : f o (s.cl n) = none) : s.issue n h f = s := by
  rw [issue_of_issues hi, hf]

theorem works_of_steps {s : State} {n : Nat} {o : Option Nat} (h : s.Steps n o) :
    (s.works n && !(s.cl n).halts o) = true := by
  obtain ⟨h1, h2, h3⟩ := h
  rcases h1 with h1 | h1 <;> simp [State.works, h1, h2, h3]

theorem unitStep_of_steps {s : State} {n : Nat} {o : Option Nat} (h : s.Steps n o)
    (f : Cluster → Option (Cluster × List Act)) :
    s.unitStep n o f = match f (s.cl n) with
      | none => s
      | some r => (s.setCl n r.1).acts n o r.2 := by
  unfold State.unitStep
  rw [works_of_steps h]
  rfl

/-- A waybill that starts does what its opcode says. -/
theorem startWb_of_starts {s : State} {opc r ix : Nat} {w : Wb} (h : s.Starts opc r ix w) {up : Wb → Bool}
    (hu : up w = true) (f : State → Wb → State) : s.startWb opc r ix up f = f (s.switchOn w.clus) w := by
  obtain ⟨h1, h2, h3, h4, h5, h6⟩ := h
  have h7 : ¬ (1 ≤ s.svcPhase ∧ ([2, 3, 4, 5, 6, 7, 9].contains (wbClass opc)) = true ∧ opc ≠ 0x700 ∧ opc ≠ 0x701) := by
    rintro ⟨a, b, c, d⟩
    rcases h6 with h6 | h6 | h6 | h6
    · omega
    · rw [h6] at b; cases b
    · exact c h6
    · exact d h6
  unfold State.startWb
  simp only [h1, h2, h3, h4, h5, hu, h7, ne_eq, not_true_eq_false, decide_false, Bool.not_true, Bool.or_self, Bool.false_eq_true,
    if_false]

theorem wf_reset : State.reset.memOk := by decide

end Sys2Proof.Machine
end

