-- ==== Sys2Proof/Laws/State.lean ====
section
/-! SUPPORT. The state's named updates, field by field, and what a read finds after each. -/

namespace Sys2Proof.Machine

/-! setReg -/

@[simp] theorem State.setReg_pending (s : State) (a : Nat) (v : Word) : (s.setReg a v).pending = s.pending := rfl
@[simp] theorem State.setReg_grade (s : State) (a : Nat) (v : Word) : (s.setReg a v).grade = s.grade := rfl
@[simp] theorem State.setReg_regs (s : State) (a : Nat) (v : Word) : (s.setReg a v).regs = sput (regInit s.grade) s.regs a v := rfl
@[simp] theorem State.setReg_shadow (s : State) (a : Nat) (v : Word) : (s.setReg a v).shadow = s.shadow := rfl
@[simp] theorem State.setReg_snap (s : State) (a : Nat) (v : Word) : (s.setReg a v).snap = s.snap := rfl
@[simp] theorem State.setReg_latch (s : State) (a : Nat) (v : Word) : (s.setReg a v).latch = s.latch := rfl
@[simp] theorem State.setReg_caught (s : State) (a : Nat) (v : Word) : (s.setReg a v).caught = s.caught := rfl
@[simp] theorem State.setReg_unmasked (s : State) (a : Nat) (v : Word) : (s.setReg a v).unmasked = s.unmasked := rfl
@[simp] theorem State.setReg_counted (s : State) (a : Nat) (v : Word) : (s.setReg a v).counted = s.counted := rfl
@[simp] theorem State.setReg_seqMark (s : State) (a : Nat) (v : Word) : (s.setReg a v).seqMark = s.seqMark := rfl
@[simp] theorem State.setReg_wbRegs (s : State) (a : Nat) (v : Word) : (s.setReg a v).wbRegs = s.wbRegs := rfl
@[simp] theorem State.setReg_wbSlots (s : State) (a : Nat) (v : Word) : (s.setReg a v).wbSlots = s.wbSlots := rfl
@[simp] theorem State.setReg_phase (s : State) (a : Nat) (v : Word) : (s.setReg a v).phase = s.phase := rfl
@[simp] theorem State.setReg_held (s : State) (a : Nat) (v : Word) : (s.setReg a v).held = s.held := rfl
@[simp] theorem State.setReg_trans (s : State) (a : Nat) (v : Word) : (s.setReg a v).trans = s.trans := rfl
@[simp] theorem State.setReg_tripped (s : State) (a : Nat) (v : Word) : (s.setReg a v).tripped = s.tripped := rfl
@[simp] theorem State.setReg_gated (s : State) (a : Nat) (v : Word) : (s.setReg a v).gated = s.gated := rfl
@[simp] theorem State.setReg_kstepTo (s : State) (a : Nat) (v : Word) : (s.setReg a v).kstepTo = s.kstepTo := rfl
@[simp] theorem State.setReg_resets (s : State) (a : Nat) (v : Word) : (s.setReg a v).resets = s.resets := rfl
@[simp] theorem State.setReg_draws (s : State) (a : Nat) (v : Word) : (s.setReg a v).draws = s.draws := rfl
@[simp] theorem State.setReg_drawNow (s : State) (a : Nat) (v : Word) : (s.setReg a v).drawNow = s.drawNow := rfl
@[simp] theorem State.setReg_tdieLim (s : State) (a : Nat) (v : Word) : (s.setReg a v).tdieLim = s.tdieLim := rfl
@[simp] theorem State.setReg_warned (s : State) (a : Nat) (v : Word) : (s.setReg a v).warned = s.warned := rfl
@[simp] theorem State.setReg_kc (s : State) (a : Nat) (v : Word) : (s.setReg a v).kc = s.kc := rfl
@[simp] theorem State.setReg_late (s : State) (a : Nat) (v : Word) : (s.setReg a v).late = s.late := rfl
@[simp] theorem State.setReg_hung (s : State) (a : Nat) (v : Word) : (s.setReg a v).hung = s.hung := rfl
@[simp] theorem State.setReg_setpLate (s : State) (a : Nat) (v : Word) : (s.setReg a v).setpLate = s.setpLate := rfl
@[simp] theorem State.setReg_gstep (s : State) (a : Nat) (v : Word) : (s.setReg a v).gstep = s.gstep := rfl
@[simp] theorem State.setReg_clusters (s : State) (a : Nat) (v : Word) : (s.setReg a v).clusters = s.clusters := rfl
@[simp] theorem State.setReg_preds (s : State) (a : Nat) (v : Word) : (s.setReg a v).preds = s.preds := rfl
@[simp] theorem State.setReg_loess (s : State) (a : Nat) (v : Word) : (s.setReg a v).loess = s.loess := rfl
@[simp] theorem State.setReg_poison (s : State) (a : Nat) (v : Word) : (s.setReg a v).poison = s.poison := rfl
@[simp] theorem State.setReg_sel (s : State) (a : Nat) (v : Word) : (s.setReg a v).sel = s.sel := rfl
@[simp] theorem State.setReg_wr (s : State) (a : Nat) (v : Word) : (s.setReg a v).wr = s.wr := rfl
@[simp] theorem State.setReg_pmes (s : State) (a : Nat) (v : Word) : (s.setReg a v).pmes = s.pmes := rfl
@[simp] theorem State.setReg_dies (s : State) (a : Nat) (v : Word) : (s.setReg a v).dies = s.dies := rfl
@[simp] theorem State.setReg_jobs (s : State) (a : Nat) (v : Word) : (s.setReg a v).jobs = s.jobs := rfl
@[simp] theorem State.setReg_jobOrd (s : State) (a : Nat) (v : Word) : (s.setReg a v).jobOrd = s.jobOrd := rfl
@[simp] theorem State.setReg_written (s : State) (a : Nat) (v : Word) : (s.setReg a v).written = s.written := rfl
@[simp] theorem State.setReg_notices (s : State) (a : Nat) (v : Word) : (s.setReg a v).notices = s.notices := rfl
@[simp] theorem State.setReg_noted (s : State) (a : Nat) (v : Word) : (s.setReg a v).noted = s.noted := rfl
@[simp] theorem State.setReg_wheel (s : State) (a : Nat) (v : Word) : (s.setReg a v).wheel = s.wheel := rfl
@[simp] theorem State.setReg_order (s : State) (a : Nat) (v : Word) : (s.setReg a v).order = s.order := rfl
@[simp] theorem State.setReg_starved (s : State) (a : Nat) (v : Word) : (s.setReg a v).starved = s.starved := rfl
@[simp] theorem State.setReg_ports (s : State) (a : Nat) (v : Word) : (s.setReg a v).ports = s.ports := rfl
@[simp] theorem State.setReg_cvn (s : State) (a : Nat) (v : Word) : (s.setReg a v).cvn = s.cvn := rfl
@[simp] theorem State.setReg_relays (s : State) (a : Nat) (v : Word) : (s.setReg a v).relays = s.relays := rfl
@[simp] theorem State.setReg_reds (s : State) (a : Nat) (v : Word) : (s.setReg a v).reds = s.reds := rfl
@[simp] theorem State.setReg_early (s : State) (a : Nat) (v : Word) : (s.setReg a v).early = s.early := rfl
@[simp] theorem State.setReg_tandem (s : State) (a : Nat) (v : Word) : (s.setReg a v).tandem = s.tandem := rfl
@[simp] theorem State.setReg_teth (s : State) (a : Nat) (v : Word) : (s.setReg a v).teth = s.teth := rfl
@[simp] theorem State.setReg_rings (s : State) (a : Nat) (v : Word) : (s.setReg a v).rings = s.rings := rfl
@[simp] theorem State.setReg_events (s : State) (a : Nat) (v : Word) : (s.setReg a v).events = s.events := rfl
@[simp] theorem State.setReg_gap (s : State) (a : Nat) (v : Word) : (s.setReg a v).gap = s.gap := rfl
@[simp] theorem State.setReg_pause (s : State) (a : Nat) (v : Word) : (s.setReg a v).pause = s.pause := rfl
@[simp] theorem State.setReg_checks (s : State) (a : Nat) (v : Word) : (s.setReg a v).checks = s.checks := rfl
@[simp] theorem State.setReg_svc (s : State) (a : Nat) (v : Word) : (s.setReg a v).svc = s.svc := rfl
@[simp] theorem State.setReg_boot (s : State) (a : Nat) (v : Word) : (s.setReg a v).boot = s.boot := rfl
@[simp] theorem State.setReg_tap (s : State) (a : Nat) (v : Word) : (s.setReg a v).tap = s.tap := rfl
@[simp] theorem State.setReg_side (s : State) (a : Nat) (v : Word) : (s.setReg a v).side = s.side := rfl
@[simp] theorem State.setReg_out (s : State) (a : Nat) (v : Word) : (s.setReg a v).out = s.out := rfl
@[simp] theorem State.setReg_fresh (s : State) (a : Nat) (v : Word) : (s.setReg a v).fresh = s.fresh := rfl
@[simp] theorem State.setReg_saved (s : State) (a : Nat) (v : Word) : (s.setReg a v).saved = s.saved := rfl

/-! setRegN -/

@[simp] theorem State.setRegN_pending (s : State) (a v : Nat) : (s.setRegN a v).pending = s.pending := rfl
@[simp] theorem State.setRegN_grade (s : State) (a v : Nat) : (s.setRegN a v).grade = s.grade := rfl
@[simp] theorem State.setRegN_regs (s : State) (a v : Nat) : (s.setRegN a v).regs = sput (regInit s.grade) s.regs a (BitVec.ofNat 32 v) := rfl
@[simp] theorem State.setRegN_shadow (s : State) (a v : Nat) : (s.setRegN a v).shadow = s.shadow := rfl
@[simp] theorem State.setRegN_snap (s : State) (a v : Nat) : (s.setRegN a v).snap = s.snap := rfl
@[simp] theorem State.setRegN_latch (s : State) (a v : Nat) : (s.setRegN a v).latch = s.latch := rfl
@[simp] theorem State.setRegN_caught (s : State) (a v : Nat) : (s.setRegN a v).caught = s.caught := rfl
@[simp] theorem State.setRegN_unmasked (s : State) (a v : Nat) : (s.setRegN a v).unmasked = s.unmasked := rfl
@[simp] theorem State.setRegN_counted (s : State) (a v : Nat) : (s.setRegN a v).counted = s.counted := rfl
@[simp] theorem State.setRegN_seqMark (s : State) (a v : Nat) : (s.setRegN a v).seqMark = s.seqMark := rfl
@[simp] theorem State.setRegN_wbRegs (s : State) (a v : Nat) : (s.setRegN a v).wbRegs = s.wbRegs := rfl
@[simp] theorem State.setRegN_wbSlots (s : State) (a v : Nat) : (s.setRegN a v).wbSlots = s.wbSlots := rfl
@[simp] theorem State.setRegN_phase (s : State) (a v : Nat) : (s.setRegN a v).phase = s.phase := rfl
@[simp] theorem State.setRegN_held (s : State) (a v : Nat) : (s.setRegN a v).held = s.held := rfl
@[simp] theorem State.setRegN_trans (s : State) (a v : Nat) : (s.setRegN a v).trans = s.trans := rfl
@[simp] theorem State.setRegN_tripped (s : State) (a v : Nat) : (s.setRegN a v).tripped = s.tripped := rfl
@[simp] theorem State.setRegN_gated (s : State) (a v : Nat) : (s.setRegN a v).gated = s.gated := rfl
@[simp] theorem State.setRegN_kstepTo (s : State) (a v : Nat) : (s.setRegN a v).kstepTo = s.kstepTo := rfl
@[simp] theorem State.setRegN_resets (s : State) (a v : Nat) : (s.setRegN a v).resets = s.resets := rfl
@[simp] theorem State.setRegN_draws (s : State) (a v : Nat) : (s.setRegN a v).draws = s.draws := rfl
@[simp] theorem State.setRegN_drawNow (s : State) (a v : Nat) : (s.setRegN a v).drawNow = s.drawNow := rfl
@[simp] theorem State.setRegN_tdieLim (s : State) (a v : Nat) : (s.setRegN a v).tdieLim = s.tdieLim := rfl
@[simp] theorem State.setRegN_warned (s : State) (a v : Nat) : (s.setRegN a v).warned = s.warned := rfl
@[simp] theorem State.setRegN_kc (s : State) (a v : Nat) : (s.setRegN a v).kc = s.kc := rfl
@[simp] theorem State.setRegN_late (s : State) (a v : Nat) : (s.setRegN a v).late = s.late := rfl
@[simp] theorem State.setRegN_hung (s : State) (a v : Nat) : (s.setRegN a v).hung = s.hung := rfl
@[simp] theorem State.setRegN_setpLate (s : State) (a v : Nat) : (s.setRegN a v).setpLate = s.setpLate := rfl
@[simp] theorem State.setRegN_gstep (s : State) (a v : Nat) : (s.setRegN a v).gstep = s.gstep := rfl
@[simp] theorem State.setRegN_clusters (s : State) (a v : Nat) : (s.setRegN a v).clusters = s.clusters := rfl
@[simp] theorem State.setRegN_preds (s : State) (a v : Nat) : (s.setRegN a v).preds = s.preds := rfl
@[simp] theorem State.setRegN_loess (s : State) (a v : Nat) : (s.setRegN a v).loess = s.loess := rfl
@[simp] theorem State.setRegN_poison (s : State) (a v : Nat) : (s.setRegN a v).poison = s.poison := rfl
@[simp] theorem State.setRegN_sel (s : State) (a v : Nat) : (s.setRegN a v).sel = s.sel := rfl
@[simp] theorem State.setRegN_wr (s : State) (a v : Nat) : (s.setRegN a v).wr = s.wr := rfl
@[simp] theorem State.setRegN_pmes (s : State) (a v : Nat) : (s.setRegN a v).pmes = s.pmes := rfl
@[simp] theorem State.setRegN_dies (s : State) (a v : Nat) : (s.setRegN a v).dies = s.dies := rfl
@[simp] theorem State.setRegN_jobs (s : State) (a v : Nat) : (s.setRegN a v).jobs = s.jobs := rfl
@[simp] theorem State.setRegN_jobOrd (s : State) (a v : Nat) : (s.setRegN a v).jobOrd = s.jobOrd := rfl
@[simp] theorem State.setRegN_written (s : State) (a v : Nat) : (s.setRegN a v).written = s.written := rfl
@[simp] theorem State.setRegN_notices (s : State) (a v : Nat) : (s.setRegN a v).notices = s.notices := rfl
@[simp] theorem State.setRegN_noted (s : State) (a v : Nat) : (s.setRegN a v).noted = s.noted := rfl
@[simp] theorem State.setRegN_wheel (s : State) (a v : Nat) : (s.setRegN a v).wheel = s.wheel := rfl
@[simp] theorem State.setRegN_order (s : State) (a v : Nat) : (s.setRegN a v).order = s.order := rfl
@[simp] theorem State.setRegN_starved (s : State) (a v : Nat) : (s.setRegN a v).starved = s.starved := rfl
@[simp] theorem State.setRegN_ports (s : State) (a v : Nat) : (s.setRegN a v).ports = s.ports := rfl
@[simp] theorem State.setRegN_cvn (s : State) (a v : Nat) : (s.setRegN a v).cvn = s.cvn := rfl
@[simp] theorem State.setRegN_relays (s : State) (a v : Nat) : (s.setRegN a v).relays = s.relays := rfl
@[simp] theorem State.setRegN_reds (s : State) (a v : Nat) : (s.setRegN a v).reds = s.reds := rfl
@[simp] theorem State.setRegN_early (s : State) (a v : Nat) : (s.setRegN a v).early = s.early := rfl
@[simp] theorem State.setRegN_tandem (s : State) (a v : Nat) : (s.setRegN a v).tandem = s.tandem := rfl
@[simp] theorem State.setRegN_teth (s : State) (a v : Nat) : (s.setRegN a v).teth = s.teth := rfl
@[simp] theorem State.setRegN_rings (s : State) (a v : Nat) : (s.setRegN a v).rings = s.rings := rfl
@[simp] theorem State.setRegN_events (s : State) (a v : Nat) : (s.setRegN a v).events = s.events := rfl
@[simp] theorem State.setRegN_gap (s : State) (a v : Nat) : (s.setRegN a v).gap = s.gap := rfl
@[simp] theorem State.setRegN_pause (s : State) (a v : Nat) : (s.setRegN a v).pause = s.pause := rfl
@[simp] theorem State.setRegN_checks (s : State) (a v : Nat) : (s.setRegN a v).checks = s.checks := rfl
@[simp] theorem State.setRegN_svc (s : State) (a v : Nat) : (s.setRegN a v).svc = s.svc := rfl
@[simp] theorem State.setRegN_boot (s : State) (a v : Nat) : (s.setRegN a v).boot = s.boot := rfl
@[simp] theorem State.setRegN_tap (s : State) (a v : Nat) : (s.setRegN a v).tap = s.tap := rfl
@[simp] theorem State.setRegN_side (s : State) (a v : Nat) : (s.setRegN a v).side = s.side := rfl
@[simp] theorem State.setRegN_out (s : State) (a v : Nat) : (s.setRegN a v).out = s.out := rfl
@[simp] theorem State.setRegN_fresh (s : State) (a v : Nat) : (s.setRegN a v).fresh = s.fresh := rfl
@[simp] theorem State.setRegN_saved (s : State) (a v : Nat) : (s.setRegN a v).saved = s.saved := rfl

/-! setCl -/

@[simp] theorem State.setCl_pending (s : State) (n : Nat) (c : Cluster) : (s.setCl n c).pending = s.pending := rfl
@[simp] theorem State.setCl_grade (s : State) (n : Nat) (c : Cluster) : (s.setCl n c).grade = s.grade := rfl
@[simp] theorem State.setCl_regs (s : State) (n : Nat) (c : Cluster) : (s.setCl n c).regs = s.regs := rfl
@[simp] theorem State.setCl_shadow (s : State) (n : Nat) (c : Cluster) : (s.setCl n c).shadow = s.shadow := rfl
@[simp] theorem State.setCl_snap (s : State) (n : Nat) (c : Cluster) : (s.setCl n c).snap = s.snap := rfl
@[simp] theorem State.setCl_latch (s : State) (n : Nat) (c : Cluster) : (s.setCl n c).latch = s.latch := rfl
@[simp] theorem State.setCl_caught (s : State) (n : Nat) (c : Cluster) : (s.setCl n c).caught = s.caught := rfl
@[simp] theorem State.setCl_unmasked (s : State) (n : Nat) (c : Cluster) : (s.setCl n c).unmasked = s.unmasked := rfl
@[simp] theorem State.setCl_counted (s : State) (n : Nat) (c : Cluster) : (s.setCl n c).counted = s.counted := rfl
@[simp] theorem State.setCl_seqMark (s : State) (n : Nat) (c : Cluster) : (s.setCl n c).seqMark = s.seqMark := rfl
@[simp] theorem State.setCl_wbRegs (s : State) (n : Nat) (c : Cluster) : (s.setCl n c).wbRegs = s.wbRegs := rfl
@[simp] theorem State.setCl_wbSlots (s : State) (n : Nat) (c : Cluster) : (s.setCl n c).wbSlots = s.wbSlots := rfl
@[simp] theorem State.setCl_phase (s : State) (n : Nat) (c : Cluster) : (s.setCl n c).phase = s.phase := rfl
@[simp] theorem State.setCl_held (s : State) (n : Nat) (c : Cluster) : (s.setCl n c).held = s.held := rfl
@[simp] theorem State.setCl_trans (s : State) (n : Nat) (c : Cluster) : (s.setCl n c).trans = s.trans := rfl
@[simp] theorem State.setCl_tripped (s : State) (n : Nat) (c : Cluster) : (s.setCl n c).tripped = s.tripped := rfl
@[simp] theorem State.setCl_gated (s : State) (n : Nat) (c : Cluster) : (s.setCl n c).gated = s.gated := rfl
@[simp] theorem State.setCl_kstepTo (s : State) (n : Nat) (c : Cluster) : (s.setCl n c).kstepTo = s.kstepTo := rfl
@[simp] theorem State.setCl_resets (s : State) (n : Nat) (c : Cluster) : (s.setCl n c).resets = s.resets := rfl
@[simp] theorem State.setCl_draws (s : State) (n : Nat) (c : Cluster) : (s.setCl n c).draws = s.draws := rfl
@[simp] theorem State.setCl_drawNow (s : State) (n : Nat) (c : Cluster) : (s.setCl n c).drawNow = s.drawNow := rfl
@[simp] theorem State.setCl_tdieLim (s : State) (n : Nat) (c : Cluster) : (s.setCl n c).tdieLim = s.tdieLim := rfl
@[simp] theorem State.setCl_warned (s : State) (n : Nat) (c : Cluster) : (s.setCl n c).warned = s.warned := rfl
@[simp] theorem State.setCl_kc (s : State) (n : Nat) (c : Cluster) : (s.setCl n c).kc = s.kc := rfl
@[simp] theorem State.setCl_late (s : State) (n : Nat) (c : Cluster) : (s.setCl n c).late = s.late := rfl
@[simp] theorem State.setCl_hung (s : State) (n : Nat) (c : Cluster) : (s.setCl n c).hung = s.hung := rfl
@[simp] theorem State.setCl_setpLate (s : State) (n : Nat) (c : Cluster) : (s.setCl n c).setpLate = s.setpLate := rfl
@[simp] theorem State.setCl_gstep (s : State) (n : Nat) (c : Cluster) : (s.setCl n c).gstep = s.gstep := rfl
@[simp] theorem State.setCl_clusters (s : State) (n : Nat) (c : Cluster) : (s.setCl n c).clusters = sput idleCluster s.clusters n c := rfl
@[simp] theorem State.setCl_preds (s : State) (n : Nat) (c : Cluster) : (s.setCl n c).preds = s.preds := rfl
@[simp] theorem State.setCl_loess (s : State) (n : Nat) (c : Cluster) : (s.setCl n c).loess = s.loess := rfl
@[simp] theorem State.setCl_poison (s : State) (n : Nat) (c : Cluster) : (s.setCl n c).poison = s.poison := rfl
@[simp] theorem State.setCl_sel (s : State) (n : Nat) (c : Cluster) : (s.setCl n c).sel = s.sel := rfl
@[simp] theorem State.setCl_wr (s : State) (n : Nat) (c : Cluster) : (s.setCl n c).wr = s.wr := rfl
@[simp] theorem State.setCl_pmes (s : State) (n : Nat) (c : Cluster) : (s.setCl n c).pmes = s.pmes := rfl
@[simp] theorem State.setCl_dies (s : State) (n : Nat) (c : Cluster) : (s.setCl n c).dies = s.dies := rfl
@[simp] theorem State.setCl_jobs (s : State) (n : Nat) (c : Cluster) : (s.setCl n c).jobs = s.jobs := rfl
@[simp] theorem State.setCl_jobOrd (s : State) (n : Nat) (c : Cluster) : (s.setCl n c).jobOrd = s.jobOrd := rfl
@[simp] theorem State.setCl_written (s : State) (n : Nat) (c : Cluster) : (s.setCl n c).written = s.written := rfl
@[simp] theorem State.setCl_notices (s : State) (n : Nat) (c : Cluster) : (s.setCl n c).notices = s.notices := rfl
@[simp] theorem State.setCl_noted (s : State) (n : Nat) (c : Cluster) : (s.setCl n c).noted = s.noted := rfl
@[simp] theorem State.setCl_wheel (s : State) (n : Nat) (c : Cluster) : (s.setCl n c).wheel = s.wheel := rfl
@[simp] theorem State.setCl_order (s : State) (n : Nat) (c : Cluster) : (s.setCl n c).order = s.order := rfl
@[simp] theorem State.setCl_starved (s : State) (n : Nat) (c : Cluster) : (s.setCl n c).starved = s.starved := rfl
@[simp] theorem State.setCl_ports (s : State) (n : Nat) (c : Cluster) : (s.setCl n c).ports = s.ports := rfl
@[simp] theorem State.setCl_cvn (s : State) (n : Nat) (c : Cluster) : (s.setCl n c).cvn = s.cvn := rfl
@[simp] theorem State.setCl_relays (s : State) (n : Nat) (c : Cluster) : (s.setCl n c).relays = s.relays := rfl
@[simp] theorem State.setCl_reds (s : State) (n : Nat) (c : Cluster) : (s.setCl n c).reds = s.reds := rfl
@[simp] theorem State.setCl_early (s : State) (n : Nat) (c : Cluster) : (s.setCl n c).early = s.early := rfl
@[simp] theorem State.setCl_tandem (s : State) (n : Nat) (c : Cluster) : (s.setCl n c).tandem = s.tandem := rfl
@[simp] theorem State.setCl_teth (s : State) (n : Nat) (c : Cluster) : (s.setCl n c).teth = s.teth := rfl
@[simp] theorem State.setCl_rings (s : State) (n : Nat) (c : Cluster) : (s.setCl n c).rings = s.rings := rfl
@[simp] theorem State.setCl_events (s : State) (n : Nat) (c : Cluster) : (s.setCl n c).events = s.events := rfl
@[simp] theorem State.setCl_gap (s : State) (n : Nat) (c : Cluster) : (s.setCl n c).gap = s.gap := rfl
@[simp] theorem State.setCl_pause (s : State) (n : Nat) (c : Cluster) : (s.setCl n c).pause = s.pause := rfl
@[simp] theorem State.setCl_checks (s : State) (n : Nat) (c : Cluster) : (s.setCl n c).checks = s.checks := rfl
@[simp] theorem State.setCl_svc (s : State) (n : Nat) (c : Cluster) : (s.setCl n c).svc = s.svc := rfl
@[simp] theorem State.setCl_boot (s : State) (n : Nat) (c : Cluster) : (s.setCl n c).boot = s.boot := rfl
@[simp] theorem State.setCl_tap (s : State) (n : Nat) (c : Cluster) : (s.setCl n c).tap = s.tap := rfl
@[simp] theorem State.setCl_side (s : State) (n : Nat) (c : Cluster) : (s.setCl n c).side = s.side := rfl
@[simp] theorem State.setCl_out (s : State) (n : Nat) (c : Cluster) : (s.setCl n c).out = s.out := rfl
@[simp] theorem State.setCl_fresh (s : State) (n : Nat) (c : Cluster) : (s.setCl n c).fresh = s.fresh := rfl
@[simp] theorem State.setCl_saved (s : State) (n : Nat) (c : Cluster) : (s.setCl n c).saved = s.saved := rfl

/-! setDie -/

@[simp] theorem State.setDie_pending (s : State) (k : Nat) (d : Stack) : (s.setDie k d).pending = s.pending := rfl
@[simp] theorem State.setDie_grade (s : State) (k : Nat) (d : Stack) : (s.setDie k d).grade = s.grade := rfl
@[simp] theorem State.setDie_regs (s : State) (k : Nat) (d : Stack) : (s.setDie k d).regs = s.regs := rfl
@[simp] theorem State.setDie_shadow (s : State) (k : Nat) (d : Stack) : (s.setDie k d).shadow = s.shadow := rfl
@[simp] theorem State.setDie_snap (s : State) (k : Nat) (d : Stack) : (s.setDie k d).snap = s.snap := rfl
@[simp] theorem State.setDie_latch (s : State) (k : Nat) (d : Stack) : (s.setDie k d).latch = s.latch := rfl
@[simp] theorem State.setDie_caught (s : State) (k : Nat) (d : Stack) : (s.setDie k d).caught = s.caught := rfl
@[simp] theorem State.setDie_unmasked (s : State) (k : Nat) (d : Stack) : (s.setDie k d).unmasked = s.unmasked := rfl
@[simp] theorem State.setDie_counted (s : State) (k : Nat) (d : Stack) : (s.setDie k d).counted = s.counted := rfl
@[simp] theorem State.setDie_seqMark (s : State) (k : Nat) (d : Stack) : (s.setDie k d).seqMark = s.seqMark := rfl
@[simp] theorem State.setDie_wbRegs (s : State) (k : Nat) (d : Stack) : (s.setDie k d).wbRegs = s.wbRegs := rfl
@[simp] theorem State.setDie_wbSlots (s : State) (k : Nat) (d : Stack) : (s.setDie k d).wbSlots = s.wbSlots := rfl
@[simp] theorem State.setDie_phase (s : State) (k : Nat) (d : Stack) : (s.setDie k d).phase = s.phase := rfl
@[simp] theorem State.setDie_held (s : State) (k : Nat) (d : Stack) : (s.setDie k d).held = s.held := rfl
@[simp] theorem State.setDie_trans (s : State) (k : Nat) (d : Stack) : (s.setDie k d).trans = s.trans := rfl
@[simp] theorem State.setDie_tripped (s : State) (k : Nat) (d : Stack) : (s.setDie k d).tripped = s.tripped := rfl
@[simp] theorem State.setDie_gated (s : State) (k : Nat) (d : Stack) : (s.setDie k d).gated = s.gated := rfl
@[simp] theorem State.setDie_kstepTo (s : State) (k : Nat) (d : Stack) : (s.setDie k d).kstepTo = s.kstepTo := rfl
@[simp] theorem State.setDie_resets (s : State) (k : Nat) (d : Stack) : (s.setDie k d).resets = s.resets := rfl
@[simp] theorem State.setDie_draws (s : State) (k : Nat) (d : Stack) : (s.setDie k d).draws = s.draws := rfl
@[simp] theorem State.setDie_drawNow (s : State) (k : Nat) (d : Stack) : (s.setDie k d).drawNow = s.drawNow := rfl
@[simp] theorem State.setDie_tdieLim (s : State) (k : Nat) (d : Stack) : (s.setDie k d).tdieLim = s.tdieLim := rfl
@[simp] theorem State.setDie_warned (s : State) (k : Nat) (d : Stack) : (s.setDie k d).warned = s.warned := rfl
@[simp] theorem State.setDie_kc (s : State) (k : Nat) (d : Stack) : (s.setDie k d).kc = s.kc := rfl
@[simp] theorem State.setDie_late (s : State) (k : Nat) (d : Stack) : (s.setDie k d).late = s.late := rfl
@[simp] theorem State.setDie_hung (s : State) (k : Nat) (d : Stack) : (s.setDie k d).hung = s.hung := rfl
@[simp] theorem State.setDie_setpLate (s : State) (k : Nat) (d : Stack) : (s.setDie k d).setpLate = s.setpLate := rfl
@[simp] theorem State.setDie_gstep (s : State) (k : Nat) (d : Stack) : (s.setDie k d).gstep = s.gstep := rfl
@[simp] theorem State.setDie_clusters (s : State) (k : Nat) (d : Stack) : (s.setDie k d).clusters = s.clusters := rfl
@[simp] theorem State.setDie_preds (s : State) (k : Nat) (d : Stack) : (s.setDie k d).preds = s.preds := rfl
@[simp] theorem State.setDie_loess (s : State) (k : Nat) (d : Stack) : (s.setDie k d).loess = s.loess := rfl
@[simp] theorem State.setDie_poison (s : State) (k : Nat) (d : Stack) : (s.setDie k d).poison = s.poison := rfl
@[simp] theorem State.setDie_sel (s : State) (k : Nat) (d : Stack) : (s.setDie k d).sel = s.sel := rfl
@[simp] theorem State.setDie_wr (s : State) (k : Nat) (d : Stack) : (s.setDie k d).wr = s.wr := rfl
@[simp] theorem State.setDie_pmes (s : State) (k : Nat) (d : Stack) : (s.setDie k d).pmes = s.pmes := rfl
@[simp] theorem State.setDie_dies (s : State) (k : Nat) (d : Stack) : (s.setDie k d).dies = sput idleStack s.dies k d := rfl
@[simp] theorem State.setDie_jobs (s : State) (k : Nat) (d : Stack) : (s.setDie k d).jobs = s.jobs := rfl
@[simp] theorem State.setDie_jobOrd (s : State) (k : Nat) (d : Stack) : (s.setDie k d).jobOrd = s.jobOrd := rfl
@[simp] theorem State.setDie_written (s : State) (k : Nat) (d : Stack) : (s.setDie k d).written = s.written := rfl
@[simp] theorem State.setDie_notices (s : State) (k : Nat) (d : Stack) : (s.setDie k d).notices = s.notices := rfl
@[simp] theorem State.setDie_noted (s : State) (k : Nat) (d : Stack) : (s.setDie k d).noted = s.noted := rfl
@[simp] theorem State.setDie_wheel (s : State) (k : Nat) (d : Stack) : (s.setDie k d).wheel = s.wheel := rfl
@[simp] theorem State.setDie_order (s : State) (k : Nat) (d : Stack) : (s.setDie k d).order = s.order := rfl
@[simp] theorem State.setDie_starved (s : State) (k : Nat) (d : Stack) : (s.setDie k d).starved = s.starved := rfl
@[simp] theorem State.setDie_ports (s : State) (k : Nat) (d : Stack) : (s.setDie k d).ports = s.ports := rfl
@[simp] theorem State.setDie_cvn (s : State) (k : Nat) (d : Stack) : (s.setDie k d).cvn = s.cvn := rfl
@[simp] theorem State.setDie_relays (s : State) (k : Nat) (d : Stack) : (s.setDie k d).relays = s.relays := rfl
@[simp] theorem State.setDie_reds (s : State) (k : Nat) (d : Stack) : (s.setDie k d).reds = s.reds := rfl
@[simp] theorem State.setDie_early (s : State) (k : Nat) (d : Stack) : (s.setDie k d).early = s.early := rfl
@[simp] theorem State.setDie_tandem (s : State) (k : Nat) (d : Stack) : (s.setDie k d).tandem = s.tandem := rfl
@[simp] theorem State.setDie_teth (s : State) (k : Nat) (d : Stack) : (s.setDie k d).teth = s.teth := rfl
@[simp] theorem State.setDie_rings (s : State) (k : Nat) (d : Stack) : (s.setDie k d).rings = s.rings := rfl
@[simp] theorem State.setDie_events (s : State) (k : Nat) (d : Stack) : (s.setDie k d).events = s.events := rfl
@[simp] theorem State.setDie_gap (s : State) (k : Nat) (d : Stack) : (s.setDie k d).gap = s.gap := rfl
@[simp] theorem State.setDie_pause (s : State) (k : Nat) (d : Stack) : (s.setDie k d).pause = s.pause := rfl
@[simp] theorem State.setDie_checks (s : State) (k : Nat) (d : Stack) : (s.setDie k d).checks = s.checks := rfl
@[simp] theorem State.setDie_svc (s : State) (k : Nat) (d : Stack) : (s.setDie k d).svc = s.svc := rfl
@[simp] theorem State.setDie_boot (s : State) (k : Nat) (d : Stack) : (s.setDie k d).boot = s.boot := rfl
@[simp] theorem State.setDie_tap (s : State) (k : Nat) (d : Stack) : (s.setDie k d).tap = s.tap := rfl
@[simp] theorem State.setDie_side (s : State) (k : Nat) (d : Stack) : (s.setDie k d).side = s.side := rfl
@[simp] theorem State.setDie_out (s : State) (k : Nat) (d : Stack) : (s.setDie k d).out = s.out := rfl
@[simp] theorem State.setDie_fresh (s : State) (k : Nat) (d : Stack) : (s.setDie k d).fresh = s.fresh := rfl
@[simp] theorem State.setDie_saved (s : State) (k : Nat) (d : Stack) : (s.setDie k d).saved = s.saved := rfl

/-! setPort -/

@[simp] theorem State.setPort_pending (s : State) (p : Nat) (x : Port) : (s.setPort p x).pending = s.pending := rfl
@[simp] theorem State.setPort_grade (s : State) (p : Nat) (x : Port) : (s.setPort p x).grade = s.grade := rfl
@[simp] theorem State.setPort_regs (s : State) (p : Nat) (x : Port) : (s.setPort p x).regs = s.regs := rfl
@[simp] theorem State.setPort_shadow (s : State) (p : Nat) (x : Port) : (s.setPort p x).shadow = s.shadow := rfl
@[simp] theorem State.setPort_snap (s : State) (p : Nat) (x : Port) : (s.setPort p x).snap = s.snap := rfl
@[simp] theorem State.setPort_latch (s : State) (p : Nat) (x : Port) : (s.setPort p x).latch = s.latch := rfl
@[simp] theorem State.setPort_caught (s : State) (p : Nat) (x : Port) : (s.setPort p x).caught = s.caught := rfl
@[simp] theorem State.setPort_unmasked (s : State) (p : Nat) (x : Port) : (s.setPort p x).unmasked = s.unmasked := rfl
@[simp] theorem State.setPort_counted (s : State) (p : Nat) (x : Port) : (s.setPort p x).counted = s.counted := rfl
@[simp] theorem State.setPort_seqMark (s : State) (p : Nat) (x : Port) : (s.setPort p x).seqMark = s.seqMark := rfl
@[simp] theorem State.setPort_wbRegs (s : State) (p : Nat) (x : Port) : (s.setPort p x).wbRegs = s.wbRegs := rfl
@[simp] theorem State.setPort_wbSlots (s : State) (p : Nat) (x : Port) : (s.setPort p x).wbSlots = s.wbSlots := rfl
@[simp] theorem State.setPort_phase (s : State) (p : Nat) (x : Port) : (s.setPort p x).phase = s.phase := rfl
@[simp] theorem State.setPort_held (s : State) (p : Nat) (x : Port) : (s.setPort p x).held = s.held := rfl
@[simp] theorem State.setPort_trans (s : State) (p : Nat) (x : Port) : (s.setPort p x).trans = s.trans := rfl
@[simp] theorem State.setPort_tripped (s : State) (p : Nat) (x : Port) : (s.setPort p x).tripped = s.tripped := rfl
@[simp] theorem State.setPort_gated (s : State) (p : Nat) (x : Port) : (s.setPort p x).gated = s.gated := rfl
@[simp] theorem State.setPort_kstepTo (s : State) (p : Nat) (x : Port) : (s.setPort p x).kstepTo = s.kstepTo := rfl
@[simp] theorem State.setPort_resets (s : State) (p : Nat) (x : Port) : (s.setPort p x).resets = s.resets := rfl
@[simp] theorem State.setPort_draws (s : State) (p : Nat) (x : Port) : (s.setPort p x).draws = s.draws := rfl
@[simp] theorem State.setPort_drawNow (s : State) (p : Nat) (x : Port) : (s.setPort p x).drawNow = s.drawNow := rfl
@[simp] theorem State.setPort_tdieLim (s : State) (p : Nat) (x : Port) : (s.setPort p x).tdieLim = s.tdieLim := rfl
@[simp] theorem State.setPort_warned (s : State) (p : Nat) (x : Port) : (s.setPort p x).warned = s.warned := rfl
@[simp] theorem State.setPort_kc (s : State) (p : Nat) (x : Port) : (s.setPort p x).kc = s.kc := rfl
@[simp] theorem State.setPort_late (s : State) (p : Nat) (x : Port) : (s.setPort p x).late = s.late := rfl
@[simp] theorem State.setPort_hung (s : State) (p : Nat) (x : Port) : (s.setPort p x).hung = s.hung := rfl
@[simp] theorem State.setPort_setpLate (s : State) (p : Nat) (x : Port) : (s.setPort p x).setpLate = s.setpLate := rfl
@[simp] theorem State.setPort_gstep (s : State) (p : Nat) (x : Port) : (s.setPort p x).gstep = s.gstep := rfl
@[simp] theorem State.setPort_clusters (s : State) (p : Nat) (x : Port) : (s.setPort p x).clusters = s.clusters := rfl
@[simp] theorem State.setPort_preds (s : State) (p : Nat) (x : Port) : (s.setPort p x).preds = s.preds := rfl
@[simp] theorem State.setPort_loess (s : State) (p : Nat) (x : Port) : (s.setPort p x).loess = s.loess := rfl
@[simp] theorem State.setPort_poison (s : State) (p : Nat) (x : Port) : (s.setPort p x).poison = s.poison := rfl
@[simp] theorem State.setPort_sel (s : State) (p : Nat) (x : Port) : (s.setPort p x).sel = s.sel := rfl
@[simp] theorem State.setPort_wr (s : State) (p : Nat) (x : Port) : (s.setPort p x).wr = s.wr := rfl
@[simp] theorem State.setPort_pmes (s : State) (p : Nat) (x : Port) : (s.setPort p x).pmes = s.pmes := rfl
@[simp] theorem State.setPort_dies (s : State) (p : Nat) (x : Port) : (s.setPort p x).dies = s.dies := rfl
@[simp] theorem State.setPort_jobs (s : State) (p : Nat) (x : Port) : (s.setPort p x).jobs = s.jobs := rfl
@[simp] theorem State.setPort_jobOrd (s : State) (p : Nat) (x : Port) : (s.setPort p x).jobOrd = s.jobOrd := rfl
@[simp] theorem State.setPort_written (s : State) (p : Nat) (x : Port) : (s.setPort p x).written = s.written := rfl
@[simp] theorem State.setPort_notices (s : State) (p : Nat) (x : Port) : (s.setPort p x).notices = s.notices := rfl
@[simp] theorem State.setPort_noted (s : State) (p : Nat) (x : Port) : (s.setPort p x).noted = s.noted := rfl
@[simp] theorem State.setPort_wheel (s : State) (p : Nat) (x : Port) : (s.setPort p x).wheel = s.wheel := rfl
@[simp] theorem State.setPort_order (s : State) (p : Nat) (x : Port) : (s.setPort p x).order = s.order := rfl
@[simp] theorem State.setPort_starved (s : State) (p : Nat) (x : Port) : (s.setPort p x).starved = s.starved := rfl
@[simp] theorem State.setPort_ports (s : State) (p : Nat) (x : Port) : (s.setPort p x).ports = sput idlePort s.ports p x := rfl
@[simp] theorem State.setPort_cvn (s : State) (p : Nat) (x : Port) : (s.setPort p x).cvn = s.cvn := rfl
@[simp] theorem State.setPort_relays (s : State) (p : Nat) (x : Port) : (s.setPort p x).relays = s.relays := rfl
@[simp] theorem State.setPort_reds (s : State) (p : Nat) (x : Port) : (s.setPort p x).reds = s.reds := rfl
@[simp] theorem State.setPort_early (s : State) (p : Nat) (x : Port) : (s.setPort p x).early = s.early := rfl
@[simp] theorem State.setPort_tandem (s : State) (p : Nat) (x : Port) : (s.setPort p x).tandem = s.tandem := rfl
@[simp] theorem State.setPort_teth (s : State) (p : Nat) (x : Port) : (s.setPort p x).teth = s.teth := rfl
@[simp] theorem State.setPort_rings (s : State) (p : Nat) (x : Port) : (s.setPort p x).rings = s.rings := rfl
@[simp] theorem State.setPort_events (s : State) (p : Nat) (x : Port) : (s.setPort p x).events = s.events := rfl
@[simp] theorem State.setPort_gap (s : State) (p : Nat) (x : Port) : (s.setPort p x).gap = s.gap := rfl
@[simp] theorem State.setPort_pause (s : State) (p : Nat) (x : Port) : (s.setPort p x).pause = s.pause := rfl
@[simp] theorem State.setPort_checks (s : State) (p : Nat) (x : Port) : (s.setPort p x).checks = s.checks := rfl
@[simp] theorem State.setPort_svc (s : State) (p : Nat) (x : Port) : (s.setPort p x).svc = s.svc := rfl
@[simp] theorem State.setPort_boot (s : State) (p : Nat) (x : Port) : (s.setPort p x).boot = s.boot := rfl
@[simp] theorem State.setPort_tap (s : State) (p : Nat) (x : Port) : (s.setPort p x).tap = s.tap := rfl
@[simp] theorem State.setPort_side (s : State) (p : Nat) (x : Port) : (s.setPort p x).side = s.side := rfl
@[simp] theorem State.setPort_out (s : State) (p : Nat) (x : Port) : (s.setPort p x).out = s.out := rfl
@[simp] theorem State.setPort_fresh (s : State) (p : Nat) (x : Port) : (s.setPort p x).fresh = s.fresh := rfl
@[simp] theorem State.setPort_saved (s : State) (p : Nat) (x : Port) : (s.setPort p x).saved = s.saved := rfl

/-! setRing -/

@[simp] theorem State.setRing_pending (s : State) (r : Nat) (x : Ring) : (s.setRing r x).pending = s.pending := rfl
@[simp] theorem State.setRing_grade (s : State) (r : Nat) (x : Ring) : (s.setRing r x).grade = s.grade := rfl
@[simp] theorem State.setRing_regs (s : State) (r : Nat) (x : Ring) : (s.setRing r x).regs = s.regs := rfl
@[simp] theorem State.setRing_shadow (s : State) (r : Nat) (x : Ring) : (s.setRing r x).shadow = s.shadow := rfl
@[simp] theorem State.setRing_snap (s : State) (r : Nat) (x : Ring) : (s.setRing r x).snap = s.snap := rfl
@[simp] theorem State.setRing_latch (s : State) (r : Nat) (x : Ring) : (s.setRing r x).latch = s.latch := rfl
@[simp] theorem State.setRing_caught (s : State) (r : Nat) (x : Ring) : (s.setRing r x).caught = s.caught := rfl
@[simp] theorem State.setRing_unmasked (s : State) (r : Nat) (x : Ring) : (s.setRing r x).unmasked = s.unmasked := rfl
@[simp] theorem State.setRing_counted (s : State) (r : Nat) (x : Ring) : (s.setRing r x).counted = s.counted := rfl
@[simp] theorem State.setRing_seqMark (s : State) (r : Nat) (x : Ring) : (s.setRing r x).seqMark = s.seqMark := rfl
@[simp] theorem State.setRing_wbRegs (s : State) (r : Nat) (x : Ring) : (s.setRing r x).wbRegs = s.wbRegs := rfl
@[simp] theorem State.setRing_wbSlots (s : State) (r : Nat) (x : Ring) : (s.setRing r x).wbSlots = s.wbSlots := rfl
@[simp] theorem State.setRing_phase (s : State) (r : Nat) (x : Ring) : (s.setRing r x).phase = s.phase := rfl
@[simp] theorem State.setRing_held (s : State) (r : Nat) (x : Ring) : (s.setRing r x).held = s.held := rfl
@[simp] theorem State.setRing_trans (s : State) (r : Nat) (x : Ring) : (s.setRing r x).trans = s.trans := rfl
@[simp] theorem State.setRing_tripped (s : State) (r : Nat) (x : Ring) : (s.setRing r x).tripped = s.tripped := rfl
@[simp] theorem State.setRing_gated (s : State) (r : Nat) (x : Ring) : (s.setRing r x).gated = s.gated := rfl
@[simp] theorem State.setRing_kstepTo (s : State) (r : Nat) (x : Ring) : (s.setRing r x).kstepTo = s.kstepTo := rfl
@[simp] theorem State.setRing_resets (s : State) (r : Nat) (x : Ring) : (s.setRing r x).resets = s.resets := rfl
@[simp] theorem State.setRing_draws (s : State) (r : Nat) (x : Ring) : (s.setRing r x).draws = s.draws := rfl
@[simp] theorem State.setRing_drawNow (s : State) (r : Nat) (x : Ring) : (s.setRing r x).drawNow = s.drawNow := rfl
@[simp] theorem State.setRing_tdieLim (s : State) (r : Nat) (x : Ring) : (s.setRing r x).tdieLim = s.tdieLim := rfl
@[simp] theorem State.setRing_warned (s : State) (r : Nat) (x : Ring) : (s.setRing r x).warned = s.warned := rfl
@[simp] theorem State.setRing_kc (s : State) (r : Nat) (x : Ring) : (s.setRing r x).kc = s.kc := rfl
@[simp] theorem State.setRing_late (s : State) (r : Nat) (x : Ring) : (s.setRing r x).late = s.late := rfl
@[simp] theorem State.setRing_hung (s : State) (r : Nat) (x : Ring) : (s.setRing r x).hung = s.hung := rfl
@[simp] theorem State.setRing_setpLate (s : State) (r : Nat) (x : Ring) : (s.setRing r x).setpLate = s.setpLate := rfl
@[simp] theorem State.setRing_gstep (s : State) (r : Nat) (x : Ring) : (s.setRing r x).gstep = s.gstep := rfl
@[simp] theorem State.setRing_clusters (s : State) (r : Nat) (x : Ring) : (s.setRing r x).clusters = s.clusters := rfl
@[simp] theorem State.setRing_preds (s : State) (r : Nat) (x : Ring) : (s.setRing r x).preds = s.preds := rfl
@[simp] theorem State.setRing_loess (s : State) (r : Nat) (x : Ring) : (s.setRing r x).loess = s.loess := rfl
@[simp] theorem State.setRing_poison (s : State) (r : Nat) (x : Ring) : (s.setRing r x).poison = s.poison := rfl
@[simp] theorem State.setRing_sel (s : State) (r : Nat) (x : Ring) : (s.setRing r x).sel = s.sel := rfl
@[simp] theorem State.setRing_wr (s : State) (r : Nat) (x : Ring) : (s.setRing r x).wr = s.wr := rfl
@[simp] theorem State.setRing_pmes (s : State) (r : Nat) (x : Ring) : (s.setRing r x).pmes = s.pmes := rfl
@[simp] theorem State.setRing_dies (s : State) (r : Nat) (x : Ring) : (s.setRing r x).dies = s.dies := rfl
@[simp] theorem State.setRing_jobs (s : State) (r : Nat) (x : Ring) : (s.setRing r x).jobs = s.jobs := rfl
@[simp] theorem State.setRing_jobOrd (s : State) (r : Nat) (x : Ring) : (s.setRing r x).jobOrd = s.jobOrd := rfl
@[simp] theorem State.setRing_written (s : State) (r : Nat) (x : Ring) : (s.setRing r x).written = s.written := rfl
@[simp] theorem State.setRing_notices (s : State) (r : Nat) (x : Ring) : (s.setRing r x).notices = s.notices := rfl
@[simp] theorem State.setRing_noted (s : State) (r : Nat) (x : Ring) : (s.setRing r x).noted = s.noted := rfl
@[simp] theorem State.setRing_wheel (s : State) (r : Nat) (x : Ring) : (s.setRing r x).wheel = s.wheel := rfl
@[simp] theorem State.setRing_order (s : State) (r : Nat) (x : Ring) : (s.setRing r x).order = s.order := rfl
@[simp] theorem State.setRing_starved (s : State) (r : Nat) (x : Ring) : (s.setRing r x).starved = s.starved := rfl
@[simp] theorem State.setRing_ports (s : State) (r : Nat) (x : Ring) : (s.setRing r x).ports = s.ports := rfl
@[simp] theorem State.setRing_cvn (s : State) (r : Nat) (x : Ring) : (s.setRing r x).cvn = s.cvn := rfl
@[simp] theorem State.setRing_relays (s : State) (r : Nat) (x : Ring) : (s.setRing r x).relays = s.relays := rfl
@[simp] theorem State.setRing_reds (s : State) (r : Nat) (x : Ring) : (s.setRing r x).reds = s.reds := rfl
@[simp] theorem State.setRing_early (s : State) (r : Nat) (x : Ring) : (s.setRing r x).early = s.early := rfl
@[simp] theorem State.setRing_tandem (s : State) (r : Nat) (x : Ring) : (s.setRing r x).tandem = s.tandem := rfl
@[simp] theorem State.setRing_teth (s : State) (r : Nat) (x : Ring) : (s.setRing r x).teth = s.teth := rfl
@[simp] theorem State.setRing_rings (s : State) (r : Nat) (x : Ring) : (s.setRing r x).rings = sput idleRing s.rings r x := rfl
@[simp] theorem State.setRing_events (s : State) (r : Nat) (x : Ring) : (s.setRing r x).events = s.events := rfl
@[simp] theorem State.setRing_gap (s : State) (r : Nat) (x : Ring) : (s.setRing r x).gap = s.gap := rfl
@[simp] theorem State.setRing_pause (s : State) (r : Nat) (x : Ring) : (s.setRing r x).pause = s.pause := rfl
@[simp] theorem State.setRing_checks (s : State) (r : Nat) (x : Ring) : (s.setRing r x).checks = s.checks := rfl
@[simp] theorem State.setRing_svc (s : State) (r : Nat) (x : Ring) : (s.setRing r x).svc = s.svc := rfl
@[simp] theorem State.setRing_boot (s : State) (r : Nat) (x : Ring) : (s.setRing r x).boot = s.boot := rfl
@[simp] theorem State.setRing_tap (s : State) (r : Nat) (x : Ring) : (s.setRing r x).tap = s.tap := rfl
@[simp] theorem State.setRing_side (s : State) (r : Nat) (x : Ring) : (s.setRing r x).side = s.side := rfl
@[simp] theorem State.setRing_out (s : State) (r : Nat) (x : Ring) : (s.setRing r x).out = s.out := rfl
@[simp] theorem State.setRing_fresh (s : State) (r : Nat) (x : Ring) : (s.setRing r x).fresh = s.fresh := rfl
@[simp] theorem State.setRing_saved (s : State) (r : Nat) (x : Ring) : (s.setRing r x).saved = s.saved := rfl

/-! setPme -/

@[simp] theorem State.setPme_pending (s : State) (p : Nat) (x : Pme) : (s.setPme p x).pending = s.pending := rfl
@[simp] theorem State.setPme_grade (s : State) (p : Nat) (x : Pme) : (s.setPme p x).grade = s.grade := rfl
@[simp] theorem State.setPme_regs (s : State) (p : Nat) (x : Pme) : (s.setPme p x).regs = s.regs := rfl
@[simp] theorem State.setPme_shadow (s : State) (p : Nat) (x : Pme) : (s.setPme p x).shadow = s.shadow := rfl
@[simp] theorem State.setPme_snap (s : State) (p : Nat) (x : Pme) : (s.setPme p x).snap = s.snap := rfl
@[simp] theorem State.setPme_latch (s : State) (p : Nat) (x : Pme) : (s.setPme p x).latch = s.latch := rfl
@[simp] theorem State.setPme_caught (s : State) (p : Nat) (x : Pme) : (s.setPme p x).caught = s.caught := rfl
@[simp] theorem State.setPme_unmasked (s : State) (p : Nat) (x : Pme) : (s.setPme p x).unmasked = s.unmasked := rfl
@[simp] theorem State.setPme_counted (s : State) (p : Nat) (x : Pme) : (s.setPme p x).counted = s.counted := rfl
@[simp] theorem State.setPme_seqMark (s : State) (p : Nat) (x : Pme) : (s.setPme p x).seqMark = s.seqMark := rfl
@[simp] theorem State.setPme_wbRegs (s : State) (p : Nat) (x : Pme) : (s.setPme p x).wbRegs = s.wbRegs := rfl
@[simp] theorem State.setPme_wbSlots (s : State) (p : Nat) (x : Pme) : (s.setPme p x).wbSlots = s.wbSlots := rfl
@[simp] theorem State.setPme_phase (s : State) (p : Nat) (x : Pme) : (s.setPme p x).phase = s.phase := rfl
@[simp] theorem State.setPme_held (s : State) (p : Nat) (x : Pme) : (s.setPme p x).held = s.held := rfl
@[simp] theorem State.setPme_trans (s : State) (p : Nat) (x : Pme) : (s.setPme p x).trans = s.trans := rfl
@[simp] theorem State.setPme_tripped (s : State) (p : Nat) (x : Pme) : (s.setPme p x).tripped = s.tripped := rfl
@[simp] theorem State.setPme_gated (s : State) (p : Nat) (x : Pme) : (s.setPme p x).gated = s.gated := rfl
@[simp] theorem State.setPme_kstepTo (s : State) (p : Nat) (x : Pme) : (s.setPme p x).kstepTo = s.kstepTo := rfl
@[simp] theorem State.setPme_resets (s : State) (p : Nat) (x : Pme) : (s.setPme p x).resets = s.resets := rfl
@[simp] theorem State.setPme_draws (s : State) (p : Nat) (x : Pme) : (s.setPme p x).draws = s.draws := rfl
@[simp] theorem State.setPme_drawNow (s : State) (p : Nat) (x : Pme) : (s.setPme p x).drawNow = s.drawNow := rfl
@[simp] theorem State.setPme_tdieLim (s : State) (p : Nat) (x : Pme) : (s.setPme p x).tdieLim = s.tdieLim := rfl
@[simp] theorem State.setPme_warned (s : State) (p : Nat) (x : Pme) : (s.setPme p x).warned = s.warned := rfl
@[simp] theorem State.setPme_kc (s : State) (p : Nat) (x : Pme) : (s.setPme p x).kc = s.kc := rfl
@[simp] theorem State.setPme_late (s : State) (p : Nat) (x : Pme) : (s.setPme p x).late = s.late := rfl
@[simp] theorem State.setPme_hung (s : State) (p : Nat) (x : Pme) : (s.setPme p x).hung = s.hung := rfl
@[simp] theorem State.setPme_setpLate (s : State) (p : Nat) (x : Pme) : (s.setPme p x).setpLate = s.setpLate := rfl
@[simp] theorem State.setPme_gstep (s : State) (p : Nat) (x : Pme) : (s.setPme p x).gstep = s.gstep := rfl
@[simp] theorem State.setPme_clusters (s : State) (p : Nat) (x : Pme) : (s.setPme p x).clusters = s.clusters := rfl
@[simp] theorem State.setPme_preds (s : State) (p : Nat) (x : Pme) : (s.setPme p x).preds = s.preds := rfl
@[simp] theorem State.setPme_loess (s : State) (p : Nat) (x : Pme) : (s.setPme p x).loess = s.loess := rfl
@[simp] theorem State.setPme_poison (s : State) (p : Nat) (x : Pme) : (s.setPme p x).poison = s.poison := rfl
@[simp] theorem State.setPme_sel (s : State) (p : Nat) (x : Pme) : (s.setPme p x).sel = s.sel := rfl
@[simp] theorem State.setPme_wr (s : State) (p : Nat) (x : Pme) : (s.setPme p x).wr = s.wr := rfl
@[simp] theorem State.setPme_pmes (s : State) (p : Nat) (x : Pme) : (s.setPme p x).pmes = sput noPme s.pmes p x := rfl
@[simp] theorem State.setPme_dies (s : State) (p : Nat) (x : Pme) : (s.setPme p x).dies = s.dies := rfl
@[simp] theorem State.setPme_jobs (s : State) (p : Nat) (x : Pme) : (s.setPme p x).jobs = s.jobs := rfl
@[simp] theorem State.setPme_jobOrd (s : State) (p : Nat) (x : Pme) : (s.setPme p x).jobOrd = s.jobOrd := rfl
@[simp] theorem State.setPme_written (s : State) (p : Nat) (x : Pme) : (s.setPme p x).written = s.written := rfl
@[simp] theorem State.setPme_notices (s : State) (p : Nat) (x : Pme) : (s.setPme p x).notices = s.notices := rfl
@[simp] theorem State.setPme_noted (s : State) (p : Nat) (x : Pme) : (s.setPme p x).noted = s.noted := rfl
@[simp] theorem State.setPme_wheel (s : State) (p : Nat) (x : Pme) : (s.setPme p x).wheel = s.wheel := rfl
@[simp] theorem State.setPme_order (s : State) (p : Nat) (x : Pme) : (s.setPme p x).order = s.order := rfl
@[simp] theorem State.setPme_starved (s : State) (p : Nat) (x : Pme) : (s.setPme p x).starved = s.starved := rfl
@[simp] theorem State.setPme_ports (s : State) (p : Nat) (x : Pme) : (s.setPme p x).ports = s.ports := rfl
@[simp] theorem State.setPme_cvn (s : State) (p : Nat) (x : Pme) : (s.setPme p x).cvn = s.cvn := rfl
@[simp] theorem State.setPme_relays (s : State) (p : Nat) (x : Pme) : (s.setPme p x).relays = s.relays := rfl
@[simp] theorem State.setPme_reds (s : State) (p : Nat) (x : Pme) : (s.setPme p x).reds = s.reds := rfl
@[simp] theorem State.setPme_early (s : State) (p : Nat) (x : Pme) : (s.setPme p x).early = s.early := rfl
@[simp] theorem State.setPme_tandem (s : State) (p : Nat) (x : Pme) : (s.setPme p x).tandem = s.tandem := rfl
@[simp] theorem State.setPme_teth (s : State) (p : Nat) (x : Pme) : (s.setPme p x).teth = s.teth := rfl
@[simp] theorem State.setPme_rings (s : State) (p : Nat) (x : Pme) : (s.setPme p x).rings = s.rings := rfl
@[simp] theorem State.setPme_events (s : State) (p : Nat) (x : Pme) : (s.setPme p x).events = s.events := rfl
@[simp] theorem State.setPme_gap (s : State) (p : Nat) (x : Pme) : (s.setPme p x).gap = s.gap := rfl
@[simp] theorem State.setPme_pause (s : State) (p : Nat) (x : Pme) : (s.setPme p x).pause = s.pause := rfl
@[simp] theorem State.setPme_checks (s : State) (p : Nat) (x : Pme) : (s.setPme p x).checks = s.checks := rfl
@[simp] theorem State.setPme_svc (s : State) (p : Nat) (x : Pme) : (s.setPme p x).svc = s.svc := rfl
@[simp] theorem State.setPme_boot (s : State) (p : Nat) (x : Pme) : (s.setPme p x).boot = s.boot := rfl
@[simp] theorem State.setPme_tap (s : State) (p : Nat) (x : Pme) : (s.setPme p x).tap = s.tap := rfl
@[simp] theorem State.setPme_side (s : State) (p : Nat) (x : Pme) : (s.setPme p x).side = s.side := rfl
@[simp] theorem State.setPme_out (s : State) (p : Nat) (x : Pme) : (s.setPme p x).out = s.out := rfl
@[simp] theorem State.setPme_fresh (s : State) (p : Nat) (x : Pme) : (s.setPme p x).fresh = s.fresh := rfl
@[simp] theorem State.setPme_saved (s : State) (p : Nat) (x : Pme) : (s.setPme p x).saved = s.saved := rfl

/-! setUnit -/

@[simp] theorem State.setUnit_pending (s : State) (e : Nat) (x : TUnit) : (s.setUnit e x).pending = s.pending := rfl
@[simp] theorem State.setUnit_grade (s : State) (e : Nat) (x : TUnit) : (s.setUnit e x).grade = s.grade := rfl
@[simp] theorem State.setUnit_regs (s : State) (e : Nat) (x : TUnit) : (s.setUnit e x).regs = s.regs := rfl
@[simp] theorem State.setUnit_shadow (s : State) (e : Nat) (x : TUnit) : (s.setUnit e x).shadow = s.shadow := rfl
@[simp] theorem State.setUnit_snap (s : State) (e : Nat) (x : TUnit) : (s.setUnit e x).snap = s.snap := rfl
@[simp] theorem State.setUnit_latch (s : State) (e : Nat) (x : TUnit) : (s.setUnit e x).latch = s.latch := rfl
@[simp] theorem State.setUnit_caught (s : State) (e : Nat) (x : TUnit) : (s.setUnit e x).caught = s.caught := rfl
@[simp] theorem State.setUnit_unmasked (s : State) (e : Nat) (x : TUnit) : (s.setUnit e x).unmasked = s.unmasked := rfl
@[simp] theorem State.setUnit_counted (s : State) (e : Nat) (x : TUnit) : (s.setUnit e x).counted = s.counted := rfl
@[simp] theorem State.setUnit_seqMark (s : State) (e : Nat) (x : TUnit) : (s.setUnit e x).seqMark = s.seqMark := rfl
@[simp] theorem State.setUnit_wbRegs (s : State) (e : Nat) (x : TUnit) : (s.setUnit e x).wbRegs = s.wbRegs := rfl
@[simp] theorem State.setUnit_wbSlots (s : State) (e : Nat) (x : TUnit) : (s.setUnit e x).wbSlots = s.wbSlots := rfl
@[simp] theorem State.setUnit_phase (s : State) (e : Nat) (x : TUnit) : (s.setUnit e x).phase = s.phase := rfl
@[simp] theorem State.setUnit_held (s : State) (e : Nat) (x : TUnit) : (s.setUnit e x).held = s.held := rfl
@[simp] theorem State.setUnit_trans (s : State) (e : Nat) (x : TUnit) : (s.setUnit e x).trans = s.trans := rfl
@[simp] theorem State.setUnit_tripped (s : State) (e : Nat) (x : TUnit) : (s.setUnit e x).tripped = s.tripped := rfl
@[simp] theorem State.setUnit_gated (s : State) (e : Nat) (x : TUnit) : (s.setUnit e x).gated = s.gated := rfl
@[simp] theorem State.setUnit_kstepTo (s : State) (e : Nat) (x : TUnit) : (s.setUnit e x).kstepTo = s.kstepTo := rfl
@[simp] theorem State.setUnit_resets (s : State) (e : Nat) (x : TUnit) : (s.setUnit e x).resets = s.resets := rfl
@[simp] theorem State.setUnit_draws (s : State) (e : Nat) (x : TUnit) : (s.setUnit e x).draws = s.draws := rfl
@[simp] theorem State.setUnit_drawNow (s : State) (e : Nat) (x : TUnit) : (s.setUnit e x).drawNow = s.drawNow := rfl
@[simp] theorem State.setUnit_tdieLim (s : State) (e : Nat) (x : TUnit) : (s.setUnit e x).tdieLim = s.tdieLim := rfl
@[simp] theorem State.setUnit_warned (s : State) (e : Nat) (x : TUnit) : (s.setUnit e x).warned = s.warned := rfl
@[simp] theorem State.setUnit_kc (s : State) (e : Nat) (x : TUnit) : (s.setUnit e x).kc = s.kc := rfl
@[simp] theorem State.setUnit_late (s : State) (e : Nat) (x : TUnit) : (s.setUnit e x).late = s.late := rfl
@[simp] theorem State.setUnit_hung (s : State) (e : Nat) (x : TUnit) : (s.setUnit e x).hung = s.hung := rfl
@[simp] theorem State.setUnit_setpLate (s : State) (e : Nat) (x : TUnit) : (s.setUnit e x).setpLate = s.setpLate := rfl
@[simp] theorem State.setUnit_gstep (s : State) (e : Nat) (x : TUnit) : (s.setUnit e x).gstep = s.gstep := rfl
@[simp] theorem State.setUnit_clusters (s : State) (e : Nat) (x : TUnit) : (s.setUnit e x).clusters = s.clusters := rfl
@[simp] theorem State.setUnit_preds (s : State) (e : Nat) (x : TUnit) : (s.setUnit e x).preds = s.preds := rfl
@[simp] theorem State.setUnit_loess (s : State) (e : Nat) (x : TUnit) : (s.setUnit e x).loess = s.loess := rfl
@[simp] theorem State.setUnit_poison (s : State) (e : Nat) (x : TUnit) : (s.setUnit e x).poison = s.poison := rfl
@[simp] theorem State.setUnit_sel (s : State) (e : Nat) (x : TUnit) : (s.setUnit e x).sel = s.sel := rfl
@[simp] theorem State.setUnit_wr (s : State) (e : Nat) (x : TUnit) : (s.setUnit e x).wr = s.wr := rfl
@[simp] theorem State.setUnit_pmes (s : State) (e : Nat) (x : TUnit) : (s.setUnit e x).pmes = s.pmes := rfl
@[simp] theorem State.setUnit_dies (s : State) (e : Nat) (x : TUnit) : (s.setUnit e x).dies = s.dies := rfl
@[simp] theorem State.setUnit_jobs (s : State) (e : Nat) (x : TUnit) : (s.setUnit e x).jobs = s.jobs := rfl
@[simp] theorem State.setUnit_jobOrd (s : State) (e : Nat) (x : TUnit) : (s.setUnit e x).jobOrd = s.jobOrd := rfl
@[simp] theorem State.setUnit_written (s : State) (e : Nat) (x : TUnit) : (s.setUnit e x).written = s.written := rfl
@[simp] theorem State.setUnit_notices (s : State) (e : Nat) (x : TUnit) : (s.setUnit e x).notices = s.notices := rfl
@[simp] theorem State.setUnit_noted (s : State) (e : Nat) (x : TUnit) : (s.setUnit e x).noted = s.noted := rfl
@[simp] theorem State.setUnit_wheel (s : State) (e : Nat) (x : TUnit) : (s.setUnit e x).wheel = s.wheel := rfl
@[simp] theorem State.setUnit_order (s : State) (e : Nat) (x : TUnit) : (s.setUnit e x).order = s.order := rfl
@[simp] theorem State.setUnit_starved (s : State) (e : Nat) (x : TUnit) : (s.setUnit e x).starved = s.starved := rfl
@[simp] theorem State.setUnit_ports (s : State) (e : Nat) (x : TUnit) : (s.setUnit e x).ports = s.ports := rfl
@[simp] theorem State.setUnit_cvn (s : State) (e : Nat) (x : TUnit) : (s.setUnit e x).cvn = s.cvn := rfl
@[simp] theorem State.setUnit_relays (s : State) (e : Nat) (x : TUnit) : (s.setUnit e x).relays = s.relays := rfl
@[simp] theorem State.setUnit_reds (s : State) (e : Nat) (x : TUnit) : (s.setUnit e x).reds = s.reds := rfl
@[simp] theorem State.setUnit_early (s : State) (e : Nat) (x : TUnit) : (s.setUnit e x).early = s.early := rfl
@[simp] theorem State.setUnit_tandem (s : State) (e : Nat) (x : TUnit) : (s.setUnit e x).tandem = sput idleUnit s.tandem e x := rfl
@[simp] theorem State.setUnit_teth (s : State) (e : Nat) (x : TUnit) : (s.setUnit e x).teth = s.teth := rfl
@[simp] theorem State.setUnit_rings (s : State) (e : Nat) (x : TUnit) : (s.setUnit e x).rings = s.rings := rfl
@[simp] theorem State.setUnit_events (s : State) (e : Nat) (x : TUnit) : (s.setUnit e x).events = s.events := rfl
@[simp] theorem State.setUnit_gap (s : State) (e : Nat) (x : TUnit) : (s.setUnit e x).gap = s.gap := rfl
@[simp] theorem State.setUnit_pause (s : State) (e : Nat) (x : TUnit) : (s.setUnit e x).pause = s.pause := rfl
@[simp] theorem State.setUnit_checks (s : State) (e : Nat) (x : TUnit) : (s.setUnit e x).checks = s.checks := rfl
@[simp] theorem State.setUnit_svc (s : State) (e : Nat) (x : TUnit) : (s.setUnit e x).svc = s.svc := rfl
@[simp] theorem State.setUnit_boot (s : State) (e : Nat) (x : TUnit) : (s.setUnit e x).boot = s.boot := rfl
@[simp] theorem State.setUnit_tap (s : State) (e : Nat) (x : TUnit) : (s.setUnit e x).tap = s.tap := rfl
@[simp] theorem State.setUnit_side (s : State) (e : Nat) (x : TUnit) : (s.setUnit e x).side = s.side := rfl
@[simp] theorem State.setUnit_out (s : State) (e : Nat) (x : TUnit) : (s.setUnit e x).out = s.out := rfl
@[simp] theorem State.setUnit_fresh (s : State) (e : Nat) (x : TUnit) : (s.setUnit e x).fresh = s.fresh := rfl
@[simp] theorem State.setUnit_saved (s : State) (e : Nat) (x : TUnit) : (s.setUnit e x).saved = s.saved := rfl

/-! putBytes -/

@[simp] theorem State.putBytes_pending (s : State) (a : Nat) (bs : List Byte) : (s.putBytes a bs).pending = s.pending := rfl
@[simp] theorem State.putBytes_grade (s : State) (a : Nat) (bs : List Byte) : (s.putBytes a bs).grade = s.grade := rfl
@[simp] theorem State.putBytes_regs (s : State) (a : Nat) (bs : List Byte) : (s.putBytes a bs).regs = s.regs := rfl
@[simp] theorem State.putBytes_shadow (s : State) (a : Nat) (bs : List Byte) : (s.putBytes a bs).shadow = s.shadow := rfl
@[simp] theorem State.putBytes_snap (s : State) (a : Nat) (bs : List Byte) : (s.putBytes a bs).snap = s.snap := rfl
@[simp] theorem State.putBytes_latch (s : State) (a : Nat) (bs : List Byte) : (s.putBytes a bs).latch = s.latch := rfl
@[simp] theorem State.putBytes_caught (s : State) (a : Nat) (bs : List Byte) : (s.putBytes a bs).caught = s.caught := rfl
@[simp] theorem State.putBytes_unmasked (s : State) (a : Nat) (bs : List Byte) : (s.putBytes a bs).unmasked = s.unmasked := rfl
@[simp] theorem State.putBytes_counted (s : State) (a : Nat) (bs : List Byte) : (s.putBytes a bs).counted = s.counted := rfl
@[simp] theorem State.putBytes_seqMark (s : State) (a : Nat) (bs : List Byte) : (s.putBytes a bs).seqMark = s.seqMark := rfl
@[simp] theorem State.putBytes_wbRegs (s : State) (a : Nat) (bs : List Byte) : (s.putBytes a bs).wbRegs = s.wbRegs := rfl
@[simp] theorem State.putBytes_wbSlots (s : State) (a : Nat) (bs : List Byte) : (s.putBytes a bs).wbSlots = s.wbSlots := rfl
@[simp] theorem State.putBytes_phase (s : State) (a : Nat) (bs : List Byte) : (s.putBytes a bs).phase = s.phase := rfl
@[simp] theorem State.putBytes_held (s : State) (a : Nat) (bs : List Byte) : (s.putBytes a bs).held = s.held := rfl
@[simp] theorem State.putBytes_trans (s : State) (a : Nat) (bs : List Byte) : (s.putBytes a bs).trans = s.trans := rfl
@[simp] theorem State.putBytes_tripped (s : State) (a : Nat) (bs : List Byte) : (s.putBytes a bs).tripped = s.tripped := rfl
@[simp] theorem State.putBytes_gated (s : State) (a : Nat) (bs : List Byte) : (s.putBytes a bs).gated = s.gated := rfl
@[simp] theorem State.putBytes_kstepTo (s : State) (a : Nat) (bs : List Byte) : (s.putBytes a bs).kstepTo = s.kstepTo := rfl
@[simp] theorem State.putBytes_resets (s : State) (a : Nat) (bs : List Byte) : (s.putBytes a bs).resets = s.resets := rfl
@[simp] theorem State.putBytes_draws (s : State) (a : Nat) (bs : List Byte) : (s.putBytes a bs).draws = s.draws := rfl
@[simp] theorem State.putBytes_drawNow (s : State) (a : Nat) (bs : List Byte) : (s.putBytes a bs).drawNow = s.drawNow := rfl
@[simp] theorem State.putBytes_tdieLim (s : State) (a : Nat) (bs : List Byte) : (s.putBytes a bs).tdieLim = s.tdieLim := rfl
@[simp] theorem State.putBytes_warned (s : State) (a : Nat) (bs : List Byte) : (s.putBytes a bs).warned = s.warned := rfl
@[simp] theorem State.putBytes_kc (s : State) (a : Nat) (bs : List Byte) : (s.putBytes a bs).kc = s.kc := rfl
@[simp] theorem State.putBytes_late (s : State) (a : Nat) (bs : List Byte) : (s.putBytes a bs).late = s.late := rfl
@[simp] theorem State.putBytes_hung (s : State) (a : Nat) (bs : List Byte) : (s.putBytes a bs).hung = s.hung := rfl
@[simp] theorem State.putBytes_setpLate (s : State) (a : Nat) (bs : List Byte) : (s.putBytes a bs).setpLate = s.setpLate := rfl
@[simp] theorem State.putBytes_gstep (s : State) (a : Nat) (bs : List Byte) : (s.putBytes a bs).gstep = s.gstep := rfl
@[simp] theorem State.putBytes_clusters (s : State) (a : Nat) (bs : List Byte) : (s.putBytes a bs).clusters = s.clusters := rfl
@[simp] theorem State.putBytes_preds (s : State) (a : Nat) (bs : List Byte) : (s.putBytes a bs).preds = s.preds := rfl
@[simp] theorem State.putBytes_loess (s : State) (a : Nat) (bs : List Byte) : (s.putBytes a bs).loess = sputs zeroByte s.loess a bs := rfl
@[simp] theorem State.putBytes_poison (s : State) (a : Nat) (bs : List Byte) : (s.putBytes a bs).poison = s.poison := rfl
@[simp] theorem State.putBytes_sel (s : State) (a : Nat) (bs : List Byte) : (s.putBytes a bs).sel = s.sel := rfl
@[simp] theorem State.putBytes_wr (s : State) (a : Nat) (bs : List Byte) : (s.putBytes a bs).wr = s.wr := rfl
@[simp] theorem State.putBytes_pmes (s : State) (a : Nat) (bs : List Byte) : (s.putBytes a bs).pmes = s.pmes := rfl
@[simp] theorem State.putBytes_dies (s : State) (a : Nat) (bs : List Byte) : (s.putBytes a bs).dies = s.dies := rfl
@[simp] theorem State.putBytes_jobs (s : State) (a : Nat) (bs : List Byte) : (s.putBytes a bs).jobs = s.jobs := rfl
@[simp] theorem State.putBytes_jobOrd (s : State) (a : Nat) (bs : List Byte) : (s.putBytes a bs).jobOrd = s.jobOrd := rfl
@[simp] theorem State.putBytes_written (s : State) (a : Nat) (bs : List Byte) : (s.putBytes a bs).written = s.written := rfl
@[simp] theorem State.putBytes_notices (s : State) (a : Nat) (bs : List Byte) : (s.putBytes a bs).notices = s.notices := rfl
@[simp] theorem State.putBytes_noted (s : State) (a : Nat) (bs : List Byte) : (s.putBytes a bs).noted = s.noted := rfl
@[simp] theorem State.putBytes_wheel (s : State) (a : Nat) (bs : List Byte) : (s.putBytes a bs).wheel = s.wheel := rfl
@[simp] theorem State.putBytes_order (s : State) (a : Nat) (bs : List Byte) : (s.putBytes a bs).order = s.order := rfl
@[simp] theorem State.putBytes_starved (s : State) (a : Nat) (bs : List Byte) : (s.putBytes a bs).starved = s.starved := rfl
@[simp] theorem State.putBytes_ports (s : State) (a : Nat) (bs : List Byte) : (s.putBytes a bs).ports = s.ports := rfl
@[simp] theorem State.putBytes_cvn (s : State) (a : Nat) (bs : List Byte) : (s.putBytes a bs).cvn = s.cvn := rfl
@[simp] theorem State.putBytes_relays (s : State) (a : Nat) (bs : List Byte) : (s.putBytes a bs).relays = s.relays := rfl
@[simp] theorem State.putBytes_reds (s : State) (a : Nat) (bs : List Byte) : (s.putBytes a bs).reds = s.reds := rfl
@[simp] theorem State.putBytes_early (s : State) (a : Nat) (bs : List Byte) : (s.putBytes a bs).early = s.early := rfl
@[simp] theorem State.putBytes_tandem (s : State) (a : Nat) (bs : List Byte) : (s.putBytes a bs).tandem = s.tandem := rfl
@[simp] theorem State.putBytes_teth (s : State) (a : Nat) (bs : List Byte) : (s.putBytes a bs).teth = s.teth := rfl
@[simp] theorem State.putBytes_rings (s : State) (a : Nat) (bs : List Byte) : (s.putBytes a bs).rings = s.rings := rfl
@[simp] theorem State.putBytes_events (s : State) (a : Nat) (bs : List Byte) : (s.putBytes a bs).events = s.events := rfl
@[simp] theorem State.putBytes_gap (s : State) (a : Nat) (bs : List Byte) : (s.putBytes a bs).gap = s.gap := rfl
@[simp] theorem State.putBytes_pause (s : State) (a : Nat) (bs : List Byte) : (s.putBytes a bs).pause = s.pause := rfl
@[simp] theorem State.putBytes_checks (s : State) (a : Nat) (bs : List Byte) : (s.putBytes a bs).checks = s.checks := rfl
@[simp] theorem State.putBytes_svc (s : State) (a : Nat) (bs : List Byte) : (s.putBytes a bs).svc = s.svc := rfl
@[simp] theorem State.putBytes_boot (s : State) (a : Nat) (bs : List Byte) : (s.putBytes a bs).boot = s.boot := rfl
@[simp] theorem State.putBytes_tap (s : State) (a : Nat) (bs : List Byte) : (s.putBytes a bs).tap = s.tap := rfl
@[simp] theorem State.putBytes_side (s : State) (a : Nat) (bs : List Byte) : (s.putBytes a bs).side = s.side := rfl
@[simp] theorem State.putBytes_out (s : State) (a : Nat) (bs : List Byte) : (s.putBytes a bs).out = s.out := rfl
@[simp] theorem State.putBytes_fresh (s : State) (a : Nat) (bs : List Byte) : (s.putBytes a bs).fresh = s.fresh := rfl
@[simp] theorem State.putBytes_saved (s : State) (a : Nat) (bs : List Byte) : (s.putBytes a bs).saved = s.saved := rfl

/-! draw -/

@[simp] theorem State.draw_pending (s : State) : s.draw.pending = s.pending := rfl
@[simp] theorem State.draw_grade (s : State) : s.draw.grade = s.grade := rfl
@[simp] theorem State.draw_regs (s : State) : s.draw.regs = s.regs := rfl
@[simp] theorem State.draw_shadow (s : State) : s.draw.shadow = s.shadow := rfl
@[simp] theorem State.draw_snap (s : State) : s.draw.snap = s.snap := rfl
@[simp] theorem State.draw_latch (s : State) : s.draw.latch = s.latch := rfl
@[simp] theorem State.draw_caught (s : State) : s.draw.caught = s.caught := rfl
@[simp] theorem State.draw_unmasked (s : State) : s.draw.unmasked = s.unmasked := rfl
@[simp] theorem State.draw_counted (s : State) : s.draw.counted = s.counted := rfl
@[simp] theorem State.draw_seqMark (s : State) : s.draw.seqMark = s.seqMark := rfl
@[simp] theorem State.draw_wbRegs (s : State) : s.draw.wbRegs = s.wbRegs := rfl
@[simp] theorem State.draw_wbSlots (s : State) : s.draw.wbSlots = s.wbSlots := rfl
@[simp] theorem State.draw_phase (s : State) : s.draw.phase = s.phase := rfl
@[simp] theorem State.draw_held (s : State) : s.draw.held = s.held := rfl
@[simp] theorem State.draw_trans (s : State) : s.draw.trans = s.trans := rfl
@[simp] theorem State.draw_tripped (s : State) : s.draw.tripped = s.tripped := rfl
@[simp] theorem State.draw_gated (s : State) : s.draw.gated = s.gated := rfl
@[simp] theorem State.draw_kstepTo (s : State) : s.draw.kstepTo = s.kstepTo := rfl
@[simp] theorem State.draw_resets (s : State) : s.draw.resets = s.resets := rfl
@[simp] theorem State.draw_draws (s : State) : s.draw.draws = s.draws := rfl
@[simp] theorem State.draw_drawNow (s : State) : s.draw.drawNow = s.drawNow := rfl
@[simp] theorem State.draw_tdieLim (s : State) : s.draw.tdieLim = s.tdieLim := rfl
@[simp] theorem State.draw_warned (s : State) : s.draw.warned = s.warned := rfl
@[simp] theorem State.draw_kc (s : State) : s.draw.kc = s.kc := rfl
@[simp] theorem State.draw_late (s : State) : s.draw.late = s.late := rfl
@[simp] theorem State.draw_hung (s : State) : s.draw.hung = s.hung := rfl
@[simp] theorem State.draw_setpLate (s : State) : s.draw.setpLate = s.setpLate := rfl
@[simp] theorem State.draw_gstep (s : State) : s.draw.gstep = s.gstep := rfl
@[simp] theorem State.draw_clusters (s : State) : s.draw.clusters = s.clusters := rfl
@[simp] theorem State.draw_preds (s : State) : s.draw.preds = s.preds := rfl
@[simp] theorem State.draw_loess (s : State) : s.draw.loess = s.loess := rfl
@[simp] theorem State.draw_poison (s : State) : s.draw.poison = s.poison := rfl
@[simp] theorem State.draw_sel (s : State) : s.draw.sel = s.sel := rfl
@[simp] theorem State.draw_wr (s : State) : s.draw.wr = s.wr := rfl
@[simp] theorem State.draw_pmes (s : State) : s.draw.pmes = s.pmes := rfl
@[simp] theorem State.draw_dies (s : State) : s.draw.dies = s.dies := rfl
@[simp] theorem State.draw_jobs (s : State) : s.draw.jobs = s.jobs := rfl
@[simp] theorem State.draw_jobOrd (s : State) : s.draw.jobOrd = s.jobOrd := rfl
@[simp] theorem State.draw_written (s : State) : s.draw.written = s.written := rfl
@[simp] theorem State.draw_notices (s : State) : s.draw.notices = s.notices := rfl
@[simp] theorem State.draw_noted (s : State) : s.draw.noted = s.noted := rfl
@[simp] theorem State.draw_wheel (s : State) : s.draw.wheel = s.wheel := rfl
@[simp] theorem State.draw_order (s : State) : s.draw.order = s.order := rfl
@[simp] theorem State.draw_starved (s : State) : s.draw.starved = s.starved := rfl
@[simp] theorem State.draw_ports (s : State) : s.draw.ports = s.ports := rfl
@[simp] theorem State.draw_cvn (s : State) : s.draw.cvn = s.cvn := rfl
@[simp] theorem State.draw_relays (s : State) : s.draw.relays = s.relays := rfl
@[simp] theorem State.draw_reds (s : State) : s.draw.reds = s.reds := rfl
@[simp] theorem State.draw_early (s : State) : s.draw.early = s.early := rfl
@[simp] theorem State.draw_tandem (s : State) : s.draw.tandem = s.tandem := rfl
@[simp] theorem State.draw_teth (s : State) : s.draw.teth = s.teth := rfl
@[simp] theorem State.draw_rings (s : State) : s.draw.rings = s.rings := rfl
@[simp] theorem State.draw_events (s : State) : s.draw.events = s.events := rfl
@[simp] theorem State.draw_gap (s : State) : s.draw.gap = s.gap := rfl
@[simp] theorem State.draw_pause (s : State) : s.draw.pause = s.pause := rfl
@[simp] theorem State.draw_checks (s : State) : s.draw.checks = s.checks := rfl
@[simp] theorem State.draw_svc (s : State) : s.draw.svc = s.svc := rfl
@[simp] theorem State.draw_boot (s : State) : s.draw.boot = s.boot := rfl
@[simp] theorem State.draw_tap (s : State) : s.draw.tap = s.tap := rfl
@[simp] theorem State.draw_side (s : State) : s.draw.side = s.side := rfl
@[simp] theorem State.draw_out (s : State) : s.draw.out = s.out := rfl
@[simp] theorem State.draw_fresh (s : State) : s.draw.fresh = s.fresh + 1 := rfl
@[simp] theorem State.draw_saved (s : State) : s.draw.saved = s.saved := rfl

/-! Reads after the updates -/

theorem State.setCl_cl (s : State) (n i : Nat) (c : Cluster) : (s.setCl n c).cl i = if i = n then c else s.cl i :=
  sget_sput _ _ _ _ _

@[simp] theorem State.setCl_cl_same (s : State) (n : Nat) (c : Cluster) : (s.setCl n c).cl n = c :=
  sget_sput_same _ _ _ _

theorem State.setDie_die (s : State) (k i : Nat) (d : Stack) : (s.setDie k d).die i = if i = k then d else s.die i :=
  sget_sput _ _ _ _ _

@[simp] theorem State.setDie_die_same (s : State) (k : Nat) (d : Stack) : (s.setDie k d).die k = d :=
  sget_sput_same _ _ _ _

theorem State.setPort_port (s : State) (p i : Nat) (x : Port) : (s.setPort p x).port i = if i = p then x else s.port i :=
  sget_sput _ _ _ _ _

@[simp] theorem State.setPort_port_same (s : State) (p : Nat) (x : Port) : (s.setPort p x).port p = x :=
  sget_sput_same _ _ _ _

theorem State.setRing_ring (s : State) (r i : Nat) (x : Ring) : (s.setRing r x).ring i = if i = r then x else s.ring i :=
  sget_sput _ _ _ _ _

@[simp] theorem State.setRing_ring_same (s : State) (r : Nat) (x : Ring) : (s.setRing r x).ring r = x :=
  sget_sput_same _ _ _ _

theorem State.setPme_pme (s : State) (p i : Nat) (x : Pme) : (s.setPme p x).pme i = if i = p then x else s.pme i :=
  sget_sput _ _ _ _ _

@[simp] theorem State.setPme_pme_same (s : State) (p : Nat) (x : Pme) : (s.setPme p x).pme p = x :=
  sget_sput_same _ _ _ _

theorem State.setUnit_unit (s : State) (e i : Nat) (x : TUnit) : (s.setUnit e x).unit i = if i = e then x else s.unit i :=
  sget_sput _ _ _ _ _

@[simp] theorem State.setUnit_unit_same (s : State) (e : Nat) (x : TUnit) : (s.setUnit e x).unit e = x :=
  sget_sput_same _ _ _ _

theorem State.setReg_reg (s : State) (a i : Nat) (v : Word) : (s.setReg a v).reg i = if i = a then v else s.reg i :=
  sget_sput _ _ _ _ _

@[simp] theorem State.setReg_reg_same (s : State) (a : Nat) (v : Word) : (s.setReg a v).reg a = v :=
  sget_sput_same _ _ _ _

theorem State.setReg_reg_other (s : State) {a i : Nat} (v : Word) (h : i ≠ a) : (s.setReg a v).reg i = s.reg i :=
  sget_sput_other _ _ _ _ h

theorem State.setRegN_reg (s : State) (a i v : Nat) :
    (s.setRegN a v).reg i = if i = a then BitVec.ofNat 32 v else s.reg i :=
  sget_sput _ _ _ _ _

theorem State.setFld_reg_other (s : State) {a i : Nat} (lo n v : Nat) (h : i ≠ a) : (s.setFld a lo n v).reg i = s.reg i :=
  sget_sput_other _ _ _ _ h

end Sys2Proof.Machine
end

