-- ==== Sys2Proof/Tests/Slice0.lean ====
section
/-! SUPPORT. The model's own tests: one ill-formed command for each check of WellFormed, and for every statement with
hypotheses states and operands that meet them, clause by clause at the ends of their ranges. -/

namespace Sys2Proof.Tests

set_option Elab.async false

open Sys2Proof Sys2Proof.Machine

/-! WellFormed -/

/-- A MOP of Q256 outer product, 8-bit class, full tile, that every check accepts. -/
def mopF : MopF :=
  { opk := 0, stream := false, cls := 0, tile := 0, grp := 0, gq := false, gs := 0, zpm := 0, mfa := false, mfw := false, wsrc := 0
    rows := 32, cols := 32, sa := 0, sb := 1, k := 64 }
def readF : ReadF := { tile := 0, fmt := 5, rnd := 0, satw := false, site := 0, desc := 2 }
def tloadF : TloadF := { tile := 0, fmt := 10, path := 3, desc := 2 }
def glzF : GlzF := { gfn := 0x10, ifmt := 5, ofmt := 5, sa := 0, desc := 1, len := 32, count := 1, idesc := 0, eps := 0 }
def setpF : SetpF := { pred := 3, cmp := 0, off := 64, imm := 0 }
def redF : RedF := { tile := 0, ring := 0, carry := 0, desc := 1 }
def spairF : SpairF := { descA := 0, descW := 1, rows := 32, cols := 32, mdescA := 2, mdescW := 3, mva := false, mvw := false }
def slotBytes : List Byte := List.replicate 512 0

theorem test_wf_accepts :
    (Instr.mop 0 mopF).wf = true ∧ (Instr.read 0 readF).wf = true ∧ (Instr.drain 0 readF).wf = true ∧ (Instr.tload 0 tloadF).wf = true ∧
    (Instr.glz 0 glzF).wf = true ∧ (Instr.setp 0 setpF).wf = true ∧ (Instr.red 0 redF).wf = true ∧ (Instr.spair 0 spairF).wf = true ∧
    (Instr.loop 0 .access 1 0).wf = true ∧ (Instr.gtload 0 0 1 512).wf = true ∧ (Instr.job 0 64).wf = true := by decide

theorem test_wf_accepts_bytes :
    (Instr.tetherFlit (List.replicate 272 0)).wf = true ∧ (Instr.waybillTake 0 (some (List.replicate 64 0)) [] none).wf = true := by
  constructor <;> simp only [Instr.wf, List.length_replicate, decide_true]

theorem test_wf_refuses_mop_fields :
    (Instr.mop 0 { mopF with opk := 7 }).wf = false ∧ (Instr.mop 0 { mopF with cls := 8 }).wf = false ∧
    (Instr.mop 0 { mopF with opk := 1, cls := 3 }).wf = false ∧ (Instr.mop 0 { mopF with opk := 1, gq := true }).wf = false ∧
    (Instr.mop 0 { mopF with cls := 4, stream := true, rows := 16, cols := 16 }).wf = false ∧
    (Instr.mop 0 { mopF with cls := 7, stream := true }).wf = false ∧
    (Instr.mop 0 { mopF with grp := 3 }).wf = false ∧ (Instr.mop 0 { mopF with gs := 3 }).wf = false ∧
    (Instr.mop 0 { mopF with zpm := 3 }).wf = false ∧ (Instr.mop 0 { mopF with wsrc := 3, stream := true }).wf = false ∧
    (Instr.mop 0 { mopF with wsrc := 1 }).wf = false := by decide

theorem test_wf_refuses_mop_sizes :
    (Instr.mop 0 { mopF with rows := 0 }).wf = false ∧ (Instr.mop 0 { mopF with rows := 33 }).wf = false ∧
    (Instr.mop 0 { mopF with cols := 0 }).wf = false ∧ (Instr.mop 0 { mopF with cols := 33 }).wf = false ∧
    (Instr.mop 0 { mopF with cls := 4, rows := 17, cols := 16 }).wf = false ∧ (Instr.mop 0 { mopF with k := 0 }).wf = false ∧
    (Instr.mop 0 { mopF with stream := true, wsrc := 1, k := 65 }).wf = false ∧
    (Instr.mop 0 { mopF with gq := true, cls := 2 }).wf = false ∧ (Instr.mop 0 { mopF with gq := true, k := 33 }).wf = false := by decide

theorem test_wf_refuses_fields :
    (Instr.read 0 { readF with fmt := 8 }).wf = false ∧ (Instr.drain 0 { readF with rnd := 3 }).wf = false ∧
    (Instr.tload 0 { tloadF with path := 0 }).wf = false ∧ (Instr.tload 0 { tloadF with fmt := 9 }).wf = false ∧
    (Instr.glz 0 { glzF with gfn := 0x14 }).wf = false ∧ (Instr.glz 0 { glzF with ifmt := 2 }).wf = false ∧
    (Instr.glz 0 { glzF with ofmt := 8 }).wf = false ∧ (Instr.glz 0 { glzF with gfn := 0, idesc := 1 }).wf = false ∧
    (Instr.glz 0 { glzF with gfn := 0x12 }).wf = false ∧ (Instr.glz 0 { glzF with eps := 1 }).wf = false ∧
    (Instr.setp 0 { setpF with off := 65 }).wf = false ∧ (Instr.red 0 { redF with carry := 3 }).wf = false ∧
    (Instr.spair 0 { spairF with rows := 0 }).wf = false ∧ (Instr.spair 0 { spairF with cols := 33 }).wf = false := by decide

theorem test_wf_refuses_operands :
    (Instr.loop 0 .access 0 0).wf = false ∧ (Instr.gtload 0 0 1 513).wf = false ∧ (Instr.job 0 65).wf = false ∧
    (Instr.caravanFrame 0 { corrected := 0, uncorrectable := 0 } { control := 0, slots := [] }).wf = false ∧
    (Instr.tetherFlit []).wf = false ∧ (Instr.hostLoessRead (2 ^ 43) 1 []).wf = false ∧ (Instr.hostLoessWrite (2 ^ 43) [0] []).wf = false ∧
    (Instr.waybillTake 0 (some []) [] none).wf = false := by decide

/-! States -/

/-- A module that runs: start-up is over, READY shows, the stacks are ready, the Tether is active. -/
def on : State :=
  let s : State := { State.reset with phase := 6 }
  let s1 := (List.range 8).foldl (fun s k => s.setFld (sa k 0) 0 3 2) s
  ((s1.setFld 0x200000 0 1 1).setFld 0x600000 0 2 1).setFld 0x200000 1 1 0

/-- That module with cluster 0 as given. -/
def withCl (c : Cluster) : State := { on with clusters := [(0, c)] }

/-- Without a memory ration (RTN_QUOTA 0). -/
def unrationed (s : State) : State := { s with regs := (0x1008, 0) :: s.regs }

/-- A running cluster whose plain task 1 runs both halves. -/
def cl : Cluster := { st := 2, slot0 := { st := 2, task := 1, accOn := true, execOn := true } }

/-- With waybill 0 of ring 0 taken, of opcode opc. -/
def wbOf (opc : Nat) (ps : List Nat) (clus : List Nat := []) : Wb :=
  { ix := 0, opc := opc, seq := 0, irq := false, fence := false, params := ps, clus := clus }
def withWb (s : State) (w : Wb) : State := { s with rings := [(0, { taken := [w] })] }

theorem test_on : on.ready = true ∧ on.stagesRun = true ∧ on.tth = 1 ∧ (List.range 8).all on.stackReady = true ∧ on.failed = false := by
  decide

/-! Itinerary instructions -/

theorem test_issues : (withCl cl).Issues 0 .access 0 ∧ (withCl cl).Issues 0 .execute 0 := by decide +kernel

/-- SequencingInstructionsIssue: a stream at rest and one that runs; the last and the first round of a loop. -/
theorem test_witness_sequencing :
    let c : Cluster := { cl with streams := [(3, { run := true })], acc := { loops := [(0, 1)] } }
    (withCl c).Issues 0 .access 0 ∧ (c.strm 0).run = false ∧ (c.strm 3).run = true ∧
    (Instr.loop 0 .access 1 0).wf = true ∧ (1#16).toNat ≤ sget zeroNat c.exec.loops 0 + 1 ∧
    sget zeroNat c.acc.loops 0 + 1 < (3#16).toNat ∧ (2#16).toNat ≤ sget zeroNat c.acc.loops 0 + 1 := by decide +kernel

/-- EndHalfIssues: the first END, the second of a plain task, the second of an unresolved speculative task. -/
theorem test_witness_end_half :
    let c : Cluster := { cl with slot0 := { cl.slot0 with accEnd := true } }
    let d : Cluster := { cl with slot0 := { cl.slot0 with accEnd := true, st := 3, mode := 2 } }
    (withCl cl).Issues 0 .access 0 ∧ ((cl.slot 0).endHalf .access).ended = false ∧
    (withCl c).Issues 0 .execute 0 ∧ ((c.slot 0).endHalf .execute).ended = true ∧ ((c.slot 0).endHalf .execute).st = 2 ∧
    (withCl d).Issues 0 .execute 0 ∧ ((d.slot 0).endHalf .execute).ended = true ∧ ((d.slot 0).endHalf .execute).st = 3 := by decide +kernel

/-- WeightBankInstructionsAndClearIssue: a bank at rest and one that loads; a busy tile, a discarded one, a free one. -/
theorem test_witness_weight_bank_and_clear :
    let c : Cluster := { cl with wload := some { desc := 0, pack := false } }
    let b : Tile := { ld := some { wide := true, desc := 1 } }
    let m : Cluster := { cl with mop := some { f := mopF } }
    (withCl cl).Issues 0 .execute 0 ∧ cl.wload = none ∧ (withCl c).Issues 0 .execute 0 ∧ c.wload.isSome = true ∧
    cl.tileWaits 0 0 = false ∧ ({ cl with tile0 := b } : Cluster).tileWaits 0 0 = true ∧ m.tileWaits 0 0 = true ∧
    ({ cl with tile0 := { discard := true } } : Cluster).tileWaits 0 0 = false ∧
    tileWaits cl.tile0 0 = false ∧ cl.tile0.discard = false ∧ tileWaits { discard := true } 0 = false ∧ tileWaits b 0 = true ∧
    tileWaits { spec := some 1 } 0 = true := by decide +kernel

/-- ReadsAndDrainsIssue: a discarded tile, one in range, one with an element that resolution finds out of range. -/
theorem test_witness_reads_and_drains :
    let big : Tile := { path := 1, rows := [(0, [.num (2 ^ 200)])] }
    (withCl cl).Issues 0 .execute 0 ∧ readF.ok = true ∧ cl.tileWaits 0 0 = false ∧ outOfRange cl.tile0 = [] ∧
    ({ cl with tile0 := big } : Cluster).tileWaits 0 0 = false ∧ outOfRange big = (0, 0) :: [] ∧ tileWaits big 0 = false ∧ big.discard = false ∧ tileWaits { discard := true } 0 = false := by decide +kernel

/-- A token of the set that starts at K position 0. -/
def tok : Tok := { run := 0, k := 0, row := 0, codes := [], bank := false, was := true }

/-- TileLoadsAndArrayInstructionsIssue: a free tile, one with the instruction's path, one with another. -/
theorem test_witness_tile_loads_and_array_instructions :
    (withCl cl).Issues 0 .execute 0 ∧ tloadF.ok = true ∧ cl.tileWaits 0 0 = false ∧ cl.pathDue 0 = 0 ∧ cl.waving = false ∧
    ({ cl with tile0 := { path := 6 } } : Cluster).pathDue 0 = 6 ∧ ({ cl with wave := [some tok] } : Cluster).waving = true ∧ cl.tile0.discard = false ∧ cl.tile0.path = 0 ∧
    ({ tloadF with fmt := 9, path := 5 } : TloadF).ok = true ∧ ({ path := 3 } : Tile).path ≠ 0 ∧
    ({ path := 3 } : Tile).path ≠ ({ tloadF with fmt := 9, path := 5 } : TloadF).path.toNat ∧ (cl.slot 0).holds = false ∧
    mopF.ok = true ∧ ({ mopF with opk := 6 } : MopF).ok = true ∧ ({ path := 6 } : Tile).path ≠ mopPath mopF ∧
    tileWaits cl.tile1 0 = false ∧ cl.tile1.path = 0 := by decide +kernel

/-- The same in an unresolved speculative task: a full value tile or index tile that it has not written, one that it has. -/
theorem test_witness_speculative_tiles :
    let k : TSlot := { cl.slot0 with st := 3, mode := 2 }
    let c (t : Tile) : Cluster := { cl with slot0 := k, tile0 := t }
    let i : Cluster := { cl with slot0 := k, tile1 := { path := 5 } }
    (k.holds = true) ∧ (withCl (c { path := 1 })).Issues 0 .execute 0 ∧ tileWaits ({ path := 1 } : Tile) 0 = false ∧
    ({ path := 1 } : Tile).spec ≠ some 0 ∧ ({ path := 1, spec := some 0 } : Tile).spec = some 0 ∧
    tileWaits ({ path := 1, spec := some 0 } : Tile) 0 = false ∧ i.tile0.path = 0 ∧ tileWaits i.tile1 0 = false ∧ i.tile1.spec ≠ some 0 ∧
    5 ≤ ({ mopF with opk := 6 } : MopF).opk.toNat := by decide +kernel

/-- GlazeInstructionsIssue: a total of no elements; a free bank, a busy one, one that an instruction is bound to. -/
theorem test_witness_glaze_instructions :
    let c : Cluster := { cl with gload := some { addr := 0, epoch := 2 } }
    let r : BitVec 40 := 512
    let s : State := (withCl cl).setRegN (ca 0 0x808) (7 + 4096)
    (withCl cl).Issues 0 .execute 0 ∧ glzF.ok = true ∧ glzRefuse (cl.gbank cl.gactive) glzF = 0 ∧
    glzRefuse { fmt := 2 } { glzF with ifmt := 3 } ≠ 0 ∧ glzTotal glzF ≠ 0 ∧ (s.setRegN (ca 0 0x80C) 1).Issues 0 .execute 0 ∧
    checkRange ((s.setRegN (ca 0 0x80C) 1).region 0 1) 0x200000 8320 false false = none ∧
    checkRange ((s.setRegN (ca 0 0x80C) 1).region 0 1) 0 8320 false false = some (1, 0) ∧ glzTotal { glzF with count := 0 } = 0 ∧
    ({ glzF with count := 0 } : GlzF).ok = true ∧ r.toNat % 512 = 0 ∧ cl.gbusy = false ∧ c.gbusy = true ∧
    cl.old (1 - cl.gactive) = false ∧ (unrationed (withCl cl)).quotaFull 0 = false ∧ (withCl cl).cvn.straggling = false ∧
    ({ withCl cl with cvn := { straggling := true } } : State).Issues 0 .execute 0 := by decide +kernel

/-- PredicatesAreSetAndStreamsStart: the first write of a predicate, a second and a third; streams at rest and one that runs. -/
theorem test_witness_predicates_and_streams :
    let s : State := { withCl cl with preds := [(3, 3)] }
    let c : Cluster := { cl with streams := [(1, { run := true })] }
    setpF.off.toNat % 4 = 0 ∧ (withCl cl).Issues 0 .execute 0 ∧ sget zeroNat (withCl cl).preds 3 = 0 ∧ s.Issues 0 .execute 0 ∧
    sget zeroNat s.preds 3 = 3 ∧ sget zeroNat ({ s with preds := [(3, 7)] } : State).preds 3 = 7 ∧
    (withCl c).Issues 0 .access 0 ∧ (c.strm 1).run = true ∧ (c.strm 2).run = false ∧
    (Instr.spair 0 spairF).wf = true ∧ (SpairF.descs spairF).any (fun d => (c.strm d).run) = true ∧
    (SpairF.descs spairF).any (fun d => (cl.strm d).run) = false := by decide +kernel

/-- A section of two tasks in staging: entry 0 plain, entry 1 speculative, then a cluster that has walked none of them. -/
def fresh : Cluster := { st := 2, sec := { ntask := 2, iters := 1 } }

/-- TasksIssueAndStart: free slots with entries to walk; a task whose halves have not begun; a gated one. -/
theorem test_witness_tasks :
    let c : Cluster := { st := 2, slot0 := { st := 2, task := 1 } }
    let g : Cluster := { st := 2, slot0 := { st := 1, mode := 1, task := 1 } }
    fresh.freeSlotNo = some 0 ∧ fresh.st = 2 ∧ (withCl fresh).clOn 0 = true ∧ fresh.pausing = false ∧ fresh.walked = false ∧
    (withCl fresh).cvn.straggling = false ∧ fresh.base + (fresh.taskE fresh.next).stage ≤ (withCl fresh).stageNo ∧
    (fresh.taskE 0).mode ≠ 2 ∧ (withCl fresh).specWaits = false ∧
    c.nextHalf .access = some 0 ∧ (withCl c).clOn 0 = true ∧ (c.slot 0).halfOn .access = false ∧ (c.slot 0).halted = false ∧
    g.nextHalf .execute = some 0 ∧ (g.slot 0).st = 1 := by decide +kernel

/-- GatedTasksMeetTheirPredicate: a gated task that waits. -/
theorem test_witness_gated_tasks :
    let g : Cluster := { st := 2, slot0 := { st := 1, mode := 1, task := 1 } }
    (g.slot 0).st = 1 ∧ (g.slot 0).mode = 1 ∧ true ≠ (g.slot 0).sense ∧ false = (g.slot 0).sense ∧ g.nextHalf .access = some 0 ∧
    (withCl g).clOn 0 = true ∧ (g.slot 0).halfOn .access = false := by decide +kernel

/-! Units of a cluster -/

/-- ArrayUnitsStep: a working cluster, and an outer-product step with its elements queued. -/
theorem test_witness_array_steps :
    let ones : List Nat := List.replicate 32 0x38
    let c : Cluster := { cl with
      mop := some { f := { mopF with cls := 1, k := 1 } }
      streams := [(0, { run := true }), (1, { run := true })]
      loadQ := [{ desc := 0, stage := 0, elems := ones }, { desc := 1, stage := 0, elems := ones }] }
    (withCl c).Steps 0 c.mopOwner ∧ (outerStep c).isSome = true := by decide +kernel

/-- What a stream of 8-bit codes has queued. -/
def queued (d n : Nat) : LoadEntry := { desc := d, stage := 0, elems := List.replicate n 0x38 }

/-- OuterProductStepAdvances: the last step of an instruction and one before it. -/
theorem test_witness_outer_products :
    let c (k : Nat) : Cluster := { cl with
      mop := some { f := { mopF with cls := 1, k := BitVec.ofNat 24 k } }, loadQ := [queued 0 32, queued 1 32] }
    let s : State := withCl (c 2)
    s.Steps 0 (c 2).mopOwner ∧ (c 2).canPop [(0, 32), (1, 32)] = true ∧ mopPair { mopF with cls := 1 } = false ∧ 0 + 1 < (2#24).toNat ∧
    0 + 1 = (1#24).toNat ∧ ({ mopF with cls := 1 } : MopF).stream = false ∧ (c 2).wave = [] ∧ (c 2).tile0.count + 1 < 2 ^ 39 := by
  decide +kernel

/-- StreamTokensMove: a first token whose set is loaded and one whose set is not, a later one, one without its elements; a manifest
lane with an escape. -/
theorem test_witness_stream_tokens :
    let f : MopF := { mopF with cls := 1, stream := true }
    let m (etok hold loaded : Nat) : MopRun := { f := f, etok, hold, loaded }
    let c (x : MopRun) (n : Nat) : Cluster := { cl with mop := some x, loadQ := [queued 0 n] }
    let l : Cluster := { cl with mop := some { m 0 0 1 with lane := [{ k := 1, terms := [(0, 1, 3)] }] } }
    (withCl (c (m 0 0 1) 32)).Steps 0 (c (m 0 0 1) 32).mopOwner ∧ min (mopCover f) 64 = 32 ∧ waveBlocked (c (m 0 0 1) 32) = false ∧
    (c (m 0 0 1) 32).canPop [(0, 32)] = true ∧ (c (m 0 0 1) 31).canPop [(0, 32)] = false ∧
    setReady (c (m 0 0 1) 32) (m 0 0 1) = true ∧ setReady (c (m 0 0 0) 32) (m 0 0 0) = false ∧ (m 1 2 0).etok ≠ 0 ∧ 1 < (m 0 2 1).hold ∧
    (withCl l).Steps 0 l.mopOwner ∧ ((laneAccept l).map (fun x => x.1.mop.isSome)) = some true := by decide +kernel

/-- WeightRowsLoadAndTilesDrain: a weight row whose elements are queued, no token before it, a token that uses another bank, one of
the set that stood in the bank before and one of the set being loaded; a tile whose read stands before its last row, at it; a converter with room and a full one. -/
theorem test_witness_weight_rows_and_drains :
    let c : Cluster := { cl with
      wload := some { desc := 2, pack := false, row := 1, bank := true }, streams := [(2, { run := true })], loadQ := [queued 2 32] }
    let w : Cluster := { c with wave := [some tok] }
    let r : ReadOut := { drain := true, fmt := 5, rnd := 0, satw := false, site := 0, desc := 2 }
    let d (n : Nat) : Cluster := { cl with tile0 := { path := 1, out := some { r with next := n } } }
    let e : StoreEntry := { desc := 4, first := 0, elems := [0] }
    (withCl c).Steps 0 c.loadOwner ∧ c.canPop [(2, 32)] = true ∧ rowFree c true 1 = true ∧ rowFree w true 1 = true ∧
    rowFree { w with active := true } false 1 = false ∧ rowFree w false 1 = true ∧ (c.popFor 2 32 (bankBit true)).isSome = true ∧
    (withCl (d 0)).Steps 0 ((d 0).owner 0 0) ∧ (withCl (d 0)).tmode = 0 ∧ (d 0).tchk = none ∧ outInt32 (d 0).tile0 r = 0 ∧
    30 + 1 < tileSide (d 30).tile0.path ∧ tileSide (d 31).tile0.path ≤ 31 + 1 ∧ convRoom (d 0) = true ∧
    convRoom { d 0 with storeQ := List.replicate 64 e } = false := by decide +kernel

/-- A descriptor's 64 bytes: base, count, stride 1, and a control word. -/
def descBytes (n ctl : Nat) : List Byte :=
  leBytes 8 0x200000 ++ leBytes 4 1 ++ leBytes 12 0 ++ leBytes 4 n ++ leBytes 4 1 ++ leBytes 4 1 ++ leBytes 4 1 ++ leBytes 4 ctl ++
    [0x11, 0, 0, 0] ++ leBytes 16 0

/-- TrailQueuesMove: a stream that does not run, an empty queue, entries that wait, a full queue. -/
theorem test_witness_trail_queues :
    let e : StoreEntry := { desc := 4, first := 0, elems := [0] }
    let c : Cluster := { cl with streams := [(4, { run := true })], storeQ := [e], coded := [e] }
    (withCl cl).Steps 0 (cl.strmOwner 4) ∧ loadPush cl 4 ((withCl cl).env 0) = none ∧ (withCl cl).Steps 0 none ∧ storePop cl = none ∧
    (storePop c).isSome = true ∧ c.storeQ.length < 64 ∧ c.coded ≠ [] ∧ (List.replicate 64 e).length = 64 ∧ e.side = [] ∧
    (c.strm 4).slot = none ∧ (c.strm 4).halted = false := by decide +kernel

/-- A load stream with its granule landed; a row of codes at the store converter. -/
theorem test_witness_conversions :
    let l : Cluster := (({ cl with
      streams := [(4, { run := true })], tags := [(0, { st := 3, gran := 0x200000, desc := 4, upto := 8 })] } : Cluster).setStg
      (0xF000 + 64 * 4) (descBytes 8 0)).setStg 0x6000 [1, 2, 3, 4, 5, 6, 7, 8]
    let r : ConvRow := { desc := 4, src := .bin32, round := false, elems := [(.ofRat 1, 0x3F800000)] }
    let c : Cluster := { cl with conv := [r] }
    (withCl l).Steps 0 (l.strmOwner 4) ∧ (l.desc 4).kind = 0 ∧ (l.desc 4).quant = false ∧ (l.desc 4).dequant = false ∧
    elemCodes l 4 (l.desc 4) 0 (min (min 32 (1024 / (l.desc 4).dstFmt.bits)) ((l.desc 4).total - 0)) ≠ [] ∧ l.tile0.ld = none ∧
    (loadPush l 4 ((withCl l).env 0)).isSome = true ∧
    (withCl c).Steps 0 (c.conv.head?.bind (fun x => x.slot.bind (fun o => c.owner o x.task))) ∧ (c.desc 4).quant = false ∧ r.round = false ∧
    r.src ≠ .wide ∧ r.elems.length ≤ min 32 (1024 / (c.desc 4).dstFmt.bits) ∧ (storePush c ((withCl c).env 0)).isSome = true := by
  decide +kernel

/-- GlazeUnitsWork: a vector that enters in full rate, one that waits for its slots and one that has them, one that waits for its
elements; a load that waits, one that ends; the first vector meets a bank that refuses it. -/
theorem test_witness_glaze_units :
    let run : GlzRun := { f := { glzF with gfn := 0, count := 32 } }
    let c : Cluster := { cl with glz := some run, loadQ := [queued 0 32] }
    let g : Cluster := { c with glz0 := { state := 2, fmt := 2 }, gslots := 3 }
    let w : Cluster := { cl with gwait := some { addr := 512, epoch := 2 } }
    let l : Cluster := { cl with gload := some { addr := 512, epoch := 2 } }
    (withCl c).Steps 0 (c.owner 0 0) ∧ (withCl c).glzShared 0 = false ∧ c.canPop [(0, 32)] = true ∧ convRoom c = true ∧
    (withCl g).glzShared 0 = true ∧ g.gslots < glzSlots run ∧ glzSlots run ≤ ({ g with gslots := 4 } : Cluster).gslots ∧
    ({ c with loadQ := [queued 0 31] } : Cluster).canPop [(0, 32)] = false ∧ glzRefuse (g.gbank g.gactive) run.f = 0 ∧
    glzRefuse { fmt := 2 } { glzF with gfn := 0, ifmt := 3 } ≠ 0 ∧
    w.gload = none ∧ w.old (1 - w.gactive) = false ∧ l.gload.isSome = true ∧ (withCl l).loadReady 0 { addr := 512, epoch := 2 } = true ∧
    (withCl l).poisoned 512 8320 = false ∧ ({ withCl l with poison := [(8, true)] } : State).poisoned 512 8320 = true := by decide +kernel

/-- GranulesIssueAndLand: bytes that wait for their granule, in a region and outside it; tags that land. -/
theorem test_witness_granules :
    let t : Strm := { run := true, wbuf := [{ addr := 0x200000, mask := 3, val := 1 }] }
    let c : Cluster := { cl with
      streams := [(4, t)]
      tags := [(0, { st := 2 }), (1, { st := 2, drop := true }), (2, { st := 2, poison := true }), (3, { st := 2, write := true })] }
    let s1 : State := ((withCl c).setRegN (ca 0 0x800) (7 + 4096)).setRegN (ca 0 0x804) 1
    let s : State := { s1 with regs := (0x1008, 0) :: s1.regs }
    s.works 0 = true ∧ s.cvn.straggling = false ∧ s.quotaFull 0 = false ∧ s.relayOf 1 = none ∧ c.tagToUse = some (4, c) ∧
    (s.region 0 0).check 0x200000 true false = 0 ∧ (s.region 0 0).check 0x400000 true false = 1 ∧
    (s.region 0 0).check 0x200000 false false = 0 ∧ (c.strmSpec 4) = false ∧ (c.strm 4).halted = false := by decide +kernel

/-- A load stream's next granule is missing, and no store and no run-ahead granule covers it. -/
theorem test_witness_load_granule :
    let stg : List Byte := leBytes 8 0x200000 ++ leBytes 4 1 ++ leBytes 12 0 ++ leBytes 4 8 ++ leBytes 4 1 ++ leBytes 4 1 ++ leBytes 4 1 ++
      leBytes 4 0 ++ [0x11, 0, 0, 0]
    let c0 : Cluster := ({ cl with streams := [(4, { run := true })] } : Cluster).setStg (0xF000 + 64 * 4) stg
    (c0.desc 4).space = false ∧ (c0.desc 4).kind ≠ 1 ∧ (c0.desc 4).total = 8 ∧
    firstMissing c0 4 (c0.desc 4) (c0.strm 4) 8 16400 0 = (0, some 0x200000) ∧ c0.aheadFor 0 0x200000 = none := by decide +kernel

/-- HazardNoticesArriveAndWindowsAreZeroed: a notice under way; a squashed task. -/
theorem test_witness_notices_and_squashes :
    let n : Notice := { cl := 0, page := 1, who := { kind := 1 }, stage := 0 }
    let c : Cluster := { cl with slot1 := { st := 6, mode := 2, wbase := 4, wsize := 2 } }
    ({ withCl cl with notices := [n] } : State).notices.find? (fun x => decide (x.cl = 0)) = some n ∧ (c.slot 1).st = 6 ∧
    cl.watches = [] := by decide +kernel

/-- What the statements about the units of a cluster ask beside: room in the manifest lane, no grouped instruction in the array; a
weight set's first row; a store converter with a row ready, without room. -/
theorem test_witness_units_of_a_cluster :
    let f : MopF := { mopF with cls := 1, stream := true }
    let c : Cluster := { cl with mop := some { f := f }, loadQ := [queued 0 32] }
    let w : WLoad := { desc := 2, pack := false }
    let l : Cluster := { cl with wload := some w, streams := [(2, { run := true })], loadQ := [queued 2 32] }
    let e : StoreEntry := { desc := 4, first := 0, elems := [0] }
    let r : ConvRow := { desc := 4, src := .bin32, round := false, elems := [(.ofRat 1, 0x3F800000)] }
    let v : Cluster := ({ cl with conv := [r] } : Cluster).setStg (0xF000 + 64 * 4) (descBytes 8 0)
    let g : Cluster := { cl with glz := some { f := { glzF with gfn := 0 } }, storeQ := List.replicate 64 e }
    laneRoom c = true ∧ c.runs.all (fun x => !x.f.gq) = true ∧ waveBlocked c = false ∧ f.gq = false ∧ (0 : Nat) < 64 ∧
    (withCl l).Steps 0 l.loadOwner ∧ w.row = 0 ∧ w.mop = false ∧ w.next l = (32, false) ∧ rowFree l (!l.active) 0 = true ∧
    l.canPop [(2, 32)] = true ∧ (l.popFor 2 32 (bankBit true)).isSome = true ∧
    convNext v = some r ∧ v.coded = [] ∧ (v.desc 4).quantOf r.src = false ∧ r.elems ≠ [] ∧ convNext cl = none ∧ cl.coded = [] ∧
    (withCl v).Steps 0 ((convNext v).bind (fun x => x.slot.bind (fun o => v.owner o x.task))) ∧
    (withCl g).Steps 0 (g.owner 0 0) ∧ convRoom g = false ∧ (0 : BitVec 8).toNat < 0x10 := by decide +kernel

/-- A glaze table load of a waybill that waits for its bank and one of an itinerary within its ration; an image that checks, and none. -/
theorem test_witness_glaze_loads :
    let wb : GLoad := { addr := 0, epoch := 1, wb := some (0, 0, []) }
    let w : Cluster := { cl with gwait := some { wb with wb := none } }
    let head : List Byte := [0x47, 0x4C, 0x5A, 0x4E, 1, 0] ++ List.replicate 10 0
    let bs : List Byte := head ++ leBytes 4 (crc32c 0 (List.replicate 8288 0)).toNat ++ List.replicate 8300 0
    ({ cl with gwait := some wb } : Cluster).gwait = some wb ∧ wb.wb.isSome = true ∧ (withCl w).clOn 0 = true ∧ w.gload = none ∧
    w.old (1 - w.gactive) = false ∧ (unrationed (withCl w)).quotaFull 0 = false ∧ (withCl w).cvn.straggling = false ∧
    bs.length = 8320 ∧ imageCheck (fun i => bs.getD i 0) (crc32c 0 (bs.drop 32)).toNat = 1 ∧ imageCheck (fun _ => 0) 0 = 0 := by
  decide +kernel

/-- A store stream's granule with a free tag; a load stream's with no old landing slot; notices that concern a watch: a job's, a copy
stream's with RESTART before and after it has started again in the stage, another stream's. -/
theorem test_witness_granules_and_notices :
    let copy (st : Strm) : Cluster := ({ cl with streams := [(4, st)] } : Cluster).setStg (0xF000 + 64 * 4)
      ((descBytes 8 0).take 44 ++ [0x11, 8, 0, 0xC0] ++ leBytes 16 0)
    let w (n : Nat) : Watch := { desc := n, region := 0, page := 1, pages := 1 }
    let n : Notice := { cl := 0, page := 1, who := { kind := 1 }, stage := 0 }
    let s (c : Cluster) : State := { withCl c with notices := [n] }
    let hit (c : Cluster) : List Watch := (s c).cl 0 |>.watches.filter (fun w =>
      w.has n.page && decide (w.since ≤ n.stage) && (!w.off || decide (n.stage < (s c).stageNo)))
    cl.oldTag 4 0x200000 = none ∧ cl.aheadFor 0 0x200000 = none ∧ (cl.strm 4).restarted = none ∧
    hit { cl with watches := [w 64] } = [w 64] ∧ 64 ≤ (w 64).desc ∧ hit { cl with watches := [w 4] } = [w 4] ∧ hit cl = [] ∧
    ((copy {}).desc 4).kind = 3 ∧ ((copy {}).desc 4).restart = true ∧ ((copy {}).strm 4).restarted ≠ some n.stage ∧
    ((copy { restarted := some 0 }).strm 4).restarted = some n.stage ∧ (cl.desc 4).kind ≠ 3 := by decide +kernel

/-! Loess memory, bedrock dies, jobs, slots, reductions -/

def fillJob : Job := { src := .cluster 0, d := { jobOf [] with dst := 0x200000, nx := 1 }, ord := 0 }

/-- JobsIssueRunAndComplete: no job, two jobs; a job not run, one done, one stopped by poison, a waybill's. -/
theorem test_witness_jobs :
    let s (l : List Job) : State := { withCl cl with jobs := l }
    let w : Job := { fillJob with src := .waybill 0 0, done := true, cause := 4 }
    (s []).Issues 0 .access 0 ∧ (64#17).toNat % 64 = 0 ∧ ((s []).jobsOf (.cluster 0)).length < 2 ∧ (unrationed (s [])).quotaFull 0 = false ∧
    (s []).cvn.straggling = false ∧ (s [fillJob]).jobReady fillJob = true ∧
    ((s [fillJob]).claim fillJob.req [(0x200000, 512)]).jobReady fillJob = false ∧
    2 ≤ ((s [fillJob, { fillJob with ord := 1 }]).jobsOf (.cluster 0)).length ∧
    (s [fillJob]).jobsOf (.cluster 0) = [fillJob] ∧ fillJob.done = false ∧ cl.watches = [] ∧
    (s [w]).jobsOf (.waybill 0 0) = [w] ∧ w.cause = 4 ∧ (withWb (s [w]) (wbOf 0x300 [])).wb 0 0 = some (wbOf 0x300 []) := by decide +kernel

/-- A job that fails its check and one that passes. -/
theorem test_witness_job_checks :
    let s : State := ((withCl cl).setRegN (ca 0 0x800) (7 + 4096)).setRegN (ca 0 0x804) 1
    let d (dst : Nat) : List Byte := leBytes 8 0 ++ leBytes 8 dst ++ leBytes 8 0 ++ leBytes 4 1 ++ leBytes 16 0 ++ [3#8] ++ leBytes 19 0
    s.jobCheck 0 (d 0x200000) (jobOf (d 0x200000)) false 0 = none ∧
    s.jobCheck 0 (d 0x400000) (jobOf (d 0x400000)) false 0 = some (1, 0, 0x400000) := by decide +kernel

/-- LoessAccessesActOnTheCurrentCopy: an accepted read and an accepted write that may be performed now; a poisoned codeword. -/
theorem test_witness_loess_accesses :
    let r : Req := { cl := 0, tag := 1, write := false, addr := 512 }
    let w : Req := { cl := 0, tag := 2, write := true, addr := 1024, bytes := [{ addr := 1024, mask := 3, val := 7 }] }
    let s : State := { withCl cl with dies := [(1, { accepted := [r, w] })], poison := [(64, true)] }
    (s.die 1).accepted[0]? = some r ∧ r.write = false ∧ (s.die 1).performs 0 (s.place 512).2 r = true ∧ s.domainOn 145 = true ∧
    (s.die 1).accepted[1]? = some w ∧ w.write = true ∧ (s.die 1).performs 1 (s.place 1024).2 w = true ∧ s.memOk ∧
    sget zeroBool s.poison 64 = true ∧ sget zeroBool s.poison 63 = false ∧ r.src = .drover ∧ r.found = [] ∧
    ({ r with src := .host 0 5 } : Req).src = .host 0 5 := by decide +kernel

/-- StacksKeepTheirUpkeep: a row to throttle at 256 further activations and none before; stacks that enter and leave HOLD; one that
restarts with a new image. -/
theorem test_witness_stack_upkeep :
    let m (k : Nat) : Mit := { chan := 2, row := 5, due := 0, further := k }
    let hit (m : Mit) : Bool := decide (m.row = 5) && decide (m.chan = 2) && decide (256 ≤ m.further) && !m.throttled
    let st (k : Nat) : State := on.setFld (sa 0 0) 0 3 k
    let r : State := { st 6 with dies := [(0, { fwNew := some {} })] }
    [m 256].any hit = true ∧ [m 255].any hit = false ∧ (st 3).stackState 0 = 3 ∧ ((st 3).die 0).accepted = [] ∧ (st 5).stackState 0 = 5 ∧
    (st 3).stackOwes 0 = false ∧ ({ st 3 with jobs := [{ fillJob with d := { fillJob.d with op := 3 } }] } : State).stackOwes 0 = true ∧
    on.stackState 0 ≠ 3 ∧ on.stackState 0 ≠ 5 ∧ (r.die 0).fwNew = some {} ∧ r.stackState 0 = 6 ∧ r.bedrockWb 0 = none ∧
    ({ withWb r { wbOf 0x900 [0, 0, 0, 1] with phase := 2 } with dies := r.dies } : State).bedrockWb 0 =
      some (0, { wbOf 0x900 [0, 0, 0, 1] with phase := 2 }) := by decide +kernel

/-- SlotsAreGranted: the last slot of a stage and none left; an instance that the wheel has not. -/
theorem test_witness_slot_grants :
    let w (n : Nat) : State := { on with wheel := [(wheelKey .glaze 0, n)] }
    wheelUnits .memory ≤ 8 ∧ 7 < wheelUnits .memory ∧ on.stagesRun = true ∧
    sget zeroNat (w 8191).wheel (wheelKey .glaze 0) < slotsIn .glaze (w 8191).clkStep ∧
    slotsIn .glaze (w 8192).clkStep ≤ sget zeroNat (w 8192).wheel (wheelKey .glaze 0) := by decide +kernel

/-- A glaze wheel whose first slot is FG's, and a glaze instruction that waits for slots. -/
theorem test_witness_glaze_slot :
    let r : GlzRun := { f := { glzF with gfn := 0, count := 32 }, task := 1 }
    let c : Cluster := { cl with glz := some r, loadQ := [queued 0 32], glz0 := { state := 2, fmt := 2 } }
    let s : State := { withCl c with regs := (0x1800, 0) :: (withCl c).regs }
    s.stagesRun = true ∧ s.slotOwner .glaze 0 = 0 ∧ s.glzShared 0 = true ∧ c.gslots < glzSlots r ∧ (vectorEntry c).isSome = true ∧
    s.works 0 = true ∧ c.owner 0 1 = some 0 ∧ (c.slot 0).holds = false := by decide +kernel

/-- SlotsAreGranted: a memory wheel whose first slot is FG's, with a plain task's read that waits, and its cluster within its
ration. -/
theorem test_witness_memory_slot :
    let r : Req := { cl := 0, tag := 1, write := false, addr := 512 }
    let s0 : State := { withCl cl with dies := [(1, { waiting := [r] })] }
    let s : State := unrationed { s0 with regs := (0x1200, 0) :: s0.regs }
    s.stagesRun = true ∧ s.slotOwner .memory 0 = 0 ∧ s.stackReady 1 = true ∧ (s.die 1).waiting = [r] ∧ s.slotsUsed 0 = false ∧
    0 < slotsIn .memory s.clkStep := by decide +kernel

/-- ReductionsStartAndTakeSlots: alone every ring has one member; in a domain ring 1 is not there; a carry that Q512 cannot have. -/
theorem test_witness_reductions :
    let b : Book := { rbid := 1, lead := 0, stepk := 0, depth := 1, voteKc := 70, mods := [[]], rings := [(1, [0])], relays := [] }
    let s : State := { (withCl cl).setFld 0x500000 0 2 2 with cvn := { book := some b } }
    let t : Tile := { path := 3 }
    (withCl cl).Issues 0 .execute 0 ∧ redF.carry.toNat ≠ 3 ∧ tileWaits cl.tile0 0 = false ∧ cl.tile0.discard = false ∧
    (withCl cl).redRing 0 = some (1, [0]) ∧ s.redRing 0 = some (1, [0]) ∧ s.redRing 1 = none ∧ s.Issues 0 .execute 0 ∧
    t.path = 3 ∧ ({ redF with carry := 2 } : RedF).carry.toNat = 2 ∧
    ({ rx := [(1, [1])] } : Port).rx.find? (fun m => decide (m.1 = 1)) = some (1, [1]) := by decide +kernel

/-- JobsIssueRunAndComplete: a cluster's job done, stopped and not; a waybill's job stopped by another cause. -/
theorem test_witness_jobs_end :
    let d : Job := { fillJob with done := true }
    let w (c : Nat) : Job := { fillJob with src := .waybill 0 0, done := true, cause := c }
    let s (j : Job) : State := { withCl cl with jobs := [j] }
    (s d).jobsOf (.cluster 0) = [d] ∧ d.done = true ∧ d.cause = 0 ∧ ({ d with cause := 1 } : Job).cause ≠ 0 ∧
    (s (w 1)).jobsOf (.waybill 0 0) = [w 1] ∧ (w 1).cause ≠ 0 ∧ (w 1).cause ≠ 4 ∧ (w 0).cause = 0 ∧
    ((withCl cl).region 0 0).hw = false := by decide +kernel

/-- LoessAccessesActOnTheCurrentCopy: a request that may not be performed, a poisoned read, a delivery with a part that waits and the
last one. -/
theorem test_witness_loess_requests :
    let r : Req := { write := false, addr := 512, src := .host 0 5 }
    let q (a : Nat) : Req := { write := true, addr := a, src := .car 3 1 0 510 4, bytes := [{ addr := a, mask := 3, val := 7 }] }
    let s (l : List Req) : State := { on with dies := [(1, { accepted := l })], poison := [(8, true)] }
    ((s [q 512, r]).die 1).performs 1 ((s []).place 512).2 r = false ∧
    ((List.range 8).any (fun c => r.takes c && sget zeroBool (s [r]).poison ((s [r]).readGran (r.addr / 512) false * 8 + c))) = true ∧
    (∃ d ∈ (s [q 512, { q 512 with n := 2 }]).dies, ∃ x ∈ d.2.waiting ++ d.2.accepted, x.src = (q 512).src) ∧
    ¬ (∃ d ∈ (s []).dies, ∃ x ∈ d.2.waiting ++ d.2.accepted, x.src = (q 512).src) ∧ (on.domainOn 145 = true) ∧
    ({ on with phase := 0 } : State).domainOn 145 = false := by decide +kernel

/-- StacksKeepTheirUpkeep: a stack that leaves HOLD while the module goes into its own. -/
theorem test_witness_hold_exit :
    let s : State := { on.setFld (sa 0 0) 0 3 5 with trans := some (2, true) }
    s.stackState 0 = 5 ∧ s.trans = some (2, true) ∧ on.trans ≠ some (2, true) := by decide +kernel

/-- ReductionsStartAndTakeSlots: a slot of a reduction that goes on, its chunk whole and not; formats that do not fit; a slot whose RED
has not started and one that comes too late. -/
theorem test_witness_reduction_slots :
    let r : Red := { cl := 0, tile := 0, ring := 0, carry := 1, desc := 1, rseq := 0, last := 0, own := List.replicate 200 (Val.ofRat 0) }
    let s (n : Nat) : State := { withCl { cl with rseq := [(0, n)] } with reds := [r] }
    let behind (n : Nat) : Nat := (sget zeroNat ((s n).cl 0).rseq 0 + 2 ^ 16 - 0) % 2 ^ 16
    let h : Nat := 2 ^ 33
    let key : Nat := 1
    let parts : List (Nat × Nat × List Byte) := [(key, 0, [])]
    (s 0).redOf 0 0 (bits h 40 16) = some r ∧ ((s 0).redRing 0).map (fun x => x.2.length) = some 1 ∧ bits h 33 3 = 1 ∧
    cfmtOk r.carry 0 1 = true ∧ bits h 36 4 = ((s 0).cl 0 |>.desc 1).dst ∧ cfmtOk r.carry 0 2 = false ∧ bits h 15 10 < 1 ∧
    (chunkLen r.own.length 1 0 + chunkPer 1 8 - 1) / chunkPer 1 8 = 2 ∧ parts.all (fun x => decide (x.2.1 ≠ 1)) = true ∧
    (parts ++ [(key, 1, [])]).map (fun (x : Nat × Nat × List Byte) => x.2.1) = [0, 1] ∧ cfmtOk 2 1 4 = true ∧
    (s 0).redOf 0 0 1 = none ∧ behind 0 = 0 ∧ behind 1 = 1 ∧ behind (2 ^ 15) ≤ 2 ^ 15 ∧ 2 ^ 15 < behind (2 ^ 15 + 1) := by decide +kernel

/-! Stages, votes, pauses, the kiln clock -/

/-- A module of a domain of one that has mustered. -/
def domain : State :=
  { on.setFld 0x500000 0 2 2 with
    cvn := { book := some { rbid := 1, lead := 0, stepk := 0, depth := 1, voteKc := 70, mods := [[]], rings := [], relays := [] } } }

/-- PeriodsEnd: the nominal end and an extension's, complete and not; in a domain with each decision; a stage just hung and not yet. -/
theorem test_witness_periods :
    let s : State := { on with kc := 8192 }
    let j : State := { s with setpLate := true }
    let d : State := { domain with kc := 8192, late := 1 }
    s.stagesRun = true ∧ s.kc = 8192 ∧ s.mustered = false ∧ s.late = 0 ∧ s.stageComplete = true ∧ j.stageComplete = false ∧
    0 < ({ s with late := 1 } : State).late ∧ ({ s with late := 1 } : State).stageComplete = true ∧
    d.stagesRun = true ∧ d.mustered = true ∧ d.cvn.decision = none ∧
    64 < ({ s with late := 65 } : State).late ∧ s.hung = false ∧ ({ s with late := 64 } : State).late ≤ 64 := by decide +kernel

/-- A cluster whose windows advance, and the depths 1 and 16. -/
theorem test_witness_boundary_actions :
    let c : Cluster := { cl with wadv := true, fill := [(0, 15)] }
    ({ on with gstep := true } : State).gstep = true ∧ on.gstep = false ∧ c.wadv = true ∧ cl.wadv = false ∧ 0 < 1 ∧ 16 ≤ 16 ∧
    sget zeroNat (c.advanceWindows 16).fill 0 = 16 ∧ sget zeroNat (c.advanceWindows 1).fill 0 = 1 := by decide +kernel

/-- ModulesVoteAndPausesSettle: at the vote's kc and at the lead's; a set that has settled and one that has not. -/
theorem test_witness_votes_and_pauses :
    let v : State := { domain with kc := 8122 }
    let l : State := { domain with kc := 8157, cvn := { domain.cvn with voted := true } }
    let p : Pause := { clus := [0], b := 0, wb := none, st := 2 }
    let s (c : Cluster) : State := { withCl c with pause := some p }
    v.mustered = true ∧ v.stagesRun = true ∧ v.cvn.voted = false ∧ 8192 - v.voteKc ≤ v.kc ∧ l.leads = true ∧ l.cvn.decision = none ∧
    8192 - l.voteKc / 2 ≤ l.kc ∧ (s cl).pause = some p ∧ p.clus.all (s cl).settled = true ∧ p.clus.Nodup ∧
    p.clus.all (s { cl with gload := some { addr := 0, epoch := 0 } }).settled = false := by decide +kernel

/-- KilnCyclesPassAndTandemRecordsTimeOut: the last kc that passes and the period's end; stages not counted; tandem on and off. -/
theorem test_witness_kiln_cycles :
    on.phase ≠ 0 ∧ on.stagesRun = true ∧ ({ on with kc := 8191 } : State).kc < 8192 ∧ 8192 ≤ ({ on with kc := 8192 } : State).kc ∧
    State.reset.phase ≠ 0 ∧ State.reset.stagesRun = false ∧ on.tmode = 0 ∧ (on.setFld 0x700 0 2 2).tmode ≠ 0 := by decide +kernel

/-- PeriodsEnd: an extension's record that is this stage's and one that is not. -/
theorem test_witness_extensions :
    let s : State := { on with late := 1 }
    (s.setFld 0x40C 0 1 1).fld 0x40C 16 16 = s.stageNo % 2 ^ 16 ∧ ((s.setFld 0x40C 0 1 1).reg 0x40C).getLsbD 0 = true ∧
    (s.reg 0x40C).getLsbD 0 = false ∧ (s.setFld 0x40C 16 16 5).fld 0x40C 16 16 ≠ s.stageNo % 2 ^ 16 ∧ on.late = 0 := by decide +kernel

/-- ModulesVoteAndPausesSettle: children whose votes are in and not; a parent; the PAUSE waybill there, gone, none; CaravanFramesAreTaken:
votes and a decision that come on a port. -/
theorem test_witness_votes :
    let e (p r : Nat) : PortE := { peer := p, pport := 0, role := r }
    let book (lead : Nat) : Book := { rbid := 1, lead := lead, stepk := 0, depth := 1, voteKc := 70, rings := [], relays := []
                                      mods := [[e 1 0, e 1 0, e 1 1, e 1 2]] }
    let v (kc : Nat) : State := { domain with kc := kc, cvn := { book := some (book 1) }, ports := [(3, { vin := 7 })] }
    let w (kc : Nat) : State := { v kc with cvn := { (v kc).cvn with voted := true } }
    let p : Pause := { clus := [0], b := 0, wb := some (0, 0), st := 2 }
    let s (rs : State) : State := { rs with clusters := [(0, cl)], pause := some p }
    3 ∈ (v 8122).children ∧ (v 8122).parent = some 2 ∧ (v 8122).leads = false ∧ ((v 8122).port 3).vin % 2 = 1 ∧
    ({ v 8122 with ports := [] } : State).children.any (fun q => decide ((({ v 8122 with ports := [] } : State).port q).vin % 2 = 0)) = true ∧
    domain.children = [] ∧ domain.leads = true ∧ domain.cvn.decision = none ∧
    (s (withWb on (wbOf 0x700 []))).wb 0 0 = some (wbOf 0x700 []) ∧ (s on).wb 0 0 = none ∧
    p.clus.all (s on).settled = true ∧ (w 8122).cvn.decision = none ∧ (w 8122).cvn.voted = true ∧ 7 % 2 = 1 ∧
    (w 8121).kc < 8192 - (w 8121).voteKc ∧ 8192 - (w 8122).voteKc ≤ (w 8122).kc := by decide +kernel

/-- KilnCyclesPassAndTandemRecordsTimeOut: nothing waits for the cycle. -/
theorem test_witness_quiet_cycle :
    on.resets = [] ∧ on.teth.later = [] ∧ on.svcPhase ≠ 4 ∧ (∀ u < 16, (on.chk u).queue = []) := by decide +kernel

/-! Caravan links -/

def active (p : Nat) : State := on.setFld (pa p 0) 0 3 2

def goodFrame : Frame :=
  let slots := List.replicate 5 slotBytes
  { control := BitVec.ofNat 80 (frameCrc slots 0 * 2 ^ 44), slots := slots }

/-- CaravanFramesAreTaken: a port that is ACTIVE; a frame bad by CRC; a frame good and in order, as the first after training. -/
theorem test_witness_frames :
    let bad : Frame := { goodFrame with control := 0 }
    (active 3).lnk 3 = 2 ∧ goodFrame.slots.length = 5 ∧
    bits goodFrame.control.toNat 44 32 = frameCrc goodFrame.slots (goodFrame.control.toNat % 2 ^ 44) ∧
    bits bad.control.toNat 44 32 ≠ frameCrc bad.slots (bad.control.toNat % 2 ^ 44) ∧
    goodFrame.control.toNat % 256 = (((active 3).port 3).good + 1) % 256 ∧
    (((active 3).port 3).acked (bits goodFrame.control.toNat 8 8) (goodFrame.control.toNat.testBit 16)).nakRun < 16 := by decide +kernel

/-- An acknowledgement of the second of three frames. -/
theorem test_witness_acknowledgement :
    let f (n : Nat) : SentFrame := { fseq := n, slots := [] }
    let x : Port := { sent := [f 0, f 1, f 2] }
    x.replay = [] ∧ x.sent = [f 0] ++ f 1 :: [f 2] ∧ (f 1).fseq = 1 ∧ (f 0).fseq ≠ 1 ∧ (x.acked 1 false).sent = [f 2] := by decide +kernel

/-- DeliveriesAreWrittenAndAcknowledged: a delivery of 8 bytes into a window of a mustered domain, and one into none; an answer. -/
theorem test_witness_deliveries :
    let m : List Byte := leBytes 5 0x200000 ++ leBytes 2 8 ++ leBytes 9 0 ++ leBytes 8 7
    let ends (a n : Nat) : Nat × Nat := (n, 512 - a % 512)
    let b : Book := { rbid := 1, lead := 0, stepk := 0, depth := 1, voteKc := 70, mods := [[]], rings := []
                      relays := [{ src := 1, dst := 0, lpage := 0, dpage := 1, pages := 1 }] }
    let s : State := { domain with cvn := { book := some b }, ports := [(3, { rx := [(2, m)] })] }
    let k : List Byte := leBytes 2 5 ++ leBytes 2 0 ++ leBytes 2 1 ++ leBytes 2 0 ++ leBytes 2 9 ++ leBytes 2 0 ++ leBytes 4 0
    let d : State := { withCl cl with ports := [(3, { rx := [(4, k)] })], relays := [{ cl := 0, tag := 1, seqs := [9], port := 3 }] }
    ((s.takeRx 3 (fun m => decide (m.1 = 2))).map (fun x => x.1)) = some m ∧ s.mustered = true ∧ leAt m 0 5 = 0x200000 ∧ leAt m 5 2 = 8 ∧
    ((m.drop 16).take 8).length = 8 ∧ (ends 0x2001F8 8).1 ≤ (ends 0x2001F8 8).2 ∧ (ends 0x2001F8 9).2 < (ends 0x2001F8 9).1 ∧
    (([] : List Byte).length = 0) ∧
    (b.relays.any (fun w => decide (w.dst = s.modnum) && decide (w.dpage * 0x200000 ≤ 0x200000) &&
      decide (0x200000 + 8 ≤ (w.dpage + w.pages) * 0x200000))) = true ∧
    ((d.takeControl 3 5).map (fun x => x.1)) = some k ∧ leAt k 4 2 = 1 ∧ leAt k 12 1 = 0 ∧ leAt k 8 2 = 9 ∧
    leAt k 10 2 = 0 := by decide +kernel

/-- PartnerRecordsArriveAndTimeLocks: the partner's port with room; TIME from the parent; 15 and 16 missed messages. -/
theorem test_witness_records_and_time :
    let s : State := { (on.setFld 0x700 0 2 1).setFld 0x700 2 4 3 with ports := [(3, { rx := [(3, leBytes 8 0)] })] }
    let t : List Byte := leBytes 2 1 ++ leBytes 14 0
    let u : State := { domain with ports := [(3, { rx := [(4, t)] })] }
    let l : State := { on.setFld 0x500000 2 1 1 with cvn := { missed := 16 } }
    s.tmode = 1 ∧ s.fld 0x700 2 4 = 3 ∧ (s.takeRx 3 (fun m => decide (m.1 = 3))).isSome = true ∧
    (u.takeControl 3 1).isSome = true ∧ u.parent ≠ some 3 ∧ 16 ≤ l.cvn.missed ∧ (l.reg 0x500000).getLsbD 2 = true := by decide +kernel

/-- PeersIdentifyAndMustersComplete: IDENT in training with the same kiln step and another; LEAVE; READY and GO while the domain forms. -/
theorem test_witness_peers_and_musters :
    let ident (step : Nat) : List Byte := leBytes 2 2 ++ leBytes 22 0 ++ leBytes 2 1 ++ leBytes 1 3 ++ leBytes 1 step
    let s (m : List Byte) : State := { on.setFld (pa 3 0) 0 3 1 with ports := [(3, { rx := [(4, m)] })] }
    let b : Book := { rbid := 7, lead := 1, stepk := 0, depth := 1, voteKc := 70
                      mods := [[⟨0, 0, 0⟩, ⟨0, 0, 0⟩, ⟨1, 0, 1⟩, ⟨2, 0, 2⟩]], rings := [], relays := [] }
    let f (p : Nat) (m : List Byte) : State := { on.setFld 0x500000 0 2 1 with
      cvn := { book := some b }, ports := [(p, { rx := [(4, m)] })] }
    let msg (type id x : Nat) : List Byte := leBytes 2 type ++ leBytes 6 0 ++ leBytes 8 id ++ leBytes 8 0 ++ leBytes 8 x
    (((s (ident 0)).takeControl 3 2).isSome = true ∧ (s (ident 0)).lnk 3 = 1 ∧ leAt (ident 0) 27 1 = (s (ident 0)).clkStep ∧
      leAt (ident 1) 27 1 ≠ (s (ident 1)).clkStep) ∧
    (((s (leBytes 2 6 ++ leBytes 30 0)).takeControl 3 6).isSome = true) ∧
    ((f 3 (msg 3 7 1)).dstate = 1 ∧ ((f 3 (msg 3 7 1)).takeControl 3 3).isSome = true ∧ 3 ∈ (f 3 (msg 3 7 1)).children ∧
      leAt (msg 3 7 1) 8 8 = b.rbid ∧ leAt (msg 3 6 1) 8 8 ≠ b.rbid) ∧
    ((f 2 (msg 4 7 0)).parent = some 2 ∧ ((f 2 (msg 4 7 0)).takeControl 2 4).isSome = true ∧
      (f 2 (msg 4 7 0)).cvnTime ≤ leAt (msg 4 7 0) 24 8 ∧ leAt (msg 4 7 0) 24 8 < ((f 2 (msg 4 7 0)).setRegN 0x50000C 1).cvnTime) ∧
    (f 2 []).leads = false ∧ ((f 2 []).reg 0x500000).getLsbD 2 = false := by decide +kernel

/-- PortsFollowTheirStates: each state of a port; a round trip of 1,804 ticks and one more; a port whose frames are all delivered. -/
theorem test_witness_ports :
    let st (k : Nat) : State := on.setFld (pa 3 0) 0 3 k
    let q : State := { st 2 with ports := [(3, { quiesce := true })] }
    (st 2).lnk 3 = 2 ∧ (st 4).lnk 3 = 4 ∧ (st 1).lnk 3 = 1 ∧ (1804#16).toNat ≤ 1804 ∧ 1804 < (1805#16).toNat ∧ (2#3) ≠ 4#3 ∧
    ((st 0).setFld (pa 3 4) 0 1 1).domainOn 163 = true ∧ (st 0).lnk 3 = 0 ∧ (st 3).lnk 3 = 3 ∧ (st 3).domainOn 163 = true ∧
    ((((st 3).setFld 0x104014 3 1 1).setFld 0x104000 6 1 1).reg 0x104014).getLsbD 3 = true ∧
    ((((st 3).setFld 0x104014 3 1 1).setFld 0x104000 6 1 1).reg 0x104000).getLsbD 6 = true ∧ ((st 3).reg (pa 3 4)).getLsbD 0 = true ∧
    q.lnk 3 = 2 ∧ (q.port 3).quiesce = true ∧ (q.port 3).issued = (q.port 3).returned ∧ (q.port 3).sent = [] ∧ (q.port 3).rx = [] ∧
    (q.port 3).credOut = 0 ∧ (q.port 3).frame = [] ∧ (q.port 3).replay = [] ∧
    (({ st 2 with ports := [(3, { quiesce := true, issued := 1 })] } : State).port 3).issued ≠ 0 := by decide +kernel

/-- CaravanFramesAreTaken: slots lost to the FEC, a reserved KIND, a frame out of order; frames to send again for the first time and once
more. -/
theorem test_witness_bad_frames :
    let kind5 : Frame := { goodFrame with control := BitVec.ofNat 80 (5 * 2 ^ 24 + frameCrc goodFrame.slots (5 * 2 ^ 24) * 2 ^ 44) }
    let ahead : Frame := { goodFrame with control := BitVec.ofNat 80 (7 + frameCrc goodFrame.slots 7 * 2 ^ 44) }
    let ok (f : Frame) : Bool := decide (bits f.control.toNat 44 32 = frameCrc f.slots (f.control.toNat % 2 ^ 44))
    let g (b : Bool) : SentFrame := { fseq := 2, cred := 3, again := b, slots := [] }
    let x (b : Bool) : Port := { sent := [{ fseq := 1, slots := [] }, g b] }
    ok kind5 = true ∧ bits kind5.control.toNat 24 4 = 5 ∧ ok ahead = true ∧ ahead.control.toNat % 256 = 7 ∧
    (((active 3).port 3).good + 1) % 256 = 0 ∧ (0 < ({ corrected := 0, uncorrectable := 1 } : FecCase).uncorrectable) ∧
    ((x false).acked 1 true).replay = [g false] ∧ ((x false).acked 1 true).credOut = 3 ∧ ((x true).acked 1 true).credOut = 0 := by
  decide +kernel

/-- PartnerRecordsArriveAndTimeLocks: records that meet and differ, by their check, by their count, not at all; TIME from the parent, the
15th and the 16th in a row within a tick. -/
theorem test_witness_partners_and_time :
    let a (check k : Nat) : TRec := { cl := 0, seq := 1, check := check, k := k }
    let u : TUnit := { own := [{ a 5 1 with seq := 0 }, a 5 1] }
    let book : Book := { rbid := 1, lead := 1, stepk := 0, depth := 1, voteKc := 70, rings := [], relays := []
                         mods := [[⟨0, 0, 0⟩, ⟨0, 0, 0⟩, ⟨0, 0, 0⟩, ⟨1, 0, 1⟩]] }
    let t : List Byte := leBytes 2 1 ++ leBytes 14 0
    let s (n : Nat) : State := { domain with cvn := { book := some book, lockRun := n }, ports := [(3, { rx := [(4, t)] })] }
    u.own = [{ a 5 1 with seq := 0 }] ++ a 5 1 :: [] ∧ (a 5 1).check ≠ (a 6 1).check ∧ (a 5 1).k % 2 ^ 32 ≠ (a 5 2).k % 2 ^ 32 ∧
    (s 0).parent = some 3 ∧ ((s 0).takeControl 3 1).isSome = true ∧ leAt t 8 8 = 0 ∧
    2 * ((0 : Int) - 0) - (((s 0).fld (pa 3 0x0C) 0 16 : Int) + 2 * signedOf 16 ((s 0).fld (pa 3 0x10) 0 16)) = 0 ∧
    min ((s 14).cvn.lockRun + 1) 16 < 16 ∧ min ((s 15).cvn.lockRun + 1) 16 = 16 := by decide +kernel

/-- PeersIdentifyAndMustersComplete: a locked module whose children are ready, the lead with all modules and with one missing; READY from a
port that is no child; T0 ahead and reached, with the waybill there; PortsFollowTheirStates: training in phase 4, port commands in their
turn and after a waybill's in the kc, a LEAVE and a slot still to send. -/
theorem test_witness_musters_and_ports :
    let e (p r : Nat) : PortE := { peer := p, pport := 0, role := r }
    let book (lead : Nat) : Book := { rbid := 7, lead := lead, stepk := 0, depth := 1, voteKc := 70, rings := [], relays := []
                                      mods := [[e 0 0, e 0 0, e 1 1, e 2 2]] }
    let s (lead : Nat) : State := { (on.setFld 0x500000 0 2 1).setFld 0x500000 2 1 1 with
      cvn := { book := some (book lead), subs := [(3, 2)] } }
    let m : List Byte := leBytes 2 3 ++ leBytes 6 0 ++ leBytes 8 7 ++ leBytes 16 0
    let r : State := { s 1 with ports := [(5, { rx := [(4, m)] })] }
    let t (wb : Option (Nat × Nat)) : State := { withWb (s 1) (wbOf 0x600 []) with cvn := { (s 1).cvn with t0 := some 0, wb := wb } }
    let led (k : Nat) : State := { (on.setFld 0x500000 0 2 1).setFld 0x500000 3 1 1 with
      cvn := { book := some { book 0 with mods := List.replicate k [e 0 0, e 0 0, e 1 0, e 2 2] }, subs := [(3, 2)] } }
    let p4 : State := (on.setFld (pa 3 0) 0 3 1).setFld 0x104004 0 3 4
    let q : State := (active 3).wbWrote (pa 3 4) 4 1
    ((s 1).dstate = 1 ∧ (s 1).cvn.readySent = false ∧ ((s 1).reg 0x500000).getLsbD 2 = true ∧ (s 1).children = [3] ∧
      (s 1).parent = some 2 ∧ (s 1).leads = false ∧ sget zeroNat (s 1).cvn.subs 3 ≠ 0) ∧
    ((led 3).leads = true ∧ (led 3).children = [3] ∧ 1 + 2 = 3 ∧ ((led 4).cvn.book.map (fun b => b.mods.length)) = some 4) ∧
    ((r.takeControl 5 3).isSome = true ∧ 5 ∉ r.children) ∧
    ((t none).cvn.t0 = some 0 ∧ 0 ≤ (t none).cvnTime ∧ (t none).cvn.wb = none ∧ (t (some (0, 0))).cvn.wb = some (0, 0) ∧
      (((t (some (0, 0))).setFld 0x500000 0 2 2).wb 0 0).isSome = true ∧ (t none).cvnTime < 1) ∧
    (p4.lnk 3 = 1 ∧ p4.svcPhase = 4) ∧ on.InTurn ∧ q.InTurn ∧ on.wbMask (pa 3 4) = 0 ∧ q.wbMask (pa 3 4) ≠ 0 ∧
    isLeave 4 (controlMsg 6 []) = true ∧ ({ act := 2, kind := 1, data := [] } : TxSlot).kind ≠ 0 := by decide +kernel

/-! The Tether, events, telemetry -/

/-- HostAccessesAreServed: extents of 512 bytes at a granule's start and one byte more, none, past the end; poison. -/
theorem test_witness_host_accesses :
    let wr : State := { on with teth := { rxq := [{ act := 1, due := 0, req := some { write := true } }] } }
    on.tth = 1 ∧ badExtent 0 512 = false ∧ badExtent 0 513 = true ∧ badExtent 0 0 = true ∧ badExtent (2 ^ 40 - 1) 1 = false ∧
    badExtent (2 ^ 40) 1 = true ∧ on.teth.rxq.any (fun x => x.req.isSome) = false ∧ wr.tth = 1 ∧
    wr.teth.rxq.any (fun x => x.req.isSome) = true ∧ (sget noCaught on.caught 0x600014).regs = [] ∧
    (3 ≠ 4 ∨ (0#43).toNat % 4 ≠ 0) ∧ (4 ≠ 4 ∨ (2#43).toNat % 4 ≠ 0) ∧
    (on.reg 0x600014).getLsbD 0 = false ∧ ((on.setRegN 0x600014 1).reg 0x600014).getLsbD 0 = true := by decide +kernel

/-- A flit with header h and link word l, its CRC right. -/
def flit (h l : Nat) : List Byte :=
  let b := List.replicate 256 (0#8) ++ leBytes 8 h ++ leBytes 4 l
  b ++ leBytes 4 (crc32c (l % 1024) b).toNat

/-- TetherLinkStates: an active link and one that trains; 255 and 256 credits; a bad flit, a reserved kind, a good one in order. -/
theorem test_witness_tether :
    let down : State := on.setFld 0x600000 0 2 2
    let good (f : List Byte) : Bool := decide (leAt f 268 4 = (crc32c (leAt f 264 4 % 1024) (f.take 268)).toNat)
    on.tth = 1 ∧ down.tth ≠ 1 ∧ 256 ≤ (256#11).toNat ∧ (255#11).toNat < 256 ∧ down.domainOn 176 = true ∧
    (flit 0 0).length = 272 ∧ good (flit 0 0) = true ∧ good (List.replicate 272 0) = false ∧ bits 13 2 2 = 3 ∧ 13 ≠ 12 ∧
    good (flit 13 0) = true ∧ 0 % 1024 = (on.teth.good + 1) % 1024 ∧ (on.teth.acked 0 false).nakRun < 16 ∧ 0 % 4 ≠ 3 := by decide +kernel

/-- EventsAreDeliveredAndSensorsRefreshed: an event to the ring that has room; one already queued, and room for the 256th. -/
theorem test_witness_events :
    let e : Ev := { ix := 0, scls := 1, flags := 0, unit := 0, kc := 0, stage := 0, seq := 0, d0 := 0, d1 := 0 }
    let s : State := { (on.setRegN 0x106000 9).setRegN 0x106040 1 with events := [e] }
    s.firmwareRuns = true ∧ State.reset.firmwareRuns = false ∧ on.queued = [] ∧
    s.events.any (fun x => decide (x.ix = 0) && decide (x.scls = 1)) = true ∧ on.events.length < 256 ∧
    256 ≤ (List.replicate 256 e).length := by decide +kernel

/-- WarningsAreRaisedOnce: the readings next to a limit of 310 and to 31/32 of it; 8000H; the bounds of the sensors. -/
theorem test_witness_warnings :
    on.phase ≠ 0 ∧ readingOf 4 310 < readingOf 4 311 ∧ ¬ readingOf 4 310 < readingOf 4 310 ∧
    32 * readingOf 4 300 < 31 * readingOf 4 310 ∧ ¬ 32 * readingOf 4 301 < 31 * readingOf 4 310 ∧ 0 < (1 : Fin 18).val ∧
    readingOf 17 0xFFFFFFFF < readingOf 17 0 ∧ readingOf 3 0 < readingOf 3 0xFFFFFFFF ∧
    (∃ t, exec (.sensorRefresh [(4, 311)]) (on.setRegN 0x106190 310) = .next t ∧ sget zeroBool t.warned 4 = true) :=
  ⟨by decide +kernel, by decide +kernel, by decide +kernel, by decide +kernel, by decide +kernel, by decide +kernel, by decide +kernel,
    by decide +kernel, _, rfl, by decide +kernel⟩

/-- HostAccessesAreServed: an access behind one that waits, a register access behind a host write, a Loess access behind none; the first
that waits held and not held. -/
theorem test_witness_waiting_accesses :
    let w : RxMsg := { act := 1, due := 0, req := some { write := true, src := .host 0 0 } }
    let i : HostAcc := .svcReq
    let s (l : List HostAcc) (q : List RxMsg) : State := { on with teth := { later := l, rxq := q } }
    (s [i] []).tth = 1 ∧ (s [i] []).teth.later ≠ [] ∧ (s [] [w]).writesWait = true ∧ i.loess = false ∧ i.slotted = true ∧
    (s [] []).writesWait = false ∧ (HostAcc.loessRead 0 1 []).loess = true ∧ (HostAcc.counterRead 0).slotted = false ∧
    (s [i] []).teth.later = i :: [] ∧ on.InTurn ∧ ¬ (s [] [w]).InTurn := by decide +kernel

/-- TetherLinkStates: a continuation in its place and out of it, a read request, an error completion. -/
theorem test_witness_flits :
    let more : State := { on with teth := { more := true } }
    let good (f : List Byte) : Bool := decide (leAt f 268 4 = (crc32c (leAt f 264 4 % 1024) (f.take 268)).toNat)
    good (flit 12 0) = true ∧ bits 12 2 2 = 3 ∧ more.teth.more = true ∧ on.teth.more = false ∧ good (flit 4 0) = true ∧ bits 4 2 2 = 1 ∧
    4 % 4 = 0 ∧ good (flit 3 0) = true ∧ 3 % 4 = 3 ∧ bits 3 2 2 ≠ 3 ∧ more.tth = 1 := by decide +kernel

/-- EventsAreDeliveredAndSensorsRefreshed: events on each route, one to several, one on none; one that the ring cannot take. -/
theorem test_witness_deliveries_of_events :
    let e : Ev := { ix := 0, scls := 1, flags := 0, unit := 0, kc := 0, stage := 0, seq := 0, d0 := 0, d1 := 0 }
    let up : State := (on.setRegN 0x106000 9).setRegN 0x106040 0x7FD38421
    let s : State := { up with events := [e] }
    let can (s : State) (e : Ev) (k : Nat) : Bool := s.canServe e e.served k
    s.firmwareRuns = true ∧ s.queued = [] ++ e :: [] ∧ s.queued.any (fun x => decide (x.ix = 0) && decide (x.scls = 1)) = true ∧
    s.routeOf 0 0 = 1 ∧ s.routeOf 1 0 = 2 ∧ s.routeOf 2 0 = 4 ∧ s.routeOf 3 0 = 8 ∧ s.routeOf 4 0 = 3 ∧
    can s e 0 = true ∧ can s { e with ix := 1 } 1 = true ∧ can s { e with ix := 2 } 2 = true ∧ can s { e with ix := 3 } 3 = true ∧
    can on e 0 = false ∧ (s.setRegN 0x106040 0).routeOf 0 0 = 0 ∧ ({ on with side := { recv := some 8 } } : State).side.recv = some 8 ∧
    (s.serve e).2 = 1 ∧ (s.serve { e with ix := 4 }).2 = 3 ∧ on.queued.length < 256 ∧ on.boot.switching = none ∧
    (on.routeOf 0 0 ≠ 0) := by decide +kernel

/-! Waybill rings -/

/-- The module with ring 0 enabled, 16 slots, and one waybill announced. -/
def ringUp : State := ((on.setRegN (ra 0 0) 9).setRegN (ra 0 0x14) 1)

/-- DoorbellsAnnounceAndRingsRun: as many waybills as the ring has room for and one more; SIZE 4 and 12; a halted ring. -/
theorem test_witness_rings :
    let s : State := on.setRegN (ra 0 0) 9
    let h : State := ringUp.setFld (ra 0 0x24) 0 1 1
    on.phase ≠ 0 ∧ on.ringOn 0 = false ∧ s.ringOn 0 = true ∧ s.ringHalted 0 = false ∧
    (16#32).toNat ≤ s.ringSize 0 ∧ s.ringSize 0 < (17#32).toNat ∧
    bits (9#32).toNat 1 4 = 4 ∧ bits (25#32).toNat 1 4 = 12 ∧ (9#32).toNat.testBit 0 = true ∧ (9#32).toNat.testBit 6 = false ∧
    h.ringHalted 0 = true ∧ (h.ring 0).taken = [] ∧ ((withWb h (wbOf 0x101 [])).ring 0).taken ≠ [] := by decide +kernel

/-- A 64-byte waybill with its CRC, SEQ 0. -/
def wbBytes (opc ver : Nat) : List Byte :=
  let b := leBytes 2 opc ++ [0] ++ leBytes 1 ver ++ List.replicate 56 (0#8)
  b ++ leBytes 4 (crc32c 0 b).toNat

/-- RingLedgersCount, WaybillsAreChecked, GoodWaybillsAreTaken: a waybill may be taken; a bad CRC, SEQ, version, opcode; a good ECHO, a
good IDENT with a reserved bit. -/
theorem test_witness_taking :
    ringUp.mayTake 0 = true ∧ ringUp.ready = true ∧ ringUp.pstate < 2 ∧ ringUp.expectedSeq 0 0 = 0 ∧
    ((on.setRegN 0x500 32).fld 0x500 0 6 = 32 + 0) ∧
    (wbBytes 0x101 1).length = 64 ∧ (crc32c 0 ((wbBytes 0x101 1).take 60)).toNat = leAt (wbBytes 0x101 1) 60 4 ∧
    (crc32c 0 ((List.replicate 64 (0#8)).take 60)).toNat ≠ leAt (List.replicate 64 (0#8)) 60 4 ∧ leAt (wbBytes 0x101 1) 4 4 = 0 ∧
    leAt (wbBytes 0x101 1) 3 1 = 1 ∧ leAt (wbBytes 0x101 2) 3 1 ≠ 1 ∧ 0x101 ∈ wbOpcodes ∧ 0x107 ∉ wbOpcodes ∧
    (List.replicate 12 0).getD 0 0 / 2 ^ 30 ≠ 3 ∧ ringUp.wbHead 0x101 false (List.replicate 12 0) = none ∧
    ringUp.wbHead 0x101 true (List.replicate 12 0) = some 0xFF ∧ ringUp.wbChecks 0x101 false (List.replicate 12 0) [] = none ∧
    ringUp.wbChecks 0x101 true (List.replicate 12 0) [] = some (5, [0xFF]) := by decide +kernel

/-- The same ring whose expected SEQ is 1: the waybill's SEQ does not fit. -/
theorem test_witness_bad_seq :
    let s : State := { ringUp with rings := [(0, { seqBase := 1 })] }
    let b : List Byte := (wbBytes 0x101 1).take 60
    s.mayTake 0 = true ∧ s.expectedSeq 0 0 = 1 ∧ (crc32c 1 b).toNat = leAt (b ++ leBytes 4 (crc32c 1 b).toNat) 60 4 ∧
    leAt (b ++ leBytes 4 (crc32c 1 b).toNat) 4 4 ≠ 1 := by decide +kernel

/-- WaybillsStartAndEnd: one that waits behind another of its ring, one that conflicts, one whose clusters' rows are off. -/
theorem test_witness_starts :
    let a : Wb := { wbOf 0x101 [] with fence := true, ix := 1 }
    let s : State := { on with rings := [(0, { taken := [wbOf 0x101 [], a] })] }
    let x : Wb := wbOf 0x204 [0] [0]
    let y : State := { on with rings := [(0, { taken := [x] }), (1, { taken := [{ x with phase := 1 }] })] }
    s.wb 0 1 = some a ∧ s.interprets = true ∧ s.startOf 0 a = .waits ∧ y.wb 0 0 = some x ∧ y.startOf 0 x = .busy 1 ∧
    (withWb { on with tripped := true } x).startOf 0 x = .starts ∧ { on with tripped := true }.powerForbids 0x204 [0] [0] = true ∧
    wbLimited 0x101 1 = true ∧ wbLimited 0x201 0 = false ∧ wbExclusive 0x103 = true ∧ on.ringSize 0 ≠ 0 := by decide +kernel

/-- QueriesAreAnswered, ResetWaybillsAct, ItineraryWaybillsAct, ImageWaybillsAct, LoessWaybillsAct, GlazeAndWindowWaybillsAct,
StackAndLinkWaybillsAct, SecurityWaybillsAct, PowerWaybillsAct: a waybill of each opcode, alone in ring 0 of a module that is up, starts. -/
theorem test_witness_waybills_start :
    ∀ opc ∈ wbOpcodes, (withWb on (wbOf opc [0, 0, 0, 0] [0])).Starts opc 0 0 (wbOf opc [0, 0, 0, 0] [0]) := by decide +kernel

/-- READY before the module is ready, and after start-up has failed. -/
theorem test_witness_not_ready :
    let s : State := on.setFld 0x200000 0 1 0
    let f : State := s.setFld 0x200000 4 4 3
    (withWb s (wbOf 0x100 [])).Starts 0x100 0 0 (wbOf 0x100 []) ∧ s.ready = false ∧ s.failed = false ∧
    (withWb f (wbOf 0x100 [])).Starts 0x100 0 0 (wbOf 0x100 []) ∧ f.ready = false ∧ f.failed = true := by decide +kernel

/-- ResetWaybillsAct: CANCEL finds a waybill of ring 1, and none. -/
theorem test_witness_cancel :
    let s : State := { on with rings := [(0, { taken := [wbOf 0x106 [1, 5]] }), (1, { taken := [{ wbOf 0x101 [] with seq := 5 }] })] }
    let hit (x : Wb) : Bool := decide (x.seq = 5) && decide (x.phase < 2)
    s.Starts 0x106 0 0 (wbOf 0x106 [1, 5]) ∧ (s.ring 1).taken.find? hit = some { wbOf 0x101 [] with seq := 5 } ∧
    ([] : List Wb).find? hit = none ∧ s.trans = none := by decide +kernel

/-- ItineraryWaybillsAct: START of a loaded and of an idle cluster, in the next stage and in the current one; RESUME, STOP, UNLOAD; a
PAUSE beside none and beside one that waits. -/
theorem test_witness_itinerary_waybills :
    let s (st : Nat) : State := withCl { st := st }
    let w (stage : Nat) : Wb := wbOf 0x201 [0, 0, 0, stage, 0] [0]
    (withWb (s 1) (w 1)).Starts 0x201 0 0 (w 1) ∧ (s 1).wrongState [0] (fun st => decide (st ≠ 1) && decide (st ≠ 4)) = none ∧
    (s 0).wrongState [0] (fun st => decide (st ≠ 1) && decide (st ≠ 4)) = some [0, 0] ∧ (s 1).stageNo < pPair (w 1).params 3 ∧
    pPair (w 0).params 3 ≤ (s 1).stageNo ∧ (s 3).wrongState [0] (fun st => decide (st ≠ 3)) = none ∧
    (s 1).wrongState [0] (fun st => decide (st ≠ 3)) = some [0, 1] ∧ (s 1).wrongState [0] (fun st => decide (st = 2)) = none ∧
    (s 2).wrongState [0] (fun st => decide (st = 2)) = some [0, 2] ∧ (s 2).pause = none ∧
    (({ clus := [0], b := 0, wb := none } : Pause).st = 1) := by decide +kernel

/-- Ranges of ready stacks without poison, and with it, for the waybills that read and write Loess memory. -/
theorem test_witness_ranges :
    let p : State := { on with poison := [(0, true)] }
    let d : List Nat := [0, 0, 0, 0, 512, 0]
    on.rangeUp 0 64 = true ∧ on.rangeUp 0 512 = true ∧ on.rangeUp 0 8320 = true ∧ on.rangeUp 0 11376 = true ∧ on.firstPoison 0 64 = none ∧
    p.firstPoison 0 64 = some 0 ∧ pPair d 4 = 512 ∧ jobRefusedBy (jobOf (on.loessRead 0 64)) ≠ 0 ∧
    jobRefusedBy { fillJob.d with op := 3 } = 0 ∧ pastEnd 0 4096 = false ∧ pastEnd (2 ^ 40 - 4096) 4096 = false ∧
    pastEnd (2 ^ 40 - 4095) 4096 = true := by
  decide +kernel

/-- ImageWaybillsAct: an empty range holds no image; no pause, and a set that is paused. -/
theorem test_witness_images :
    let p : Pause := { clus := [0], b := 0, wb := none, st := 3 }
    (match on.loadImage 0 [0] false with | .refused 1 _ => true | _ => false) = true ∧
    (match on.restoreImage 0 with | .refused 1 0 => true | _ => false) = true ∧ on.pause = none ∧
    ({ withCl cl with pause := some p } : State).pause = some p ∧ on.rangeUp 0 (4096 + recSize * p.clus.length) = true ∧
    pastEnd 0 (4096 + recSize * p.clus.length) = false := by decide +kernel

/-- GlazeAndWindowWaybillsAct: windows of no, finite and infinite extremes; a cluster whose bank is busy; a slot at rest. -/
theorem test_witness_windows :
    (withCl { cl with gload := some { addr := 0, epoch := 0 } }).clusters.any (fun c => c.2.gbusy) = true ∧
    [0].any (fun n => ((withCl cl).cl n).gbusy) = false ∧ [0].any (fun n => [3].any ((withCl cl).recording n)) = false ∧ [0].Nodup ∧
    0 ≤ f32Inf ∧ 0x3F800000 < f32Inf ∧ f32Inf ≤ f32Inf ∧ proposal false false 0 0 = (0, [0x3F800000, 0, 0, 0, 1]) ∧
    proposal false false f32Inf 0 = (0x0B, [0, 0, f32Inf, 0]) := by decide +kernel

/-- StackAndLinkWaybillsAct: each operation on a port in a state for it; a muster of no book; a cluster that runs. -/
theorem test_witness_links :
    let w (op : Nat) : Wb := wbOf 0x601 [3 + 16 * op]
    portNo (w 2) = 3 ∧ portOp (w 0) = 0 ∧ portOp (w 1) = 1 ∧ portOp (w 2) = 2 ∧ portOp (w 3) = 3 ∧ (active 3).lnk 3 = 2 ∧
    (withWb (active 3) (w 0)).Starts 0x601 0 0 (w 0) ∧ ((active 3).setFld (pa 3 0) 0 3 4).lnk 3 = 4 ∧
    on.musterCause ((on.imageAt 0).book 0) 0 = 1 ∧ (withCl cl).anyRuns = some [0, 2] ∧ on.anyRuns = none := by decide +kernel

/-- PowerWaybillsAct: moves the table has and has not, out of the running states and among them. -/
theorem test_witness_power_waybills :
    pstateMoves 0 3 = true ∧ pstateMoves 3 0 = true ∧ pstateMoves 3 1 = false ∧ pstateMoves 0 0 = false ∧ on.pstate = 0 ∧ on.trans = none ∧
    ¬ (0 < 2 ∧ 2 ≤ 1) ∧ on.dstate = 0 ∧ domain.dstate ≠ 0 ∧ domain.mustered = true ∧ on.mustered = false := by decide +kernel

/-- SecurityWaybillsAct: an empty range holds no package; a bank that verifies and one that does not; a switch under way. -/
theorem test_witness_security :
    let ok : FwBank := {}
    let s : State := { on with boot := { fw0 := ok, fw1 := { ok with ok := false } } }
    let x : State := { withWb s (wbOf 0x901 []) with boot := { s.boot with switching := some (0, 0, true) } }
    s.packageCause (List.replicate 128 0) 0 ≠ 0 ∧ s.bankCause (s.bankOf !s.boot.act) ≠ 0 ∧ s.bankCause (s.bankOf s.boot.act) = 0 ∧
    s.boot.switching = none ∧ x.boot.switching = some (0, 0, true) ∧ x.wb 0 0 = some (wbOf 0x901 []) ∧ s.stackState 0 ≠ 4 := by
  decide +kernel

/-- A ring that may take a waybill and send the flit that asks for it. -/
def taking : State := ringUp.setFld 0x600004 0 11 256

/-- A good waybill's 64 bytes of the SEQ 0, its first parameter words given. -/
def wbWith (opc : Nat) (ps : List Nat) : List Byte :=
  let b := (leBytes 2 opc ++ [0, 1] ++ leBytes 8 0 ++ ps.flatMap (leBytes 4) ++ List.replicate 48 (0#8)).take 60
  b ++ leBytes 4 (crc32c 0 b).toNat

/-- RingLedgersCount, WaybillsAreChecked, GoodWaybillsAreTaken: a fetch may go out and may not; before READY an opcode that is not served;
a bitmap that is read, poisoned, in a range that is not up, and one in HOLD; a good waybill. -/
theorem test_witness_takes :
    let low : State := (taking.setFld 0x200000 1 3 2)
    let bs := wbWith 0x202 [3 * 2 ^ 30, 0, 0]
    let ps := (List.range 12).map (fun k => leAt bs (12 + 4 * k) 4)
    let bad : State := { taking with poison := [(0, true)] }
    let wait : State := taking.setFld (sa 0 0) 0 3 1
    taking.mayTake 0 = true ∧ taking.mayFlit 1 = true ∧ ringUp.mayFlit 1 = false ∧ taking.ready = true ∧ taking.InTurn ∧
    (taking.setFld 0x200000 0 1 0).ready = false ∧ (taking.setFld 0x200000 0 1 0).mayTake 0 = true ∧ 0x202 ∉ [0x100, 0x101, 0x102] ∧
    bs.length = 64 ∧ (crc32c 0 (bs.take 60)).toNat = leAt bs 60 4 ∧ leAt bs 4 4 = 0 ∧ leAt bs 3 1 = 1 ∧ leAt bs 0 2 ∈ wbOpcodes ∧
    taking.wbHead 0x202 false ps = none ∧ wbSet 0x202 = true ∧ ps.getD 0 0 / 2 ^ 30 = 3 ∧ pastEnd (pPair ps 1) 256 = false ∧
    taking.pstate = 0 ∧ low.pstate = 2 ∧ taking.rangeUp 0 256 = true ∧ wait.rangeUp 0 256 = false ∧ wait.wbHead 0x202 false ps = none ∧
    taking.firstPoison 0 256 = none ∧ (bad.firstPoison 0 256).isSome = true ∧ bad.rangeUp 0 256 = true := by decide +kernel

/-- WaybillsStartAndEnd: a waybill that a service sequence keeps out, one whose range is not up; a pause that waits for the waybill that
times out, another's; receipts with IRQ, of a ring with IRQ, masked and not. -/
theorem test_witness_waybill_ends :
    let w : Wb := wbOf 0x301 [0, 0, 0, 0, 64, 0]
    let s : State := withWb on w
    let v : State := s.setFld 0x104004 0 3 1
    let p (x : Option (Nat × Nat)) : Pause := { clus := [0], b := 0, wb := x }
    s.wb 0 0 = some w ∧ v.svcPhase = 1 ∧ wbClass 0x301 ∈ [2, 3, 4, 5, 6, 7, 9] ∧ s.startOf 0 w = .starts ∧
    s.powerForbids 0x301 w.params [] = false ∧ ({ s with poison := [] } : State).rangeUp 0 64 = true ∧
    (s.setFld (sa 0 0) 0 3 1).rangeUp 0 64 = false ∧ s.interprets = true ∧ w.phase < 2 ∧ wbLimited 0x700 5 = true ∧
    (p (some (0, 0))).st = 1 ∧ (p (some (0, 0))).wb = some (0, 0) ∧ (p none).wb ≠ some (0, 0) ∧
    ({ w with phase := 2 } : Wb).phase = 2 ∧ on.ringSize 0 ≠ 0 ∧ w.irq = false ∧ ({ w with irq := true } : Wb).irq = true ∧
    (on.reg (ra 0 0)).getLsbD 5 = false ∧ ((on.setFld (ra 0 0) 5 1 1).reg (ra 0 0)).getLsbD 5 = true ∧ on.boot.switching = none ∧
    (on.reg 0x600020).getLsbD 0 = true ∧ ((on.setRegN 0x600020 0).reg 0x600020).getLsbD 0 = false ∧ 0 ∉ on.unmasked := by
  decide +kernel

/-- ResetWaybillsAct: the last kc of a stage and one before; a pause that waits for the waybill cancelled, and one that does not. -/
theorem test_witness_resets :
    let s (opc : Nat) : State := { withWb on (wbOf opc [1, 0, 0, 0] [0]) with kc := 8191 }
    let q (wb : Nat) : State := { on with
      rings := [(0, { taken := [wbOf 0x106 [1, 5]] }), (1, { taken := [{ wbOf 0x700 [] with seq := 5 }] })]
      pause := some { clus := [0], b := 9, wb := some (wb, 0) } }
    (s 0x103).Starts 0x103 0 0 (wbOf 0x103 [1, 0, 0, 0] [0]) ∧ (s 0x104).Starts 0x104 0 0 (wbOf 0x104 [1, 0, 0, 0] [0]) ∧
    (s 0x105).Starts 0x105 0 0 (wbOf 0x105 [1, 0, 0, 0] [0]) ∧ (s 0x103).lastKc = true ∧ ({ s 0x103 with kc := 8190 } : State).lastKc = false ∧
    (s 0x103).trans = none ∧ (q 1).pause.isSome = true ∧ (q 1).Starts 0x106 0 0 (wbOf 0x106 [1, 5]) ∧
    ((q 1).pause.bind (fun p => p.wb)) = some (1, 0) ∧ ((q 0).pause.bind (fun p => p.wb)) ≠ some (1, 0) := by decide +kernel

/-- ImageWaybillsAct, StackAndLinkWaybillsAct: a SAVE past the end of memory, a pause that has settled and one that has not; PORT waybills
that wait for their port, with the port where they want it, DOWN, elsewhere, and another waybill; a book that musters. -/
theorem test_witness_ports_and_saves :
    let p (k : Nat) : State := { on with pause := some { clus := [0], b := 0, wb := none, st := k } }
    let w (op : Nat) : Wb := { wbOf 0x601 [3 + 16 * op] with phase := 2 }
    let s (op st : Nat) : State := withWb (on.setFld (pa 3 0) 0 3 st) (w op)
    let b : Book := { rbid := 1, lead := 0, stepk := 0, depth := 1, voteKc := 70, mods := [[]], rings := [], relays := [] }
    pastEnd (2 ^ 40 - 64) (4096 + recSize) = true ∧ pastEnd 0 (4096 + recSize) = false ∧ ((p 3).pause.map (fun x => x.st)) = some 3 ∧
    ((p 2).pause.map (fun x => x.st)) = some 2 ∧ on.rangeUp (2 ^ 40 - 64) 0 = true ∧
    ((s 0 3).ring 0).taken = [w 0] ∧ (s 0 3).lnk 3 = 3 ∧ (s 1 2).lnk 3 = 2 ∧ (s 3 0).lnk 3 = 0 ∧ (s 1 4).lnk 3 = 4 ∧ (s 1 1).lnk 3 = 1 ∧
    (w 2).params.getD 0 0 / 16 % 4 = 2 ∧ (∀ q, q < 16 → q ≠ 0 → ((s 0 3).ring q).taken = []) ∧ ({ w 0 with phase := 1 } : Wb).phase ≠ 2 ∧
    (withWb on (wbOf 0x600 [])).musterCause (some b) 0 = 0 := by decide +kernel

/-- SecurityWaybillsAct, PowerWaybillsAct, GlazeAndWindowWaybillsAct: a stack in HOLD and one that is not; recovery; a phase 5 that ends. -/
theorem test_witness_security_and_power :
    let h : State := on.setFld (sa 2 0) 0 3 4
    let r : State := { on with boot := { recovery := true } }
    h.stackState 2 = 4 ∧ on.stackState 2 ≠ 4 ∧ r.boot.recovery = true ∧ on.boot.recovery = false ∧ on.firstPoison 0 512 = none ∧
    ((on.setFld 0x200000 1 3 3).setFld 0x104004 0 3 5).svcPhase = 5 ∧ (on.setFld 0x200000 1 3 2).pstate = 2 ∧ on.gradeMax < 2 ^ 16 ∧
    on.anyRuns = none ∧ (withCl cl).anyRuns.isSome = true ∧ ((0, 3) ∈ [(0, 1), (0, 2), (0, 3)]) ∧
    ({ on with trans := some (1, false) } : State).trans.isSome = true := by decide +kernel

/-! Registers -/

/-- ReadsHoldPartnerWords and RegisterWritesFollowTheirFields: a counter's low word; no window, no register, an unaligned address; a
plain register; the ends of a register's bits; ARM in a window whose domain is on and in one that is off. -/
theorem test_witness_registers :
    let off : State := { on with tripped := true }
    winOf 0x400 = some .global ∧ pairLow .global 0x400 = true ∧ on.winOn .global = true ∧ winOf 0x700000 = none ∧
    fldsOf on.grade .global 0xFFC = [] ∧ on.winOn (.cluster 0) = true ∧ off.winOn (.cluster 0) = false ∧ 0x402 % 4 ≠ 0 ∧
    on.tth = 1 ∧ State.reset.tth ≠ 1 ∧
    (sget noCaught on.caught 0x400).regs = [] ∧
    winOf 0x500000 = some .caravan ∧ fldsOf on.grade .caravan 0x18 ≠ [] ∧ armOf .caravan ≠ some 0x500018 ∧ 31 < 32 ∧
    on.winOn (ArmWin.win .global) = true ∧ off.winOn (ArmWin.win (.cluster 0)) = false ∧
    sget noWord on.latch 0x404 = none ∧ regPair (.stack 7) (sa 7 0x18) = none ∧ (sget noCount on.counted (sa 7 0x18)).2 = 0 ∧
    fldsOf on.grade (.stack 7) (sa 7 0x18 - (Win.stack 7).base) = [⟨0, 32, .rw, .keep, 0⟩] ∧
    (sget noCount on.counted ((regPair .global 0x400).getD 0x400)).2 = 0 := by decide +kernel

/-- R460: a counter written in the kc in which it has counted 2, and a pair of counters whose low word carries. -/
theorem test_written_counters_keep_the_kcs_counts :
    ((on.count (sa 7 0x18) 2).plainWrite (.stack 7) (sa 7 0x18) 10).regN (sa 7 0x18) = 12 ∧
    ((on.count64 0x720 3).plainWrite .global 0x720 0xFFFFFFFF).reg64 0x720 = 0x100000002 := by decide +kernel

/-- R448: of two events of one kc the lower CODE has the lower SEQ; in another kc the order is that of the raises. -/
theorem test_events_of_a_kc_are_in_order :
    let two (s : State) : List (Nat × Nat) := (s.raise 8 1 0 0 0).events.map (fun e => (evCode e.ix, e.seq))
    let one := on.raise 15 0 0 0 0
    two one = [(0x109, 0), (0x301, 1)] ∧ two one.newKc = [(0x301, 0), (0x109, 1)] := by decide +kernel

/-- CheckUnitsWork: a unit at rest and one that is busy; a comparison that fits and one that does not; the largest fold. -/
theorem test_witness_checks :
    let busy : State := { on with checks := [(3, { busy := 47 })] }
    on.phase ≠ 0 ∧ (sget idleChk on.checks 3).busy = 0 ∧ 0 < (sget idleChk busy.checks 3).busy ∧ busy.phase ≠ 0 ∧ 2 ^ 32 - 1 < 2 ^ 32 ∧
    (sget idleChk on.checks 3).result = 0 ∧ on.regN (ha 3 0x1C) = 0 ∧ (on.setRegN (ha 3 0x1C) 1).regN (ha 3 0x1C) ≠ 0 := by decide +kernel

/-- ControlRegistersAct: words 14 and 15 of a descriptor whose stream rests and of one that runs; the pin with row 7 idle and not; tandem
modes; the event ring's SIZE 4; pointers at and past EVT_WR; an interrupt that waits; a transition under way. -/
theorem test_witness_controls :
    let run : Cluster := { cl with streams := [(0, { run := true })] }
    let t : State := { on with trans := some (1, false) }
    on.winOn (.cluster 0) = true ∧ ((withCl run).cl 0).descUsed ((withCl run).fld (ca 0 0x440) 0 6) = true ∧
    ((withCl cl).cl 0).descUsed 0 = false ∧ (14 : Fin 16).val < 15 ∧ (15 : Fin 16).val = 15 ∧ on.grade = .xa2048 ∧
    1 ≠ on.fld 0x600 0 1 ∧ 0 = on.fld 0x600 0 1 ∧ 112 ∈ rowSeven ∧ (on.cl 112).st = 0 ∧
    ({ on with clusters := [(112, cl)] } : State).cl 112 = cl ∧
    (0x101#32).toNat % 4 ≠ 3 ∧ bits (0x101#32).toNat 8 8 ≠ 0 ∧ (0x101#32).toNat % 4 ≠ on.tmode ∧ (0x100#32).toNat % 4 = on.tmode ∧
    4 ≤ bits (9#32).toNat 1 4 ∧ (on.reg 0x106000).getLsbD 0 = false ∧ (on.regN 0x10600C + 2 ^ 32 - on.regN 0x106010) % 2 ^ 32 < 1 ∧
    on.winOn .tether = true ∧ on.reg 0x600024 = 0 ∧
    ((on.setRegN 0x600024 (2 ^ 31)).setRegN 0x600020 (2 ^ 31)).reg 0x600024 = BitVec.ofNat 32 (2 ^ 31) ∧
    t.trans.isSome = true ∧ on.trans = none ∧ (0xA501#32).toNat.testBit 0 = true ∧ bits (0xA501#32).toNat 8 8 = 0xA5 := by decide +kernel

/-- RegisterWritesFollowTheirFields, ReadsHoldPartnerWords: a register of each window without controls, one that a waybill has written in the
kc, bits set in the kc, a block that a waybill has armed; the ends of a plain register. -/
theorem test_witness_register_writes :
    let s : State := (on.wbWrote 0x1008 4 0xFF).wbWrote 0x500FF0 4 3
    let f : Fld → Bool := fun f => f.acc = .rw || f.acc = .rws
    on.InTurn ∧ on.wbMask 0x1008 = 0 ∧ s.wbMask 0x1008 = 0xFF ∧ s.wbMask 0x500FF0 ≠ 0 ∧ winOf 0x1008 = some .ration ∧
    fldsOf on.grade .ration 8 ≠ [] ∧ on.winOn .ration = true ∧ armOf .ration ≠ some 0x1008 ∧ on.wbMask (ra 0 0) = 0 ∧ on.wbMask 0x700 = 0 ∧
    (fldsOf on.grade .events 0).any f = true ∧ (fldsOf on.grade .events 0).any (fun f => f.acc = .w1c) = true ∧
    ((on.setBits 0x106000 32).caught ≠ []) ∧ ((sget noCaught (on.setBits 0x106000 32).caught 0x106000).bits.testBit 5 = true) ∧
    (sget noCaught on.caught 0x106000).regs = [] ∧ (sget noCaught on.caught 0x106000).bits = 0 := by decide +kernel

/-- CheckUnitsWork: a unit whose busy time ends in the tick and one that stays busy. -/
theorem test_witness_check_ticks :
    let s : State := { on with checks := [(3, { busy := 47, queue := [.compare] })] }
    46 < (sget idleChk s.checks 3).busy ∧ (sget idleChk s.checks 3).busy ≤ 47 ∧ on.InTurn := by decide +kernel

/-- ControlRegistersAct: descriptor words that pass R191's checks and that do not; resets in the last kc of a stage, over an active Tether
and with it down, with KEY and without; the first release of SB_RST_N and a later one; start-up that the lever holds. -/
theorem test_witness_reset_registers :
    let l : State := { on with kc := 8191 }
    let d : State := on.setFld 0x600000 0 2 2
    let r : State := { on with side := { rstLow := true } }
    let h : State := { State.reset with held := true }
    (descOf (descBytes 8 0)).ok 0 = true ∧ (descOf (List.replicate 64 0)).ok 0 = false ∧ l.lastKc = true ∧ on.lastKc = false ∧
    on.trans = none ∧ on.tth = 1 ∧ d.tth ≠ 1 ∧ (0xA501#32).toNat.testBit 0 = true ∧ ¬ ((1#32).toNat.testBit 0 = true ∧ bits (1#32).toNat 8 8 = 0xA5) ∧
    r.side.rstLow = true ∧ r.held = false ∧ on.side.rstLow = false ∧ h.held = true ∧ (h.reg 0x104004).getLsbD 9 = false ∧ h.phase ≠ 0 ∧
    ({ on with resets := [.eng 1, .mod 2] } : State).resets = [.eng 1, .mod 2] ∧ on.resets = [] := by decide +kernel

/-! Power, start-up, service, test port, sideband -/

/-- PowerEventsActAndResetsLeave: a module that is off and one that is on; an excursion under way; a trip. -/
theorem test_witness_power_events :
    ({ on with phase := 0 } : State).phase = 0 ∧ on.phase ≠ 0 ∧ on.svc.uv = false ∧
    ({ on with svc := { uv := true } } : State).svc.uv = true ∧
    on.tripped = false ∧ ({ on with tripped := true } : State).tripped = true := by decide +kernel

/-- StartUpButtonAndLeverAct: each phase of start-up, with the lever closed and open; banks that verify and not; presses of
999, 1,000, 7,999 and 8,000 ms; the lever and a latch in each position. -/
theorem test_witness_start_up :
    let at_ (p : Nat) : State := { State.reset with phase := p }
    let shut (p : Nat) : State := (at_ p).setFld 0x104004 9 1 1
    let bad : FwBank := { ok := false }
    let banks (a b : FwBank) : State := { at_ 2 with boot := { fw0 := a, fw1 := b } }
    let beds : State := { at_ 2 with boot := { beds := [(7, some bad)], bedsOld := [(7, some bad)] } }
    (at_ 1).failed = false ∧ (at_ 1).held = false ∧ (at_ 1).tap.waiting = false ∧ (at_ 1).svc.forcedDue = false ∧
    ((shut 1).reg 0x104004).getLsbD 9 = true ∧ ((at_ 1).reg 0x104004).getLsbD 9 = false ∧
    (banks {} bad).bankCause {} = 0 ∧ (banks bad {}).bankCause bad ≠ 0 ∧ (at_ 2).boot.revoked.testBit 0 = false ∧
    (∀ k < 8, (at_ 2).storedCause 1 ((at_ 2).bedOf k) = 0) ∧ (∀ j < 8, beds.storedCause 1 (beds.bedOf j) ≠ 0 ↔ j = 7) ∧
    beds.storedCause 1 (beds.bedBefore 7) ≠ 0 ∧ (at_ 5).tap.ir ≠ 3 ∧ (at_ 4).glazeBad = false ∧
    ({ at_ 4 with boot := { glz := some ([], {}) } } : State).glazeBad = true ∧ (at_ 5).rationsBad = false ∧ (at_ 6).phase = 6 ∧
    (at_ 5).phase < 6 ∧
    (at_ 5).trans = none ∧ ({ at_ 1 with held := true } : State).held = true ∧ 999 < 1000 ∧ 1000 ≤ 1000 ∧ 7999 < 8000 ∧ 8000 ≤ 8000 ∧
    ((on.svcBit 8 0).reg 0x104000).getLsbD 5 = false ∧ (((on.setFld 0x104000 5 1 1).svcBit 8 0).reg 0x104000).getLsbD 5 = true ∧
    (on.svcBit 8 0).svcPhase = 0 ∧ ((on.setFld 0x104004 0 3 2).svcBit 8 0).svcPhase ≠ 0 ∧
    (on.reg 0x104014).getLsbD 3 = false ∧ ((active 3).setFld 0x104014 3 1 1).lnk 3 = 2 ∧
    (((active 3).setFld 0x104014 3 1 1).reg 0x104014).getLsbD 3 = true := by decide +kernel

/-- ServiceRunsItsPhases: each phase of the sequence; a request put off; a set that is paused to be saved. -/
theorem test_witness_service :
    let ph (k : Nat) : State := on.setFld 0x104004 0 3 k
    let busy : State := withWb on { wbOf 0xA00 [1] with phase := 2 }
    let run : State := { ph 2 with clusters := [(0, cl)] }
    let sv : State := { ph 2 with svc := { saving := true }, pause := some { clus := [0], b := 0, wb := none, st := 3 } }
    on.phase = 6 ∧ on.svc.forcedDue = false ∧ on.svcPhase = 0 ∧ on.busyBig = false ∧ busy.busyBig = true ∧ on.pstate < 2 ∧
    on.trans = none ∧ ({ on with trans := some (2, true) } : State).trans.isSome = true ∧ (on.setFld 0x200000 0 1 0).ready = false ∧
    on.ready = true ∧ sv.presentList.any (fun n => decide ((sv.cl n).st = 2)) = false ∧
    ({ sv with clusters := [(1, cl)] } : State).presentList.any
      (fun n => decide ((({ sv with clusters := [(1, cl)] } : State).cl n).st = 2)) = true ∧
    (ph 1).svcPhase = 1 ∧ (ph 3).svcPhase = 3 ∧ (ph 4).svcPhase = 4 ∧ (ph 1).pause = none ∧ (ph 2).svc.saving = false ∧
    (ph 2).presentList.any (fun n => decide (((ph 2).cl n).st = 2)) = false ∧
    run.presentList.any (fun n => decide ((run.cl n).st = 2)) = true ∧
    sv.svcPhase = 2 ∧ sv.svc.saving = true ∧ sv.svc.forcedDue = false ∧ sv.pause.isSome = true ∧
    (∀ p < 16, (ph 4).lnk p = 0 ∨ (ph 4).lnk p = 3 ∨ (ph 4).lnk p = 4) ∧ (ph 4).teth.txq = [] ∧ (ph 4).rings = [] := by decide +kernel

/-- TestPortAndSidebandAnswer: the test port drives the contacts before READY and not after; sensors 1 and 17, available and gone, and the
numbers next to them; I3C and SMBus. -/
theorem test_witness_test_port_and_sideband :
    let b : State := { State.reset with phase := 2 }
    let gone : State := on.setRegN (0x106100 + 4 * 17) 0x8000
    on.phase ≠ 0 ∧ on.tap.waiting = false ∧ b.tapDrives = true ∧ on.tapDrives = false ∧ on.sensorGone 1 = false ∧
    gone.sensorGone 17 = true ∧ 1 ≤ 1 ∧ 17 ≤ 17 ∧ 17 < 18 ∧ on.side.smbus = false ∧
    ({ on with side := { smbus := true } } : State).side.smbus = true := by
  decide +kernel

/-- PowerEventsActAndResetsLeave: power to a module that is off and to one that is on; an UPDATE that writes. A package that verifies cannot
be shown here: whether it does rests on the root keys, which are free. -/
theorem test_witness_power_and_torn_writes :
    let w : Wb := { wbOf 0x900 [0, 0, 512, 0] with phase := 1 }
    let s : State := withWb on w
    (s.ring 0).taken = [w] ∧ (∀ q, q ≠ 0 → (s.ring q).taken = []) ∧ w.opc = 0x900 ∧ 1 ≤ w.phase ∧ s.boot.recovery = false ∧
    ({ on with phase := 0 } : State).phase = 0 := by
  refine ⟨by decide +kernel, ?_, by decide +kernel⟩
  intro q hq
  simp [State.ring, withWb, sget, idleRing, Ne.symm hq]

/-- StartUpButtonAndLeverAct: SB_RST_N low at power; start-up that an 8 s press stops, in phases C, D and E; a stored glaze image, ration
tables and bedrock images that fail; a press of 19 and of 20 ms; the lever opened in phases A, B and 6, in phase 5 of a service sequence,
without power; a latch that opens on a port at rest and on one that trains. -/
theorem test_witness_start_up_and_button :
    let at_ (p : Nat) : State := { State.reset with phase := p }
    let due (p : Nat) : State := { at_ p with svc := { forcedDue := true } }
    let bad : FwBank := { ok := false }
    let st (g : Option (List Byte × FwBank)) : State := { at_ 2 with boot := { glz := g } }
    let low : State := { at_ 1 with side := { rstLow := true } }
    let lever (s : State) : State := s.setFld 0x104004 9 1 1
    let lock : State := on.setFld 0x104000 5 1 1
    low.side.rstLow = true ∧ ((lever low).reg 0x104004).getLsbD 9 = true ∧ (at_ 1).side.rstLow = false ∧
    (due 3).svc.forcedDue = true ∧ (due 3).ready = false ∧ (due 4).glazeBad = false ∧ (due 5).rationsBad = false ∧ (due 3).failed = false ∧
    (st none).boot.revoked.testBit 0 = false ∧ (st (some ([], bad))).storedCause 2 bad = 1 ∧ (st (some ([], {}))).storedCause 2 {} = 0 ∧
    ({ at_ 2 with boot := { revoked := 1 } } : State).boot.revoked.testBit 0 = true ∧ (at_ 5).svc.asked = false ∧
    (on.svcBit 8 0).svcPhase = 0 ∧ ((on.setFld 0x104004 0 3 1).svcPhase ≠ 0) ∧ (lock.reg 0x104000).getLsbD 5 = true ∧
    (on.reg 0x104000).getLsbD 5 = false ∧ 19 < 20 ∧ 20 ≤ 20 ∧ on.phase = 6 ∧ (at_ 2).ready = false ∧ (at_ 2).held = false ∧
    ({ at_ 1 with held := true } : State).held = true ∧ ((lever (at_ 0)).reg 0x104004).getLsbD 9 = true ∧ (lever (at_ 2)).phase = 2 ∧
    ((lever on).reg 0x104004).getLsbD 9 = true ∧ ((lever on).setFld 0x104004 0 3 5).svcPhase = 5 ∧ (lever on).svcPhase ≠ 5 ∧
    (((on.setFld (pa 3 0) 0 3 1).setFld 0x104014 3 1 1).lnk 3 = 1) ∧ (on.setFld 0x104014 3 1 1).lnk 3 = 0 ∧ (at_ 0).phase = 0 := by
  decide +kernel

/-- ServiceRunsItsPhases: a module reset that runs; HOLD and STANDBY; a pause of the sequence's own that has not begun, a host's, one that
has; a port to drain; a saved set with a cluster beside it that runs, a range that is not up; a wait that ends before the pause; what
keeps phase 4 from its end. -/
theorem test_witness_service_cases :
    let r : State := { (State.reset.setFld 0x200008 0 2 2) with phase := 3 }
    let ps (k : Nat) : State := on.setFld 0x200000 1 3 k
    let ph (k : Nat) : State := on.setFld 0x104004 0 3 k
    let own (st : Nat) (wb : Option (Nat × Nat)) : State :=
      { ph 2 with svc := { saving := true }, pause := some { clus := [0], b := 0, wb := wb, st := st } }
    let msg : TxMsg := { act := 7, due := 0, msg := .mem 0 [] }
    let busy : State := { ph 4 with teth := { txq := [msg] } }
    r.modResetRuns = true ∧ r.svcPhase = 0 ∧ on.modResetRuns = false ∧ (ps 2).pstate = 2 ∧ (ps 3).pstate = 3 ∧ (ps 2).svcPhase = 0 ∧
    (own 1 none).svc.saving = true ∧ (own 1 none).svcPhase = 2 ∧ ((own 1 none).pause.map (fun p => (p.st, p.wb))) = some (1, none) ∧
    ((own 1 (some (0, 0))).pause.map (fun p => p.wb)) = some (some (0, 0)) ∧ ((own 3 none).pause.map (fun p => p.st)) = some 3 ∧
    (active 3).lnk 3 = 2 ∧ (∀ q < 16, q ≠ 3 → (active 3).lnk q ≠ 2) ∧ (∀ q < 16, on.lnk q ≠ 2) ∧
    (own 3 none).presentList.any (fun n => decide (((own 3 none).cl n).st = 2)) = false ∧
    (own 3 none).rangeUp ((own 3 none).reg64 0x104008) (4096 + recSize) = true ∧
    ((own 3 none).setFld (sa 0 0) 0 3 1).rangeUp 0 (4096 + recSize) = false ∧
    ({ domain.setFld 0x104004 0 3 2 with svc := { saving := true } } : State).mustered = true ∧
    ({ domain.setFld 0x104004 0 3 2 with svc := { saving := true } } : State).svcPhase = 2 ∧
    (ph 4).svcPhase = 4 ∧ (ph 4).queued = [] ∧ (ph 4).teth.sent = [] ∧ (ph 4).teth.replay = [] ∧ (∀ q < 16, ((ph 4).ring q).taken = []) ∧
    busy.teth.txq.any (fun m => m.msg.isMem) = true ∧ ({ on with svc := { forcedDue := true } } : State).svc.forcedDue = true ∧
    on.InTurn ∧ (ph 3).InTurn := by decide +kernel

/-- TestPortAndSidebandAnswer: codes at the ends of those that name no instruction, start-up that waits for EXTEST, a module off, the
contacts under each instruction; a module in STANDBY. -/
theorem test_witness_test_port :
    let ir (k : Nat) : State := { on with tap := { ir := k } }
    (6#8).toNat > 5 ∧ (1#8).toNat ≤ 5 ∧ (0#8) = 0 ∧ ({ on with tap := { waiting := true } } : State).tap.waiting = true ∧
    ({ on with phase := 0 } : State).phase = 0 ∧ (ir 3).tap.ir = 3 ∧ (ir 4).tap.ir = 4 ∧ (ir 5).tap.ir = 5 ∧ on.tap.ir = 1 ∧
    (on.setFld 0x200000 1 3 3).pstate = 3 ∧ on.ready = true ∧ on.pstate ≠ 3 := by decide +kernel

/-! The whole machine -/

/-- StepRunsTheFrontCommand, StepsKeepTheQueue, StepsKeepMemoryCanonical, StepsNeverUnfuse: a queue of two, memory with a byte, and the
step that a NOP of a running cluster makes. -/
theorem test_witness_steps :
    let s : State := { withCl cl with pending := [.nop 0 .access, .idcode], loess := [(0, 1)] }
    s.pending = .nop 0 .access :: [.idcode] ∧ s.memOk ∧ on.pending = [] ∧
    (match step s with
      | .next t => decide (t.pending = [.idcode]) && decide ((t.cl 0).acc.ix = 1) && decide (t.loess = [(0, 1)])
      | _ => false) = true := by decide +kernel

/-- WellFormedCommandsNeverStop: a well-formed command. -/
theorem test_witness_well_formed : (Instr.nop 0 .access).wf = true := by decide

/-! Instructions on one state -/

/-- What a command leaves of cluster 0. -/
def after (i : Instr) (s : State) : Cluster := match exec i s with | .next t => t.cl 0 | _ => {}

theorem test_loop_goes_back_then_on :
    (after (.loop 0 .access 2 0) (withCl { cl with acc := { ix := 4 } })).acc.ix = 0 ∧
    (after (.loop 0 .access 1 0) (withCl { cl with acc := { ix := 4 } })).acc.ix = 5 := by decide +kernel

theorem test_swap_exchanges_banks : (after (.swap 0) (withCl cl)).active = true := by decide +kernel

theorem test_setp_compares_staging :
    let s : State := withCl (cl.setStg 64 [5, 0, 0, 0])
    (match exec (.setp 0 { setpF with imm := 5 }) s with | .next t => sget zeroNat t.preds 3 | _ => 0) = 3 ∧
    (match exec (.setp 0 { setpF with imm := 6 }) s with | .next t => sget zeroNat t.preds 3 | _ => 0) = 1 := by decide +kernel

theorem test_loess_write_reads_back :
    let w : Req := { write := true, addr := 510, src := .car 0 0 0 510 2,
                     bytes := [{ addr := 510, mask := 3, val := 1 }, { addr := 511, mask := 3, val := 2 }] }
    (match exec (.loessWrite 0 0 []) { on with dies := [(0, { accepted := [w] })] } with | .next t => t.loessRead 509 4 | _ => []) =
      [0, 1, 2, 0] := by decide +kernel

theorem test_check_unit_gives_the_published_value :
    (crc32c 0 [0x31, 0x32, 0x33, 0x34, 0x35, 0x36, 0x37, 0x38, 0x39]) = 0xE3069283#32 := by decide +kernel

end Sys2Proof.Tests
end

section
/-! SUPPORT. An access of the host in its turn, what a read of a register returns, holding copies, and the answer to a read
(R10, R11, R374 to R376, R379, R459). -/

namespace Sys2Proof.Machine

/-! Accesses in their turn (R376, R379) -/

/-- The slot a register write takes is no Loess write that anything waits for. -/
@[simp] theorem State.fromHost_writesWait (s : State) (act : Nat) : (s.fromHost act).writesWait = s.writesWait := by
  simp [State.fromHost, State.writesWait]

/-- An access in its turn acts at once; a register write has taken its slot before. -/
theorem State.hostAccess_of_inTurn {s : State} (hs : s.InTurn) (i : HostAcc) :
    s.hostAccess i = (if i.slotted then s.arrived else s).perform i := by
  unfold State.hostAccess State.arrived
  by_cases ht : s.tth = 1
  · obtain ⟨hl, hw⟩ := hs ht
    have hl' : (s.fromHost 1).teth.later = [] := hl
    cases hi : i.slotted <;> simp [ht, hl, hl', hw, State.inTurnNow]
  · simp [ht]

/-- An access that takes no slot of its own, in its turn, only acts. -/
theorem State.hostAccess_of_not_slotted {s : State} (hs : s.InTurn) {i : HostAcc} (hi : i.slotted = false) :
    s.hostAccess i = s.perform i := by
  rw [State.hostAccess_of_inTurn hs, hi, if_neg Bool.false_ne_true]

/-! The three reads of registers in their turn (R11, R144, R368) -/

theorem exec_counterLowRead_of_inTurn {s : State} (hs : s.InTurn) (a : Nat) :
    exec (.counterLowRead a) s = .next (s.readCounter a) :=
  congrArg Host.Outcome.next (State.hostAccess_of_not_slotted hs rfl)

theorem exec_wbrDbRead_of_inTurn {s : State} (hs : s.InTurn) (r : Fin 16) :
    exec (.wbrDbRead r) s = .next (((s.hold (ra r 0x18)).hold (ra r 0x1C)).answerRead (ra r 0x14)) :=
  congrArg Host.Outcome.next (State.hostAccess_of_not_slotted hs rfl)

theorem exec_qntWposRead_of_inTurn {s : State} (hs : s.InTurn) (cl : ClusterNo) :
    exec (.qntWposRead cl) s = .next ((s.hold (ca cl 0x20C)).answerRead (ca cl 0x208)) :=
  congrArg Host.Outcome.next (State.hostAccess_of_not_slotted hs rfl)

/-! What a read of an address does, by the register it names (R10, R11, R375) -/

theorem State.readCounter_unaligned (s : State) {a : Nat} (ha : a % 4 ≠ 0) :
    s.readCounter a = if s.tth = 1 then (s.tthErr 1 2 a).completeWord a 0xFFFFFFFF#32 else s := by
  rw [State.readCounter, if_pos ha]

theorem State.readCounter_no_window (s : State) {a : Nat} (ha : a % 4 = 0) (hw : winOf a = none) :
    s.readCounter a = s.answerRead a := by
  simp [State.readCounter, ha, hw]

/-- The low word of a pair holds its partner before it is answered. -/
theorem State.readCounter_low_word (s : State) {a : Nat} {w : Win} (ha : a % 4 = 0) (hw : winOf a = some w)
    (hp : pairLow w (a - w.base) = true) (hon : s.winOn w = true) : s.readCounter a = (s.hold (a + 4)).answerRead a := by
  simp [State.readCounter, ha, hw, hp, hon]

theorem State.readCounter_without_partner (s : State) {a : Nat} {w : Win} (ha : a % 4 = 0) (hw : winOf a = some w)
    (h : pairLow w (a - w.base) = false ∨ s.winOn w = false) : s.readCounter a = s.answerRead a := by
  rcases h with hp | hoff
  · simp [State.readCounter, ha, hw, hp]
  · simp [State.readCounter, ha, hw, hoff]

/-! What a read returns (R10, R459) -/

theorem State.readReg_no_window (s : State) {a : Nat} (hw : winOf a = none) : s.readReg a = 0 := by
  simp [State.readReg, hw]

theorem State.readReg_window_off (s : State) {a : Nat} {w : Win} (hw : winOf a = some w) (hoff : s.winOn w = false) :
    s.readReg a = 0 := by
  simp [State.readReg, hw, hoff]

theorem State.readReg_no_register (s : State) {a : Nat} {w : Win} (hw : winOf a = some w)
    (hf : fldsOf s.grade w (a - w.base) = []) : s.readReg a = 0 := by
  simp [State.readReg, hw, hf]

/-- Where `addrOn` fails, an address reads 0: a holding copy and the register agree there. -/
theorem State.readReg_of_not_addrOn (s : State) {a : Nat} (h : s.addrOn a = false) : s.readReg a = 0 := by
  unfold State.addrOn at h
  split at h
  case h_1 w hw => exact s.readReg_window_off hw h
  case h_2 hw => exact s.readReg_no_window hw

/-! Holding copies (R11) -/

/-- Holding a copy touches no power domain. -/
@[simp] theorem State.hold_addrOn (s : State) (a b : Nat) : (s.hold a).addrOn b = s.addrOn b := rfl

@[simp] theorem State.hold_latch_same (s : State) (a : Nat) : sget noWord (s.hold a).latch a = some (s.readReg a) :=
  sget_sput_same noWord s.latch a (some (s.readReg a))

theorem State.hostRead_of_no_copy (s : State) {a : Nat} (h : sget noWord s.latch a = none) :
    s.hostRead a = (s.readReg a, s) := by
  rw [State.hostRead, h]

theorem State.hostRead_of_copy (s : State) {a : Nat} {v : Word} (h : sget noWord s.latch a = some v) :
    s.hostRead a = (if s.addrOn a then v else 0, { s with latch := sput noWord s.latch a none }) := by
  rw [State.hostRead, h]

/-- The next read of a held register returns what it read when the copy was taken, and ends the copy. -/
theorem State.hostRead_hold_same (s : State) (a : Nat) :
    (s.hold a).hostRead a = (s.readReg a, { s.hold a with latch := sput noWord (s.hold a).latch a none }) := by
  rw [State.hostRead_of_copy _ (s.hold_latch_same a), State.hold_addrOn]
  cases hon : s.addrOn a with
  | true => rfl
  | false => rw [s.readReg_of_not_addrOn hon]; rfl

/-! The answer (R374, R376) -/

/-- A read changes nothing but the holding copies. -/
theorem State.hostRead_frame (s : State) (a : Nat) : ∃ l, (s.hostRead a).2 = { s with latch := l } := by
  cases hc : sget noWord s.latch a with
  | none => exact ⟨s.latch, by rw [s.hostRead_of_no_copy hc]⟩
  | some v => exact ⟨_, by rw [s.hostRead_of_copy hc]⟩

/-- The answer to a read is a completion of space 2 that bears the word read and the TAG of the oldest request, which is used up. -/
theorem State.answerRead_eq (s : State) (a : Nat) :
    s.answerRead a = { (s.hostRead a).2 with teth := { (s.hostRead a).2.teth with
      tags := s.teth.tags.drop 1
      txq := s.teth.txq ++ [{ act := 1, due := s.stageNo, msg := .word (s.hostRead a).1, addr := a, space := 2,
                              tag := s.teth.tags.headD 0 }] } } := by
  obtain ⟨l, hl⟩ := s.hostRead_frame a
  unfold State.answerRead
  simp only [hl]
  rfl

/-! The obligation -/

/-- Settles O47: a read in its turn only acts, what it does goes by the register its address names, and a read of a held register
returns the copy because a copy of a register that is off would be 0 as well. -/
theorem readsHoldPartnerWords : Obligations.ReadsHoldPartnerWords := by
  unfold Obligations.ReadsHoldPartnerWords
  refine ⟨fun s a r cl => ⟨fun hs => ?_, s.hostRead_hold_same (a + 4), s.hostRead_of_no_copy, s.answerRead_eq a⟩,
    fun s a => ⟨s.readReg_no_window, fun w => s.readReg_window_off, fun w => s.readReg_no_register⟩⟩
  rw [exec_counterLowRead_of_inTurn hs]
  refine ⟨fun w ha hw => ⟨fun hp hon => ?low_word, fun hno => ?without_partner⟩, fun ha hw => ?no_window,
    fun ha ht => ?unaligned, fun ha ht => ?unaligned_down, exec_wbrDbRead_of_inTurn hs r, exec_qntWposRead_of_inTurn hs cl⟩
  case low_word => rw [s.readCounter_low_word ha hw hp hon]
  case without_partner => rw [s.readCounter_without_partner ha hw hno]
  case no_window => rw [s.readCounter_no_window ha hw]
  case unaligned => rw [s.readCounter_unaligned ha, if_pos ht]
  case unaligned_down => rw [s.readCounter_unaligned ha, if_neg ht]

end Sys2Proof.Machine
end

section
/-! SUPPORT. What the sequencing instructions of an itinerary do to the half that issues them (R56, R139, R176, R243, R244). -/

namespace Sys2Proof.Machine

section
variable {s : State} {cl : ClusterNo} {h : Half} {o : Nat}

/-! A half's program counter (R243) -/

@[simp] theorem Cluster.half_setHalf (c : Cluster) (h : Half) (p : HalfPc) : (c.setHalf h p).half h = p := by
  cases h <;> rfl

@[simp] theorem Cluster.setHalf_setHalf (c : Cluster) (h : Half) (p q : HalfPc) :
    (c.setHalf h p).setHalf h q = c.setHalf h q := by
  cases h <;> rfl

/-- Passing the instruction moves the index of a half that has been set before, and keeps the rest of it. -/
theorem Cluster.pass1_setHalf (c : Cluster) (h : Half) (p : HalfPc) :
    (c.setHalf h p).pass1 h = c.setHalf h { p with ix := p.ix + 1 } := by
  rw [Cluster.pass1, Cluster.half_setHalf, Cluster.setHalf_setHalf]

/-! NOP, GSTEP and WAITS (R56, R243, R244) -/

theorem exec_nop_of_issues (hi : s.Issues cl h o) : exec (.nop cl h) s = .next (s.setCl cl ((s.cl cl).pass1 h)) :=
  congrArg Host.Outcome.next (issue_plain hi rfl)

theorem exec_gstep_of_issues (hi : s.Issues cl .execute o) :
    exec (.gstep cl) s = .next { s.setCl cl ((s.cl cl).pass1 .execute) with gstep := true } := by
  change execGstep cl s = _
  rw [execGstep, issuing_of_issues hi, issue_plain hi rfl]

theorem exec_waits_of_at_rest (hi : s.Issues cl .access o) {d : BitVec 6} (hd : ((s.cl cl).strm d.toNat).run = false) :
    exec (.waits cl d) s = .next (s.setCl cl ((s.cl cl).pass1 .access)) :=
  congrArg Host.Outcome.next (issue_plain hi (by rw [hd, if_neg Bool.false_ne_true]))

theorem exec_waits_of_running (hi : s.Issues cl .access o) {d : BitVec 6} (hd : ((s.cl cl).strm d.toNat).run = true) :
    exec (.waits cl d) s = .next s :=
  congrArg Host.Outcome.next (issue_waits hi (by rw [hd, if_pos rfl]))

/-! STAGEW and LOOP (R243, R244) -/

theorem exec_stagew_of_issues (hi : s.Issues cl h o) :
    exec (.stagew cl h) s = .next (s.setCl cl ((s.cl cl).setHalf h
      { (s.cl cl).half h with ix := ((s.cl cl).half h).ix + 1, waitStage := true })) := by
  change Host.Outcome.next (s.issue cl h _) = _
  rw [issue_plain hi rfl, Cluster.pass1_setHalf]

/-- A LOOP that the load lets pass does what `loopTo` says. -/
theorem exec_loop_of_issues (hi : s.Issues cl h o) {count target : BitVec 16} (hwf : (Instr.loop cl h count target).wf = true) :
    exec (.loop cl h count target) s = .next (s.setCl cl (loopTo (s.cl cl) h count.toNat target.toNat)) := by
  change execLoop cl h count target s = _
  rw [execLoop, hwf, issuing_of_issues hi]
  rfl

/-- A LOOP goes back while a pass is left. -/
theorem loopTo_of_lt {c : Cluster} {h : Half} {count : Nat} (target : Nat)
    (hn : sget zeroNat (c.half h).loops (c.half h).ix + 1 < count) :
    loopTo c h count target = c.setHalf h { c.half h with
      ix := target
      loops := sput zeroNat (c.half h).loops (c.half h).ix (sget zeroNat (c.half h).loops (c.half h).ix + 1) } :=
  if_pos hn

/-- After its last pass a LOOP goes on, its counter at 0 again. -/
theorem loopTo_of_le {c : Cluster} {h : Half} {count : Nat} (target : Nat)
    (hn : count ≤ sget zeroNat (c.half h).loops (c.half h).ix + 1) :
    loopTo c h count target = c.setHalf h { c.half h with
      ix := (c.half h).ix + 1
      loops := sput zeroNat (c.half h).loops (c.half h).ix 0 } :=
  if_neg (Nat.not_lt.mpr hn)

/-! GSWITCH and WADV (R139, R176) -/

theorem exec_gswitch_of_issues (hi : s.Issues cl .execute o) :
    exec (.gswitch cl) s = .next (s.setCl cl (({ s.cl cl with gswitch := true } : Cluster).pass1 .execute)) :=
  congrArg Host.Outcome.next (issue_plain hi rfl)

theorem exec_wadv_of_issues (hi : s.Issues cl .execute o) :
    exec (.wadv cl) s = .next (s.setCl cl (({ s.cl cl with wadv := true } : Cluster).pass1 .execute)) :=
  congrArg Host.Outcome.next (issue_plain hi rfl)

end

/-! The obligation -/

/-- Settles O1: each instruction's equation for a half that issues, LOOP's by whether its counter leaves a pass to make. -/
theorem sequencingInstructionsIssue : Obligations.SequencingInstructionsIssue := by
  unfold Obligations.SequencingInstructionsIssue
  refine ⟨fun s cl h o d hi => ⟨exec_nop_of_issues hi, ?gstep, ?waits_at_rest, ?waits_running⟩,
    fun s cl h o count target hi => ⟨exec_stagew_of_issues hi, fun hwf => ⟨fun hn => ?loop_back, fun hn => ?loop_on⟩⟩,
    fun s cl o hi => ⟨exec_gswitch_of_issues hi, exec_wadv_of_issues hi⟩⟩
  case gstep =>
    rintro rfl
    exact exec_gstep_of_issues hi
  case waits_at_rest =>
    rintro rfl hd
    exact exec_waits_of_at_rest hi hd
  case waits_running =>
    rintro rfl hd
    exact exec_waits_of_running hi hd
  case loop_back => rw [exec_loop_of_issues hi hwf, loopTo_of_lt _ hn]
  case loop_on => rw [exec_loop_of_issues hi hwf, loopTo_of_le _ hn]

end Sys2Proof.Machine
end

section
/-! SUPPORT. A well-formed command leads to a next state (R31, R241, R243): the only refusals are the load's checks. -/

namespace Sys2Proof.Machine

/-- The command neither faults nor is refused. -/
def GoesOn (o : Host.Outcome State Fault Refusal) : Prop := ∃ t, o = .next t

theorem goesOn_next (t : State) : GoesOn (.next t) := ⟨t, rfl⟩

theorem goesOn_ite {p : Prop} {_ : Decidable p} {a b : Host.Outcome State Fault Refusal} (ha : GoesOn a) (hb : GoesOn b) :
    GoesOn (if p then a else b) := by
  split
  · exact ha
  · exact hb

/-- A load check that the instruction passes refuses nothing. -/
theorem goesOn_of_passes {p : Prop} {_ : Decidable p} {r : Refusal} {o : Host.Outcome State Fault Refusal} (hp : ¬p)
    (ho : GoesOn o) : GoesOn (if p then .refused r else o) := by
  rwa [if_neg hp]

/-- The same of a check that is a flag. -/
theorem goesOn_of_ok {b : Bool} {r : Refusal} {o : Host.Outcome State Fault Refusal} (hb : b = true) (ho : GoesOn o) :
    GoesOn (if !b then .refused r else o) :=
  goesOn_of_passes (by simp [hb]) ho

/-! Instructions that the load checks and that branch after the check -/

theorem execLoop_goesOn {cl : ClusterNo} {h : Half} {count target : BitVec 16} (s : State)
    (hwf : (Instr.loop cl h count target).wf = true) : GoesOn (execLoop cl h count target s) := by
  refine goesOn_of_ok hwf ?_
  split <;> exact goesOn_next _

theorem execSetp_goesOn (cl : ClusterNo) {f : SetpF} (s : State) (hoff : f.off.toNat % 4 = 0) : GoesOn (execSetp cl f s) := by
  refine goesOn_of_passes (not_not.mpr hoff) ?_
  split <;> exact goesOn_next _

theorem execGtload_goesOn (cl : ClusterNo) (region : BitVec 6) (epoch : BitVec 16) {addr : BitVec 40} (s : State)
    (haddr : addr.toNat % 512 = 0) : GoesOn (execGtload cl region epoch addr s) :=
  goesOn_of_passes (not_not.mpr haddr) (goesOn_ite (goesOn_next _) (goesOn_next _))

theorem execJob_goesOn (cl : ClusterNo) {joff : BitVec 17} (s : State) (hoff : joff.toNat % 64 = 0) :
    GoesOn (execJob cl joff s) := by
  refine goesOn_of_passes (not_not.mpr hoff) ?_
  split
  · exact goesOn_next _
  · refine goesOn_ite (goesOn_next _) ?_
    extract_lets
    split <;> exact goesOn_next _

theorem execRed_goesOn (cl : ClusterNo) {f : RedF} (s : State) (hcarry : f.carry.toNat ≠ 3) : GoesOn (execRed cl f s) := by
  refine goesOn_of_passes hcarry ?_
  split
  · exact goesOn_next _
  · refine goesOn_ite (goesOn_next _) (goesOn_ite (goesOn_next _) ?_)
    split
    · exact goesOn_next _
    · exact goesOn_ite (goesOn_next _) (goesOn_next _)

/-! A command that branches on a value of its own -/

theorem execMusterStart_goesOn (s : State) : GoesOn (execMusterStart s) := by
  unfold execMusterStart
  split
  · exact goesOn_next _
  · split
    · exact goesOn_next _
    · extract_lets wb
      clear_value wb
      cases wb with
      | none => exact goesOn_next _
      | some w =>
        dsimp only
        split <;> exact goesOn_next _

/-! All commands -/

/-- The commands are of three kinds: those the load checks, those that branch and those that do not. -/
theorem exec_goesOn_of_wf {c : Instr} (hwf : c.wf = true) (s : State) : GoesOn (exec c s) := by
  cases c
  -- what the load checks is what `wf` says, and the rest of the meaning goes on
  case loop => exact execLoop_goesOn s hwf
  case mop | read | drain | tload | glz | spair => exact goesOn_of_ok hwf (goesOn_next _)
  case setp => exact execSetp_goesOn _ s (of_decide_eq_true hwf)
  case gtload => exact execGtload_goesOn _ _ _ s (of_decide_eq_true hwf)
  case job => exact execJob_goesOn _ s (of_decide_eq_true hwf)
  case red => exact execRed_goesOn _ s (of_decide_eq_true hwf)
  case musterStart => exact execMusterStart_goesOn s
  case gstep | taskIssue | taskHalfStart | streamTokenStep | glazeVectorEntry | glazeLoadStart | glazeLoadDone | granuleIssue |
      granuleLand | writeAck | hazardNotice | specZeroDone | slotGrant | loessRead | bedrockJob | jobComplete | holdTransitionDone |
      stageHung | votePoint | leadDecisionDeadline | pauseSettled | tandemTimeout | caravanFrame | reductionChunk | delivery |
      tandemRecords | time | identMessage | readyMessage | go | dack | leave | musterTimeout | cvnUnlock | linkDown |
      trainingComplete | quiesceComplete | cageLatchClose | cageLatchOpen | tetherFlit | tetherTrained | eventDeliver |
      sensorRefresh | waybillTake | waybillTimeout | bedrockFwRestart | fwswitch | fwswitchFallback | moduleReset | powerApplied |
      startupPhaseDone | undervoltage | dieTrip | buttonPress | buttonHeld1s | buttonHeld8s | svcStopped | svcWaitExpiry |
      svcDrained | ejectorLeverOpen | getSensorReading | getPdr | setEventReceiver =>
    dsimp -zeta only [exec, execGstep, execTaskIssue, execTaskHalfStart, execStreamTokenStep, execGlazeVectorEntry,
      execGlazeLoadStart, execGlazeLoadDone, execGranuleIssue, execGranuleLand, execWriteAck, execHazardNotice, execSpecZeroDone,
      execSlotGrant, execLoessRead, execBedrockJob, execJobComplete, execHoldTransitionDone, execStageHung, execVotePoint,
      execLeadDecisionDeadline, execPauseSettled, execTandemTimeout, execCaravanFrame, execReductionChunk, execDelivery,
      execTandemRecords, execTime, execIdentMessage, execReadyMessage, execGo, execDack, execLeave, execMusterTimeout,
      execCvnUnlock, execLinkDown, execTrainingComplete, execQuiesceComplete, execCageLatchClose, execCageLatchOpen,
      execTetherFlit, execTetherTrained, execEventDeliver, execSensorRefresh, execWaybillTake, execWaybillTimeout,
      execBedrockFwRestart, execFwswitch, execFwswitchFallback, execModuleReset, execPowerApplied, execStartupPhaseDone,
      execUndervoltage, execDieTrip, execButtonPress, execButtonHeld1s, execButtonHeld8s, execSvcStopped, execSvcWaitExpiry,
      execSvcDrained, execEjectorLeverOpen, execGetSensorReading, execGetPdr, execSetEventReceiver]
    -- no branch of these refuses: follow each down to its next state
    repeat' first | with_reducible exact goesOn_next _ | extract_lets | split
  -- the others have no branch: `exec` answers one next state
  all_goals exact goesOn_next _

/-- Settles O60, by cases on the command: only the load's checks refuse, and a well-formed command passes its own. -/
theorem wellFormedCommandsNeverStop : Obligations.WellFormedCommandsNeverStop := by
  unfold Obligations.WellFormedCommandsNeverStop
  exact fun _ s hwf => exec_goesOn_of_wf hwf s

end Sys2Proof.Machine
end

section
/-! SUPPORT. What READ and DRAIN, TLOAD and MOP make of the cluster that issues them (R64, R67 to R69, R79, R81, R94, R136, R137, R257). -/

namespace Sys2Proof.Machine

/-- An instruction that issues with side effects. -/
theorem issue_acts {s : State} {n : Nat} {h : Half} {o : Nat} (hi : s.Issues n h o)
    {f : Nat → Cluster → Option (Cluster × List Act)} {c : Cluster} {as : List Act} (hf : f o (s.cl n) = some (c, as)) :
    s.issue n h f = (s.setCl n (c.pass1 h)).acts n (some o) as := by
  rw [issue_of_issues hi, hf]

/-! READ and DRAIN (R64, R67, R137) -/

section
variable {c : Cluster} {f : ReadF} {o : Nat}

theorem readIssue_of_waits (isDrain : Bool) (hw : c.tileWaits f.tile o = true) : readIssue c f isDrain o = none := by
  rw [readIssue, hw, if_pos rfl]

theorem readIssue_of_discard (isDrain : Bool) (hw : c.tileWaits f.tile o = false) (hd : (c.tile f.tile).discard = true) :
    readIssue c f isDrain o = some (c, []) := by
  rw [readIssue, hw, hd, if_neg Bool.false_ne_true, if_pos rfl]

/-- The read in progress of a tile that the drain port takes. -/
def readOut (c : Cluster) (f : ReadF) (isDrain : Bool) (o : Nat) : ReadOut :=
  { drain := isDrain, fmt := f.fmt.toNat, rnd := f.rnd.toNat, satw := f.satw, site := f.site.toNat, desc := f.desc.toNat
    task := (c.slot o).task, step := c.exec.ix, slot := o, k := (c.tile f.tile).count }

theorem readIssue_of_free (isDrain : Bool) (hw : c.tileWaits f.tile o = false) (hd : (c.tile f.tile).discard = false) :
    readIssue c f isDrain o = some (c.setTile f.tile { (c.tile f.tile).resolved with out := some (readOut c f isDrain o) },
      resolveActs (c.tile f.tile) f.tile (c.slot o).task c.exec.ix) := by
  rw [readIssue, hw, hd, if_neg Bool.false_ne_true, if_neg Bool.false_ne_true]
  rfl

end

theorem resolveActs_of_in_range {t : Tile} (h : outOfRange t = []) (n task step : Nat) : resolveActs t n task step = [] := by
  rw [resolveActs, h]

/-- The first element out of range is the one that the trap names. -/
theorem resolveActs_of_out_of_range {t : Tile} {r j : Nat} {l : List (Nat × Nat)} (h : outOfRange t = (r, j) :: l) (n task step : Nat) :
    resolveActs t n task step =
      [.flags (flagOvf ||| flagNar), .trap .array 3 n (cellIx t.path r) (cellIx t.path j) task step (t.count % 2 ^ 48)] := by
  rw [resolveActs, h]

/-- READ and DRAIN issue in the same way; the kind stands in the read in progress. -/
theorem exec_read_and_drain {s : State} {cl : ClusterNo} {f : ReadF} (hok : f.ok = true) {after : Bool → State}
    (h : ∀ isDrain, s.issue cl .execute (fun o c => readIssue c f isDrain o) = after isDrain) :
    exec (.read cl f) s = .next (after false) ∧ exec (.drain cl f) s = .next (after true) := by
  change execRead cl f s = _ ∧ execDrain cl f s = _
  rw [execRead, execDrain, hok, h, h]
  exact ⟨rfl, rfl⟩

/-- Tile t, whose tag is `path`, is full and is none that the speculative task of slot k has written (R257). -/
abbrev TSlot.meetsFull (k : TSlot) (o : Nat) (t : Tile) (path : Nat) : Prop := k.holds = true ∧ t.spec ≠ some o ∧ path ≠ 0

/-! TLOAD (R68, R79, R81, R137, R257) -/

section
variable {c : Cluster} {f : TloadF} {o : Nat}

theorem tloadIssue_of_waits (hw : c.tileWaits f.tile o = true) : tloadIssue c f o = none := by
  rw [tloadIssue, hw, if_pos rfl]

theorem tloadIssue_of_discard (hw : c.tileWaits f.tile o = false) (hd : (c.tile f.tile).discard = true) :
    tloadIssue c f o = some (c, []) := by
  rw [tloadIssue, hw, hd, if_neg Bool.false_ne_true, if_pos rfl]

variable (hw : c.tileWaits f.tile o = false) (hd : (c.tile f.tile).discard = false)
include hw hd

theorem tloadIssue_of_meetsFull (hm : (c.slot o).meetsFull o (c.tile f.tile) (c.tile f.tile).path) :
    tloadIssue c f o = some (c, [.specFault f.tile (c.slot o).task, .stop 7]) := by
  obtain ⟨hk, hs, hp⟩ := hm
  simp [tloadIssue, hw, hd, hk, hs, hp]

variable (hm : ¬(c.slot o).meetsFull o (c.tile f.tile) (c.tile f.tile).path)
include hm

/-- Past the check of R257 a load compares the path tags, unless its elements are wide. -/
theorem tloadIssue_of_own :
    tloadIssue c f o =
      if f.fmt.toNat ≠ 10 ∧ (c.tile f.tile).path ≠ 0 ∧ (c.tile f.tile).path ≠ f.path.toNat then
        some (c, [.accPath (c.slot o).task, .stop 6])
      else some (tileFill (c.setTile f.tile { c.tile f.tile with
        path := f.path.toNat, ld := some { wide := decide (f.fmt.toNat = 10), desc := f.desc.toNat }
        spec := if (c.slot o).holds then some o else (c.tile f.tile).spec }) f.tile) := by
  have hm' : ¬((c.slot o).holds = true ∧ (c.tile f.tile).path ≠ 0 ∧ (c.tile f.tile).spec ≠ some o) :=
    fun ⟨hk, hp, hs⟩ => hm ⟨hk, hs, hp⟩
  simp only [tloadIssue, hw, hd, Bool.false_eq_true, if_false, if_neg hm', Bool.not_eq_true', decide_eq_false_iff_not, ne_eq]

end

theorem exec_tload {cl : ClusterNo} {f : TloadF} (hok : f.ok = true) (s : State) :
    exec (.tload cl f) s = .next (s.issue cl .execute (fun o c => tloadIssue c f o)) := by
  change execTload cl f s = _
  rw [execTload, hok]
  rfl

/-! MOP (R68, R81, R94, R108, R136, R137, R257) -/

/-- A MOP waits for its tiles, and with outer products for the stream tokens in the array (R68, R108, R257). -/
abbrev Cluster.mopWaits (c : Cluster) (f : MopF) (o : Nat) : Prop :=
  Machine.tileWaits (c.tile f.tile) o = true ∨ (5 ≤ f.opk.toNat ∧ Machine.tileWaits (c.tile (1 - f.tile)) o = true) ∨
    (f.stream = false ∧ c.waving = true)

/-- A tile under a discard mark is among those of a MOP (R137). -/
abbrev Cluster.mopDiscards (c : Cluster) (f : MopF) : Prop :=
  (c.tile f.tile).discard = true ∨ (5 ≤ f.opk.toNat ∧ (c.tile (1 - f.tile)).discard = true)

/-- A tile has another tag than the MOP adds under (R81). -/
abbrev Cluster.mopDiffers (c : Cluster) (f : MopF) : Prop :=
  (c.pathDue f.tile ≠ 0 ∧ c.pathDue f.tile ≠ mopPath f) ∨
    (5 ≤ f.opk.toNat ∧ c.pathDue (1 - f.tile) ≠ 0 ∧ c.pathDue (1 - f.tile) ≠ 5)

/-- The tiles of a MOP with the mark of the speculative task in slot o (R257). -/
def Cluster.markTiles (c : Cluster) (f : MopF) (o : Nat) : Cluster :=
  if 5 ≤ f.opk.toNat then
    (c.setTile f.tile { c.tile f.tile with spec := some o }).setTile (1 - f.tile) { c.tile (1 - f.tile) with spec := some o }
  else c.setTile f.tile { c.tile f.tile with spec := some o }

section
variable {c : Cluster} {f : MopF} {o : Nat} (task step : Nat)

/-- The meaning of a MOP while no other is in progress, check after check. -/
theorem mopIssue_of_no_mop (hn : c.mop.isNone = true) :
    mopIssue c f task step o (c.slot o).holds =
      if c.mopWaits f o then none
      else if c.mopDiscards f then some (c, [])
      else if (c.slot o).meetsFull o (c.tile f.tile) (c.pathDue f.tile) then some (c, [.specFault f.tile task, .stop 7])
      else if 5 ≤ f.opk.toNat ∧ (c.slot o).meetsFull o (c.tile (1 - f.tile)) (c.pathDue (1 - f.tile)) then
        some (c, [.specFault (1 - f.tile) task, .stop 7])
      else if c.mopDiffers f then some (c, [.accPath task, .stop 6])
      else some ({ (if (c.slot o).holds then c.markTiles f o else c) with
        mops := c.mops + 1
        mop := some { f := f, id := c.mops, task := task, step := step, slot := o, spec := (c.slot o).holds, wdesc := f.sb.toNat
                      abase := sget zeroNat c.gbase f.sa.toNat, wbase := sget zeroNat c.gbase f.sb.toNat } }, []) := by
  have hn' : c.mop.isSome = false := by simpa using hn
  unfold mopIssue
  refine if_congr ?waits rfl (if_congr ?discards rfl (if_congr ?value rfl (if_congr ?index rfl (if_congr ?differs rfl ?begins))))
  case waits =>
    simp only [hn', Bool.false_eq_true, false_or, decide_eq_true_eq, Bool.not_eq_true', Cluster.mopWaits, Machine.tileWaits,
      Bool.or_eq_true]
    tauto
  case discards => simp
  case value => simp [and_assoc]
  case index => simp [and_assoc]
  case differs => simp
  case begins =>
    cases (c.slot o).holds
    · rfl
    · by_cases h5 : 5 ≤ f.opk.toNat
      · simp only [Cluster.markTiles, h5, decide_true, if_true]
      · simp only [Cluster.markTiles, h5, decide_false, Bool.false_eq_true, if_true, if_false]

end

theorem exec_mop {cl : ClusterNo} {f : MopF} (hok : f.ok = true) (s : State) :
    exec (.mop cl f) s = .next (s.issue cl .execute (fun o c =>
      mopIssue c f (c.slot o).task c.exec.ix o (c.slot o).holds)) := by
  change execMop cl f s = _
  rw [execMop, hok]
  rfl

/-! The obligations -/

/-- Settles O4: both kinds at once, by whether the tile waits, is passed, or is taken in range or out of range. -/
theorem readsAndDrainsIssue : Obligations.ReadsAndDrainsIssue := by
  unfold Obligations.ReadsAndDrainsIssue
  intro s cl o f hi hok c n t out taken
  refine ⟨fun hw => ?waits, fun hw hd => ?discarded, fun hw hd hr => ?in_range, fun hw hd r j l hr => ?out_of_range⟩
  case waits => exact exec_read_and_drain hok (after := fun _ => s) fun b => issue_waits hi (readIssue_of_waits b hw)
  case discarded =>
    exact exec_read_and_drain hok (after := fun _ => s.setCl cl (c.pass1 .execute)) fun b =>
      issue_plain hi (readIssue_of_discard b hw hd)
  case in_range =>
    refine exec_read_and_drain hok (after := taken) fun b => issue_plain hi ?_
    rw [readIssue_of_free b hw hd, resolveActs_of_in_range hr]
    rfl
  case out_of_range =>
    intro as
    refine exec_read_and_drain hok (after := fun b => (taken b).acts cl (some o) as) fun b => issue_acts hi ?_
    rw [readIssue_of_free b hw hd, resolveActs_of_out_of_range hr]
    rfl

/-- Settles O5: the meanings of TLOAD and MOP give each check's answer in their order, and what an instruction answers acts when it
issues. -/
theorem tileLoadsAndArrayInstructionsIssue : Obligations.TileLoadsAndArrayInstructionsIssue := by
  unfold Obligations.TileLoadsAndArrayInstructionsIssue
  refine ⟨fun s cl o f hi hok => ?tload, fun s cl o f hi hok => ?mop⟩
  case tload =>
    intro c n t k wide mine
    have hmine : mine ↔ ¬k.meetsFull o t t.path := by
      simp only [mine, TSlot.meetsFull, not_and_or, Bool.not_eq_true, not_not, ne_eq]
      tauto
    rw [exec_tload hok]
    refine ⟨fun hw => ?waits, fun hw hd => ?discarded, fun hw hd => ⟨fun hm => ?fault, fun hm hwide h0 hp => ?path,
      fun hm hp => ?loads⟩⟩
    case waits => rw [issue_waits hi (tloadIssue_of_waits hw)]
    case discarded => rw [issue_plain hi (tloadIssue_of_discard hw hd)]
    case fault => rw [issue_acts hi (tloadIssue_of_meetsFull hw hd (not_not.mp (mt hmine.mpr hm)))]
    case path =>
      rw [issue_acts hi (c := c)]
      rw [tloadIssue_of_own hw hd (hmine.mp hm), if_pos ⟨of_decide_eq_false hwide, h0, hp⟩]
    case loads =>
      intro r
      rw [issue_acts hi (c := r.1) (as := r.2)]
      rw [tloadIssue_of_own hw hd (hmine.mp hm), if_neg]
      · rintro ⟨hw', h0, h1⟩
        rcases hp with hp | hp | hp
        · exact hw' (of_decide_eq_true hp)
        · exact h0 hp
        · exact h1 hp
  case mop =>
    intro c n t u k two full differs waits fullT fullU marked
    rw [exec_mop hok]
    have hmop := mopIssue_of_no_mop (f := f) (o := o) k.task c.exec.ix (hi.2.2.1 rfl).1
    refine ⟨fun hw => ?waits, fun hw hd => ?discarded, fun hw hd hd2 => ?tiles_free⟩
    case waits => rw [issue_waits hi (hmop.trans (if_pos hw))]
    case discarded => rw [issue_plain hi (hmop.trans ((if_neg hw).trans (if_pos hd)))]
    case tiles_free =>
      have hfree : ¬(t.discard = true ∨ (two ∧ u.discard = true)) :=
        not_or.mpr ⟨ne_true_of_eq_false hd, fun h => ne_true_of_eq_false (hd2 h.1) h.2⟩
      have hgo := hmop.trans ((if_neg hw).trans (if_neg hfree))
      refine ⟨fun ht => ?value, fun ht hu => ?index, fun ht hu hp => ?path, fun ht hu hp => ?begins⟩
      case value => rw [issue_acts hi (hgo.trans (if_pos ht))]
      case index => rw [issue_acts hi (hgo.trans ((if_neg ht).trans (if_pos hu)))]
      case path => rw [issue_acts hi (hgo.trans ((if_neg ht).trans ((if_neg hu).trans (if_pos hp))))]
      case begins => exact congrArg Host.Outcome.next (issue_plain hi (hgo.trans ((if_neg ht).trans ((if_neg hu).trans (if_neg hp)))))

end Sys2Proof.Machine
end

section
/-! SUPPORT. What flags, traps, faults and messages leave unchanged: the clusters' work and the reductions in progress (R84, R314, R340,
R448, R452). -/

namespace Sys2Proof.Machine

/-! Registers, records, events and ports -/

/-- The clusters and the reductions in progress: what the operations on registers, records, events and ports leave alone. -/
def State.work (s : State) : SMap Cluster × List Red := (s.clusters, s.reds)

theorem State.clusters_eq_of_work {s t : State} (h : t.work = s.work) : t.clusters = s.clusters := congrArg Prod.fst h

theorem State.reds_eq_of_work {s t : State} (h : t.work = s.work) : t.reds = s.reds := congrArg Prod.snd h

theorem State.cl_eq_of_work {s t : State} (h : t.work = s.work) (n : Nat) : t.cl n = s.cl n := by
  rw [State.cl, State.clusters_eq_of_work h, State.cl]

theorem State.work_foldl {β : Type} {f : State → β → State} (hf : ∀ s x, (f s x).work = s.work) (l : List β) (s : State) :
    (l.foldl f s).work = s.work :=
  List.foldlRecOn (motive := fun t => t.work = s.work) l f rfl fun t ht x _ => (hf t x).trans ht

@[simp] theorem State.setRegN_work (s : State) (a v : Nat) : (s.setRegN a v).work = s.work := rfl

@[simp] theorem State.setPort_work (s : State) (p : Nat) (x : Port) : (s.setPort p x).work = s.work := rfl

@[simp] theorem State.noteCount_work (s : State) (a old n : Nat) : (s.noteCount a old n).work = s.work := by
  unfold State.noteCount
  split <;> rfl

@[simp] theorem State.count_work (s : State) (a n : Nat) : (s.count a n).work = s.work := by
  rw [State.count, State.setRegN_work, State.noteCount_work]

@[simp] theorem State.setBits_work (s : State) (a m : Nat) : (s.setBits a m).work = s.work := by
  unfold State.setBits
  split <;> rfl

@[simp] theorem State.putRegs_work (s : State) (rs : List (Nat × Nat)) : (s.putRegs rs).work = s.work :=
  State.work_foldl (f := fun s (x : Nat × Nat) => s.setRegN x.1 x.2) (fun s x => s.setRegN_work x.1 x.2) rs s

/-- A record that is captured writes registers, or waits for a clear. -/
@[simp] theorem State.capture_work (s : State) (rank : Nat → Nat) (a v : Nat) (rest : List (Nat × Nat)) :
    (s.capture rank a v rest).work = s.work := by
  have hput : ∀ (b : Bool), (if b then s else s.putRegs ((a, v) :: rest)).work = s.work := by
    rintro (_ | _)
    · exact s.putRegs_work _
    · rfl
  unfold State.capture
  extract_lets k valid rs
  split
  · exact hput valid
  · split
    · exact hput k.late
    · rfl

@[simp] theorem State.raise_work (s : State) (i scls u d0 d1 : Nat) (isHeld : Bool) :
    (s.raise i scls u d0 d1 isHeld).work = s.work := by
  unfold State.raise
  extract_lets st seq s1 unrouted full counted s2 fl
  have h2 : s2.work = s.work := by
    unfold s2
    split
    · exact (s1.count_work 0x106018 1).trans rfl
    · split <;> rfl
  split
  · rfl
  · exact h2

@[simp] theorem State.recordEvent_work (s : State) (n ix a : Nat) : (s.recordEvent n ix a).work = s.work := rfl

@[simp] theorem State.putFlags_work (s : State) (n : Nat) (f : Flg) (isHeld : Bool) : (s.putFlags n f isHeld).work = s.work := by
  unfold State.putFlags
  extract_lets e w s3 was now en
  have h3 : s3.work = s.work := by simp [s3]
  split
  · rfl
  · split
    · exact h3
    · split
      · exact (s3.raise_work ..).trans h3
      · exact h3

@[simp] theorem State.sendSlot_work (s : State) (p act kind : Nat) (data : List Byte) :
    (s.sendSlot p act kind data).work = s.work :=
  s.setPort_work ..

@[simp] theorem State.giveSlot_work (s : State) (p : Nat) : (s.giveSlot p).work = s.work := by
  unfold State.giveSlot
  split
  · rfl
  · exact s.setPort_work ..

/-! Side effects of a resolution, faults -/

/-- What a cluster has at work: the execute half, its reductions' numbers, the rows with the store converter, the tiles. -/
def Cluster.atWork (c : Cluster) : HalfPc × SMap Nat × List ConvRow × Tile × Tile := (c.exec, c.rseq, c.conv, c.tile0, c.tile1)

theorem Cluster.conv_eq_of_atWork {c d : Cluster} (h : d.atWork = c.atWork) : d.conv = c.conv := congrArg (fun w => w.2.2.1) h

theorem State.atWork_eq_of_work {s t : State} (h : t.work = s.work) (k : Nat) : (t.cl k).atWork = (s.cl k).atWork := by
  rw [State.cl_eq_of_work h]

/-- A cluster that takes the place of another with the same work. -/
theorem State.setCl_atWork (s : State) {n : Nat} {c : Cluster} (h : c.atWork = (s.cl n).atWork) (k : Nat) :
    ((s.setCl n c).cl k).atWork = (s.cl k).atWork := by
  rw [State.setCl_cl]
  split
  case isTrue hk => rw [hk, h]
  case isFalse => rfl

theorem Cluster.setSlot_atWork (c : Cluster) (n : Nat) (t : TSlot) : (c.setSlot n t).atWork = c.atWork := by
  unfold Cluster.setSlot
  split <;> rfl

@[simp] theorem State.stopCl_atWork (s : State) (n cause k : Nat) : ((s.stopCl n cause).cl k).atWork = (s.cl k).atWork := by
  unfold State.stopCl
  extract_lets c
  split
  · rfl
  · exact s.setCl_atWork (c := { c with stopDue := some cause }) rfl k

@[simp] theorem State.stopCl_reds (s : State) (n cause : Nat) : (s.stopCl n cause).reds = s.reds := by
  unfold State.stopCl
  extract_lets c
  split <;> rfl

/-- Flags and traps, the side effects of a resolution (R64). -/
def Act.reports (a : Act) : Bool := match a with | .flags _ | .trap .. => true | _ => false

theorem reports_of_mem_resolveActs {t : Tile} {n task step : Nat} {a : Act} (ha : a ∈ resolveActs t n task step) :
    a.reports = true := by
  cases h : outOfRange t with
  | nil => simp [resolveActs_of_in_range h] at ha
  | cons x l =>
    rw [resolveActs_of_out_of_range h] at ha
    rcases List.mem_pair.mp ha with rfl | rfl <;> rfl

/-- A trap is captured, or the record of this kc follows it; then its cluster may be told to stop (R84). -/
theorem applyAct_atWork (n : Nat) (isHeld : Bool) (s : State) {a : Act} (ha : a.reports = true) (k : Nat) :
    ((applyAct n isHeld s a).cl k).atWork = (s.cl k).atWork := by
  cases a
  case flags f => exact State.atWork_eq_of_work (s.putFlags_work n f isHeld) k
  case trap =>
    unfold applyAct
    dsimp -zeta only
    split
    · rfl
    · extract_lets s1
      have h1 : s1.work = s.work := s.capture_work ..
      split
      · exact State.atWork_eq_of_work ((s1.recordEvent_work ..).trans h1) k
      · unfold State.trapTaken
        extract_lets s2
        have h2 : s2.work = s.work := (s1.raise_work ..).trans h1
        split
        · exact (s2.stopCl_atWork n 4 k).trans (State.atWork_eq_of_work h2 k)
        · exact State.atWork_eq_of_work h2 k
  all_goals exact absurd ha Bool.false_ne_true

theorem foldl_applyAct_atWork (n : Nat) (isHeld : Bool) {as : List Act} (h : ∀ a ∈ as, a.reports = true) (s : State) (k : Nat) :
    ((as.foldl (applyAct n isHeld) s).cl k).atWork = (s.cl k).atWork :=
  List.foldlRecOn (motive := fun t => (t.cl k).atWork = (s.cl k).atWork) as _ rfl fun t ht a ha =>
    (applyAct_atWork n isHeld t (h a ha) k).trans ht

/-- Held or not, flags and traps leave the clusters at their work (R255). -/
theorem State.acts_atWork (s : State) (n : Nat) (o : Option Nat) {as : List Act} (h : ∀ a ∈ as, a.reports = true) (k : Nat) :
    ((s.acts n o as).cl k).atWork = (s.cl k).atWork := by
  unfold State.acts
  cases o with
  | none => exact foldl_applyAct_atWork n false h s k
  | some i =>
    dsimp -zeta only
    extract_lets t keep now c s1
    have h1 : (s1.cl k).atWork = (s.cl k).atWork := by
      unfold s1
      split
      · rfl
      · exact s.setCl_atWork (c.setSlot_atWork i _) k
    split
    · exact (foldl_applyAct_atWork n false (fun a ha => h a (List.mem_of_mem_filter ha)) s1 k).trans h1
    · exact foldl_applyAct_atWork n false h s k

/-- A reduction fault is a record, an event and a stop (R340). -/
@[simp] theorem State.redFault_atWork (s : State) (cl ring cause k : Nat) :
    ((s.redFault cl ring cause).cl k).atWork = (s.cl k).atWork := by
  unfold State.redFault
  extract_lets s1
  have h1 : s1.work = s.work := s.capture_work ..
  exact (State.stopCl_atWork _ cl 9 k).trans (State.atWork_eq_of_work ((s1.raise_work ..).trans h1) k)

@[simp] theorem State.redFault_reds (s : State) (cl ring cause : Nat) : (s.redFault cl ring cause).reds = s.reds := by
  unfold State.redFault
  extract_lets s1
  have h1 : s1.work = s.work := s.capture_work ..
  exact (State.stopCl_reds _ cl 9).trans (State.reds_eq_of_work ((s1.raise_work ..).trans h1))

end Sys2Proof.Machine
end

section
/-! SUPPORT. The parts of a reduction: what it gives the store converter, and what it leaves as RED has left it (R332 to R340). -/

namespace Sys2Proof.Machine

/-! Rows for the store converter (R332) -/

/-- The next 32 results of a reduction, as far as they have come, from its element `pos` on. -/
def Red.rowAt (r : Red) (pos : Nat) : List (Val × Nat) :=
  (List.range 32).filterMap (fun i => sget (fun _ => none) r.got (pos + i))

/-- The row of them for the store converter. -/
def Red.convRow (r : Red) (src : Fmt) (pos : Nat) : ConvRow :=
  { desc := r.desc, src := src, round := false, elems := r.rowAt pos, task := r.task, step := r.step }

/-- One row goes to the store converter if it is whole: the cluster and the elements that have gone. -/
def redPush (r : Red) (src : Fmt) (a : Cluster × Nat) : Cluster × Nat :=
  if a.2 < r.own.length ∧ (r.rowAt a.2).length = min 32 (r.own.length - a.2) then
    ({ a.1 with conv := a.1.conv ++ [r.convRow src a.2] }, a.2 + (r.rowAt a.2).length)
  else a

/-- All whole rows go. -/
def redRows (c : Cluster) (r : Red) : Cluster × Nat :=
  (List.range ((r.own.length + 31) / 32)).foldl (fun a _ => redPush r (redSrc c r) a) (c, r.stored)

theorem State.redStore_eq (s : State) (r : Red) :
    s.redStore r =
      if r.own.length ≤ (redRows (s.cl r.cl) r).2 then
        (s.setCl r.cl ((redRows (s.cl r.cl) r).1.setTile r.tile { (redRows (s.cl r.cl) r).1.tile r.tile with
          out := ((redRows (s.cl r.cl) r).1.tile r.tile).out.map (fun o => { o with next := 1 }) })).dropRed r
      else (s.setCl r.cl (redRows (s.cl r.cl) r).1).setRed { r with stored := (redRows (s.cl r.cl) r).2 } := rfl

/-- A row changes the converter's rows only. -/
theorem redPush_conv (r : Red) (src : Fmt) (a : Cluster × Nat) :
    ∃ rows, (redPush r src a).1 = { a.1 with conv := a.1.conv ++ rows } := by
  unfold redPush
  split
  · exact ⟨_, rfl⟩
  · exact ⟨[], by simp⟩

theorem redRows_conv (c : Cluster) (r : Red) : ∃ rows, (redRows c r).1 = { c with conv := c.conv ++ rows } := by
  refine List.foldlRecOn (motive := fun (a : Cluster × Nat) => ∃ rows, a.1 = { c with conv := c.conv ++ rows }) _ _ ⟨[], by simp⟩ ?_
  rintro a ⟨rows, ha⟩ _ _
  obtain ⟨more, hm⟩ := redPush_conv r (redSrc c r) a
  exact ⟨rows ++ more, by rw [hm, ha, List.append_assoc]⟩

/-! What RED has done stays done -/

theorem Cluster.setTile_tile (c : Cluster) (k j : Nat) (t : Tile) :
    (c.setTile k t).tile j = if k = 0 ↔ j = 0 then t else c.tile j := by
  unfold Cluster.setTile Cluster.tile
  by_cases hk : k = 0 <;> by_cases hj : j = 0 <;> simp [hk, hj]

theorem Cluster.tile_congr (c : Cluster) {k j : Nat} (h : k = 0 ↔ j = 0) : c.tile k = c.tile j := by
  simp only [Cluster.tile, h]

@[simp] theorem Cluster.setTile_exec (c : Cluster) (k : Nat) (t : Tile) : (c.setTile k t).exec = c.exec := by
  unfold Cluster.setTile
  split <;> rfl

@[simp] theorem Cluster.setTile_rseq (c : Cluster) (k : Nat) (t : Tile) : (c.setTile k t).rseq = c.rseq := by
  unfold Cluster.setTile
  split <;> rfl

@[simp] theorem Cluster.setTile_conv (c : Cluster) (k : Nat) (t : Tile) : (c.setTile k t).conv = c.conv := by
  unfold Cluster.setTile
  split <;> rfl

/-- From c to d the execute half and the reductions' numbers stay, and no tile that is read or reduced is given back. -/
structure Cluster.KeepsIssued (c d : Cluster) : Prop where
  exec : d.exec = c.exec
  rseq : d.rseq = c.rseq
  out : ∀ j, (c.tile j).out.isSome = true → (d.tile j).out.isSome = true

theorem Cluster.KeepsIssued.refl (c : Cluster) : c.KeepsIssued c := ⟨rfl, rfl, fun _ h => h⟩

theorem Cluster.KeepsIssued.trans {c d e : Cluster} (h : c.KeepsIssued d) (k : d.KeepsIssued e) : c.KeepsIssued e :=
  ⟨k.exec.trans h.exec, k.rseq.trans h.rseq, fun j hj => k.out j (h.out j hj)⟩

theorem Cluster.KeepsIssued.of_atWork {c d : Cluster} (h : d.atWork = c.atWork) : c.KeepsIssued d := by
  simp only [Cluster.atWork, Prod.mk.injEq] at h
  obtain ⟨he, hr, -, h0, h1⟩ := h
  exact ⟨he, hr, fun j hj => by rwa [Cluster.tile, h0, h1]⟩

/-- The same of cluster n from state s to state t. -/
abbrev State.KeepsIssued (s t : State) (n : Nat) : Prop := (s.cl n).KeepsIssued (t.cl n)

theorem State.KeepsIssued.of_work {s t : State} (h : t.work = s.work) (n : Nat) : s.KeepsIssued t n :=
  .of_atWork (State.atWork_eq_of_work h n)

theorem State.setCl_keepsIssued (s : State) {m : Nat} {c : Cluster} (h : (s.cl m).KeepsIssued c) (n : Nat) :
    s.KeepsIssued (s.setCl m c) n := by
  unfold State.KeepsIssued
  rw [State.setCl_cl]
  split
  case isTrue hn => rwa [hn]
  case isFalse => exact .refl _

theorem redRows_keepsIssued (c : Cluster) (r : Red) : c.KeepsIssued (redRows c r).1 := by
  obtain ⟨rows, h⟩ := redRows_conv c r
  rw [h]
  exact ⟨rfl, rfl, fun _ hj => hj⟩

/-- The tile of a reduction that has gone to the converter stays taken until it is stored (R332). -/
theorem Cluster.setTile_next_keepsIssued (c : Cluster) (k : Nat) :
    c.KeepsIssued (c.setTile k { c.tile k with out := (c.tile k).out.map (fun o => { o with next := 1 }) }) := by
  refine ⟨c.setTile_exec k _, c.setTile_rseq k _, fun j hj => ?_⟩
  rw [Cluster.setTile_tile]
  split
  case isTrue h => simpa [c.tile_congr h] using hj
  case isFalse => exact hj

theorem State.redStore_keepsIssued (s : State) (r : Red) (n : Nat) : s.KeepsIssued (s.redStore r) n := by
  have hrows := redRows_keepsIssued (s.cl r.cl) r
  rw [State.redStore_eq]
  split
  · exact s.setCl_keepsIssued (hrows.trans (Cluster.setTile_next_keepsIssued _ r.tile)) n
  · exact s.setCl_keepsIssued hrows n

/-- The reduction with results for its elements from `lo` on. -/
def Red.gather (r : Red) (lo : Nat) (xs : List (Val × Nat)) : Red :=
  { r with got := xs.zipIdx.foldl (fun g x => sput (fun _ => none) g (lo + x.2) (some x.1)) r.got }

theorem State.redResult_eq (s : State) (r : Red) (m k : Nat) (xs : List (Val × Nat)) :
    s.redResult r m k xs = s.redStore (r.gather (chunkLo r.own.length m k) xs) := rfl

theorem State.redResult_keepsIssued (s : State) (r : Red) (m k : Nat) (xs : List (Val × Nat)) (n : Nat) :
    s.KeepsIssued (s.redResult r m k xs) n :=
  s.redStore_keepsIssued _ n

/-! A chunk at a position of its ring (R334 to R337) -/

@[simp] theorem State.redNan_work (s : State) (r : Red) (step elem origin : Nat) : (s.redNan r step elem origin).work = s.work := by
  unfold State.redNan
  extract_lets s1
  exact (s1.raise_work ..).trans (s.capture_work ..)

@[simp] theorem State.sendChunk_work (s : State) (r : Red) (members : List Nat) (phase k cfmt dfmt dbits : Nat) (items : List Nat) :
    (s.sendChunk r members phase k cfmt dfmt dbits items).work = s.work := by
  unfold State.sendChunk
  extract_lets m pos
  split
  · rfl
  · exact State.work_foldl (fun t _ => t.sendSlot_work ..) _ s

/-- The module is the last to sum chunk k of a ring (R334, R337). -/
def State.sumsLast (s : State) (members : List Nat) (k : Nat) : Prop :=
  (ringPos members s.modnum + members.length - k) % members.length + 1 = members.length

/-- What the last module makes of a chunk are its results, one for each of its elements; any other sends what it makes on. -/
theorem State.redChunk_cases (s : State) (r : Red) (members : List Nat) (k : Nat) (incoming : Option (List Val)) :
    (s.sumsLast members k ∧ ∃ (t : State) (xs : List (Val × Nat)),
      s.redChunk r members k incoming = t.redResult r members.length k xs ∧ t.work = s.work ∧
      xs.length = ((r.own.drop (chunkLo r.own.length members.length k)).take (chunkLen r.own.length members.length k)).length) ∨
    (¬s.sumsLast members k ∧ (s.redChunk r members k incoming).work = s.work) := by
  unfold State.redChunk
  extract_lets m pos step lo own hops env c d s1 s2 s3 codes s4 made t4 t5 win n
  have h2 : s2.work = s.work := by simp [s2, s1]
  have h3 : s3.work = s.work := by
    refine (State.work_foldl (fun t h => ?_) hops.zipIdx s2).trans h2
    extract_lets was
    split
    · exact t.redNan_work ..
    · rfl
  have hops_length : hops.length = own.length := by simp [hops]
  by_cases h : step + 1 = m
  case neg =>
    refine .inr ⟨h, ?_⟩
    rw [if_neg h]
    split <;> exact (s3.sendChunk_work ..).trans h3
  case pos =>
    refine .inl ⟨h, ?_⟩
    rw [if_pos h]
    split
    · refine ⟨s4, _, rfl, ?_, (List.length_map _).trans hops_length⟩
      unfold s4
      split
      · exact h3
      · exact (s3.sendChunk_work ..).trans h3
    · have h4 : t4.work = s.work := (s3.putFlags_work ..).trans h3
      refine ⟨t5, _, rfl, ?_, by simpa only [made, List.length_map, List.length_zipIdx] using hops_length⟩
      unfold t5
      split
      · exact h4
      · exact (t4.sendChunk_work ..).trans h4

theorem State.redChunk_keepsIssued (s : State) (r : Red) (members : List Nat) (k : Nat) (incoming : Option (List Val)) (n : Nat) :
    s.KeepsIssued (s.redChunk r members k incoming) n := by
  rcases s.redChunk_cases r members k incoming with ⟨-, t, xs, h, ht, -⟩ | ⟨-, h⟩
  · rw [h]
    exact (KeepsIssued.of_work ht n).trans (t.redResult_keepsIssued r _ k xs n)
  · exact .of_work h n

theorem State.redGather_keepsIssued (s : State) (r : Red) (members : List Nat) (k cfmt : Nat) (items : List Nat) (n : Nat) :
    s.KeepsIssued (s.redGather r members k cfmt items) n := by
  unfold State.redGather
  extract_lets m pos d f s1
  have h1 : s1.work = s.work := by
    unfold s1
    split
    · rfl
    · exact s.sendChunk_work ..
  exact (KeepsIssued.of_work h1 n).trans (s1.redResult_keepsIssued r m k _ n)

theorem State.redFault_keepsIssued (s : State) (cl ring cause n : Nat) : s.KeepsIssued (s.redFault cl ring cause) n :=
  .of_atWork (s.redFault_atWork cl ring cause n)

/-! A slot of a reduction (R333, R335, R337, R340) -/

theorem State.redPart_keepsIssued (s : State) (r : Red) (h : Nat) (body : List Byte) (n : Nat) :
    s.KeepsIssued (s.redPart r h body) n := by
  unfold State.redPart
  extract_lets phase k cfmt d key per parts mine width r1 s1
  split
  · exact .refl _
  · extract_lets m len want items
    split
    · exact (s.dropRed r).redFault_keepsIssued r.cl r.ring 3 n
    · split
      · exact .refl _
      · split
        · split
          · exact s1.redChunk_keepsIssued r1 _ k _ n
          · exact s1.redGather_keepsIssued r1 _ k cfmt items n
        · exact .refl _

/-- A slot whose RED goes on meets it. -/
theorem State.redSlot_of_red {s : State} {m : List Byte} {r : Red}
    (h : s.redOf (bits (leNat (m.take 8)) 0 11) (bits (leNat (m.take 8)) 11 3) (bits (leNat (m.take 8)) 40 16) = some r) (p : Nat) :
    s.redSlot p m = (s.giveSlot p).redPart r (leNat (m.take 8)) (m.drop 8) := by
  simp only [State.redSlot, h]

/-- How many REDs of its ring a slot lies behind what its cluster has started, in the numbers of 16 bits (R340). -/
def State.behind (s : State) (m : List Byte) : Nat :=
  (sget zeroNat (s.cl (bits (leNat (m.take 8)) 0 11)).rseq (bits (leNat (m.take 8)) 11 3) + 2 ^ 16 -
    bits (leNat (m.take 8)) 40 16) % 2 ^ 16

/-- A slot without a RED comes too late or waits for it (R340). -/
theorem State.redSlot_of_no_red {s : State} {m : List Byte}
    (h : s.redOf (bits (leNat (m.take 8)) 0 11) (bits (leNat (m.take 8)) 11 3) (bits (leNat (m.take 8)) 40 16) = none) (p : Nat) :
    s.redSlot p m =
      if 1 ≤ s.behind m ∧ s.behind m ≤ 2 ^ 15 then
        (s.giveSlot p).redFault (bits (leNat (m.take 8)) 0 11) (bits (leNat (m.take 8)) 11 3) 4
      else { s with early := s.early ++ [(p, m)] } := by
  simp only [State.redSlot, h]
  rfl

theorem State.redSlot_keepsIssued (s : State) (p : Nat) (m : List Byte) (n : Nat) : s.KeepsIssued (s.redSlot p m) n := by
  cases h : s.redOf (bits (leNat (m.take 8)) 0 11) (bits (leNat (m.take 8)) 11 3) (bits (leNat (m.take 8)) 40 16) with
  | some r =>
    rw [State.redSlot_of_red h]
    exact (KeepsIssued.of_work (s.giveSlot_work p) n).trans (State.redPart_keepsIssued _ r _ _ n)
  | none =>
    rw [State.redSlot_of_no_red h]
    split
    · exact (KeepsIssued.of_work (s.giveSlot_work p) n).trans (State.redFault_keepsIssued _ _ _ 4 n)
    · exact .refl _

/-- A slot without a RED changes neither the clusters' work nor the reductions. -/
theorem State.redSlot_atWork_of_no_red {s : State} {m : List Byte}
    (h : s.redOf (bits (leNat (m.take 8)) 0 11) (bits (leNat (m.take 8)) 11 3) (bits (leNat (m.take 8)) 40 16) = none) (p k : Nat) :
    ((s.redSlot p m).cl k).atWork = (s.cl k).atWork ∧ (s.redSlot p m).reds = s.reds := by
  rw [State.redSlot_of_no_red h]
  split
  · exact ⟨(State.redFault_atWork ..).trans (State.atWork_eq_of_work (s.giveSlot_work p) k),
      (State.redFault_reds ..).trans (State.reds_eq_of_work (s.giveSlot_work p))⟩
  · exact ⟨rfl, rfl⟩

end Sys2Proof.Machine
end

section
/-! SUPPORT. How RED begins a reduction, alone and in a ring (R332, R334, R338). -/

namespace Sys2Proof.Machine

/-! A reduction that has all its results (R332, R338) -/

/-- What is put for any of a list of keys stays listed. -/
theorem isSome_sget_foldl_sput {α β : Type} [DecidableEq α] (key : β → Nat) (val : β → α) (l : List β) (g : SMap (Option α))
    {i : Nat} (h : (sget (fun _ => none) g i).isSome = true ∨ ∃ x ∈ l, key x = i) :
    (sget (fun _ => none) (l.foldl (fun g x => sput (fun _ => none) g (key x) (some (val x))) g) i).isSome = true := by
  induction l generalizing g with
  | nil => simpa using h
  | cons y l ih =>
    refine ih _ ?_
    rw [sget_sput]
    by_cases hy : i = key y
    · exact .inl (by rw [if_pos hy]; rfl)
    · rw [if_neg hy]
      rcases h with h | ⟨x, hx, hi⟩
      · exact .inl h
      · rcases List.mem_cons.mp hx with rfl | hx
        · exact absurd hi.symm hy
        · exact .inr ⟨x, hx, hi⟩

/-- All results of a reduction have come. -/
def Red.whole (r : Red) : Prop := ∀ i < r.own.length, (sget (fun _ => none) r.got i).isSome = true

theorem Red.rowAt_length {r : Red} (hw : r.whole) {pos : Nat} (h : pos + 32 ≤ r.own.length) : (r.rowAt pos).length = 32 := by
  have hall : ∀ i ∈ List.range 32, (sget (fun _ => none) r.got (pos + i)).isSome = true := fun i hi =>
    hw (pos + i) (by have := List.mem_range.mp hi; omega)
  rw [Red.rowAt, List.filterMap_length_eq_length.mpr hall, List.length_range]

theorem redPush_of_whole {r : Red} (hw : r.whole) (src : Fmt) {a : Cluster × Nat} (h : a.2 + 32 ≤ r.own.length) :
    redPush r src a = ({ a.1 with conv := a.1.conv ++ [r.convRow src a.2] }, a.2 + 32) := by
  have hrow := r.rowAt_length hw h
  rw [redPush, if_pos ⟨by omega, by omega⟩, hrow]

/-- Rows of a reduction: they go through its descriptor, with n elements in all. -/
def Red.rowsOf (r : Red) (n : Nat) (rows : List ConvRow) : Prop :=
  (∀ x ∈ rows, x.desc = r.desc) ∧ (rows.flatMap (fun x => x.elems)).length = n

/-- Row after row a whole reduction of n rows goes to the converter. -/
theorem redRows_of_whole {r : Red} (hw : r.whole) (hs : r.stored = 0) {n : Nat} (hn : r.own.length = 32 * n) (c : Cluster) :
    ∃ rows, redRows c r = ({ c with conv := c.conv ++ rows }, r.own.length) ∧ r.rowsOf r.own.length rows := by
  have hrange : (r.own.length + 31) / 32 = n := by omega
  have key : ∀ i ≤ n, ∃ rows, (List.range i).foldl (fun a _ => redPush r (redSrc c r) a) (c, r.stored) =
      ({ c with conv := c.conv ++ rows }, 32 * i) ∧ r.rowsOf (32 * i) rows := by
    intro i
    induction i with
    | zero => exact fun _ => ⟨[], by simp [hs], by simp, rfl⟩
    | succ i ih =>
      intro hi
      obtain ⟨rows, hrows, hdesc, hlen⟩ := ih (by omega)
      have hroom : 32 * i + 32 ≤ r.own.length := by omega
      refine ⟨rows ++ [r.convRow (redSrc c r) (32 * i)], ?_, fun x hx => ?_, ?_⟩
      · rw [List.range_succ, List.foldl_append, hrows, List.foldl_cons, List.foldl_nil, redPush_of_whole hw _ hroom]
        simp only [List.append_assoc]
        rfl
      · rcases List.mem_append.mp hx with hx | hx
        · exact hdesc x hx
        · rw [List.mem_singleton.mp hx, Red.convRow]
      · rw [List.flatMap_append, List.length_append, hlen, List.flatMap_singleton, Red.convRow, r.rowAt_length hw hroom]
        rfl
  obtain ⟨rows, hrows, h⟩ := key n le_rfl
  rw [← hn] at h
  exact ⟨rows, by rw [redRows, hrange, hrows, hn], h⟩

/-- All elements of a whole reduction go to the store converter, and the reduction is over. -/
theorem State.redStore_of_whole {r : Red} (hw : r.whole) (hs : r.stored = 0) {n : Nat} (hn : r.own.length = 32 * n) (s : State) :
    ∃ rows, ((s.redStore r).cl r.cl).conv = (s.cl r.cl).conv ++ rows ∧ r.rowsOf r.own.length rows ∧
      (s.redStore r).reds = s.reds.filter (fun x => !sameRed x r) := by
  obtain ⟨rows, hrows, h⟩ := redRows_of_whole hw hs hn (s.cl r.cl)
  refine ⟨rows, ?_, h, ?_⟩
  · rw [State.redStore_eq, hrows, if_pos le_rfl]
    change ((s.setCl r.cl _).cl r.cl).conv = _
    rw [State.setCl_cl_same, Cluster.setTile_conv]
  · rw [State.redStore_eq, hrows, if_pos le_rfl]
    rfl

theorem Red.gather_whole (r : Red) {xs : List (Val × Nat)} (h : xs.length = r.own.length) : (r.gather 0 xs).whole := by
  intro i hi
  have hx : i < xs.length := h ▸ hi
  refine isSome_sget_foldl_sput (fun y : (Val × Nat) × Nat => 0 + y.2) (fun y => y.1) _ _ (.inr ⟨(xs[i], i), ?_, Nat.zero_add i⟩)
  exact List.mk_mem_zipIdx_iff_getElem?.mpr (List.getElem?_eq_getElem hx)

@[simp] theorem ringPos_singleton (x m : Nat) : ringPos [x] m = 0 := by
  by_cases h : x = m <;> simp [ringPos, List.findIdx?_cons, h]

/-- In a ring of one member a reduction that starts is whole at once (R338). -/
theorem State.redChunk_alone {r : Red} (hg : r.stored = 0) {n : Nat} (hn : r.own.length = 32 * n) (s : State) (x : Nat)
    (incoming : Option (List Val)) :
    ∃ rows, ((s.redChunk r [x] 0 incoming).cl r.cl).conv = (s.cl r.cl).conv ++ rows ∧ r.rowsOf r.own.length rows ∧
      (s.redChunk r [x] 0 incoming).reds = s.reds.filter (fun y => !sameRed y r) := by
  rcases s.redChunk_cases r [x] 0 incoming with ⟨-, t, xs, h, ht, hlen⟩ | ⟨hlast, -⟩
  case inr => exact absurd (by simp [State.sumsLast]) hlast
  case inl =>
    have hlo : chunkLo r.own.length 1 0 = 0 := by simp [chunkLo]
    have hall : xs.length = r.own.length := by simpa [chunkLo, chunkLen] using hlen
    obtain ⟨rows, hconv, hrows, hreds⟩ := State.redStore_of_whole (r.gather_whole hall) hg hn t
    rw [h, State.redResult_eq, List.length_singleton, hlo]
    refine ⟨rows, hconv.trans (by rw [State.cl_eq_of_work ht]; rfl), hrows, hreds.trans ?_⟩
    rw [State.reds_eq_of_work ht]
    rfl

/-! RED starts (R332, R334, R340) -/

theorem redOwn_length (t : Tile) : (redOwn t).length = tileSide t.path * tileSide t.path := by
  simp [redOwn, List.length_flatMap]

/-- The elements of a tile fill whole rows of the store converter. -/
theorem redOwn_length_rows (t : Tile) : ∃ n, (redOwn t).length = 32 * n := by
  rw [redOwn_length, tileSide]
  split
  · exact ⟨8, rfl⟩
  · exact ⟨32, rfl⟩

/-- The reduction a RED starts. -/
def State.newRed (s : State) (cl o : Nat) (f : RedF) (rstages : Nat) : Red :=
  { cl := cl, tile := f.tile, ring := f.ring.toNat, carry := f.carry.toNat, desc := f.desc.toNat
    rseq := sget zeroNat (s.cl cl).rseq f.ring.toNat, last := s.stageNo + (rstages - 1), own := redOwn ((s.cl cl).tile f.tile)
    base := s.storeNext cl f.desc.toNat, task := ((s.cl cl).slot o).task, step := (s.cl cl).exec.ix }

/-- The read in progress of a tile that is reduced. -/
def Cluster.redOut (c : Cluster) (o : Nat) (f : RedF) : ReadOut :=
  { drain := true, red := some (f.ring.toNat, sget zeroNat c.rseq f.ring.toNat), fmt := 0, rnd := 0, satw := false, site := 0
    desc := f.desc.toNat, task := (c.slot o).task, step := c.exec.ix, slot := o, k := (c.tile f.tile).count }

/-- The cluster that has issued a RED. -/
def Cluster.redIssued (c : Cluster) (o : Nat) (f : RedF) : Cluster :=
  { (c.setTile f.tile { (c.tile f.tile).resolved with out := some (c.redOut o f) }).pass1 .execute with
    rseq := sput zeroNat c.rseq f.ring.toNat ((sget zeroNat c.rseq f.ring.toNat + 1) % 2 ^ 16) }

/-- The reduction is listed, before any chunk of it is made. -/
def State.redListed (s : State) (cl o : Nat) (f : RedF) (rstages : Nat) : State :=
  let s1 := (s.setCl cl ((s.cl cl).redIssued o f)).acts cl (some o)
    (resolveActs ((s.cl cl).tile f.tile) f.tile ((s.cl cl).slot o).task (s.cl cl).exec.ix)
  { s1 with reds := s1.reds ++ [s.newRed cl o f rstages] }

/-- The module's own chunk is made. -/
def State.redBegun (s : State) (cl o : Nat) (f : RedF) (rstages : Nat) (members : List Nat) : State :=
  (s.redListed cl o f rstages).redChunk (s.newRed cl o f rstages) members (ringPos members s.modnum) none

/-- A slot that has come early names the reduction. -/
def Red.named (r : Red) (x : Nat × List Byte) : Bool :=
  decide (bits (leNat (x.2.take 8)) 0 11 = r.cl) && decide (bits (leNat (x.2.take 8)) 11 3 = r.ring) &&
    decide (bits (leNat (x.2.take 8)) 40 16 = r.rseq)

/-- The early slots of a reduction meet it, in the order in which they came. -/
def State.takeEarly (s : State) (r : Red) : State :=
  (s.early.filter r.named).foldl (fun t x => t.redSlot x.1 x.2) { s with early := s.early.filter (fun x => !r.named x) }

theorem State.redStart_eq (s : State) (cl o : Nat) (f : RedF) (rstages : Nat) (members : List Nat) :
    s.redStart cl o f rstages members = (s.redBegun cl o f rstages members).takeEarly (s.newRed cl o f rstages) := rfl

theorem State.takeEarly_keepsIssued (s : State) (r : Red) (n : Nat) : s.KeepsIssued (s.takeEarly r) n :=
  List.foldlRecOn (motive := fun t : State => s.KeepsIssued t n) _ _ (.refl _) fun t ht x _ =>
    ht.trans (t.redSlot_keepsIssued x.1 x.2 n)

section
variable (s : State) (cl o : Nat) (f : RedF) (rstages : Nat) (members : List Nat)

theorem State.redListed_atWork : ((s.redListed cl o f rstages).cl cl).atWork = ((s.cl cl).redIssued o f).atWork := by
  refine (State.acts_atWork _ cl (some o) (fun a ha => reports_of_mem_resolveActs ha) cl).trans ?_
  rw [State.setCl_cl_same]

/-- What RED has done to its cluster stays, whatever its chunks and the early slots bring. -/
theorem State.redStart_keepsIssued : ((s.cl cl).redIssued o f).KeepsIssued ((s.redStart cl o f rstages members).cl cl) := by
  have h1 := Cluster.KeepsIssued.of_atWork (s.redListed_atWork cl o f rstages)
  have h2 := (s.redListed cl o f rstages).redChunk_keepsIssued (s.newRed cl o f rstages) members (ringPos members s.modnum) none cl
  exact (h1.trans h2).trans (State.takeEarly_keepsIssued _ (s.newRed cl o f rstages) cl)

end

theorem Cluster.redIssued_conv (c : Cluster) (o : Nat) (f : RedF) : (c.redIssued o f).conv = c.conv :=
  c.setTile_conv f.tile _

theorem Cluster.redIssued_exec_ix (c : Cluster) (o : Nat) (f : RedF) : (c.redIssued o f).exec.ix = c.exec.ix + 1 :=
  congrArg (fun h => HalfPc.ix h + 1) (c.setTile_exec f.tile _)

theorem Cluster.redIssued_out (c : Cluster) (o : Nat) (f : RedF) : ((c.redIssued o f).tile f.tile).out.isSome = true := by
  change ((c.setTile f.tile _).tile f.tile).out.isSome = true
  rw [Cluster.setTile_tile, if_pos Iff.rfl]
  rfl

theorem Cluster.redIssued_rseq (c : Cluster) (o : Nat) (f : RedF) :
    sget zeroNat (c.redIssued o f).rseq f.ring.toNat = (sget zeroNat c.rseq f.ring.toNat + 1) % 2 ^ 16 :=
  sget_sput_same _ _ _ _

/-- No reduction answers to the names of one that is over. -/
theorem redOf_eq_none_of_dropped {t : State} {r : Red} {l : List Red} (h : t.reds = l.filter (fun y => !sameRed y r)) :
    t.redOf r.cl r.ring r.rseq = none := by
  rw [State.redOf, h, List.find?_eq_none]
  intro y hy
  have hother : sameRed y r = false := by simpa using (List.mem_filter.mp hy).2
  exact ne_true_of_eq_false hother

/-- Early slots of a reduction that is over change neither the clusters' work nor the reductions (R340). -/
theorem State.takeEarly_of_over {s : State} {r : Red} (hr : s.redOf r.cl r.ring r.rseq = none) (k : Nat) :
    ((s.takeEarly r).cl k).atWork = (s.cl k).atWork ∧ (s.takeEarly r).reds = s.reds := by
  refine List.foldlRecOn (motive := fun u : State => (u.cl k).atWork = (s.cl k).atWork ∧ u.reds = s.reds) _ _ ⟨rfl, rfl⟩ ?_
  rintro u ⟨hu, hreds⟩ x hx
  have hn := (List.mem_filter.mp hx).2
  simp only [Red.named, Bool.and_eq_true, decide_eq_true_eq] at hn
  obtain ⟨⟨hcl, hring⟩, hseq⟩ := hn
  have hnone : u.redOf (bits (leNat (x.2.take 8)) 0 11) (bits (leNat (x.2.take 8)) 11 3) (bits (leNat (x.2.take 8)) 40 16) = none := by
    rw [hcl, hring, hseq, State.redOf, hreds]
    exact hr
  obtain ⟨h1, h2⟩ := State.redSlot_atWork_of_no_red hnone x.1 k
  exact ⟨h1.trans hu, h2.trans hreds⟩

/-- In a ring of one member RED gives the store converter every element at once (R338). -/
theorem State.redStart_alone (s : State) (cl o : Nat) (f : RedF) (rstages x : Nat) :
    ∃ rows, ((s.redStart cl o f rstages [x]).cl cl).conv = (s.cl cl).conv ++ rows ∧
      (s.newRed cl o f rstages).rowsOf (redOwn ((s.cl cl).tile f.tile)).length rows := by
  obtain ⟨n, hn⟩ := redOwn_length_rows ((s.cl cl).tile f.tile)
  obtain ⟨rows, hconv, hrows, hreds⟩ :=
    State.redChunk_alone (r := s.newRed cl o f rstages) rfl hn (s.redListed cl o f rstages) x none
  refine ⟨rows, ?_, hrows⟩
  rw [State.redStart_eq, State.redBegun, ringPos_singleton]
  calc _ = _ := Cluster.conv_eq_of_atWork (State.takeEarly_of_over (redOf_eq_none_of_dropped hreds) cl).1
    _ = ((s.redListed cl o f rstages).cl cl).conv ++ rows := hconv
    _ = (s.cl cl).conv ++ rows := by
      rw [Cluster.conv_eq_of_atWork (s.redListed_atWork cl o f rstages), Cluster.redIssued_conv]

end Sys2Proof.Machine
end

section
/-! SUPPORT. RED and REDUCTION_CHUNK, case by case (R68, R137, R314, R332 to R340). -/

namespace Sys2Proof.Machine

/-! RED (R68, R137, R332, R340) -/

/-- The tile of a RED at fault stays busy, for a reduction of no number, and the half goes on (R340). -/
def State.redBusy (s : State) (cl : Nat) (f : RedF) : State :=
  s.setCl cl (((s.cl cl).setTile f.tile { (s.cl cl).tile f.tile with
    out := some { drain := true, red := some (f.ring.toNat, 2 ^ 16), fmt := 0, rnd := 0, satw := false, site := 0, desc := 0 } }).pass1
    .execute)

/-- What a RED makes of a tile that is free: a fault of the ring or of the carry, or a reduction. -/
def State.redAnswer (s : State) (cl o : Nat) (f : RedF) : State :=
  match s.redRing f.ring.toNat with
  | none => (s.redBusy cl f).redFault cl f.ring.toNat 1
  | some (k, ms) =>
    if ((s.cl cl).tile f.tile).path = 3 ∧ f.carry.toNat = 2 then (s.redBusy cl f).redFault cl f.ring.toNat 2
    else s.redStart cl o f k ms

section
variable {s : State} {cl : ClusterNo} {o : Nat} {f : RedF} (hi : s.Issues cl .execute o) (hc : f.carry.toNat ≠ 3)
include hi hc

theorem exec_red_of_waits (hw : (s.cl cl).tileWaits f.tile o = true) : exec (.red cl f) s = .next s := by
  change execRed cl f s = _
  simp only [execRed, if_neg hc, issuing_of_issues hi, hw, if_true]

theorem exec_red_of_discard (hw : (s.cl cl).tileWaits f.tile o = false) (hd : ((s.cl cl).tile f.tile).discard = true) :
    exec (.red cl f) s = .next (s.setCl cl ((s.cl cl).pass1 .execute)) := by
  change execRed cl f s = _
  simp only [execRed, if_neg hc, issuing_of_issues hi, hw, hd, if_true, Bool.false_eq_true, if_false]

theorem exec_red_of_free (hw : (s.cl cl).tileWaits f.tile o = false) (hd : ((s.cl cl).tile f.tile).discard = false) :
    exec (.red cl f) s = .next (s.redAnswer cl o f) := by
  change execRed cl f s = _
  simp only [execRed, if_neg hc, issuing_of_issues hi, if_neg (ne_true_of_eq_false hw), if_neg (ne_true_of_eq_false hd),
    State.redAnswer]
  cases s.redRing f.ring.toNat with
  | none => rfl
  | some x =>
    dsimp only
    split <;> rfl

end

theorem State.redAnswer_of_no_member {s : State} {cl : Nat} {f : RedF} (h : s.redRing f.ring.toNat = none) (o : Nat) :
    s.redAnswer cl o f = (s.redBusy cl f).redFault cl f.ring.toNat 1 := by
  simp only [State.redAnswer, h]

theorem State.redAnswer_of_member {s : State} {cl : Nat} {f : RedF} {k : Nat} {ms : List Nat}
    (h : s.redRing f.ring.toNat = some (k, ms)) (o : Nat) :
    s.redAnswer cl o f =
      if ((s.cl cl).tile f.tile).path = 3 ∧ f.carry.toNat = 2 then (s.redBusy cl f).redFault cl f.ring.toNat 2
      else s.redStart cl o f k ms := by
  simp only [State.redAnswer, h]

theorem State.redRing_of_not_mustered {s : State} (h : s.mustered = false) (ring : Nat) : s.redRing ring = some (1, [s.modnum]) := by
  rw [State.redRing, h]
  rfl

/-! A slot meets its RED (R333, R335, R337) -/

/-- What a slot's part of its chunk is kept under: position, phase and format. -/
def slotKey (h : Nat) : Nat := (bits h 15 10 * 2 + bits h 14 1) * 8 + bits h 33 3

/-- The parts of a reduction with a slot's, which takes the place of an earlier one of the same index. -/
def Red.partsWith (r : Red) (h : Nat) (body : List Byte) : List (Nat × Nat × List Byte) :=
  r.parts.filter (fun x => !(decide (x.1 = slotKey h) && decide (x.2.1 = bits h 25 8))) ++ [(slotKey h, bits h 25 8, body)]

/-- Slots of a slot's chunk in a ring of m members. -/
def Red.slotsOf (r : Red) (d : Desc) (m h : Nat) : Nat :=
  (chunkLen r.own.length m (bits h 15 10) + chunkPer (bits h 33 3) d.dstFmt.bits - 1) / chunkPer (bits h 33 3) d.dstFmt.bits

/-- The bytes that are kept under a key for slot i. -/
def partBody (parts : List (Nat × Nat × List Byte)) (key i : Nat) : List Byte :=
  ((parts.find? (fun x => decide (x.1 = key) && decide (x.2.1 = i))).map (fun x => x.2.2)).getD []

/-- The elements of a slot's chunk, of the bytes kept for it. -/
def Red.itemsOf (r : Red) (d : Desc) (m h : Nat) (parts : List (Nat × Nat × List Byte)) : List Nat :=
  (List.range (r.slotsOf d m h)).flatMap (fun i => unpackItems (chunkBits (bits h 33 3) d.dstFmt.bits)
    (min (chunkPer (bits h 33 3) d.dstFmt.bits)
      (chunkLen r.own.length m (bits h 15 10) - i * chunkPer (bits h 33 3) d.dstFmt.bits))
    ((partBody parts (slotKey h) i).take 504))

/-- The slot has a format that the RED has (R333). -/
def Red.fits (r : Red) (d : Desc) (h : Nat) : Prop := cfmtOk r.carry (bits h 14 1) (bits h 33 3) = true ∧ bits h 36 4 = d.dst

/-- A part that is kept stands among those of its key. -/
theorem find?_part (parts : List (Nat × Nat × List Byte)) (key i : Nat) :
    (parts.filter (fun x => x.1 = key)).find? (fun x => x.2.1 = i) =
      parts.find? (fun x => decide (x.1 = key) && decide (x.2.1 = i)) := by
  rw [List.find?_filter]
  simp

/-- `n` elements of `w` bits of a part, if it has come. -/
def partItems (w n : Nat) (part : Option (Nat × Nat × List Byte)) : List Nat :=
  match part with
  | some x => unpackItems w n (x.2.2.take 504)
  | none => []

/-- Of a chunk that is whole every slot's elements come of the part that is kept for it. -/
theorem Red.itemsOf_of_whole (r : Red) (d : Desc) (m h : Nat) {parts : List (Nat × Nat × List Byte)}
    (hall : ∀ i < r.slotsOf d m h, ∃ x ∈ parts, x.1 = slotKey h ∧ x.2.1 = i) :
    (List.range (r.slotsOf d m h)).flatMap (fun i => partItems (chunkBits (bits h 33 3) d.dstFmt.bits)
      (min (chunkPer (bits h 33 3) d.dstFmt.bits)
        (chunkLen r.own.length m (bits h 15 10) - i * chunkPer (bits h 33 3) d.dstFmt.bits))
      ((parts.filter (fun x => x.1 = slotKey h)).find? (fun x => x.2.1 = i))) =
      r.itemsOf d m h parts := by
  refine List.flatMap_congr fun i hi => ?_
  obtain ⟨x, hx, hkey, hix⟩ := hall i (List.mem_range.mp hi)
  have hsome : (parts.find? (fun x => decide (x.1 = slotKey h) && decide (x.2.1 = i))).isSome = true :=
    List.find?_isSome.mpr ⟨x, hx, by simp [hkey, hix]⟩
  obtain ⟨y, hy⟩ := Option.isSome_iff_exists.mp hsome
  rw [find?_part, partBody, hy]
  rfl

section
variable {s : State} {r : Red} {h q : Nat} {ms : List Nat} (body : List Byte)

theorem State.redPart_of_misfit (hr : s.redRing r.ring = some (q, ms)) (hf : ¬r.fits ((s.cl r.cl).desc r.desc) h) :
    s.redPart r h body = (s.dropRed r).redFault r.cl r.ring 3 := by
  have hf' : (!cfmtOk r.carry (bits h 14 1) (bits h 33 3) || decide (bits h 36 4 ≠ ((s.cl r.cl).desc r.desc).dst)) = true := by
    simpa [Red.fits, imp_iff_not_or] using hf
  unfold State.redPart
  simp only [hr, if_pos hf']

/-- A slot that fits is kept; the one that makes its chunk whole has it taken. -/
theorem State.redPart_of_fits (hr : s.redRing r.ring = some (q, ms)) (hf : r.fits ((s.cl r.cl).desc r.desc) h)
    (hk : bits h 15 10 < ms.length) :
    let d := (s.cl r.cl).desc r.desc
    let parts := r.partsWith h body
    let r1 : Red := { r with parts := parts.filter (fun x => decide (x.1 ≠ slotKey h)) }
    let items := r.itemsOf d ms.length h parts
    s.redPart r h body =
      if ∀ i < r.slotsOf d ms.length h, ∃ x ∈ parts, x.1 = slotKey h ∧ x.2.1 = i then
        if bits h 14 1 = 0 then (s.setRed r1).redChunk r1 ms (bits h 15 10) (some (chunkVals (bits h 33 3) items))
        else (s.setRed r1).redGather r1 ms (bits h 15 10) (bits h 33 3) items
      else s.setRed { r with parts := parts } := by
  intro d parts r1 items
  have hf' : ¬(!cfmtOk r.carry (bits h 14 1) (bits h 33 3) || decide (bits h 36 4 ≠ ((s.cl r.cl).desc r.desc).dst)) = true := by
    simp [hf.1, hf.2]
  have hwhole : ((List.range (r.slotsOf d ms.length h)).all fun i =>
      (parts.filter (fun x => x.1 = slotKey h)).any (fun x => x.2.1 = i)) = true ↔
      ∀ i < r.slotsOf d ms.length h, ∃ x ∈ parts, x.1 = slotKey h ∧ x.2.1 = i := by
    simp [List.all_eq_true, List.any_eq_true]
  unfold State.redPart
  simp only [hr, if_neg hf', if_neg (Nat.not_le.mpr hk)]
  refine (if_congr hwhole rfl rfl).trans ?_
  by_cases hall : ∀ i < r.slotsOf d ms.length h, ∃ x ∈ parts, x.1 = slotKey h ∧ x.2.1 = i
  case neg => rw [if_neg hall, if_neg hall]; rfl
  case pos =>
    rw [if_pos hall, if_pos hall]
    exact congrArg (fun items => if bits h 14 1 = 0 then (s.setRed r1).redChunk r1 ms (bits h 15 10) (some (chunkVals (bits h 33 3) items))
        else (s.setRed r1).redGather r1 ms (bits h 15 10) (bits h 33 3) items)
      (r.itemsOf_of_whole d ms.length h hall)

end

/-! REDUCTION_CHUNK (R314, R335) -/

theorem exec_reductionChunk_of_none {s : State} {p : Fin 16} (h : (s.port p).rx.find? (fun m => decide (m.1 = 1)) = none) :
    exec (.reductionChunk p) s = .next s := by
  change execReductionChunk p s = _
  simp only [execReductionChunk, h]

theorem exec_reductionChunk_of_some {s : State} {p : Fin 16} {m : Nat × List Byte}
    (h : (s.port p).rx.find? (fun m => decide (m.1 = 1)) = some m) :
    exec (.reductionChunk p) s = .next ((s.setPort p { s.port p with rx := (s.port p).rx.erase m }).redSlot p m.2) := by
  change execReductionChunk p s = _
  simp only [execReductionChunk, h]

theorem State.giveSlot_of_port (s : State) (p : Fin 16) :
    s.giveSlot p = s.setPort p { s.port p with credOut := (s.port p).credOut + 1 } :=
  if_neg (Nat.not_le.mpr p.isLt)

/-! The obligation -/

/-- Settles O20: RED by what it finds, with what stays of it whatever its chunks and early slots bring; a slot by the RED it meets, or by
how far it lies behind. -/
theorem reductionsStartAndTakeSlots : Obligations.ReductionsStartAndTakeSlots := by
  unfold Obligations.ReductionsStartAndTakeSlots
  refine ⟨fun s cl o f hi hc => ?red, fun s p => ?slot⟩
  case red =>
    intro c t ring busy s1
    refine ⟨exec_red_of_waits hi hc, exec_red_of_discard hi hc, fun hw hd => ?_⟩
    rw [exec_red_of_free hi hc hw hd]
    refine ⟨fun hr => ?no_member, fun k ms hr => ⟨fun h3 h2 => ?carry, fun hcarry => ⟨s.redStart cl o f k ms, ?starts⟩⟩⟩
    case no_member => rw [State.redAnswer_of_no_member hr]; rfl
    case carry => rw [State.redAnswer_of_member hr, if_pos ⟨h3, h2⟩]; rfl
    case starts =>
      have hcarry' : ¬(t.path = 3 ∧ f.carry.toNat = 2) := fun h => hcarry.elim (· h.1) (· h.2)
      obtain ⟨hexec, hrseq, hout⟩ := s.redStart_keepsIssued cl o f k ms
      refine ⟨?_, rfl, ?_, hout f.tile (c.redIssued_out o f), ?_, fun hm => ?alone⟩
      · rw [State.redAnswer_of_member hr, if_neg hcarry']
      · rw [hexec]
        exact c.redIssued_exec_ix o f
      · rw [hrseq]
        exact c.redIssued_rseq o f
      case alone =>
        obtain ⟨rfl, rfl⟩ := Prod.mk.inj (Option.some.inj (hr.symm.trans (State.redRing_of_not_mustered hm ring)))
        obtain ⟨rows, hconv, hdesc, hlen⟩ := s.redStart_alone cl o f 1 s.modnum
        exact ⟨rows, hconv, hdesc, hlen.trans (redOwn_length t)⟩
  case slot =>
    intro x
    refine ⟨exec_reductionChunk_of_none, fun m hm => ?_⟩
    intro s1 h cl ring rseq behind s2
    have hgive : s1.giveSlot p = s2 := s1.giveSlot_of_port p
    have hexec : exec (.reductionChunk p) s = .next (s1.redSlot p m.2) := exec_reductionChunk_of_some hm
    rw [hexec]
    refine ⟨fun r q ms hr hring => ?met, fun hn hb => ?early, fun hn hb hb' => ?late⟩
    case met =>
      intro phase k ix cfmt d key len per n parts body fits
      have hmeets : s1.redSlot p m.2 = s2.redPart r h (m.2.drop 8) := by rw [State.redSlot_of_red (s := s1) hr, hgive]
      have hring2 : s2.redRing r.ring = some (q, ms) := hring
      rw [hmeets]
      refine ⟨fun hf => ?misfit, fun hf hk hsome => ?part, fun hf hk hall => ?whole⟩
      case misfit => rw [State.redPart_of_misfit _ hring2 hf]
      case part =>
        rw [State.redPart_of_fits _ hring2 hf hk, if_neg]
        · rfl
        · obtain ⟨i, hi, hno⟩ := hsome
          exact fun hall => (hall i hi).elim fun y hy => hno y hy.1 hy.2.1 hy.2.2
      case whole =>
        intro items r1
        have hparts := (State.redPart_of_fits (m.2.drop 8) hring2 hf hk).trans (if_pos hall)
        exact ⟨fun h0 => congrArg Host.Outcome.next (hparts.trans (if_pos h0)),
          fun h0 => congrArg Host.Outcome.next (hparts.trans (if_neg h0))⟩
    case early =>
      rw [State.redSlot_of_no_red (s := s1) hn, if_neg]
      · rfl
      · change ¬(1 ≤ behind ∧ behind ≤ 2 ^ 15)
        omega
    case late => rw [State.redSlot_of_no_red (s := s1) hn, if_pos ⟨hb, hb'⟩, hgive]

end Sys2Proof.Machine
end

section
/-! SUPPORT. What WLOAD, SWAP and CLEAR make of the cluster that issues them (R68, R106, R107, R124, R137, R246, R257). -/

namespace Sys2Proof.Machine

section
variable {s : State} {cl : ClusterNo} {o : Nat}

/-! WLOAD and SWAP (R106, R107) -/

theorem exec_wload_of_idle (hi : s.Issues cl .execute o) (desc : BitVec 6) (pack : Bool) (hw : (s.cl cl).wload = none) :
    exec (.wload cl desc pack) s = .next (s.setCl cl (({ s.cl cl with
      wload := some { desc := desc.toNat, pack := pack, slot := o, task := ((s.cl cl).slot o).task } } : Cluster).pass1 .execute)) :=
  congrArg Host.Outcome.next (issue_plain hi (if_neg (by simp [hw])))

theorem exec_wload_of_loading (hi : s.Issues cl .execute o) (desc : BitVec 6) (pack : Bool)
    (hw : (s.cl cl).wload.isSome = true) : exec (.wload cl desc pack) s = .next s :=
  congrArg Host.Outcome.next (issue_waits hi (if_pos hw))

theorem exec_swap_of_idle (hi : s.Issues cl .execute o) (hw : (s.cl cl).wload = none) :
    exec (.swap cl) s = .next (s.setCl cl (({ s.cl cl with active := !(s.cl cl).active } : Cluster).pass1 .execute)) :=
  congrArg Host.Outcome.next (issue_plain hi (if_neg (by simp [hw])))

theorem exec_swap_of_loading (hi : s.Issues cl .execute o) (hw : (s.cl cl).wload.isSome = true) :
    exec (.swap cl) s = .next s :=
  congrArg Host.Outcome.next (issue_waits hi (if_pos hw))

/-! CLEAR (R68, R137, R246, R257) -/

section
variable {tile : Fin 2}

theorem exec_clear_of_waits (hi : s.Issues cl .execute o) (hw : (s.cl cl).tileWaits tile o = true) :
    exec (.clear cl tile) s = .next s :=
  congrArg Host.Outcome.next (issue_waits hi (if_pos hw))

variable (hw : (s.cl cl).tileWaits tile o = false)
include hw

theorem exec_clear_of_discard (hi : s.Issues cl .execute o) (hd : ((s.cl cl).tile tile).discard = true) :
    exec (.clear cl tile) s = .next (s.setCl cl ((s.cl cl).pass1 .execute)) :=
  congrArg Host.Outcome.next (issue_plain hi ((if_neg (ne_true_of_eq_false hw)).trans (if_pos hd)))

theorem exec_clear_of_free (hi : s.Issues cl .execute o) (hd : ((s.cl cl).tile tile).discard = false) :
    exec (.clear cl tile) s =
      .next (s.setCl cl (((s.cl cl).setTile tile ((s.cl cl).tile tile).emptied).pass1 .execute)) :=
  congrArg Host.Outcome.next
    (issue_plain hi ((if_neg (ne_true_of_eq_false hw)).trans (if_neg (ne_true_of_eq_false hd))))

end

/-- In a tile without rows no element has received anything. -/
theorem Tile.elem_of_no_rows (t : Tile) (r j : Nat) : ({ t with rows := [] } : Tile).elem r j = .empty := by
  have hrow : ({ t with rows := [] } : Tile).row r = List.replicate 32 .empty := rfl
  rw [Tile.elem, hrow, List.getD_eq_getElem?_getD, List.getElem?_getD_replicate_default_eq]

end

/-! The obligation -/

/-- Settles O3: WLOAD and SWAP by whether a set loads, CLEAR by whether its tile waits, is passed or is emptied. -/
theorem weightBankInstructionsAndClearIssue : Obligations.WeightBankInstructionsAndClearIssue := by
  unfold Obligations.WeightBankInstructionsAndClearIssue
  exact ⟨fun s cl o desc pack hi =>
      ⟨fun hw => ⟨exec_wload_of_idle hi desc pack hw, exec_swap_of_idle hi hw⟩,
        fun hw => ⟨exec_wload_of_loading hi desc pack hw, exec_swap_of_loading hi hw⟩⟩,
    fun s cl o tile hi =>
      ⟨exec_clear_of_waits hi, fun hw hd => exec_clear_of_discard hw hi hd,
        fun hw hd => ⟨exec_clear_of_free hw hi hd, Tile.elem_of_no_rows _⟩⟩⟩

end Sys2Proof.Machine
end

section
/-! SUPPORT. What a consumer takes of a stream's elements (R186, R187), the row that a weight load writes (R106, R202) and the row that
the drain port delivers (R67, R69, R185). -/

namespace Sys2Proof.Machine

/-! A step of a unit that steps -/

/-- A step that comes about with its side effects. -/
theorem unitStep_acts {s : State} {n : Nat} {o : Option Nat} (h : s.Steps n o) {f : Cluster → Option (Cluster × List Act)}
    {c : Cluster} {as : List Act} (hf : f (s.cl n) = some (c, as)) : s.unitStep n o f = (s.setCl n c).acts n o as := by
  rw [unitStep_of_steps h, hf]

/-- A step without side effects. -/
theorem unitStep_plain {s : State} {n : Nat} {o : Option Nat} (h : s.Steps n o) {f : Cluster → Option (Cluster × List Act)}
    {c : Cluster} (hf : f (s.cl n) = some (c, [])) : s.unitStep n o f = s.setCl n c := by
  rw [unitStep_acts h hf]
  cases o <;> simp [State.acts]

/-- A step that does not come about changes nothing. -/
theorem unitStep_waits {s : State} {n : Nat} {o : Option Nat} (h : s.Steps n o) {f : Cluster → Option (Cluster × List Act)}
    (hf : f (s.cl n) = none) : s.unitStep n o f = s := by
  rw [unitStep_of_steps h, hf]

/-! The elements of a stream (R186, R187) -/

/-- The elements of stream d among load entries, in their order. -/
def queueOf (d : Nat) (q : List LoadEntry) : List Nat := (q.filter (fun e => decide (e.desc = d))).flatMap (fun e => e.elems)

theorem Cluster.front_eq_take (c : Cluster) (d n : Nat) : c.front d n = (queueOf d (c.hand ++ c.loadQ)).take n := rfl

theorem queueOf_cons (d : Nat) (e : LoadEntry) (q : List LoadEntry) :
    queueOf d (e :: q) = if e.desc = d then e.elems ++ queueOf d q else queueOf d q := by
  by_cases he : e.desc = d <;> simp [queueOf, he]

theorem queueOf_append (d : Nat) (p q : List LoadEntry) : queueOf d (p ++ q) = queueOf d p ++ queueOf d q := by
  simp [queueOf]

theorem elemsOf_eq_length (d : Nat) (q : List LoadEntry) : elemsOf d q = (queueOf d q).length := by
  suffices h : ∀ k, q.foldl (fun n e => if e.desc = d then n + e.elems.length else n) k = k + (queueOf d q).length by
    simpa [elemsOf] using h 0
  induction q with
  | nil => exact fun k => rfl
  | cons e q ih =>
    intro k
    rw [List.foldl_cons, ih, queueOf_cons]
    split
    · rw [List.length_append, Nat.add_assoc]
    · rfl

/-- What a stream's entries hold can be taken, from its front on. -/
theorem popElems_of_le {d n : Nat} {q : List LoadEntry} (h : n ≤ (queueOf d q).length) :
    ∃ stages rest, popElems d q n = some ((queueOf d q).take n, stages, rest) := by
  induction q generalizing n with
  | nil =>
    obtain rfl : n = 0 := Nat.le_zero.mp h
    exact ⟨[], [], rfl⟩
  | cons e q ih =>
    cases n with
    | zero => exact ⟨[], e :: q, rfl⟩
    | succ n =>
      rw [queueOf_cons] at h ⊢
      unfold popElems
      split at h
      case isTrue he =>
        rw [if_pos he, if_pos he]
        by_cases hl : e.elems.length ≤ n + 1
        · rw [List.length_append] at h
          obtain ⟨stages, rest, hq⟩ := ih (n := n + 1 - e.elems.length) (by omega)
          exact ⟨e.stage :: stages, rest, by rw [if_pos hl, hq, List.take_append, List.take_of_length_le hl]; rfl⟩
        · exact ⟨[e.stage], { e with elems := e.elems.drop (n + 1) } :: q,
            by rw [if_neg hl, List.take_append_of_le_length (by omega)]⟩
      case isFalse he =>
        obtain ⟨stages, rest, hq⟩ := ih h
        exact ⟨stages, e :: rest, by rw [if_neg he, if_neg he, hq]; rfl⟩

/-- Entries that are popped stay in the queue's order. -/
theorem popHeads_append (lack : Nat → Nat) (q : List LoadEntry) : (popHeads lack q).1 ++ (popHeads lack q).2 = q := by
  induction q generalizing lack with
  | nil => rfl
  | cons e q ih =>
    unfold popHeads
    split
    · exact congrArg (e :: ·) (ih _)
    · rfl

/-- Popping changes where entries stand, not their order. -/
theorem Cluster.pull_entries (c : Cluster) (needs : List (Nat × Nat)) :
    (c.pull needs).hand ++ (c.pull needs).loadQ = c.hand ++ c.loadQ := by
  simp only [Cluster.pull, Cluster.give, List.append_assoc, popHeads_append]

theorem Cluster.canPop_singleton (c : Cluster) (d n : Nat) :
    c.canPop [(d, n)] = decide (n ≤ elemsOf d (c.pull [(d, n)]).hand) := by
  simp [Cluster.canPop]

/-- A consumer that can have n elements of a stream takes the next n, from no other place than the load queue. -/
theorem Cluster.popFor_of_canPop {c : Cluster} {d n : Nat} (h : c.canPop [(d, n)] = true) (who : Nat) :
    ∃ c1 as, c.popFor d n who = some (c.front d n, c1, as) ∧ c1.bankA = c.bankA ∧ c1.bankB = c.bankB := by
  rw [Cluster.canPop_singleton, decide_eq_true_eq, elemsOf_eq_length] at h
  obtain ⟨stages, rest, hpop⟩ := popElems_of_le h
  have hfront : (queueOf d (c.pull [(d, n)]).hand).take n = c.front d n := by
    rw [Cluster.front_eq_take, ← c.pull_entries [(d, n)], queueOf_append, List.take_append_of_le_length h]
  rw [hfront] at hpop
  exact ⟨_, _, congrArg (Option.map _) hpop, rfl, rfl⟩

/-! Weight rows (R106, R202) -/

section
variable {c : Cluster} {w : WLoad}

/-- A load whose next row fills its bank; a set's first row takes the idle one. -/
def WLoad.placed (w : WLoad) (c : Cluster) : WLoad := { w with bank := if w.row = 0 then !c.active else w.bank }

theorem Cluster.loading_of_wload (hw : c.wload = some w) : c.loading = some (w.placed c) := by
  simp only [Cluster.loading, hw, Option.orElse_some, Option.map_some, WLoad.placed]
  split <;> rfl

/-- The cluster that pops for a row: with a set's first row what the bank has taken before is no longer its own. -/
def Cluster.beforeRow (c : Cluster) (w : WLoad) : Cluster :=
  if w.row = 0 then { c with took := c.took.filter (fun x => x.1 ≠ bankBit w.bank) } else c

/-- A bank with one more row of 16-bit elements; a set's first row makes it the set's. -/
def Bank.withRow (b : Bank) (w : WLoad) (es : List Nat) : Bank :=
  { (if w.row = 0 then { b with pack := false, desc := w.desc, gbase := none } else b) with
    rows := sput zeroRow b.rows w.row ((List.range 32).map (fun n => BitVec.ofNat 16 (es.getD n 0)))
    held := w.row + 1 }

theorem Cluster.beforeRow_pops (c : Cluster) (w : WLoad) (d n : Nat) :
    (c.beforeRow w).canPop [(d, n)] = c.canPop [(d, n)] ∧ (c.beforeRow w).front d n = c.front d n ∧
      (c.beforeRow w).bankA = c.bankA ∧ (c.beforeRow w).bankB = c.bankB := by
  unfold Cluster.beforeRow
  split <;> exact ⟨rfl, rfl, rfl, rfl⟩

theorem Cluster.bank_congr {c d : Cluster} (ha : d.bankA = c.bankA) (hb : d.bankB = c.bankB) (b : Bool) : d.bank b = c.bank b := by
  rw [Cluster.bank, Cluster.bank, ha, hb]

/-- A full row of a WLOAD without packing goes into its bank. -/
theorem weightRow_of_full (hl : c.loading = some w) (hpack : w.pack = false) (hmop : w.mop = false) (hn : w.next c = (32, false))
    (hfree : rowFree c w.bank w.row = true) {es : List Nat} {c1 : Cluster} {as : List Act}
    (hpop : (c.beforeRow w).popFor w.desc 32 (bankBit w.bank) = some (es, c1, as)) (hbank : c1.bank w.bank = c.bank w.bank) :
    weightRow c = some (
      { c1.setBank w.bank ((c.bank w.bank).withRow w es) with
        wload := if w.row + 1 = 32 then none else some { w with row := w.row + 1 } },
      (if w.row = 0 then [.unsuspect (2 ^ bankBit w.bank)] else []) ++ as) := by
  have hper : w.per = 32 := by rw [WLoad.per, hpack]; rfl
  unfold Cluster.beforeRow at hpop
  simp only [weightRow, hl, hn, hfree, hpop, hper, hpack, hmop, hbank, Bank.withRow, Bool.not_true, Bool.false_eq_true, if_false,
    if_true, Bool.and_false, Bool.or_false, decide_eq_true_eq]
  by_cases h0 : w.row = 0
  · simp only [h0, if_true]
  · simp only [h0, if_false]

end

/-! Rows of the drain port (R67, R69, R185) -/

section
variable {c : Cluster} {n stage : Nat} {room : Bool} {r : ReadOut}

/-- The tile once its next row has left: the last row ends the read, and a drain then empties it (R67). -/
def Tile.rowLeft (t : Tile) (r : ReadOut) : Tile :=
  if r.next + 1 < tileSide t.path then { t with out := some { r with next := r.next + 1 } }
  else if r.drain then { t.emptied with out := none } else { t with out := none }

theorem drainRow_of_no_room (ho : (c.tile n).out = some r) (hroom : convRoom c = false) :
    drainRow c n stage false room = none := by
  simp [drainRow, ho, hroom]

/-- Without a tandem check a row goes to the store converter. -/
theorem drainRow_of_room (ho : (c.tile n).out = some r) (hred : r.red = none) (hchk : c.tchk = none)
    (hin : outInt32 (c.tile n) r = 0) (hroom : convRoom c = true) :
    drainRow c n stage false room =
      some (({ c with conv := c.conv ++ [drainConv c (c.tile n) r false] } : Cluster).setTile n ((c.tile n).rowLeft r), []) := by
  have hc : ({ c with conv := c.conv ++ [drainConv c (c.tile n) r false], tchk := none } : Cluster) =
      { c with conv := c.conv ++ [drainConv c (c.tile n) r false] } := by rw [← hchk]
  unfold Tile.rowLeft
  split
  case isTrue hmore => simp [drainRow, ho, hred, hchk, hin, hroom, hc, Nat.not_le.mpr hmore]
  case isFalse hlast =>
    cases hd : r.drain
    · simp [drainRow, ho, hred, hchk, hin, hroom, hc, Nat.not_lt.mp hlast, hd]
    · simp [drainRow, ho, hred, hchk, hin, hroom, hc, Nat.not_lt.mp hlast, hd, Tile.emptied]

end

/-! The obligation -/

/-- Settles O11: the row's elements are at hand, so the load writes it; the drain port's row goes by the converter's room. -/
theorem weightRowsLoadAndTilesDrain : Obligations.WeightRowsLoadAndTilesDrain := by
  unfold Obligations.WeightRowsLoadAndTilesDrain
  refine ⟨fun s cl w => ?row, fun s cl tile r => ?drain⟩
  case row =>
    intro c es b c0 old hs hw hpack hmop _ hn hfree hcan
    obtain ⟨hcan0, hfront, hA, hB⟩ := c.beforeRow_pops (w.placed c) w.desc 32
    obtain ⟨c1, as, hpop, ha, hb⟩ := Cluster.popFor_of_canPop (hcan0.trans hcan) (bankBit b)
    rw [hfront] at hpop
    exact ⟨c1, as, hpop, ha.trans hA, hb.trans hB, congrArg Host.Outcome.next (unitStep_acts hs
      (weightRow_of_full (Cluster.loading_of_wload hw) hpack hmop hn hfree hpop
        (Cluster.bank_congr (ha.trans hA) (hb.trans hB) b)))⟩
  case drain =>
    intro c t x hs ho hred htnd hchk hin
    have hexec : exec (.tileDrainRow cl tile) s = .next (s.unitStep cl (c.owner r.slot r.task)
        (fun c => drainRow c tile s.stageNo false (s.recordRoom cl))) := by
      change execTileDrainRow cl tile s = _
      simp only [execTileDrainRow, htnd]
      rw [show ((s.cl cl).tile tile).out = some r from ho]
      rfl
    rw [hexec]
    refine ⟨fun hroom => congrArg Host.Outcome.next (unitStep_waits hs (drainRow_of_no_room ho hroom)), fun hroom => ?_⟩
    rw [unitStep_plain hs (drainRow_of_room ho hred hchk hin hroom)]
    refine ⟨fun hn => ?_, fun hn hd => ?_, fun hn hd => ?_⟩
    · rw [Tile.rowLeft, if_pos hn]
    · rw [Tile.rowLeft, if_neg (Nat.not_lt.mpr hn), hd]
      rfl
    · rw [Tile.rowLeft, if_neg (Nat.not_lt.mpr hn), hd]
      rfl

end Sys2Proof.Machine
end

section
/-! SUPPORT. No side effect of a task touches the tokens in an array (R103, R209, R304), and a state in which two array instructions have
one number. -/

namespace Sys2Proof.Machine

/-! What side effects leave alone -/

@[simp] theorem State.dropBits_work (s : State) (a m : Nat) : (s.dropBits a m).work = s.work := rfl

@[simp] theorem State.count64_work (s : State) (a n : Nat) : (s.count64 a n).work = s.work :=
  s.noteCount_work a (s.reg64 a) n

@[simp] theorem State.drift_work (s : State) (n slot : Nat) (isHeld : Bool) : (s.drift n slot isHeld).work = s.work := by
  unfold State.drift
  extract_lets v
  split
  · exact (State.raise_work ..).trans (s.setBits_work ..)
  · rfl

@[simp] theorem State.jobFault_work (s : State) (k cause wid : Nat) (wb isHeld : Bool) :
    (s.jobFault k cause wid wb isHeld).work = s.work :=
  (State.raise_work ..).trans (s.capture_work ..)

@[simp] theorem State.sendRecord_work (s : State) (r : TRec) : (s.sendRecord r).work = s.work := by
  unfold State.sendRecord
  extract_lets p x
  split
  · split <;> exact s.setPort_work ..
  · exact s.setPort_work ..

/-! The tokens in the arrays -/

/-- The tokens in the array of each cluster. -/
def State.waves (s : State) (k : Nat) : List (Option Tok) := (s.cl k).wave

theorem State.waves_eq_of_work {s t : State} (h : t.work = s.work) : t.waves = s.waves :=
  funext fun k => by rw [State.waves, State.cl_eq_of_work h, State.waves]

theorem State.setCl_waves (s : State) {n : Nat} {c : Cluster} (h : c.wave = (s.cl n).wave) : (s.setCl n c).waves = s.waves := by
  funext k
  rw [State.waves, State.setCl_cl]
  split
  case isTrue hk => rw [h, hk, State.waves]
  case isFalse => rfl

theorem State.waves_foldl {β : Type} {f : State → β → State} (hf : ∀ s x, (f s x).waves = s.waves) (l : List β) (s : State) :
    (l.foldl f s).waves = s.waves :=
  List.foldlRecOn (motive := fun t => t.waves = s.waves) l f rfl fun t ht x _ => (hf t x).trans ht

@[simp] theorem State.stopCl_waves (s : State) (n cause : Nat) : (s.stopCl n cause).waves = s.waves := by
  unfold State.stopCl
  extract_lets c
  split
  · rfl
  · exact s.setCl_waves rfl

/-- A divergence may stop clusters; their tokens stay (R305). -/
@[simp] theorem State.diverge_waves (s : State) (cause : Nat) (own : TRec) : (s.diverge cause own).waves = s.waves := by
  unfold State.diverge
  extract_lets k s2 s3
  have h3 : s3.waves = s.waves :=
    State.waves_eq_of_work ((s2.raise_work ..).trans ((State.capture_work ..).trans (s.count_work ..)))
  split
  · refine (State.waves_foldl (fun s e => ?_) _ _).trans h3
    split
    · exact s.stopCl_waves ..
    · rfl
  · exact h3

@[simp] theorem State.compare_waves (s : State) (own partner : TRec) : (s.compare own partner).waves = s.waves := by
  unfold State.compare
  extract_lets s1
  have h1 : s1.waves = s.waves := State.waves_eq_of_work (s.count64_work ..)
  split
  · exact (s1.diverge_waves ..).trans h1
  · split
    · exact (s1.diverge_waves ..).trans h1
    · exact h1

@[simp] theorem State.tandemOwn_waves (s : State) (e : Nat) (r : TRec) : (s.tandemOwn e r).waves = s.waves := by
  unfold State.tandemOwn
  extract_lets u
  split
  · exact State.compare_waves ..
  · rfl

@[simp] theorem State.tandemPartner_waves (s : State) (e : Nat) (r : TRec) : (s.tandemPartner e r).waves = s.waves := by
  unfold State.tandemPartner
  extract_lets u
  split
  · exact State.compare_waves ..
  · rfl

/-- A record takes the cluster's next number and goes to a tandem unit (R303, R304). -/
@[simp] theorem State.tandemRecord_waves (s : State) (n tile fmt task step k stage : Nat) (bs : List Byte) :
    (s.tandemRecord n tile fmt task step k stage bs).waves = s.waves := by
  unfold State.tandemRecord
  extract_lets mode c id fold r s1
  have h1 : s1.waves = s.waves := s.setCl_waves rfl
  split
  · rfl
  · split
    · exact ((State.tandemOwn_waves ..).trans (State.waves_eq_of_work (s1.sendRecord_work r))).trans h1
    · split
      · exact (s1.tandemOwn_waves ..).trans h1
      · exact (s1.tandemPartner_waves ..).trans h1

@[simp] theorem State.trapTaken_waves (s : State) (n : Nat) (isHeld : Bool) : (s.trapTaken n isHeld).waves = s.waves := by
  unfold State.trapTaken
  extract_lets s1
  have h1 : s1.waves = s.waves := State.waves_eq_of_work (s.raise_work ..)
  split
  · exact (s1.stopCl_waves ..).trans h1
  · exact h1

/-- Side effects write registers, records and events; a stop or a tandem record also marks its cluster, and none moves a token. -/
@[simp] theorem applyAct_waves (n : Nat) (isHeld : Bool) (s : State) (a : Act) : (applyAct n isHeld s a).waves = s.waves := by
  cases a <;> unfold applyAct <;> dsimp -zeta only
  case trap =>
    split
    · rfl
    · extract_lets s1
      have h1 : s1.waves = s.waves := State.waves_eq_of_work (s.capture_work ..)
      split
      · exact (State.waves_eq_of_work (s1.recordEvent_work ..)).trans h1
      · exact (s1.trapTaken_waves ..).trans h1
  case stop => exact s.stopCl_waves ..
  case tandem => exact s.tandemRecord_waves ..
  all_goals exact State.waves_eq_of_work (by simp)

@[simp] theorem State.acts_waves (s : State) (n : Nat) (o : Option Nat) (as : List Act) : (s.acts n o as).waves = s.waves := by
  unfold State.acts
  cases o with
  | none => exact State.waves_foldl (applyAct_waves n false) as s
  | some i =>
    dsimp -zeta only
    extract_lets t keep now c s1
    have h1 : s1.waves = s.waves := by
      unfold s1
      split
      · rfl
      · refine s.setCl_waves ?_
        unfold Cluster.setSlot
        split <;> rfl
    split
    · exact (State.waves_foldl (applyAct_waves n false) now s1).trans h1
    · exact State.waves_foldl (applyAct_waves n false) as s

/-- Side effects of several instructions leave the tokens in the arrays where they are. -/
@[simp] theorem State.runActs_waves (s : State) (n : Nat) (as : List RunAct) : (s.runActs n as).waves = s.waves :=
  State.waves_foldl (fun s _ => s.acts_waves ..) as s

/-- What a step with its side effects leaves in the array of the cluster it puts in place. -/
theorem State.setCl_runActs_waves (s : State) (n : Nat) (c : Cluster) (as : List RunAct) :
    ((s.setCl n c).runActs n as).waves n = c.wave := by
  rw [State.runActs_waves, State.waves, State.setCl_cl_same]

/-! Two array instructions of one number. MOP numbers its instructions apart, but a statement about every state speaks of these too. -/

/-- A stream MOP of one K index with two tokens. -/
def twinF : MopF :=
  { opk := 0, stream := true, cls := 1, tile := 0, grp := 0, gq := false, gs := 0, zpm := 0, mfa := false, mfw := false, wsrc := 0
    rows := 2, cols := 1, sa := 0, sb := 1, k := 1 }

/-- The instruction that the execute half is at: its second token enters next. -/
def laterTwin : MopRun := { f := twinF, etok := 1 }

/-- An instruction of the same number before it, whose tokens have all entered. -/
def earlierTwin : MopRun := { f := twinF, ek := 1 }

/-- A cluster with both in progress, a token that comes to the accumulator row, and the elements of the next. -/
def twinCluster : Cluster :=
  { st := 2, mop := some laterTwin, tail := [earlierTwin]
    wave := List.replicate 31 none ++ [some { run := 0, k := 0, row := 0, codes := [], bank := false, was := false }]
    loadQ := [{ desc := 0, stage := 0, elems := [0] }] }

/-- A module that runs, with that cluster as its cluster 0. -/
def twinState : State :=
  { ({ State.reset with phase := 6 } : State).setFld 0x200000 1 1 0 with clusters := [(0, twinCluster)] }

/-- The array may step: the later twin's next token has its elements, and nothing holds it up (R104, R107, R130). -/
theorem twinCluster_may_step :
    laneRoom twinCluster = true ∧ waveBlocked twinCluster = false ∧ (∀ x ∈ twinCluster.runs, x.f.gq = false) ∧
      twinCluster.canPop [(0, 1)] = true := by decide

theorem twinState_steps : twinState.Steps 0 twinCluster.mopOwner := by decide +kernel

/-- In that step the earlier twin, with the token's column added, takes the later one's place, and no token enters. -/
theorem tokenStep_twinCluster :
    (tokenStep twinCluster (twinState.suspects 0) (twinCluster.halts twinCluster.mopOwner)).map
      (fun x => x.1.wave.getD 0 none) = some none := by decide +kernel

/-! The obligation -/

theorem exec_streamTokenStep_of_steps {s : State} {cl : ClusterNo} (hs : s.Steps cl none) {u : Cluster} {as : List RunAct}
    (h : tokenStep (s.cl cl) (s.suspects cl) ((s.cl cl).halts (s.cl cl).mopOwner) = some (u, as)) :
    exec (.streamTokenStep cl) s = .next ((s.setCl cl u).runActs cl as) := by
  have hw : s.works cl = true := by simpa [Cluster.halts] using works_of_steps hs
  change execStreamTokenStep cl s = _
  simp only [execStreamTokenStep, hw, h, Bool.not_true, Bool.false_eq_true, if_false]

/-- Refutes O10, in its clause on stream mode: where an instruction in progress before it has the same number, the accumulator row's add
puts that one back in the place of the instruction at the sequencer (`Cluster.putRun`), and the next token does not enter although its
elements are queued. The clause lacks that the numbers of `c.runs` differ. -/
theorem not_arrayUnitsStep : ¬ Obligations.ArrayUnitsStep := by
  unfold Obligations.ArrayUnitsStep
  rintro ⟨-, -, hstream, -⟩
  obtain ⟨hroom, hfree, hplain, hcan⟩ := twinCluster_may_step
  obtain ⟨u, as, hexec, -, -, henter⟩ :=
    hstream twinState 0 laterTwin twinState_steps rfl rfl rfl (by decide) hroom hfree hplain
  obtain ⟨tok, htok, -⟩ := henter hcan (.inl (by decide))
  obtain ⟨⟨v, bs⟩, hstep, hv⟩ := Option.map_eq_some_iff.mp tokenStep_twinCluster
  have hexec' := exec_streamTokenStep_of_steps (s := twinState) (cl := 0) (by decide +kernel) hstep
  have hwave : v.wave = u.wave := by
    rw [← State.setCl_runActs_waves twinState 0 v bs, ← State.setCl_runActs_waves twinState 0 u as]
    exact congrArg (State.waves · 0) (Host.Outcome.next.inj (hexec'.symm.trans hexec))
  rw [← hwave, hv] at htok
  cases htok

end Sys2Proof.Machine
end

section
/-! SUPPORT. An update of every cluster of a set, the emptied windows of a cluster, and what GLOAD, GSWITCH, PROPOSE and WCLEAR do
when they start (R140, R144, R174, R176, R360, R365). -/

namespace Sys2Proof.Machine

/-! An update of every cluster of a set -/

/-- Every cluster of a waybill's set is changed by f. -/
def State.onEach (s : State) (ns : List Nat) (f : Cluster → Cluster) : State :=
  ns.foldl (fun s n => s.setCl n (f (s.cl n))) s

@[simp] theorem State.onEach_nil (s : State) (f : Cluster → Cluster) : s.onEach [] f = s := rfl

@[simp] theorem State.onEach_cons (s : State) (n : Nat) (ns : List Nat) (f : Cluster → Cluster) :
    s.onEach (n :: ns) f = (s.setCl n (f (s.cl n))).onEach ns f := rfl

/-- Nothing but the clusters differs. -/
theorem State.onEach_frame (s : State) (ns : List Nat) (f : Cluster → Cluster) :
    s.onEach ns f = { s with clusters := (s.onEach ns f).clusters } := by
  induction ns generalizing s with
  | nil => rfl
  | cons n ns ih => exact ih _

theorem State.onEach_cl_of_not_mem (s : State) {ns : List Nat} (f : Cluster → Cluster) {i : Nat} (hi : i ∉ ns) :
    (s.onEach ns f).cl i = s.cl i := by
  induction ns generalizing s with
  | nil => rfl
  | cons n ns ih =>
    obtain ⟨hn, hns⟩ := not_or.mp (mt List.mem_cons.mpr hi)
    rw [State.onEach_cons, ih _ hns, State.setCl_cl, if_neg hn]

/-- A set may name a cluster twice: the update is one that a second time changes nothing. -/
theorem State.onEach_cl_of_mem (s : State) {ns : List Nat} {f : Cluster → Cluster} (hf : ∀ c, f (f c) = f c) {i : Nat}
    (hi : i ∈ ns) : (s.onEach ns f).cl i = f (s.cl i) := by
  induction ns generalizing s with
  | nil => cases hi
  | cons n ns ih =>
    rw [State.onEach_cons]
    by_cases hns : i ∈ ns
    · rw [ih _ hns, State.setCl_cl]
      split
      next hn => rw [hf, hn]
      next => rfl
    · obtain rfl : i = n := (List.mem_cons.mp hi).resolve_right hns
      rw [State.onEach_cl_of_not_mem _ f hns, State.setCl_cl_same]

/-! Windows that are emptied (R139, R144) -/

/-- A map from which the keys outside p have gone. -/
theorem sget_filter_key {α : Type} {d : Nat → α} (m : SMap α) (p : Nat → Bool) (k : Nat) :
    sget d (m.filter (fun e => p e.1)) k = if p k then sget d m k else d k := by
  split
  next hk => exact sget_filter_keep m _ k fun _ => hk
  next hk =>
    refine sget_of_not_mem fun e he hek => hk ?_
    rw [← hek]
    exact (List.mem_filter.mp he).2

/-- The windows of the named slots are emptied. -/
def Cluster.clearWindows (slots : List Nat) (c : Cluster) : Cluster :=
  { c with wins := c.wins.filter (fun e => !slots.contains (e.1 / 16)), fill := c.fill.filter (fun e => !slots.contains e.1) }

theorem Cluster.clearWindows_clearWindows (slots : List Nat) (c : Cluster) :
    (c.clearWindows slots).clearWindows slots = c.clearWindows slots := by
  simp [Cluster.clearWindows, List.filter_filter]

theorem Cluster.clearWindows_win (slots : List Nat) (c : Cluster) (k : Nat) {e : Nat} (he : e < 16) :
    sget noWin (c.clearWindows slots).wins (k * 16 + e) =
      if k ∈ slots then noWin (k * 16 + e) else sget noWin c.wins (k * 16 + e) := by
  have hk : (k * 16 + e) / 16 = k := by omega
  rw [Cluster.clearWindows, sget_filter_key c.wins (fun j => !slots.contains (j / 16)), hk]
  by_cases hs : k ∈ slots <;> simp [hs]

theorem Cluster.clearWindows_fill (slots : List Nat) (c : Cluster) (k : Nat) :
    sget zeroNat (c.clearWindows slots).fill k = if k ∈ slots then 0 else sget zeroNat c.fill k := by
  rw [Cluster.clearWindows, sget_filter_key c.fill (fun j => !slots.contains j)]
  by_cases hs : k ∈ slots <;> simp [hs, zeroNat]

/-- The windows of a slot that is named. -/
theorem Cluster.clearWindows_of_mem {slots : List Nat} {k : Nat} (hk : k ∈ slots) (c : Cluster) :
    (∀ e < 16, sget noWin (c.clearWindows slots).wins (k * 16 + e) = noWin (k * 16 + e)) ∧
      sget zeroNat (c.clearWindows slots).fill k = 0 :=
  ⟨fun _ he => (c.clearWindows_win slots k he).trans (if_pos hk), (c.clearWindows_fill slots k).trans (if_pos hk)⟩

/-- The windows of a slot that is not named. -/
theorem Cluster.clearWindows_of_not_mem {slots : List Nat} {k : Nat} (hk : k ∉ slots) (c : Cluster) :
    (∀ e < 16, sget noWin (c.clearWindows slots).wins (k * 16 + e) = sget noWin c.wins (k * 16 + e)) ∧
      sget zeroNat (c.clearWindows slots).fill k = sget zeroNat c.fill k :=
  ⟨fun _ he => (c.clearWindows_win slots k he).trans (if_neg hk), (c.clearWindows_fill slots k).trans (if_neg hk)⟩

/-! A waybill that starts -/

/-- A waybill whose range is not up waits. -/
theorem startWb_of_starts_of_not_up {s : State} {opc r ix : Nat} {w : Wb} (hs : s.Starts opc r ix w) {up : Wb → Bool}
    (hu : up w = false) (f : State → Wb → State) : s.startWb opc r ix up f = s := by
  have hwait : s.startWb opc r ix up f = s.startWb opc r ix always (fun _ _ => s) := by simp [State.startWb, hs.1, hu, always]
  rw [hwait, startWb_of_starts hs rfl]

section
variable {s : State} {r : Fin 16} {i : Word} {w : Wb}

/-! GLOAD (R174, R177, R219, R367) -/

/-- The table load that a GLOAD asks for, with the table's bytes. -/
def State.waybillLoad (s : State) (r : Fin 16) (w : Wb) : GLoad :=
  let a := pPair w.params 3
  { addr := a, epoch := w.params.getD 5 0, wb := some (r.val, w.ix, s.loessRead a 8320) }

section
variable (ecc : List (Nat × EccCase))

theorem exec_gload_of_not_up (hs : s.Starts 0x400 r i.toNat w) (hup : s.rangeUp (pPair w.params 3) 8320 = false) :
    exec (.gload r i ecc) s = .next s :=
  congrArg Host.Outcome.next (startWb_of_starts_of_not_up hs hup _)

variable (hs : s.Starts 0x400 r i.toNat w) (hup : s.rangeUp (pPair w.params 3) 8320 = true)
include hs hup

theorem exec_gload_of_busy (hb : w.clus.any (fun n => ((s.switchOn w.clus).cl n).gbusy) = true) :
    exec (.gload r i ecc) s = .next ((s.switchOn w.clus).finish r w 7 [0xFF]) :=
  congrArg Host.Outcome.next ((startWb_of_starts hs hup _).trans (if_pos hb))

variable (hb : w.clus.any (fun n => ((s.switchOn w.clus).cl n).gbusy) = false) {u : State}
  (hu : ((s.switchOn w.clus).eccReads [(pPair w.params 3, 8320)] mgmtWho ecc).mgmtTraffic false [(pPair w.params 3, 8320)] = u)
include hb hu

theorem exec_gload_of_poison (hp : u.firstPoison (pPair w.params 3) 8320 ≠ none) :
    exec (.gload r i ecc) s = .next (u.finish r w 0x0C [0, 0]) := by
  obtain ⟨d, hd⟩ := Option.ne_none_iff_exists'.mp hp
  refine congrArg Host.Outcome.next ((startWb_of_starts hs hup _).trans ((if_neg (ne_true_of_eq_false hb)).trans ?_))
  simp only [hu, hd]
  rfl

theorem exec_gload_of_clean (hp : u.firstPoison (pPair w.params 3) 8320 = none) :
    exec (.gload r i ecc) s =
      .next ((u.onEach w.clus (fun c => c.requestLoad (u.waybillLoad r w))).setWb r { w with phase := 2 }) := by
  refine congrArg Host.Outcome.next ((startWb_of_starts hs hup _).trans ((if_neg (ne_true_of_eq_false hb)).trans ?_))
  simp only [hu, hp]
  rfl

end

/-! GSWITCH, PROPOSE and WCLEAR (R140, R144, R176, R360) -/

/-- The next boundary is to exchange the cluster's glaze banks. -/
def Cluster.askSwitch (c : Cluster) : Cluster := { c with gswitch := true }

theorem exec_gswitchWaybill_of_starts (hs : s.Starts 0x401 r i.toNat w) :
    exec (.gswitchWaybill r i) s =
      .next (((s.switchOn w.clus).onEach w.clus Cluster.askSwitch).setWb r { w with phase := 2 }) :=
  congrArg Host.Outcome.next (startWb_of_starts hs rfl _)

theorem exec_propose_of_starts (hs : s.Starts 0x500 r i.toNat w) :
    let p := w.params.getD 3 0
    let top (neg : Bool) : Nat := ((s.switchOn w.clus).windowCodes w.clus (p % 16) neg).foldl max 0
    let a := proposal (p.testBit 4) (p.testBit 5) (top false) (top true)
    exec (.propose r i) s = .next ((s.switchOn w.clus).finish r w a.1 a.2) :=
  congrArg Host.Outcome.next (startWb_of_starts hs rfl _)

/-- The slots that a WCLEAR names. -/
def Wb.clearSlots (w : Wb) : List Nat := (List.range 16).filter (fun k => (w.params.getD 3 0).testBit k)

/-- The clusters of a WCLEAR in which a slot it names records. -/
def State.clearBusy (s : State) (w : Wb) : List Nat := w.clus.filter (fun n => w.clearSlots.any (s.recording n))

theorem exec_wclear_of_busy (hs : s.Starts 0x501 r i.toNat w) (hb : (s.switchOn w.clus).clearBusy w ≠ []) :
    exec (.wclear r i) s = .next ((((s.switchOn w.clus).clearBusy w).foldl (fun s n => s.busyW (.cluster n))
      (s.switchOn w.clus)).finish r w 7 [0xFF, 0, 0, 0, 0x204]) :=
  congrArg Host.Outcome.next ((startWb_of_starts hs rfl _).trans (if_pos hb))

/-- WCLEAR empties the windows, and its slots stand against direct writes of the kc. -/
def State.wclear (s : State) (w : Wb) : State :=
  let t := s.onEach w.clus (Cluster.clearWindows w.clearSlots)
  { t with wbSlots := w.clus.flatMap (fun n => w.clearSlots.map (fun k => (n, k))) ++ t.wbSlots }

theorem exec_wclear_of_free (hs : s.Starts 0x501 r i.toNat w) (hb : (s.switchOn w.clus).clearBusy w = []) :
    exec (.wclear r i) s = .next (((s.switchOn w.clus).wclear w).finish r w 0 [w.clus.length]) :=
  congrArg Host.Outcome.next ((startWb_of_starts hs rfl _).trans (if_neg (not_not_intro hb)))

theorem State.wclear_frame (s : State) (w : Wb) :
    s.wclear w = { s with
      clusters := (s.wclear w).clusters
      wbSlots := w.clus.flatMap (fun n => w.clearSlots.map (fun k => (n, k))) ++ s.wbSlots } := by
  rw [State.wclear, State.onEach_frame]

theorem State.wclear_cl_of_mem (s : State) {w : Wb} {n : Nat} (hn : n ∈ w.clus) :
    (s.wclear w).cl n = (s.cl n).clearWindows w.clearSlots :=
  s.onEach_cl_of_mem (Cluster.clearWindows_clearWindows _) hn

theorem State.wclear_cl_of_not_mem (s : State) {w : Wb} {n : Nat} (hn : n ∉ w.clus) : (s.wclear w).cl n = s.cl n :=
  s.onEach_cl_of_not_mem _ hn

end

/-! Scale proposals (R140) -/

section
variable (int4 : Bool) {p n : Nat}

theorem proposal_of_inf (asym : Bool) (h : p = f32Inf ∨ n = f32Inf) : proposal asym int4 p n = (0x0B, [0, 0, p, n]) := by
  rw [proposal, if_pos h]

theorem proposal_symmetric_of_empty : proposal false int4 0 0 = (0, [0x3F800000, 0, 0, 0, 1]) := rfl

theorem proposal_symmetric_of_finite (hp : p < f32Inf) (hn : n < f32Inf) (h : p ≠ 0 ∨ n ≠ 0) :
    proposal false int4 p n = (0, [(f32OfReal (f32Real (max p n) / ((if int4 then 7 else 127 : Nat) : Rat))).code, 0, p, n, 0]) := by
  have hinf : ¬ (p = f32Inf ∨ n = f32Inf) := by omega
  have hfree : ¬ (f32Inf < p ∨ f32Inf < n) := by omega
  have hempty : ¬ (p = 0 ∧ n = 0) := by omega
  rw [proposal, if_neg hinf, if_neg hfree, if_neg hempty]
  rfl

end

/-! The obligation -/

/-- Settles O43: each waybill by the case it starts in; GSWITCH and WCLEAR with what their update leaves of each cluster, named or not;
the proposal by its codes. -/
theorem glazeAndWindowWaybillsAct : Obligations.GlazeAndWindowWaybillsAct := by
  unfold Obligations.GlazeAndWindowWaybillsAct
  refine ⟨fun s r i w ecc => ⟨fun hs => ⟨exec_gload_of_not_up ecc hs, fun hup => ⟨exec_gload_of_busy ecc hs hup, fun hb =>
      ⟨exec_gload_of_poison ecc hs hup hb rfl, exec_gload_of_clean ecc hs hup hb rfl⟩⟩⟩,
    fun hs => ?gswitch, exec_propose_of_starts, fun hs => ⟨exec_wclear_of_busy hs, fun hb => ?wclear⟩⟩,
    fun int4 p n _ _ => ⟨proposal_of_inf int4 false, ?empty, proposal_symmetric_of_finite int4⟩⟩
  case gswitch =>
    exact ⟨_, exec_gswitchWaybill_of_starts hs, fun n => State.onEach_cl_of_mem (f := Cluster.askSwitch) _ fun _ => rfl,
      fun n => State.onEach_cl_of_not_mem _ _, State.onEach_frame ..⟩
  case wclear =>
    refine ⟨_, exec_wclear_of_free hs hb, State.wclear_frame .., fun n hn k hk => ?_, fun n hn k _ hk => ?_,
      fun n => State.wclear_cl_of_not_mem _⟩
    · rw [State.wclear_cl_of_mem _ hn]
      exact Cluster.clearWindows_of_mem hk _
    · rw [State.wclear_cl_of_mem _ hn]
      exact Cluster.clearWindows_of_not_mem hk _
  case empty =>
    rintro rfl rfl
    exact proposal_symmetric_of_empty int4

end Sys2Proof.Machine
end

section
/-! SUPPORT. What GLZ and GTLOAD make of the cluster that issues them (R148, R167, R174, R177, R182, R198, R273, R327). -/

namespace Sys2Proof.Machine

/-! GLZ (R148, R167, R182) -/

section
variable {c : Cluster} {f : GlzF} {o : Nat}

theorem glzIssue_of_refused (hr : glzRefuse (c.gbank c.gactive) f ≠ 0) :
    glzIssue c f o =
      some (c, [.glaze (glzRefuse (c.gbank c.gactive) f) f.gfn.toNat (c.slot o).task 4, .stop 5]) :=
  if_pos hr

variable (hr : glzRefuse (c.gbank c.gactive) f = 0)
include hr

theorem glzIssue_of_no_elements (ht : glzTotal f = 0) : glzIssue c f o = some (c, []) :=
  (if_neg (not_not.mpr hr)).trans (if_pos ht)

theorem glzIssue_of_elements (ht : glzTotal f ≠ 0) :
    glzIssue c f o = some ({ c with
      glz := some { f := f, task := (c.slot o).task, step := c.exec.ix, slot := o, spec := (c.slot o).holds } }, []) :=
  (if_neg (not_not.mpr hr)).trans (if_neg ht)

end

theorem exec_glz {cl : ClusterNo} {f : GlzF} (hok : f.ok = true) (s : State) :
    exec (.glz cl f) s = .next (s.issue cl .execute (fun o c => glzIssue c f o)) := by
  change execGlz cl f s = _
  rw [execGlz, hok]
  rfl

/-! Table loads in progress, which no drover fault and no stop touches (R174, R198, R242) -/

/-- A drover fault and a stop, the side effects of a check that fails (R198). -/
def Act.isDroverStop (a : Act) : Bool := match a with | .drover .. | .stop _ => true | _ => false

theorem State.setCl_gload (s : State) {n : Nat} {c : Cluster} (h : c.gload = (s.cl n).gload) (k : Nat) :
    ((s.setCl n c).cl k).gload = (s.cl k).gload := by
  rw [State.setCl_cl]
  split
  case isTrue hk => rw [hk, h]
  case isFalse => rfl

theorem applyAct_gload (n : Nat) (isHeld : Bool) (s : State) {a : Act} (ha : a.isDroverStop = true) (k : Nat) :
    ((applyAct n isHeld s a).cl k).gload = (s.cl k).gload := by
  cases a
  case drover =>
    exact congrArg Cluster.gload (State.cl_eq_of_work ((State.raise_work ..).trans (s.capture_work ..)) k)
  case stop cause =>
    change ((s.stopCl n cause).cl k).gload = _
    unfold State.stopCl
    extract_lets c
    split
    · rfl
    · exact s.setCl_gload (c := { c with stopDue := some cause }) rfl k
  all_goals exact absurd ha Bool.false_ne_true

/-- Held or not, a drover fault leaves the table load in progress (R255). -/
theorem State.acts_gload (s : State) (n : Nat) (o : Option Nat) {as : List Act} (h : ∀ a ∈ as, a.isDroverStop = true) (k : Nat) :
    ((s.acts n o as).cl k).gload = (s.cl k).gload := by
  have hfold : ∀ (t : State) (bs : List Act), (∀ b ∈ bs, b ∈ as) →
      ((bs.foldl (applyAct n false) t).cl k).gload = (t.cl k).gload := fun t bs hb =>
    List.foldlRecOn (motive := fun u => (u.cl k).gload = (t.cl k).gload) bs _ rfl fun u hu a ha =>
      (applyAct_gload n false u (h a (hb a ha)) k).trans hu
  unfold State.acts
  cases o with
  | none => exact hfold s as fun _ => id
  | some i =>
    dsimp -zeta only
    extract_lets t keep now c s1
    have h1 : (s1.cl k).gload = (s.cl k).gload := by
      unfold s1
      split
      · rfl
      · refine s.setCl_gload ?_ k
        unfold Cluster.setSlot
        split <;> rfl
    split
    · exact (hfold s1 now fun _ => List.mem_of_mem_filter).trans h1
    · exact hfold s as fun _ => id

/-- Where no table load has started, none claims its slots. -/
theorem State.claimLoad_of_gload_eq {s t : State} {n : Nat} (h : (t.cl n).gload = (s.cl n).gload) : t.claimLoad s n = t := by
  unfold State.claimLoad
  rw [h]
  split
  next hnone hsome => cases hnone.symm.trans hsome
  next => rfl

/-- The table load of an itinerary that has started claims a slot for each granule of its image (R227, R269). -/
theorem State.claimLoad_of_started {s t : State} {n : Nat} {l : GLoad} (hs : (s.cl n).gload = none) (ht : (t.cl n).gload = some l)
    (hl : l.wb = none) : t.claimLoad s n = t.claim { cl := n, write := false, src := .load n } [(l.addr, 8320)] := by
  simp [State.claimLoad, hs, ht, hl]

/-- A waybill's table load claims none: its image has been read (R367). -/
theorem State.claimLoad_of_waybill {s t : State} {n : Nat} {l : GLoad} (ht : (t.cl n).gload = some l) (hl : l.wb.isSome = true) :
    t.claimLoad s n = t := by
  cases hs : (s.cl n).gload <;> simp [State.claimLoad, hs, ht, hl]

@[simp] theorem Cluster.setGbank_gload (c : Cluster) (n : Nat) (b : GBank) : (c.setGbank n b).gload = c.gload := by
  unfold Cluster.setGbank
  split <;> rfl

theorem Cluster.pass1_gload (c : Cluster) (h : Half) : (c.pass1 h).gload = c.gload := by
  cases h <;> rfl

/-! Requests for a table load (R177) -/

section
variable {c : Cluster}

theorem Cluster.requestLoad_of_old (l : GLoad) (h : c.old (1 - c.gactive) = true) : c.requestLoad l = { c with gwait := some l } :=
  if_pos h

theorem Cluster.requestLoad_of_free (l : GLoad) (h : c.old (1 - c.gactive) = false) :
    c.requestLoad l = ({ c with gload := some l } : Cluster).setGbank (1 - c.gactive) { c.gbank (1 - c.gactive) with state := 1 } :=
  if_neg (ne_true_of_eq_false h)

theorem Cluster.gbusy_eq_false : c.gbusy = false ↔ c.gload = none ∧ c.gwait = none := by
  simp [Cluster.gbusy]

end

/-! GTLOAD (R174, R177, R198, R273, R327) -/

section
variable {s : State} {cl : ClusterNo} {o : Nat} {region : BitVec 6} {epoch : BitVec 16} {addr : BitVec 40}
  (haddr : addr.toNat % 512 = 0)
include haddr

theorem exec_gtload_of_waits (hw : s.quotaFull cl = true ∨ s.cvn.straggling = true) :
    exec (.gtload cl region epoch addr) s = .next s := by
  change execGtload cl region epoch addr s = _
  rw [execGtload, if_neg (not_not.mpr haddr), if_pos (by simpa using hw)]

variable (hq : s.quotaFull cl = false) (hst : s.cvn.straggling = false) (hi : s.Issues cl .execute o)
include hq hst hi

/-- An image that leaves its region is a drover fault, whatever the bank does (R198). -/
theorem exec_gtload_outside {cause a : Nat}
    (hbad : checkRange (s.region cl region.toNat) addr.toNat 8320 false false = some (cause, a)) :
    exec (.gtload cl region epoch addr) s = .next ((s.setCl cl ((s.cl cl).pass1 .execute)).acts cl (some o)
      [.drover cause region.toNat 2 ((s.cl cl).slot o).task a, .stop 2]) := by
  change execGtload cl region epoch addr s = _
  rw [execGtload, if_neg (not_not.mpr haddr), if_neg (by simp [hq, hst])]
  simp only [hbad, Option.isNone_some, Bool.and_false, Bool.false_eq_true, if_false]
  rw [issue_acts hi rfl, State.claimLoad_of_gload_eq]
  rw [State.acts_gload _ _ _ (by simp [Act.isDroverStop]), State.setCl_cl_same, Cluster.pass1_gload]

variable (hin : checkRange (s.region cl region.toNat) addr.toNat 8320 false false = none)
include hin

theorem exec_gtload_of_busy (hb : (s.cl cl).gbusy = true) :
    exec (.gtload cl region epoch addr) s = .next ((s.setCl cl ((s.cl cl).pass1 .execute)).busyW (.cluster cl)) := by
  change execGtload cl region epoch addr s = _
  rw [execGtload, if_neg (not_not.mpr haddr), if_neg (by simp [hq, hst])]
  simp only [hin, issuing_of_issues hi, hb, Option.isNone_none, Option.isSome_some, Bool.and_true, if_true]
  rw [issue_plain hi (if_pos hb)]

/-- A request that can be taken loads the bank, or waits for the instruction bound to it; what has started claims its slots. -/
theorem exec_gtload_of_taken (hb : (s.cl cl).gbusy = false) :
    exec (.gtload cl region epoch addr) s = .next ((s.setCl cl (((s.cl cl).requestLoad
      { addr := addr.toNat, epoch := epoch.toNat, task := ((s.cl cl).slot o).task }).pass1 .execute)).claimLoad s cl) := by
  change execGtload cl region epoch addr s = _
  rw [execGtload, if_neg (not_not.mpr haddr), if_neg (by simp [hq, hst])]
  simp only [hin, hb, Bool.and_false, Bool.false_and, Bool.false_eq_true, if_false]
  rw [issue_plain hi (if_neg (ne_true_of_eq_false hb))]

end

/-! The obligation -/

/-- Settles O6: GLZ by what the active bank and the total say, GTLOAD by its waits, its region check and the state of the inactive
bank; only a load that starts claims slots. -/
theorem glazeInstructionsIssue : Obligations.GlazeInstructionsIssue := by
  unfold Obligations.GlazeInstructionsIssue
  refine ⟨fun s cl o f hi hok => ?glz, fun s cl o region epoch addr hi haddr => ?gtload⟩
  case glz =>
    intro c k cause
    rw [exec_glz hok]
    exact ⟨fun hr => by rw [issue_acts hi (glzIssue_of_refused hr)],
      fun hr ht => by rw [issue_plain hi (glzIssue_of_no_elements hr ht)],
      fun hr ht => by rw [issue_plain hi (glzIssue_of_elements hr ht)]⟩
  case gtload =>
    intro c b l check
    refine ⟨exec_gtload_of_waits haddr, fun hq hst => ⟨fun cause a hbad => exec_gtload_outside haddr hq hst hi hbad,
      exec_gtload_of_busy haddr hq hst hi, fun hin hb hold => ?waits_for_bank, fun hin hb hold => ?loads⟩⟩
    case waits_for_bank =>
      rw [exec_gtload_of_taken haddr hq hst hi hin hb, Cluster.requestLoad_of_old _ hold, State.claimLoad_of_gload_eq]
      rw [State.setCl_cl_same, Cluster.pass1_gload]
    case loads =>
      rw [exec_gtload_of_taken haddr hq hst hi hin hb, Cluster.requestLoad_of_free _ hold,
        State.claimLoad_of_started (l := l) (Cluster.gbusy_eq_false.mp hb).1 _ rfl]
      rw [State.setCl_cl_same, Cluster.pass1_gload, Cluster.setGbank_gload]

end Sys2Proof.Machine
end

section
/-! SUPPORT. Vectors of an elementwise function and the slots of their evaluators, and how table loads begin and end (R159, R164, R167, R172,
R174, R175, R177, R182, R219, R272, R367). -/

namespace Sys2Proof.Machine

/-! The elements that a consumer takes, or lacks (R186, R187) -/

/-- More than a stream's entries hold cannot be taken. -/
theorem popElems_of_lt {d n : Nat} {q : List LoadEntry} (h : (queueOf d q).length < n) : popElems d q n = none := by
  induction q generalizing n with
  | nil =>
    obtain ⟨k, rfl⟩ := Nat.exists_eq_add_one_of_ne_zero (Nat.ne_zero_of_lt h)
    rfl
  | cons e q ih =>
    obtain ⟨k, rfl⟩ := Nat.exists_eq_add_one_of_ne_zero (Nat.ne_zero_of_lt h)
    rw [queueOf_cons] at h
    unfold popElems
    split at h
    case isTrue he =>
      rw [List.length_append] at h
      rw [if_pos he, if_pos (by omega), ih (by omega)]
      rfl
    case isFalse he => rw [if_neg he, ih h]; rfl

theorem Cluster.popFor_of_not_canPop {c : Cluster} {d n : Nat} (h : c.canPop [(d, n)] = false) (who : Nat) :
    c.popFor d n who = none := by
  rw [Cluster.canPop_singleton, decide_eq_false_iff_not, elemsOf_eq_length, Nat.not_le] at h
  exact congrArg (Option.map _) (popElems_of_lt h)

theorem Cluster.front_length {c : Cluster} {d n : Nat} (h : c.canPop [(d, n)] = true) : (c.front d n).length = n := by
  rw [Cluster.canPop_singleton, decide_eq_true_eq, elemsOf_eq_length] at h
  rw [Cluster.front_eq_take, ← c.pull_entries [(d, n)], queueOf_append, List.length_take, List.length_append]
  omega

/-- Taking elements changes the entries, the count of those given back and the record of what was taken, and nothing else. -/
theorem Cluster.popFor_frame {c c1 : Cluster} {d n who : Nat} {xs : List Nat} {as : List Act}
    (h : c.popFor d n who = some (xs, c1, as)) : ∃ hand loadQ returned took,
      c1 = { c with hand := hand, loadQ := loadQ, returned := returned, took := took } := by
  obtain ⟨r, -, hr⟩ := Option.map_eq_some_iff.mp h
  obtain ⟨-, rfl, -⟩ := hr
  exact ⟨_, _, _, _, rfl⟩

/-! Vectors of an elementwise function (R159, R167, R175, R182) -/

/-- The results of a vector, in the bank b. -/
def glzResults (b : GBank) (f : GlzF) (xs : List Nat) : List Made :=
  xs.map (fun x => glzElem b f.gfn.toNat ((fmtOf f.ofmt.toNat).getD .bin32) (decodeVal ((fmtOf f.ifmt.toNat).getD .bin32) x).1)

section
variable {c : Cluster} {r : GlzRun} (hg : r.f.gfn.toNat < 0x10) (hp : r.pass = 0)
include hg hp

theorem glzVec_of_elementwise : glzVec r = min 32 (glzTotal r.f - r.elems) := by
  rw [glzVec, if_neg (not_not.mpr hp), if_neg (Nat.not_le.mpr hg)]

variable (hr : c.glz = some r)
include hr

/-- Each vector of an elementwise function delivers results, and none begins a row. -/
theorem vectorEntry_of_elementwise :
    vectorEntry c = if convRoom c then
      (c.popFor r.f.sa.toNat (glzVec r) 4).map (fun x =>
        let cause := if r.bank.isNone then glzRefuse (c.gbank c.gactive) r.f else 0
        if cause ≠ 0 then ({ c with glz := none }, [.glaze cause r.f.gfn.toNat r.task 4, .stop 5])
        else
          let u := elemsEntry x.2.1 { r with bank := some (r.bank.getD c.gactive) } x.1
          (u.1, x.2.2 ++ u.2))
    else none := by
  have hb : glzBegins r = false := by simp [glzBegins, Nat.not_le.mpr hg]
  have hd : glzDelivers r = true := by simp [glzDelivers, hg]
  unfold vectorEntry
  simp only [hr, hb, hd, hp, Bool.true_and, Bool.false_and, Bool.or_false, ne_eq, not_true_eq_false, if_false]
  cases convRoom c
  · rfl
  · cases c.popFor r.f.sa.toNat (glzVec r) 4 with
    | none => rfl
    | some x =>
      simp only [Bool.not_true, Bool.false_eq_true, if_false, if_true, Option.map_some]
      exact (apply_ite some _ _ _).symm

theorem vectorEntry_of_no_room (hroom : convRoom c = false) : vectorEntry c = none := by
  rw [vectorEntry_of_elementwise hg hp hr, hroom, if_neg Bool.false_ne_true]

variable (hroom : convRoom c = true)
include hroom

theorem vectorEntry_of_no_elements (hcan : c.canPop [(r.f.sa.toNat, glzVec r)] = false) : vectorEntry c = none := by
  rw [vectorEntry_of_elementwise hg hp hr, if_pos hroom, Cluster.popFor_of_not_canPop hcan, Option.map_none]

variable (hcan : c.canPop [(r.f.sa.toNat, glzVec r)] = true)
include hcan

/-- The first vector asks the bank that it would bind. -/
theorem vectorEntry_of_refused (hb : r.bank = none) (hc : glzRefuse (c.gbank c.gactive) r.f ≠ 0) :
    vectorEntry c = some ({ c with glz := none },
      [.glaze (glzRefuse (c.gbank c.gactive) r.f) r.f.gfn.toNat r.task 4, .stop 5]) := by
  obtain ⟨c1, as, hpop, -⟩ := Cluster.popFor_of_canPop hcan 4
  rw [vectorEntry_of_elementwise hg hp hr, if_pos hroom, hpop]
  simp [hb, hc]

/-- A vector that enters delivers its results to the converter, and the instruction ends with its last (R149, R165). -/
theorem vectorEntry_of_performed (hc : r.bank = none → glzRefuse (c.gbank c.gactive) r.f = 0) :
    ∃ u as, vectorEntry c = some (u, as) ∧
      u.conv = c.conv ++ [glzConv r r.f.desc.toNat ((fmtOf r.f.ofmt.toNat).getD .bin32)
        (glzResults (c.gbank (r.bank.getD c.gactive)) r.f (c.front r.f.sa.toNat (glzVec r)))] ∧
      u.glz = (if glzTotal r.f ≤ r.elems + glzVec r then none
        else some { r with bank := some (r.bank.getD c.gactive), elems := r.elems + glzVec r }) ∧
      Act.count64 0x320 (glzVec r) ∈ as := by
  obtain ⟨c1, as, hpop, -⟩ := Cluster.popFor_of_canPop hcan 4
  obtain ⟨hand, loadQ, returned, took, rfl⟩ := Cluster.popFor_frame hpop
  have hcause : (if r.bank.isNone then glzRefuse (c.gbank c.gactive) r.f else 0) = 0 := by
    cases hb : r.bank with
    | none => exact hc hb
    | some b => rfl
  rw [vectorEntry_of_elementwise hg hp hr, if_pos hroom, hpop]
  simp only [Option.map_some, hcause, ne_eq, not_true_eq_false, if_false]
  refine ⟨_, _, rfl, ?_⟩
  simp only [elemsEntry, if_pos hg, Cluster.front_length hcan]
  refine ⟨rfl, ?_, ?_⟩
  · simp only [glzNext, decide_eq_true_eq]
  · simp [Cluster.front_length hcan]

end

/-! The slots of the evaluators (R164, R272) -/

/-- The evaluator slots that a glaze instruction's next vector waits for: in native rate none. -/
def State.glzNeed (s : State) (n : Nat) (r : GlzRun) : Nat := if s.glzShared n then glzSlots r else 0

section
variable {s : State} {cl : ClusterNo} {r : GlzRun} (hr : (s.cl cl).glz = some r)
include hr

theorem exec_glazeVectorEntry_of_lt (hn : (s.cl cl).gslots < s.glzNeed cl r) : exec (.glazeVectorEntry cl) s = .next s := by
  change execGlazeVectorEntry cl s = _
  simp only [execGlazeVectorEntry, hr]
  exact if_pos hn

/-- A vector that has its slots takes them all when it enters. -/
theorem exec_glazeVectorEntry_of_le (hn : s.glzNeed cl r ≤ (s.cl cl).gslots) :
    exec (.glazeVectorEntry cl) s = .next (s.unitStep cl ((s.cl cl).owner r.slot r.task) (fun c =>
      (vectorEntry c).map (fun x => ({ x.1 with gslots := 0 }, x.2)))) := by
  change execGlazeVectorEntry cl s = _
  simp only [execGlazeVectorEntry, hr]
  exact if_neg (Nat.not_lt.mpr hn)

end

theorem State.rewind_of_stagesRun {s : State} (h : s.stagesRun = true) (w : Wheel) (unit : Nat) : s.rewind w unit = s := by
  simp [State.rewind, h]

/-- A slot goes to its owner where the owner can take it. -/
theorem State.offer_of_owner_takes {s t : State} {w : Wheel} {unit : Nat} {f : State → Nat → Option State} {idle : State → State}
    {n owner : Nat} (hw : sget zeroNat s.wheel (wheelKey w unit) = n) (hn : n < slotsIn w s.clkStep)
    (ho : s.slotOwner w n = owner) (h7 : owner ≤ 7)
    (hf : f { s with wheel := sput zeroNat s.wheel (wheelKey w unit) (n + 1) } owner = some t) : s.offer w unit f idle = t := by
  simp only [State.offer, hw, ho, if_neg (Nat.not_le.mpr hn), offered, if_pos h7, firstTaker, hf, Option.getD_some]

/-- A plain or gated task's instruction takes an evaluator slot as FG. -/
theorem State.glazeStep_of_plain {s : State} {n : Nat} {r : GlzRun} (hr : (s.cl n).glz = some r) (hsh : s.glzShared n = true)
    (hlt : (s.cl n).gslots < glzSlots r) (hw : s.works n = true) (hv : (vectorEntry (s.cl n)).isSome = true)
    (hplain : ∀ o, (s.cl n).owner r.slot r.task = some o → ((s.cl n).slot o).holds = false) :
    s.glazeStep n 0 = some (s.setCl n { s.cl n with gslots := (s.cl n).gslots + 1 }) := by
  unfold State.glazeStep
  simp only [hr]
  cases ho : (s.cl n).owner r.slot r.task with
  | none => simp [hsh, hlt, hw, hv]
  | some o => simp [hsh, hlt, hw, hv, hplain o ho]

/-! How a table load begins (R177, R273, R327) -/

theorem exec_glazeLoadStart_of_free {s : State} {cl : ClusterNo} {l : GLoad} (hon : s.clOn cl = true)
    (hwait : (s.cl cl).gwait = some l) (hload : (s.cl cl).gload = none) (hold : (s.cl cl).old (1 - (s.cl cl).gactive) = false)
    (hfree : l.wb.isSome = true ∨ (s.quotaFull cl = false ∧ s.cvn.straggling = false)) :
    exec (.glazeLoadStart cl) s =
      .next ((s.setCl cl (({ s.cl cl with gwait := none } : Cluster).requestLoad l)).claimLoad s cl) := by
  have hgo : (l.wb.isNone && (s.quotaFull cl || s.cvn.straggling)) = false := by
    rcases hfree with hwb | ⟨hq, hst⟩
    · simp [Option.isNone_eq_false_iff.mpr hwb]
    · simp [hq, hst]
  change execGlazeLoadStart cl s = _
  simp [execGlazeLoadStart, hwait, hload, hold, hon, hgo]

/-- The inactive bank of a cluster loads. -/
def Cluster.loadStarted (c : Cluster) (l : GLoad) : Cluster :=
  ({ c with gwait := none, gload := some l } : Cluster).setGbank (1 - c.gactive) { c.gbank (1 - c.gactive) with state := 1 }

theorem Cluster.loadStarted_gload (c : Cluster) (l : GLoad) : (c.loadStarted l).gload = some l :=
  Cluster.setGbank_gload _ _ _

theorem Cluster.requestLoad_of_waited {c : Cluster} (l : GLoad) (hold : c.old (1 - c.gactive) = false) :
    ({ c with gwait := none } : Cluster).requestLoad l = c.loadStarted l :=
  Cluster.requestLoad_of_free l hold

/-! How a table load ends (R172, R174, R219, R367) -/

/-- The format that the check of an image finds, 0 when it fails (R172). -/
def imageFmt (bs : List Byte) : Nat := imageCheck (fun i => bs.getD i 0) (crc32c 0 (bs.drop 32)).toNat

theorem loadedBank_of_failed {bs : List Byte} (h : imageFmt bs = 0) (epoch : Nat) : loadedBank epoch bs = {} := if_pos h

theorem loadedBank_of_checked {bs : List Byte} (h : imageFmt bs ≠ 0) (epoch : Nat) :
    loadedBank epoch bs = { state := 2, epoch := epoch, fmt := imageFmt bs, img := sputs zeroByte [] 0 bs } := if_neg h

section
variable {s : State} {n : Nat} {l : GLoad} {bs : List Byte}

theorem State.putBank_of_failed (h : imageFmt bs = 0) :
    s.putBank n l bs = applyAct n false
      (s.setCl n (({ s.cl n with gload := none } : Cluster).setGbank (1 - (s.cl n).gactive) {})) (.glaze 3 0 0 5) := by
  rw [State.putBank, loadedBank_of_failed h]
  rfl

theorem State.putBank_of_checked (h : imageFmt bs ≠ 0) :
    s.putBank n l bs = s.setCl n (({ s.cl n with gload := none } : Cluster).setGbank (1 - (s.cl n).gactive)
      { state := 2, epoch := l.epoch, fmt := imageFmt bs, img := sputs zeroByte [] 0 bs }) := by
  rw [State.putBank, loadedBank_of_checked h]
  exact if_neg h

end

section
variable {s : State} {cl : ClusterNo} {l : GLoad} (hon : s.clOn cl = true) (hl : (s.cl cl).gload = some l)
include hon hl

theorem exec_glazeLoadDone_of_waybill {r ix : Nat} {bs : List Byte} (hwb : l.wb = some (r, ix, bs)) :
    exec (.glazeLoadDone cl []) s = .next ((s.putBank cl l bs).loadReceipt l) := by
  change execGlazeLoadDone cl [] s = _
  simp only [execGlazeLoadDone, hl, hon, hwb, Bool.not_true, Bool.false_eq_true, if_false]

/-- An itinerary's image is read once its granules have had their slots; here the decoder meets nothing in it. -/
theorem exec_glazeLoadDone_of_ready (hwb : l.wb = none) (hready : s.loadReady cl l = true) :
    exec (.glazeLoadDone cl []) s = .next (s.loadDone cl l) := by
  change execGlazeLoadDone cl [] s = _
  simp only [execGlazeLoadDone, hl, hon, hwb, hready, Bool.not_true, Bool.false_eq_true, if_false]
  rfl

end

section
variable {s v : State} {n : Nat} {l : GLoad} (hv : s.touch [(l.addr, 8320)] = v)
include hv

theorem State.loadDone_of_poisoned (hp : v.poisoned l.addr 8320 = true) :
    s.loadDone n l = (v.setCl n (({ v.cl n with gload := none } : Cluster).setGbank (1 - (v.cl n).gactive) {})).stopCl n 8 := by
  subst hv
  exact if_pos hp

theorem State.loadDone_of_clean (hp : v.poisoned l.addr 8320 = false) :
    s.loadDone n l = v.putBank n l (v.loessRead l.addr 8320) := by
  subst hv
  exact if_neg (ne_true_of_eq_false hp)

end

/-! The obligation -/

/-- Settles O13: a vector by its slots, the converter's room and its elements; a table load by whose it is when it begins, and by
poison and the image's check when it ends; an evaluator slot by its owner, who takes it. -/
theorem glazeUnitsWork : Obligations.GlazeUnitsWork := by
  unfold Obligations.GlazeUnitsWork
  refine ⟨fun s cl r => ?vectors, fun s cl l => ?loads, fun s u ecc r => ?slots⟩
  case vectors =>
    intro c o n need ifmt ofmt b xs ms hr
    refine ⟨exec_glazeVectorEntry_of_lt hr, fun hn hs hg hp hroom => ?no_room, fun hn hs hg hp hroom => ?room⟩
    case no_room =>
      rw [exec_glazeVectorEntry_of_le hr hn, unitStep_waits hs]
      rw [vectorEntry_of_no_room hg hp hr hroom, Option.map_none]
    case room =>
      rw [exec_glazeVectorEntry_of_le hr hn]
      have hvec : glzVec r = n := glzVec_of_elementwise hg hp
      refine ⟨fun hcan => ?no_elements, fun hcan hok => ?performed, fun hcan hb hc => ?refused⟩
      case no_elements =>
        rw [unitStep_waits hs]
        rw [vectorEntry_of_no_elements hg hp hr hroom (hvec ▸ hcan), Option.map_none]
      case performed =>
        obtain ⟨u, as, hv, hconv, hglz, hcount⟩ :=
          vectorEntry_of_performed hg hp hr hroom (hvec ▸ hcan) fun hb => by simpa [b, hb] using hok hb
        rw [hvec] at hconv hglz hcount
        refine ⟨{ u with gslots := 0 }, as, ?_, (List.length_map _).trans (Cluster.front_length hcan), rfl, hconv, hglz, hcount⟩
        rw [unitStep_acts hs]
        rw [hv, Option.map_some]
      case refused =>
        have hbank : b = c.gbank c.gactive := by simp [b, hb]
        rw [hbank] at hc ⊢
        rw [unitStep_acts hs]
        rw [vectorEntry_of_refused hg hp hr hroom (hvec ▸ hcan) hb hc, Option.map_some]
  case loads =>
    intro c b hon
    refine ⟨?begin_load, ?done, fun r ix bs hl hwb => exec_glazeLoadDone_of_waybill hon hl hwb⟩
    case begin_load =>
      intro u hwait hload hold
      have hgl : (u.cl cl).gload = some l := by
        rw [State.setCl_cl_same]
        exact c.loadStarted_gload l
      refine ⟨fun hwb => ?_, fun hwb hq hst => ?_⟩
      · rw [exec_glazeLoadStart_of_free hon hwait hload hold (.inl hwb), Cluster.requestLoad_of_waited l hold]
        exact congrArg _ (State.claimLoad_of_waybill hgl hwb)
      · rw [exec_glazeLoadStart_of_free hon hwait hload hold (.inr ⟨hq, hst⟩), Cluster.requestLoad_of_waited l hold]
        exact congrArg _ (State.claimLoad_of_started hload hgl hwb)
    case done =>
      intro hl hwb hready v e bs fmt d k
      rw [exec_glazeLoadDone_of_ready hon hl hwb hready]
      exact ⟨fun hp => congrArg _ (State.loadDone_of_poisoned rfl hp),
        fun hp hf => congrArg _ ((State.loadDone_of_clean rfl hp).trans (State.putBank_of_checked hf)),
        fun hp hf => congrArg _ ((State.loadDone_of_clean rfl hp).trans (State.putBank_of_failed hf))⟩
  case slots =>
    intro c n hrun hn ho hr hsh hlt hv hw hplain
    have hstep : ({ s with wheel := sput zeroNat s.wheel (wheelKey .glaze u) (n + 1) } : State).glazeStep u 0 = some _ :=
      State.glazeStep_of_plain hr hsh hlt hw hv hplain
    change execSlotGrant .glaze u ecc s = _
    rw [execSlotGrant, if_neg (show ¬wheelUnits .glaze ≤ u.val from Nat.not_le.mpr u.isLt), State.rewind_of_stagesRun hrun]
    exact congrArg _ (State.offer_of_owner_takes rfl hn ho (by omega) hstep)

end Sys2Proof.Machine
end

section
/-! SUPPORT. What the host's writes of descriptors, of the footprint pin and of the tandem mode do in their turn (R176, R191, R210, R281,
R292, R301). -/

namespace Sys2Proof.Machine

/-! A write in its turn (R376) -/

/-- A register write that has come has taken its slot, and nothing else differs. -/
theorem State.arrived_frame (s : State) : ∃ x, s.arrived = { s with teth := x } := by
  unfold State.arrived
  split
  · exact ⟨_, rfl⟩
  · exact ⟨s.teth, rfl⟩

/-- What does not look at the Tether finds the state as it was. -/
theorem State.arrived_congr (s : State) {α : Type} (p : State → α) (h : ∀ x, p { s with teth := x } = p s) : p s.arrived = p s := by
  obtain ⟨x, hx⟩ := s.arrived_frame
  rw [hx, h]

@[simp] theorem State.arrived_phase (s : State) : s.arrived.phase = s.phase := s.arrived_congr (·.phase) fun _ => rfl
@[simp] theorem State.arrived_grade (s : State) : s.arrived.grade = s.grade := s.arrived_congr (·.grade) fun _ => rfl
@[simp] theorem State.arrived_clusters (s : State) : s.arrived.clusters = s.clusters := s.arrived_congr (·.clusters) fun _ => rfl
@[simp] theorem State.arrived_trans (s : State) : s.arrived.trans = s.trans := s.arrived_congr (·.trans) fun _ => rfl
@[simp] theorem State.arrived_cl (s : State) (n : Nat) : s.arrived.cl n = s.cl n := s.arrived_congr (·.cl n) fun _ => rfl
@[simp] theorem State.arrived_reg (s : State) (a : Nat) : s.arrived.reg a = s.reg a := s.arrived_congr (·.reg a) fun _ => rfl
@[simp] theorem State.arrived_regN (s : State) (a : Nat) : s.arrived.regN a = s.regN a := s.arrived_congr (·.regN a) fun _ => rfl
@[simp] theorem State.arrived_fld (s : State) (a lo n : Nat) : s.arrived.fld a lo n = s.fld a lo n :=
  s.arrived_congr (·.fld a lo n) fun _ => rfl
@[simp] theorem State.arrived_winOn (s : State) (w : Win) : s.arrived.winOn w = s.winOn w := s.arrived_congr (·.winOn w) fun _ => rfl
@[simp] theorem State.arrived_tmode (s : State) : s.arrived.tmode = s.tmode := s.arrived_congr (·.tmode) fun _ => rfl
@[simp] theorem State.arrived_tth (s : State) : s.arrived.tth = s.tth := s.arrived_congr (·.tth) fun _ => rfl
@[simp] theorem State.arrived_lastKc (s : State) : s.arrived.lastKc = s.lastKc := s.arrived_congr (·.lastKc) fun _ => rfl

theorem State.hostAccess_of_slotted {s : State} (hs : s.InTurn) {i : HostAcc} (hi : i.slotted = true) :
    s.hostAccess i = s.arrived.perform i := by
  rw [State.hostAccess_of_inTurn hs, hi, if_pos rfl]

/-- An access to a window of the module acts while power is up. -/
theorem State.hostAccess_of_powered {s t : State} (hs : s.InTurn) {i : HostAcc} (hi : i.slotted = true) (hp : s.phase ≠ 0)
    (h : s.arrived.perform i = if s.arrived.phase = 0 then s.arrived else t) : s.hostAccess i = t := by
  rw [State.hostAccess_of_slotted hs hi, h, s.arrived_phase, if_neg hp]

/-- An access to a window whose domain may be off acts while it is on. -/
theorem State.hostAccess_of_winOn {s t : State} (hs : s.InTurn) {i : HostAcc} (hi : i.slotted = true) {w : Win}
    (h : s.arrived.perform i = if s.arrived.winOn w then t else s.arrived) :
    s.hostAccess i = if s.winOn w then t else s.arrived := by
  rw [State.hostAccess_of_slotted hs hi, h, s.arrived_winOn]

section
variable {s : State} (hs : s.InTurn)
include hs

theorem exec_glzCtlSwitch_of_inTurn (cl : ClusterNo) : exec (.glzCtlSwitch cl) s =
    .next (if s.winOn (.cluster cl) then s.arrived.setCl cl { s.arrived.cl cl with gswitch := true } else s.arrived) :=
  congrArg Host.Outcome.next (State.hostAccess_of_winOn hs rfl rfl)

theorem exec_drvDescWrite_of_inTurn (cl : ClusterNo) (w : Fin 16) (v : Word) : exec (.drvDescWrite cl w v) s =
    .next (if s.winOn (.cluster cl) then s.arrived.writeDesc cl w v.toNat else s.arrived) :=
  congrArg Host.Outcome.next (State.hostAccess_of_winOn hs rfl rfl)

variable (hp : s.phase ≠ 0)
include hp

theorem exec_glbFootPinWrite_of_inTurn (pin : Bool) :
    exec (.glbFootPinWrite pin) s = .next (s.arrived.writePin (if pin then 1 else 0)) :=
  congrArg Host.Outcome.next (State.hostAccess_of_powered hs rfl hp rfl)

theorem exec_tndModeWrite_of_inTurn (v : Word) : exec (.tndModeWrite v) s = .next (s.arrived.writeTnd v.toNat) :=
  congrArg Host.Outcome.next (State.hostAccess_of_powered hs rfl hp rfl)

end

/-! DRV_DESC (R191, R210) -/

/-- The bytes of a descriptor in its holding copy. -/
def descBytes (h : SMap Word) : List Byte := (List.range 16).flatMap (fun i => leBytes 4 (sget (fun _ => 0#32) h i).toNat)

/-- A cluster with one more word in the holding copy. -/
def Cluster.holdDesc (c : Cluster) (w : Nat) (v : Word) : Cluster := { c with dhold := sput (fun _ => 0#32) c.dhold w v }

/-- The holding copy passes R191. -/
def Cluster.descOk (c : Cluster) : Bool := (descOf (descBytes c.dhold)).ok (16 * (c.sec.ntask + c.sec.nexec + c.sec.nacc))

section
variable {s : State} {n w sel : Nat} {c : Cluster} (v : Word) (hc : s.cl n = c) (hsel : s.fld (ca n 0x440) 0 6 = sel)
include hc hsel

theorem State.writeDesc_of_used (hu : c.descUsed sel = true) : s.writeDesc n w v.toNat = s.busyW (.cluster n) := by
  subst hc hsel
  exact if_pos hu

variable (hu : c.descUsed sel = false)
include hu

theorem State.writeDesc_of_lt (hw : w < 15) : s.writeDesc n w v.toNat = s.setCl n (c.holdDesc w v) := by
  subst hc hsel
  simp only [State.writeDesc, BitVec.ofNat_toNat, BitVec.setWidth_eq]
  exact (if_neg (ne_true_of_eq_false hu)).trans (if_pos hw)

/-- The last word commits the holding copy if that passes R191. -/
theorem State.writeDesc_of_last (hw : w = 15) :
    s.writeDesc n w v.toNat =
      if (c.holdDesc 15 v).descOk then
        s.setCl n ((c.holdDesc 15 v).setStg (0xF000 + 64 * sel) (descBytes (c.holdDesc 15 v).dhold))
      else applyAct n false (s.setCl n (c.holdDesc 15 v)) (.drover 4 sel 0 0 0) := by
  subst hc hsel hw
  simp only [State.writeDesc, BitVec.ofNat_toNat, BitVec.setWidth_eq]
  exact (if_neg (ne_true_of_eq_false hu)).trans (if_neg (Nat.lt_irrefl 15))

end

/-! GLB_FOOT.PIN (R292) -/

section
variable {s : State} {pin : Nat}

theorem State.writePin_of_xa1792 (hg : s.grade = .xa1792) : s.writePin pin = s := if_pos (.inl hg)

theorem State.writePin_of_same (h : pin = s.fld 0x600 0 1) : s.writePin pin = s := if_pos (.inr h)

variable (hg : s.grade = .xa2048) (hpin : pin ≠ s.fld 0x600 0 1)
include hg hpin

theorem State.writePin_of_changes :
    s.writePin pin = if rowSeven.any (fun n => decide ((s.cl n).st ≠ 0)) then s.busyW .global else s.setFld 0x600 0 1 pin :=
  if_neg (by simp [hg, hpin])

theorem State.writePin_of_not_idle (h : ∃ m ∈ rowSeven, (s.cl m).st ≠ 0) : s.writePin pin = s.busyW .global := by
  rw [State.writePin_of_changes hg hpin, if_pos (by simpa using h)]

theorem State.writePin_of_idle (h : ∀ m ∈ rowSeven, (s.cl m).st = 0) : s.writePin pin = s.setFld 0x600 0 1 pin := by
  rw [State.writePin_of_changes hg hpin, if_neg (by simpa using h)]

end

/-! TND_CTL (R301, R307) -/

/-- TIMEOUT 0 is refused. -/
def tndRefused (v : Nat) : Nat := if bits v 8 8 = 0 then 0xFF00 else 0

section
variable {s : State} {v : Nat}

theorem State.writeTnd_of_reserved (h : v % 4 = 3) : s.writeTnd v = s.writeBut .global 0x700 v (3 + tndRefused v) := by
  simp [State.writeTnd, h, tndRefused]

variable (h3 : v % 4 ≠ 3)
include h3

theorem State.writeTnd_of_same (h : v % 4 = s.tmode) : s.writeTnd v = s.writeBut .global 0x700 v (tndRefused v) := by
  have h3' : s.tmode ≠ 3 := h ▸ h3
  simp [State.writeTnd, h, h3', tndRefused]

variable (hc : v % 4 ≠ s.tmode)
include hc

/-- With all clusters idle a change of mode restarts the sequence numbers. -/
theorem State.writeTnd_of_idle (h : ∀ e ∈ s.clusters, e.2.st = 0) :
    s.writeTnd v = (s.mapCl (fun c => { c with tseq := 0 })).writeBut .global 0x700 v (tndRefused v) := by
  have hany : s.clusters.any (fun e => decide (e.2.st ≠ 0)) = false := by simpa using h
  simp only [State.writeTnd, h3, hc, hany, tndRefused, decide_false, decide_true, ne_eq, not_false_eq_true, Bool.and_false,
    Bool.or_false, Bool.not_false, Bool.and_true, Bool.false_eq_true, if_true, if_false, Nat.zero_add]

theorem State.writeTnd_of_not_idle (h : ∃ e ∈ s.clusters, e.2.st ≠ 0) :
    s.writeTnd v = s.writeBut .global 0x700 v (3 + tndRefused v) := by
  have hany : s.clusters.any (fun e => decide (e.2.st ≠ 0)) = true := by simpa using h
  simp only [State.writeTnd, h3, hc, hany, tndRefused, decide_false, decide_true, ne_eq, not_false_eq_true, Bool.and_true,
    Bool.or_true, Bool.not_true, Bool.and_false, Bool.false_eq_true, if_true, if_false]

end

end Sys2Proof.Machine
end

section
/-! SUPPORT. What the host's writes of the event ring's and the interrupts' registers do in their turn, and the messages of vectors that are
unmasked while pending (R376, R382, R383, R386, R457). -/

namespace Sys2Proof.Machine

/-! EVT_CTL, EVT_RD and TTH_IPEND in their turn -/

section
variable {s : State} (hs : s.InTurn)
include hs

theorem exec_tthImaskWrite_of_inTurn (v : Word) :
    exec (.tthImaskWrite v) s = .next (if s.winOn .tether then s.arrived.writeImask v.toNat else s.arrived) :=
  congrArg Host.Outcome.next (State.hostAccess_of_winOn hs rfl rfl)

theorem exec_tthIpendClear_of_inTurn (v : Word) :
    exec (.tthIpendClear v) s = .next (if s.winOn .tether then s.arrived.plainWrite .tether 0x600024 v.toNat else s.arrived) :=
  congrArg Host.Outcome.next (State.hostAccess_of_winOn hs rfl rfl)

variable (hp : s.phase ≠ 0)
include hp

theorem exec_evtEnable_of_inTurn (v : Word) : exec (.evtEnable v) s = .next (s.arrived.writeEvtCtl v.toNat) :=
  congrArg Host.Outcome.next (State.hostAccess_of_powered hs rfl hp rfl)

theorem exec_evtRdWrite_of_inTurn (v : Word) : exec (.evtRdWrite v) s = .next (s.arrived.writeEvtRd v.toNat) :=
  congrArg Host.Outcome.next (State.hostAccess_of_powered hs rfl hp rfl)

end

/-! The event ring (R457) -/

/-- EVT_CTL is written, a SIZE below 4 being refused. -/
def State.putEvtCtl (s : State) (v : Nat) : State := s.writeBut .events 0x106000 v (if bits v 1 4 < 4 then 0x1E else 0)

section
variable {s : State} {v : Nat}

/-- Enabling the ring starts its indices at 0. -/
theorem State.writeEvtCtl_of_enabled (hoff : (s.reg 0x106000).getLsbD 0 = false) (hv : v.testBit 0 = true) :
    s.writeEvtCtl v = ((s.putEvtCtl v).setRegN 0x10600C 0).setRegN 0x106010 0 :=
  if_pos (by rw [hoff, hv]; rfl)

theorem State.writeEvtCtl_of_not_enabled (h : (s.reg 0x106000).getLsbD 0 = true ∨ v.testBit 0 = false) :
    s.writeEvtCtl v = s.putEvtCtl v :=
  if_neg (by rcases h with h | h <;> simp [h])

theorem State.writeEvtRd_of_le
    (h : (v + 2 ^ 32 - s.regN 0x106010) % 2 ^ 32 ≤ (s.regN 0x10600C + 2 ^ 32 - s.regN 0x106010) % 2 ^ 32) :
    s.writeEvtRd v = s.setRegN 0x106010 v := if_neg (Nat.not_lt.mpr h)

theorem State.writeEvtRd_of_past
    (h : (s.regN 0x10600C + 2 ^ 32 - s.regN 0x106010) % 2 ^ 32 < (v + 2 ^ 32 - s.regN 0x106010) % 2 ^ 32) :
    s.writeEvtRd v = s.busyW .events := if_pos h

end

/-! Vectors that are unmasked while pending (R383) -/

/-- Vector i sends its message, which ends its pending; it sends no second one in its kc. -/
def State.unmask (s : State) (i : Nat) : State :=
  { (s.toHost 7 (s.irqMsg i)).dropBits 0x600024 (2 ^ i) with unmasked := i :: s.unmasked }

/-- Vector i is masked in `old`, unmasked in `v` and pending. -/
def State.unmasks (s : State) (old v : Word) (i : Nat) : Bool := old.getLsbD i && !v.getLsbD i && (s.reg 0x600024).getLsbD i

/-- The messages of vectors, as they wait for a slot of the Tether. -/
def State.irqTx (s : State) (is : List Nat) : List TxMsg := is.map (fun i => { act := 7, due := s.stageNo, msg := s.irqMsg i })

theorem State.writeImask_eq_foldl (s : State) (v : Word) :
    s.writeImask v.toNat = (List.range 32).foldl (fun t i => if t.unmasks (s.reg 0x600020) v i then t.unmask i else t)
      (s.setRegN 0x600020 v.toNat) := rfl

theorem State.dropBits_reg_other (s : State) {a b : Nat} (m : Nat) (h : b ≠ a) : (s.dropBits a m).reg b = s.reg b :=
  sget_sput_other _ _ _ _ h

/-- Taking back one bit of a register leaves the others. -/
theorem State.dropBits_reg_bit (s : State) (a i : Nat) {j : Nat} (hj : j < 32) :
    ((s.dropBits a (2 ^ i)).reg a).getLsbD j = ((s.reg a).getLsbD j && decide (j ≠ i)) := by
  have hr : (s.dropBits a (2 ^ i)).reg a = s.reg a &&& ~~~(BitVec.ofNat 32 (2 ^ i)) := sget_sput_same _ _ _ _
  rw [hr, BitVec.getLsbD_and, BitVec.getLsbD_not, BitVec.getLsbD_ofNat, Nat.testBit_two_pow]
  by_cases h : i = j
  · simp [hj, h]
  · simp [hj, h, Ne.symm h]

/-- After TTH_IMASK has taken v in state s, the vectors of `sent` have sent their messages: state t. -/
structure State.Unmasked (s : State) (v : Word) (t : State) (sent : List Nat) : Prop where
  mask : t.reg 0x600020 = v
  others : ∀ a, a ≠ 0x600020 → a ≠ 0x600024 → t.reg a = s.reg a
  pending : ∀ i < 32, (t.reg 0x600024).getLsbD i = ((s.reg 0x600024).getLsbD i && !sent.contains i)
  messages : t.teth = { s.teth with txq := s.teth.txq ++ s.irqTx sent }
  vectors : ∀ i, i ∈ t.unmasked ↔ i ∈ sent ∨ i ∈ s.unmasked
  frame : ∃ regs caught teth unmasked, t = { s with regs := regs, caught := caught, teth := teth, unmasked := unmasked }

section
variable {s t : State} {v : Word} {sent : List Nat}

theorem State.unmasked_of_mask (s : State) (v : Word) : s.Unmasked v (s.setRegN 0x600020 v.toNat) [] where
  mask := by rw [State.setRegN_reg, if_pos rfl, BitVec.ofNat_toNat, BitVec.setWidth_eq]
  others a ha _ := by rw [State.setRegN_reg, if_neg ha]
  pending i _ := by rw [State.setRegN_reg, if_neg (by decide)]; simp
  messages := by simp [State.irqTx]
  vectors i := by simp
  frame := ⟨_, s.caught, s.teth, s.unmasked, rfl⟩

/-- Neither mask nor pending bits say what a message bears. -/
theorem State.Unmasked.irqTx_eq (h : s.Unmasked v t sent) (is : List Nat) : t.irqTx is = s.irqTx is := by
  have hmsg : t.irqMsg = s.irqMsg := by
    funext i
    simp only [State.irqMsg, State.fld, State.regN]
    rw [h.others (0x600100 + 16 * i) (by omega) (by omega), h.others (0x600104 + 16 * i) (by omega) (by omega),
      h.others (0x600108 + 16 * i) (by omega) (by omega)]
  have hstage : t.stageNo = s.stageNo := by
    simp only [State.stageNo, State.reg64, State.regN]
    rw [h.others 0x400 (by decide) (by decide), h.others (0x400 + 4) (by decide) (by decide)]
  rw [State.irqTx, hmsg, hstage, State.irqTx]

/-- One more vector sends its message. -/
theorem State.Unmasked.unmask (h : s.Unmasked v t sent) (i : Nat) : s.Unmasked v (t.unmask i) (sent ++ [i]) where
  mask := (State.dropBits_reg_other _ _ (by decide)).trans h.mask
  others a ha hb := (State.dropBits_reg_other _ _ hb).trans (h.others a ha hb)
  pending j hj := by
    refine (State.dropBits_reg_bit (t.toHost 7 (t.irqMsg i)) 0x600024 i hj).trans ?_
    change ((t.reg 0x600024).getLsbD j && _) = _
    rw [h.pending j hj, Bool.and_assoc]
    by_cases hji : j = i <;> simp [hji]
  messages := by
    change { t.teth with txq := t.teth.txq ++ t.irqTx [i] } = _
    rw [h.messages, h.irqTx_eq]
    simp [State.irqTx]
  vectors j := by
    change j ∈ i :: t.unmasked ↔ _
    rw [List.mem_cons, h.vectors, List.mem_append, List.mem_singleton]
    tauto
  frame := by
    obtain ⟨_, _, _, _, rfl⟩ := h.frame
    exact ⟨_, _, _, _, rfl⟩

end

/-- The vectors that a write of TTH_IMASK unmasks while they are pending, in ascending order. -/
def State.unmaskedBy (s : State) (v : Word) (n : Nat) : List Nat := (List.range n).filter (s.unmasks (s.reg 0x600020) v)

/-- Vector n finds its own pending bit as it was: only vectors below it have sent. -/
theorem State.Unmasked.unmasks_eq {s t : State} {v : Word} {n : Nat} (h : s.Unmasked v t (s.unmaskedBy v n)) (hn : n < 32) (old : Word) :
    t.unmasks old v n = s.unmasks old v n := by
  have hnew : (s.unmaskedBy v n).contains n = false := by simp [State.unmaskedBy]
  rw [State.unmasks, h.pending n hn, hnew, Bool.not_false, Bool.and_true, State.unmasks]

/-- After the first n vectors, those of them that are unmasked while pending have sent their messages. -/
theorem State.unmasked_of_foldl (s : State) (v : Word) {n : Nat} (hn : n ≤ 32) :
    s.Unmasked v ((List.range n).foldl (fun t i => if t.unmasks (s.reg 0x600020) v i then t.unmask i else t)
      (s.setRegN 0x600020 v.toNat)) (s.unmaskedBy v n) := by
  induction n with
  | zero => exact s.unmasked_of_mask v
  | succ n ih =>
    have h := ih (by omega)
    rw [List.range_succ, List.foldl_append, List.foldl_cons, List.foldl_nil, h.unmasks_eq hn, State.unmaskedBy, List.range_succ,
      List.filter_append, List.filter_singleton]
    cases s.unmasks (s.reg 0x600020) v n with
    | true => exact h.unmask n
    | false => simpa [State.unmaskedBy] using h

/-- TTH_IMASK: each vector that is unmasked while pending sends its message. -/
theorem State.unmasked_of_writeImask (s : State) (v : Word) : s.Unmasked v (s.writeImask v.toNat) (s.unmaskedBy v 32) := by
  rw [State.writeImask_eq_foldl]
  exact s.unmasked_of_foldl v (le_refl 32)

end Sys2Proof.Machine
end

section
/-! SUPPORT. Resets that the host writes and the sideband contact asks for, when they act, and what waits for the next stage (R404, R407, R424,
R467); with them the control registers' obligation. -/

namespace Sys2Proof.Machine

/-! Resets act at once or wait (R404, R407) -/

/-- One more reset waits. -/
def State.addReset (s : State) (d : ResetDue) : State := { s with resets := s.resets ++ [d] }

section
variable {s : State} {d : ResetDue} {acked : Bool}

theorem State.resetOr_of_waits (h : s.lastKc = true ∨ acked = false) : s.resetOr d acked = s.addReset d :=
  if_pos (by rcases h with h | h <;> simp [h])

theorem State.resetOr_of_acts (hk : s.lastKc = false) (ha : acked = true) : s.resetOr d acked = s.resetNow d :=
  if_neg (by simp [hk, ha])

end

section
variable {s : State}

theorem State.writeEngrst_of_transition (ht : s.trans.isSome = true) (mask : Nat) : s.writeEngrst mask = s.busyW .power := if_pos ht

theorem State.writeEngrst_of_no_transition (ht : s.trans = none) (mask : Nat) : s.writeEngrst mask = s.resetOr (.eng mask) true :=
  if_neg (by simp [ht])

theorem State.writeReset_of_keyed {v : Nat} (hv : v.testBit 0 = true ∧ bits v 8 8 = 0xA5) :
    s.writeReset v = s.resetOr (.mod 2) (decide (s.tth ≠ 1)) :=
  if_pos (by simp [hv.1, hv.2])

theorem State.writeReset_of_not_keyed {v : Nat} (hv : ¬(v.testBit 0 = true ∧ bits v 8 8 = 0xA5)) : s.writeReset v = s :=
  if_neg (by simpa using hv)

variable (hs : s.InTurn) (hp : s.phase ≠ 0)
include hs hp

theorem exec_pwrEngrst_of_inTurn (v : Word) : exec (.pwrEngrst v) s = .next (s.arrived.writeEngrst v.toNat) :=
  congrArg Host.Outcome.next (State.hostAccess_of_powered hs rfl hp rfl)

theorem exec_pwrResetWrite_of_inTurn (v : Word) : exec (.pwrResetWrite v) s = .next (s.arrived.writeReset v.toNat) :=
  congrArg Host.Outcome.next (State.hostAccess_of_powered hs rfl hp rfl)

end

/-! MODULE_RESET (R404, R424, R467) -/

/-- A reset of the module, which waits in the last kc of a stage. -/
def State.resetModule (s : State) (cause : Nat) : State := if s.lastKc = true then s.addReset (.mod cause) else s.modReset cause

theorem State.resetOr_eq_resetModule (s : State) (cause : Nat) : s.resetOr (.mod cause) true = s.resetModule cause := by
  cases hk : s.lastKc with
  | true => rw [State.resetOr_of_waits (.inl hk), State.resetModule, if_pos hk]
  | false => rw [State.resetOr_of_acts hk rfl, State.resetModule, if_neg (ne_true_of_eq_false hk), State.resetNow]

section
variable {s : State} {contact : Bool}

theorem exec_moduleReset_of_off (hp : s.phase = 0) : exec (.moduleReset contact) s = .next s := if_pos hp

variable (hp : s.phase ≠ 0)
include hp

theorem exec_moduleReset_of_first_release (hc : contact = true) (hl : s.side.rstLow = true) (hh : s.held = false) :
    exec (.moduleReset contact) s = .next { s with side := { s.side with rstLow := false } } :=
  (if_neg hp).trans (if_pos (by simp [hc, hl, hh]))

/-- The reset of a contact, or of a keyed write, keeps start-up in phase A while the lever that holds it is open. -/
theorem exec_moduleReset_of_resets (h : contact = false ∨ s.side.rstLow = false ∨ s.held = true) :
    exec (.moduleReset contact) s =
      .next (if s.held && !(s.reg 0x104004).getLsbD 9 then
          { s.resetModule (if contact then 1 else 2) with phase := 1, held := true }
        else s.resetModule (if contact then 1 else 2)) := by
  rw [← State.resetOr_eq_resetModule]
  exact (if_neg hp).trans (if_neg (by rcases h with h | h | h <;> simp [h]))

end

/-! Resets that have waited (R404, R407) -/

/-- The resets that wait are taken up. -/
def State.takeResets (s : State) : State := { s with resets := [] }

section
variable {s : State}

theorem State.takeResets_of_nil (h : s.resets = []) : s.takeResets = s := by rw [State.takeResets, ← h]

theorem State.dueResets_of_nil (h : s.resets = []) : s.dueResets = s := by
  have hd : s.dueResets = s.takeResets := by simp [State.dueResets, h, State.takeResets]
  rw [hd, State.takeResets_of_nil h]

theorem State.dueResets_of_eng {m : Nat} (h : s.resets = [.eng m]) : s.dueResets = s.takeResets.resetEngines m := by
  simp [State.dueResets, h, State.takeResets, State.resetNow]

/-- A module reset governs. -/
theorem State.dueResets_of_mod {m c : Nat} (h : s.resets = [.mod c] ∨ s.resets = [.eng m, .mod c]) :
    s.dueResets = s.takeResets.modReset c := by
  rcases h with h | h <;> simp [State.dueResets, h, State.takeResets, State.resetNow]

end

/-- The start-up phase and the resets that wait. -/
def State.startUp (s : State) : Nat × List ResetDue := (s.phase, s.resets)

@[simp] theorem State.setFld_startUp (s : State) (a lo n v : Nat) : (s.setFld a lo n v).startUp = s.startUp := rfl

@[simp] theorem State.effReset_startUp (s : State) : s.effReset.startUp = s.startUp := by
  unfold State.effReset
  split
  · exact s.setFld_startUp ..
  · rfl

@[simp] theorem State.afreshKeeping_startUp (s : State) (k : RKind) (phase : Nat) : (s.afreshKeeping k phase).startUp = (phase, []) := rfl

/-- A module reset leaves start-up at phase B and no reset waiting. -/
theorem State.modReset_startUp (s : State) (c : Nat) : (s.modReset c).startUp = (2, []) := by
  unfold State.modReset
  extract_lets next pin s1 s2
  have h2 : s2.startUp = (2, []) := by simp [s2, s1]
  split <;> simp [h2]

theorem State.stagesRun_of_phase_ne {s : State} (h : s.phase ≠ 6) : s.stagesRun = false := by simp [State.stagesRun, h]

theorem State.lastKc_of_phase_ne {s : State} (h : s.phase ≠ 6) : s.lastKc = false := by
  simp [State.lastKc, State.stagesRun_of_phase_ne h]

/-- Before the last kc of a stage a kc takes from a state no more than what its due resets make of it. -/
theorem State.kilnCycle_congr {s t : State} (hs : s.phase ≠ 0) (hsk : s.lastKc = false) (ht : t.phase ≠ 0) (htk : t.lastKc = false)
    (h : s.dueResets = t.dueResets) (issued : List ClusterNo) : s.kilnCycle issued = t.kilnCycle issued := by
  have hgo : ∀ {u : State}, u.phase ≠ 0 → u.lastKc = false →
      ¬(decide (u.phase = 0) || (u.stagesRun && decide (8192 ≤ u.kc))) = true := by
    intro u hp hk hstop
    simp only [State.lastKc, Bool.and_eq_false_iff, decide_eq_false_iff_not] at hk
    simp only [hp, decide_false, Bool.false_or, Bool.and_eq_true, decide_eq_true_eq] at hstop
    rcases hk with hr | hr
    · exact ne_true_of_eq_false hr hstop.1
    · omega
  unfold State.kilnCycle
  rw [if_neg (hgo hs hsk), if_neg (hgo ht htk)]
  simp only [hsk, htk, h, Bool.false_eq_true, if_false]

/-- A kc in which a module reset is due is one of the module after it. -/
theorem exec_kilnCycle_of_mod_due {s : State} {m c : Nat} (h : s.resets = [.mod c] ∨ s.resets = [.eng m, .mod c]) (hp : s.phase ≠ 0)
    (hk : s.lastKc = false) (issued : List ClusterNo) :
    exec (.kilnCycle issued) s = exec (.kilnCycle issued) (s.takeResets.modReset c) := by
  obtain ⟨hphase, hresets⟩ := Prod.mk.inj (s.takeResets.modReset_startUp c)
  refine congrArg (fun u : State => Host.Outcome.next u.hostOn) (State.kilnCycle_congr hp hk (by omega)
    (State.lastKc_of_phase_ne (by omega)) ?_ issued)
  rw [State.dueResets_of_mod h, State.dueResets_of_nil hresets]

/-! The obligation -/

/-- Settles O50: a write in its turn does what its register's meaning says, in a state that differs from s only in the Tether; the
unmasked vectors by an induction over their numbers; resets by when they act. -/
theorem controlRegistersAct : Obligations.ControlRegistersAct := by
  unfold Obligations.ControlRegistersAct
  refine ⟨fun s cl v hs => ?control, fun s v hs => ?events, fun s v hp hs => ?resets, fun s contact hp => ?module_reset,
    fun contact s => exec_moduleReset_of_off, fun s m c issued => ⟨State.dueResets_of_nil, State.dueResets_of_eng,
      fun h => ⟨State.dueResets_of_mod h, fun hp hk => exec_kilnCycle_of_mod_due h hp hk issued⟩⟩⟩
  case control =>
    intro f
    refine ⟨fun hoff => ⟨?switch_off, fun w => ?desc_off⟩, fun hon => ⟨?switch_on, fun w => ?desc_on⟩, fun hp hg pin => ?xa1792,
      fun hp hg pin => ?xa2048, fun hp => ?tandem⟩
    case switch_off => rw [exec_glzCtlSwitch_of_inTurn hs, if_neg (ne_true_of_eq_false hoff)]
    case switch_on => rw [exec_glzCtlSwitch_of_inTurn hs, if_pos hon, State.arrived_cl]
    case desc_off => rw [exec_drvDescWrite_of_inTurn hs, if_neg (ne_true_of_eq_false hoff)]
    case desc_on =>
      intro sel
      have hc := s.arrived_cl cl
      have hsel : s.arrived.fld (ca cl 0x440) 0 6 = sel := s.arrived_fld ..
      rw [exec_drvDescWrite_of_inTurn hs, if_pos hon]
      exact ⟨fun hu => congrArg _ (State.writeDesc_of_used v hc hsel hu),
        fun hu hw => congrArg _ (State.writeDesc_of_lt v hc hsel hu hw),
        fun hu hw => ⟨fun hok => congrArg _ ((State.writeDesc_of_last v hc hsel hu hw).trans (if_pos hok)),
          fun hok => congrArg _ ((State.writeDesc_of_last v hc hsel hu hw).trans (if_neg (ne_true_of_eq_false hok)))⟩⟩
    case xa1792 => rw [exec_glbFootPinWrite_of_inTurn hs hp, State.writePin_of_xa1792 (by rwa [s.arrived_grade])]
    case xa2048 =>
      intro n
      have hg' : s.arrived.grade = .xa2048 := by rwa [s.arrived_grade]
      rw [exec_glbFootPinWrite_of_inTurn hs hp]
      exact ⟨fun hn => congrArg _ (State.writePin_of_same (by rwa [s.arrived_fld])),
        fun hn hm => congrArg _ (State.writePin_of_not_idle hg' (by rwa [s.arrived_fld]) (by simpa using hm)),
        fun hn hm => congrArg _ (State.writePin_of_idle hg' (by rwa [s.arrived_fld]) (by simpa using hm))⟩
    case tandem =>
      intro mode odd
      rw [exec_tndModeWrite_of_inTurn hs hp]
      exact ⟨fun h => congrArg _ (State.writeTnd_of_reserved h),
        fun h3 hm => congrArg _ (State.writeTnd_of_same h3 (by rwa [s.arrived_tmode])),
        fun h3 hm hi => congrArg _ (State.writeTnd_of_idle h3 (by rwa [s.arrived_tmode]) (by rwa [s.arrived_clusters])),
        fun h3 hm hi => congrArg _ (State.writeTnd_of_not_idle h3 (by rwa [s.arrived_tmode]) (by rwa [s.arrived_clusters]))⟩
  case events =>
    intro f
    refine ⟨fun hp => ⟨?ctl, ?rd⟩, fun hoff => ⟨?pend_off, ?mask_off⟩, fun hon => ⟨?pend_on, ?mask_on⟩⟩
    case ctl =>
      intro u
      rw [exec_evtEnable_of_inTurn hs hp]
      exact ⟨fun hoff hv => congrArg _ (State.writeEvtCtl_of_enabled (by rwa [s.arrived_reg]) hv),
        fun h => congrArg _ (State.writeEvtCtl_of_not_enabled (by rwa [s.arrived_reg]))⟩
    case rd =>
      intro ahead moved
      rw [exec_evtRdWrite_of_inTurn hs hp]
      exact ⟨fun h => congrArg _ (State.writeEvtRd_of_le (by simpa [ahead, moved] using h)),
        fun h => congrArg _ (State.writeEvtRd_of_past (by simpa [ahead, moved] using h))⟩
    case pend_off => rw [exec_tthIpendClear_of_inTurn hs, if_neg (ne_true_of_eq_false hoff)]
    case mask_off => rw [exec_tthImaskWrite_of_inTurn hs, if_neg (ne_true_of_eq_false hoff)]
    case pend_on => rw [exec_tthIpendClear_of_inTurn hs, if_pos hon]
    case mask_on =>
      have h : f.Unmasked v (f.writeImask v.toNat) (f.unmaskedBy v 32) := f.unmasked_of_writeImask v
      refine ⟨f.writeImask v.toNat, by rw [exec_tthImaskWrite_of_inTurn hs, if_pos hon], ?_⟩
      obtain ⟨x, hx⟩ : ∃ x, f = { s with teth := x } := s.arrived_frame
      rw [hx] at h ⊢
      obtain ⟨_, _, _, _, hframe⟩ := h.frame
      exact ⟨h.mask, h.pending, h.messages, h.vectors, by rw [hframe], by rw [hframe], by rw [hframe]⟩
  case resets =>
    intro f waits keyed
    rw [exec_pwrEngrst_of_inTurn hs hp, exec_pwrResetWrite_of_inTurn hs hp]
    refine ⟨fun ht => ?in_transition, fun ht hk => ?eng_waits, fun ht hk => ?eng_acts, fun hv hw => ?mod_waits,
      fun hv ht hk => ?mod_acts, fun hv => ?not_keyed⟩
    case in_transition => exact congrArg _ (State.writeEngrst_of_transition (by rwa [s.arrived_trans]) _)
    case eng_waits =>
      rw [State.writeEngrst_of_no_transition (by rwa [s.arrived_trans])]
      exact congrArg _ (State.resetOr_of_waits (.inl (by rwa [s.arrived_lastKc])))
    case eng_acts =>
      rw [State.writeEngrst_of_no_transition (by rwa [s.arrived_trans])]
      exact congrArg _ (State.resetOr_of_acts (by rwa [s.arrived_lastKc]) rfl)
    case mod_waits =>
      rw [State.writeReset_of_keyed hv]
      exact congrArg _ (State.resetOr_of_waits (by simpa [or_comm] using hw))
    case mod_acts =>
      rw [State.writeReset_of_keyed hv]
      exact congrArg _ (State.resetOr_of_acts (by rwa [s.arrived_lastKc]) (by simpa using ht))
    case not_keyed => rw [State.writeReset_of_not_keyed hv]
  case module_reset =>
    intro c
    refine ⟨exec_moduleReset_of_first_release hp, fun h => ?_⟩
    intro u
    rw [exec_moduleReset_of_resets hp h]
    exact ⟨fun hlever => congrArg _ (if_neg (by rcases hlever with hl | hl <;> simp [hl])),
      fun hh hlever => congrArg _ (if_pos (by rw [hh, hlever]; rfl))⟩

end Sys2Proof.Machine
end

section
/-! SUPPORT. What the converters and the store pops make of a cluster: an entry of a plain load or store conversion, the
head entry of the store trail queue (R79, R131, R187, R194). -/

namespace Sys2Proof.Machine

/-! Streams after a delivery (R190, R192, R193, R196) -/

@[simp] theorem Cluster.setStrm_strm_same (c : Cluster) (dn : Nat) (t : Strm) : (c.setStrm dn t).strm dn = t :=
  sget_sput_same ..

/-- What a load stream fills: the load trail queue and the tiles. -/
def Cluster.loaded (c : Cluster) : List LoadEntry × Tile × Tile := (c.loadQ, c.tile0, c.tile1)

theorem Cluster.of_loaded {c d : Cluster} {q : List LoadEntry} (h : d.loaded = (q, c.tile0, c.tile1)) :
    d.loadQ = q ∧ ∀ k, d.tile k = c.tile k := by
  obtain ⟨hq, h0, h1⟩ : d.loadQ = q ∧ d.tile0 = c.tile0 ∧ d.tile1 = c.tile1 := by simpa [Cluster.loaded] using h
  exact ⟨hq, fun k => by rw [Cluster.tile, h0, h1, Cluster.tile]⟩

@[simp] theorem Cluster.setStrm_loaded (c : Cluster) (dn : Nat) (t : Strm) : (c.setStrm dn t).loaded = c.loaded := rfl
@[simp] theorem Cluster.retireTag_loaded (c : Cluster) (k : Nat) : (c.retireTag k).loaded = c.loaded := rfl
@[simp] theorem Cluster.retireTag_strm (c : Cluster) (k dn : Nat) : (c.retireTag k).strm dn = c.strm dn := rfl

/-- Freeing the tags of a stream moves at most the place of its next fetch. -/
theorem freeTags_frame (c : Cluster) (dn pos : Nat) :
    (freeTags c dn pos).loaded = c.loaded ∧ ∃ iss, (freeTags c dn pos).strm dn = { c.strm dn with iss := iss } := by
  refine List.foldlRecOn (motive := fun (e : Cluster) => e.loaded = c.loaded ∧ ∃ iss, e.strm dn = { c.strm dn with iss := iss })
    _ _ ⟨rfl, (c.strm dn).iss, rfl⟩ ?_
  rintro e ⟨hl, iss, hs⟩ k -
  dsimp only
  split
  · rw [Cluster.retireTag_loaded, Cluster.retireTag_strm]
    split
    next i _ => exact ⟨hl, i, by rw [Cluster.setStrm_strm_same, hs]⟩
    next => exact ⟨hl, iss, hs⟩
  · exact ⟨hl, iss, hs⟩

/-- A stream has delivered its last element. -/
abbrev Strm.delivered (t : Strm) (total : Nat) : Prop := total ≤ t.pos ∧ t.qbuf = [] ∧ t.raw = []

theorem endStrm_frame (c : Cluster) (dn total : Nat) : (endStrm c dn total).loaded = c.loaded ∧
    (endStrm c dn total).strm dn = if (c.strm dn).delivered total then { c.strm dn with run := false } else c.strm dn := by
  unfold endStrm
  extract_lets t
  split
  · exact ⟨rfl, c.setStrm_strm_same dn _⟩
  · exact ⟨rfl, rfl⟩

/-- A tile load that waits for nothing takes nothing (R79). -/
theorem fillTiles_of_no_load {c : Cluster} (as : List Act) (dn : Nat) (h0 : (c.tile 0).ld = none) (h1 : (c.tile 1).ld = none) :
    fillTiles (c, as) dn = (c, as) := by
  simp only [fillTiles, h0, h1]

/-! LOAD_QUEUE_PUSH (R187, R194) -/

section
variable {c : Cluster} {dn : Nat} {env : Env}

theorem loadPush_of_waits (h : (c.strm dn).run = false ∨ (c.desc dn).kind = 1 ∨ ((c.desc dn).kind = 0 ∧ 128 ≤ c.loadQ.length)) :
    loadPush c dn env = none := by
  refine if_pos ?_
  rw [Bool.not_eq_true']
  tauto

/-- The codes at hand of a stream that neither quantises nor dequantises, up to one entry. -/
def Cluster.codesAtHand (c : Cluster) (dn : Nat) : List Nat :=
  elemCodes c dn (c.desc dn) (c.strm dn).pos
    (min (min 32 (1024 / (c.desc dn).dstFmt.bits)) ((c.desc dn).total - (c.strm dn).pos))

/-- The entry that those codes make. -/
def Cluster.plainEntry (c : Cluster) (dn : Nat) (env : Env) : LoadEntry :=
  let d := c.desc dn
  let pos := (c.strm dn).pos
  { desc := dn, stage := env.stage, slot := (c.strm dn).slot, last := decide (d.total ≤ pos + (c.codesAtHand dn).length)
    elems := (c.codesAtHand dn).zipIdx.map (fun x => (convert d.srcFmt d.dstFmt (d.ctl env.seed (pos + x.2)) x.1).code) }

theorem deliver_loaded {d : Desc} (h : d.kind = 0) (stage idx : Nat) (codes : List Nat) :
    (deliver c dn d stage idx codes).loaded = (c.loadQ ++ [{
      desc := dn, stage := stage, elems := codes, last := decide (d.total ≤ idx + codes.length), slot := (c.strm dn).slot }],
      c.tile0, c.tile1) :=
  congrArg Cluster.loaded (if_neg (by omega))

/-- The cluster once the codes at hand of a plain stream are converted and delivered. -/
def Cluster.converted (c : Cluster) (dn : Nat) (env : Env) : Cluster :=
  let d := c.desc dn
  let codes := c.codesAtHand dn
  let pos := (c.strm dn).pos
  let c1 := deliver c dn d env.stage pos
    ((codes.zipIdx.map (fun x => convert d.srcFmt d.dstFmt (d.ctl env.seed (pos + x.2)) x.1)).map (·.code))
  let c2 := c1.setStrm dn { c.strm dn with pos := pos + codes.length }
  if d.stat && env.stat then c2.record d.slot (codes.map (fun x => (decodeVal d.srcFmt x).1)) else c2

variable (env)

theorem Cluster.converted_frame (hkind : (c.desc dn).kind = 0) :
    (c.converted dn env).loaded = (c.loadQ ++ [c.plainEntry dn env], c.tile0, c.tile1) ∧
      (c.converted dn env).strm dn = { c.strm dn with pos := (c.strm dn).pos + (c.codesAtHand dn).length } := by
  unfold Cluster.converted
  extract_lets d codes pos c1 t c2
  have hl : c2.loaded = (c.loadQ ++ [c.plainEntry dn env], c.tile0, c.tile1) := by
    refine (deliver_loaded hkind ..).trans ?_
    rw [List.map_map, List.length_map, List.length_zipIdx]
    rfl
  have hs := c1.setStrm_strm_same dn { t with pos := pos + codes.length }
  split <;> exact ⟨hl, hs⟩

/-- The elements at hand of a plain load stream are converted, and the stream stands behind them: it is no copy, no scale stream, and
neither quantises nor dequantises. -/
theorem loadPush_of_plain (hrun : (c.strm dn).run = true) (hkind : (c.desc dn).kind = 0) (hroom : c.loadQ.length < 128)
    (hq : (c.desc dn).quant = false) (hd : (c.desc dn).dequant = false) (hcodes : c.codesAtHand dn ≠ []) :
    ∃ as, loadPush c dn env = some (endStrm (freeTags (c.converted dn env) dn ((c.strm dn).pos + (c.codesAtHand dn).length)) dn
      (c.desc dn).total, as) := by
  have hgo : ¬(!(c.strm dn).run ∨ ((c.desc dn).kind = 0 ∧ 128 ≤ c.loadQ.length) ∨ (c.desc dn).kind = 1) := by
    rw [hrun, hkind]
    simpa using hroom
  exact ⟨_, (if_neg hgo).trans ((if_neg (by omega)).trans ((if_neg (by omega)).trans ((if_neg (by simp [hq])).trans
    ((if_neg (by simp [hd])).trans (if_neg hcodes)))))⟩

/-- What the entry is, and where the stream stands and whether it goes on (R187, R190). -/
theorem loadPush_of_plain_frame (hrun : (c.strm dn).run = true) (hkind : (c.desc dn).kind = 0) :
    let pos := (c.strm dn).pos + (c.codesAtHand dn).length
    let u := endStrm (freeTags (c.converted dn env) dn pos) dn (c.desc dn).total
    u.loadQ = c.loadQ ++ [c.plainEntry dn env] ∧ (∀ k, u.tile k = c.tile k) ∧ (u.strm dn).pos = pos ∧
      ((u.strm dn).run = false ↔ (c.desc dn).total ≤ pos ∧ (c.strm dn).qbuf = [] ∧ (c.strm dn).raw = []) := by
  intro pos u
  obtain ⟨hl, hs⟩ := c.converted_frame env hkind
  obtain ⟨hl1, iss, hs1⟩ := freeTags_frame (c.converted dn env) dn pos
  obtain ⟨hl2, hs2⟩ := endStrm_frame (freeTags (c.converted dn env) dn pos) dn (c.desc dn).total
  obtain ⟨hque, htile⟩ := Cluster.of_loaded (hl2.trans (hl1.trans hl))
  refine ⟨hque, htile, ?_⟩
  rw [hs1, hs] at hs2
  rw [hs2]
  split
  next h => exact ⟨rfl, iff_of_true rfl h⟩
  next h => exact ⟨rfl, iff_of_false (by simp [hrun]) h⟩

end

/-! STORE_QUEUE_PUSH (R131, R187) -/

section
variable {c : Cluster} {env : Env}

theorem storePush_of_full (h : 64 ≤ c.storeQ.length) : storePush c env = none := if_pos h

theorem storePush_of_coded (hroom : c.storeQ.length < 64) {e : StoreEntry} {rest : List StoreEntry} (h : c.coded = e :: rest) :
    storePush c env = some (({ c with coded := rest, storeQ := c.storeQ ++ [e] } : Cluster).take 1 1, []) := by
  rw [storePush, if_neg (Nat.not_le.mpr hroom)]
  simp only [h]

theorem storePush_of_no_row (hcoded : c.coded = []) (h : convNext c = none) : storePush c env = none := by
  rw [storePush]
  simp only [hcoded, h, ite_self]

/-- The tandem check takes codes beside the converter (R303): the rows at the converter and the store trail queue stay. -/
theorem feedCheck_frame (c : Cluster) (f : Fmt) (codes : List Nat) :
    (feedCheck c f codes).1.conv = c.conv ∧ (feedCheck c f codes).1.storeQ = c.storeQ := by
  unfold feedCheck
  split
  · exact ⟨rfl, rfl⟩
  · extract_lets t
    split <;> exact ⟨rfl, rfl⟩

theorem Cluster.notePush_frame (c : Cluster) (o : Option Nat) (dn n : Nat) :
    (c.notePush o dn n).conv = c.conv ∧ (c.notePush o dn n).storeQ = c.storeQ := by
  unfold Cluster.notePush Cluster.setSlot
  split
  · split <;> exact ⟨rfl, rfl⟩
  · exact ⟨rfl, rfl⟩

/-- The codes that a row of codes becomes, each converted into the descriptor's destination format. -/
def Cluster.plainCodes (c : Cluster) (r : ConvRow) (env : Env) : List Nat :=
  let d := c.desc r.desc
  r.elems.zipIdx.map (fun x => (convert r.src d.dstFmt (d.ctl env.seed (c.storeIx r.desc + x.2)) x.1.2).code)

/-- What a row of any kind becomes. -/
def Cluster.rowMade (c : Cluster) (r : ConvRow) (env : Env) : List Made :=
  let d := c.desc r.desc
  ((roundRow d env r (c.storeIx r.desc)).zip r.elems).zipIdx.map (fun x =>
    let k := d.ctl env.seed (c.storeIx r.desc + x.2)
    if r.src = .wide && d.dstFmt ≠ .wide then encodeVal d.dstFmt k x.1.2.1 else convert r.src d.dstFmt k x.1.1.code)

theorem Cluster.rowMade_of_codes {r : ConvRow} (hround : r.round = false) (hsrc : r.src ≠ .wide) :
    (c.rowMade r env).map (·.code) = c.plainCodes r env := by
  refine List.ext_getElem (by simp [Cluster.rowMade, Cluster.plainCodes, roundRow]) fun i _ _ => ?_
  simp [Cluster.rowMade, Cluster.plainCodes, roundRow, hround, hsrc]

/-- The entries of at most cap codes that a row's codes make; what is stored beside a group goes with the first. -/
def packed (r : ConvRow) (cap idx : Nat) (codes : List Nat) (side : List (Nat × List Byte)) : List StoreEntry :=
  (List.range ((codes.length + cap - 1) / cap)).map (fun i =>
    { desc := r.desc, first := idx + i * cap, elems := (codes.drop (i * cap)).take cap
      side := if i = 0 then side else [], slot := r.slot })

theorem packed_of_fits (r : ConvRow) {cap : Nat} (idx : Nat) {codes : List Nat} (side : List (Nat × List Byte)) (hne : codes ≠ [])
    (hle : codes.length ≤ cap) :
    packed r cap idx codes side = [{ desc := r.desc, first := idx, slot := r.slot, elems := codes, side := side }] := by
  have hpos := List.length_pos_of_ne_nil hne
  have hone : (codes.length + cap - 1) / cap = 1 := Nat.div_eq_of_lt_le (by omega) (by omega)
  simp [packed, hone, List.take_of_length_le hle]

/-- The cluster with a row gone and the first of the entries it makes in the store trail queue; the others wait. -/
def Cluster.putRow (c : Cluster) (r : ConvRow) (es : List StoreEntry) : Cluster :=
  match es with
  | [] => { c with conv := c.conv.erase r }
  | e :: more => (({ c with
      conv := c.conv.erase r, coded := more, storeQ := c.storeQ ++ [e]
      pushed := sput zeroNat c.pushed r.desc ((c.storeIx r.desc + r.elems.length) % max (c.desc r.desc).total 1) } :
        Cluster).take 1 1).notePush r.slot r.desc r.elems.length

variable (env)

/-- A row that is not quantised; what is recorded and checked of it changes neither the rows nor the queue. -/
theorem storePush_of_ungrouped {r : ConvRow} (hroom : c.storeQ.length < 64) (hcoded : c.coded = [])
    (hnext : convNext c = some r) (hq : (c.desc r.desc).quantOf r.src = false) :
    let d := c.desc r.desc
    let e := c.putRow r (packed r (min 32 (1024 / d.dstFmt.bits)) (c.storeIx r.desc) ((c.rowMade r env).map (·.code)) [])
    ∃ vs f cs as, storePush c env = some ((feedCheck (if d.stat && env.stat then e.record d.slot vs else e) f cs).1, as) := by
  rw [storePush, if_neg (Nat.not_le.mpr hroom)]
  simp -zeta only [hcoded, hnext]
  exact ⟨_, _, _, _, if_neg (by simp [hq])⟩

/-- A row without rounding or quantising whose codes fit one entry makes that entry. -/
theorem storePush_of_plain {r : ConvRow} (hroom : c.storeQ.length < 64) (hcoded : c.coded = []) (hnext : convNext c = some r)
    (hq : (c.desc r.desc).quantOf r.src = false) (hround : r.round = false) (hsrc : r.src ≠ .wide) (hne : r.elems ≠ [])
    (hlen : r.elems.length ≤ min 32 (1024 / (c.desc r.desc).dstFmt.bits)) :
    ∃ u as, storePush c env = some (u, as) ∧ u.conv = c.conv.erase r ∧ u.storeQ = c.storeQ ++ [{
      desc := r.desc, first := c.storeIx r.desc, slot := r.slot, elems := c.plainCodes r env }] := by
  have hlen' : (c.plainCodes r env).length = r.elems.length := by simp [Cluster.plainCodes]
  have hne' : c.plainCodes r env ≠ [] :=
    List.ne_nil_of_length_pos (hlen'.symm ▸ List.length_pos_of_ne_nil hne)
  obtain ⟨vs, f, cs, as, h⟩ := storePush_of_ungrouped env hroom hcoded hnext hq
  rw [Cluster.rowMade_of_codes hround hsrc, packed_of_fits r _ [] hne' (hlen' ▸ hlen)] at h
  obtain ⟨hconv, hque⟩ := feedCheck_frame _ f cs
  refine ⟨_, as, h, hconv.trans ?_, hque.trans ?_⟩
  · split <;> exact (Cluster.notePush_frame ..).1
  · split <;> exact (Cluster.notePush_frame ..).2

end

/-! STORE_QUEUE_POP (R187, R194) -/

/-- Masked bytes merged into staging. -/
def putMasked (m : SMap Byte) (ws : List WByte) : SMap Byte :=
  ws.foldl (fun m w => sputs zeroByte m w.addr [maskByte w.mask (sget zeroByte m w.addr) w.val]) m

theorem writeStg_eq (c : Cluster) (ws : List WByte) : writeStg c ws = { c with staging := putMasked c.staging ws } := by
  induction ws generalizing c with
  | nil => rfl
  | cons w ws ih => exact ih _

/-- What a store writes: the store trail queue, the streams and staging. -/
def Cluster.storing (c : Cluster) : List StoreEntry × SMap Strm × SMap Byte := (c.storeQ, c.streams, c.staging)

theorem Cluster.of_storing {c d : Cluster} (h : d.storing = c.storing) :
    d.storeQ = c.storeQ ∧ (∀ dn, d.strm dn = c.strm dn) ∧ d.staging = c.staging :=
  ⟨congrArg Prod.fst h, fun dn => congrArg (fun x : _ × SMap Strm × SMap Byte => sget idleStrm x.2.1 dn) h,
    congrArg (fun x => x.2.2) h⟩

@[simp] theorem Cluster.setTile_storing (c : Cluster) (n : Nat) (t : Tile) : (c.setTile n t).storing = c.storing := by
  unfold Cluster.setTile
  split <;> rfl

/-- A reduced tile that is given back (R332) leaves what is stored. -/
theorem freeReduced_storing (c : Cluster) (dn : Nat) : (freeReduced c dn).storing = c.storing := by
  unfold freeReduced
  extract_lets free
  have hfree (e : Cluster) (n : Nat) : (free e n).storing = e.storing := by
    simp only [free]
    split
    · split
      · exact e.setTile_storing ..
      · rfl
    · rfl
  split
  · exact (hfree ..).trans (hfree ..)
  · rfl

theorem storeBytes_to_memory {c : Cluster} {dn : Nat} (h : (c.desc dn).space = false) (ws : List WByte) :
    storeBytes c dn ws = c.setStrm dn { c.strm dn with wbuf := (c.strm dn).wbuf ++ ws } := if_neg (by simp [h])

theorem storeBytes_to_scratch {c : Cluster} {dn : Nat} (h : (c.desc dn).space = true) (ws : List WByte) :
    storeBytes c dn ws = { c with staging := putMasked c.staging ws } := (if_pos h).trans (writeStg_eq c ws)

theorem Cluster.strays_of_no_slot (c : Cluster) {t : Strm} (h : t.slot = none) (a : Nat) : c.strays t a = false := by
  simp only [Cluster.strays, h]

/-- The bytes of an entry. -/
def Cluster.entryBytes (c : Cluster) (e : StoreEntry) : List WByte :=
  e.elems.zipIdx.flatMap (fun x => elemWrites (c.desc e.desc) (e.first + x.2) x.1)

/-- The cluster once the head entry has left the queue: its stream has stored its elements and the credit is back. -/
def Cluster.entryTaken (c : Cluster) (e : StoreEntry) (rest : List StoreEntry) : Cluster :=
  (({ c with storeQ := rest } : Cluster).setStrm e.desc
    { c.strm e.desc with stored := (c.strm e.desc).stored + e.elems.length }).give 1 1

theorem Cluster.entryTaken_strm (c : Cluster) (e : StoreEntry) (rest : List StoreEntry) : (c.entryTaken e rest).strm e.desc =
    { c.strm e.desc with stored := (c.strm e.desc).stored + e.elems.length } :=
  Cluster.setStrm_strm_same ..

/-- A store stream to scratch ends with its last element. -/
def Cluster.scratchEnds (c : Cluster) (d : Desc) (dn : Nat) : Cluster :=
  if d.space = true ∧ d.total ≤ (c.strm dn).stored then c.setStrm dn { c.strm dn with run := false } else c

theorem Cluster.scratchEnds_frame (c : Cluster) (d : Desc) (dn : Nat) :
    (c.scratchEnds d dn).storeQ = c.storeQ ∧ (c.scratchEnds d dn).staging = c.staging ∧
    ((c.scratchEnds d dn).strm dn).stored = (c.strm dn).stored ∧ ((c.scratchEnds d dn).strm dn).wbuf = (c.strm dn).wbuf := by
  unfold Cluster.scratchEnds
  split
  · rw [Cluster.setStrm_strm_same]
    exact ⟨rfl, rfl, rfl, rfl⟩
  · exact ⟨rfl, rfl, rfl, rfl⟩

section
variable {c : Cluster}

theorem storePop_of_empty (h : c.storeQ = []) : storePop c = none := by
  simp only [storePop, h]

variable {e : StoreEntry} {rest : List StoreEntry} (hq : c.storeQ = e :: rest)
include hq

theorem storePop_of_idle (h : (c.strm e.desc).run = false ∨ (c.strm e.desc).halted = true) : storePop c = none := by
  simp only [storePop, hq]
  exact if_pos (by simpa using h)

variable (hrun : (c.strm e.desc).run = true) (hh : (c.strm e.desc).halted = false) (hside : e.side = [])
  (hslot : (c.strm e.desc).slot = none)
include hrun hh hside hslot

/-- The bytes of an entry that no speculative task stores go to its stream. -/
theorem storePop_of_runs : storePop c = some (freeReduced
    ((storeBytes (c.entryTaken e rest) e.desc (c.entryBytes e)).scratchEnds (c.desc e.desc) e.desc) e.desc, []) := by
  have hin (puts : List (Nat × Nat)) : puts.find? (fun p => c.strays (c.strm e.desc) p.2) = none :=
    List.find?_eq_none.mpr fun p _ => by simp [c.strays_of_no_slot hslot]
  rw [storePop]
  simp -zeta only [hq]
  refine (if_neg (by simp [hrun, hh])).trans ?_
  simp only [hin, hside, List.foldl_nil]
  rfl

/-- What follows the bytes leaves the queue, staging and what waits for its granules. -/
theorem storePop_frame : ∃ u, storePop c = some (u, []) ∧
    let v := storeBytes (c.entryTaken e rest) e.desc (c.entryBytes e)
    u.storeQ = v.storeQ ∧ u.staging = v.staging ∧ (u.strm e.desc).stored = (v.strm e.desc).stored ∧
      (u.strm e.desc).wbuf = (v.strm e.desc).wbuf := by
  refine ⟨_, storePop_of_runs hq hrun hh hside hslot, ?_⟩
  intro v
  obtain ⟨hq1, hs1, hg1⟩ := Cluster.of_storing (freeReduced_storing (v.scratchEnds (c.desc e.desc) e.desc) e.desc)
  obtain ⟨hq2, hg2, hn2, hw2⟩ := v.scratchEnds_frame (c.desc e.desc) e.desc
  exact ⟨hq1.trans hq2, hg1.trans hg2, (congrArg Strm.stored (hs1 _)).trans hn2, (congrArg Strm.wbuf (hs1 _)).trans hw2⟩

/-- The bytes of an entry wait for their granules, or are written to scratch at once (R194, R195). -/
theorem storePop_moves : ∃ u, storePop c = some (u, []) ∧ u.storeQ = rest ∧
    (u.strm e.desc).stored = (c.strm e.desc).stored + e.elems.length ∧
    ((c.desc e.desc).space = false → (u.strm e.desc).wbuf = (c.strm e.desc).wbuf ++ c.entryBytes e ∧ u.staging = c.staging) ∧
    ((c.desc e.desc).space = true →
      u.staging = (writeStg c (c.entryBytes e)).staging ∧ (u.strm e.desc).wbuf = (c.strm e.desc).wbuf) := by
  obtain ⟨u, hu, hqu, hgu, hnu, hwu⟩ := storePop_frame hq hrun hh hside hslot
  have hn : ((c.entryTaken e rest).strm e.desc).stored = _ := congrArg Strm.stored (c.entryTaken_strm e rest)
  have hw : ((c.entryTaken e rest).strm e.desc).wbuf = _ := congrArg Strm.wbuf (c.entryTaken_strm e rest)
  cases hsp : (c.desc e.desc).space
  case false =>
    rw [storeBytes_to_memory (c := c.entryTaken e rest) hsp] at hqu hgu hnu hwu
    rw [Cluster.setStrm_strm_same] at hnu hwu
    exact ⟨u, hu, hqu, hnu.trans hn, fun _ => ⟨hwu.trans (congrArg (· ++ _) hw), hgu⟩, nofun⟩
  case true =>
    rw [storeBytes_to_scratch (c := c.entryTaken e rest) hsp] at hqu hgu hnu hwu
    refine ⟨u, hu, hqu, hnu.trans hn, nofun, fun _ => ⟨?_, ?_⟩⟩
    · rw [hgu, writeStg_eq]
      rfl
    · exact hwu.trans hw

end

/-! The obligation -/

/-- Settles O12: the load converter by whether it waits and what a plain stream has at hand, the store converter by what is coded or
ready, the store pop by its stream and where that stores. -/
theorem trailQueuesMove : Obligations.TrailQueuesMove := by
  unfold Obligations.TrailQueuesMove
  refine ⟨fun s cl desc => ?load_push, fun s cl => ?store_push, fun s cl => ?store_pop⟩
  case load_push =>
    intro c n t d codes hs
    have hexec {r} (h : loadPush c n (s.env cl) = some r) : exec (.loadQueuePush cl desc) s =
        .next ((s.setCl cl (fillTiles r n).1).acts cl (c.strmOwner n) (fillTiles r n).2) :=
      congrArg Host.Outcome.next (unitStep_acts hs (congrArg (Option.map _) h))
    refine ⟨fun h => congrArg Host.Outcome.next (unitStep_waits hs (congrArg (Option.map _) (loadPush_of_waits h))),
      fun r => hexec, fun hrun hkind hroom hq hd hcodes h0 h1 => ?_⟩
    obtain ⟨as, hpush⟩ := loadPush_of_plain (s.env cl) hrun hkind hroom hq hd hcodes
    obtain ⟨hque, htile, hpos, hend⟩ := loadPush_of_plain_frame (s.env cl) hrun hkind
    have hfill := fillTiles_of_no_load as n ((congrArg Tile.ld (htile 0)).trans h0) ((congrArg Tile.ld (htile 1)).trans h1)
    exact ⟨_, as, (hexec hpush).trans (by rw [hfill]), hque, hpos, hend⟩
  case store_push =>
    intro c o hs
    have hexec {u as} (h : storePush c (s.env cl) = some (u, as)) :
        exec (.storeQueuePush cl) s = .next ((s.setCl cl u).acts cl o as) :=
      congrArg Host.Outcome.next (unitStep_acts hs h)
    refine ⟨fun h => congrArg Host.Outcome.next (unitStep_waits hs ?waits), fun hroom e rest hcoded => ?coded, fun r => hexec,
      fun hroom hcoded r hr => ?row⟩
    case waits => exact h.elim storePush_of_full fun ⟨hcoded, hr⟩ => storePush_of_no_row hcoded hr
    case coded => exact congrArg Host.Outcome.next (unitStep_plain hs (storePush_of_coded hroom hcoded))
    case row =>
      intro d first hq hround hsrc hne hlen
      obtain ⟨u, as, hpush, hu⟩ := storePush_of_plain (s.env cl) hroom hcoded hr hq hround hsrc hne hlen
      exact ⟨u, as, hexec hpush, hu⟩
  case store_pop =>
    intro c hs
    refine ⟨fun h => congrArg Host.Outcome.next (unitStep_waits hs (storePop_of_empty h)), fun e rest hq => ?_⟩
    intro t d ws
    refine ⟨fun h => congrArg Host.Outcome.next (unitStep_waits hs (storePop_of_idle hq h)), fun hrun hh hside hslot => ?_⟩
    obtain ⟨u, hpop, hqu, hn, hmem, hscr⟩ := storePop_moves hq hrun hh hside hslot
    exact ⟨u, congrArg Host.Outcome.next (unitStep_plain hs hpop), hqu, hn, hmem, hscr⟩

end Sys2Proof.Machine
end

section
/-! SUPPORT. How a stream's next granule is issued, and how granules land and are acknowledged (R192, R193, R195, R196, R198, R219). -/

namespace Sys2Proof.Machine

/-! GRANULE_ISSUE (R193, R198) -/

section
variable {s : State} {cl : ClusterNo} {desc : BitVec 6} (hw : s.works cl = true) (hh : ((s.cl cl).strm desc.toNat).halted = false)
  (hst : s.cvn.straggling = false) (hq : s.quotaFull cl = false)
include hw hh hst hq

/-- A stream with bytes that wait stores, any other loads. -/
theorem exec_granuleIssue_of_works : exec (.granuleIssue cl desc) s =
    .next (if ((s.cl cl).strm desc.toNat).wbuf ≠ [] then s.issueWrite cl desc.toNat else s.issueRead cl desc.toNat) := by
  change execGranuleIssue cl desc s = _
  simp only [execGranuleIssue, hw, hh, hst, hq, Bool.not_true, Bool.or_self, Bool.false_eq_true, if_false]
  split <;> rfl

theorem exec_granuleIssue_of_bytes {b : WByte} {rest : List WByte} (hb : ((s.cl cl).strm desc.toNat).wbuf = b :: rest) :
    exec (.granuleIssue cl desc) s = .next (s.issueWrite cl desc.toNat) := by
  rw [exec_granuleIssue_of_works hw hh hst hq, if_pos (by simp [hb])]

theorem exec_granuleIssue_of_no_bytes (hb : ((s.cl cl).strm desc.toNat).wbuf = []) :
    exec (.granuleIssue cl desc) s = .next (s.issueRead cl desc.toNat) := by
  rw [exec_granuleIssue_of_works hw hh hst hq, if_neg (not_not.mpr hb)]

end

/-! The region check (R198) -/

/-- The region check that a stream's granule g meets. -/
def State.granCheck (s : State) (n dn : Nat) (g : Int) (write : Bool) : Nat :=
  (s.region n ((s.cl n).desc dn).region).check g write ((s.cl n).strmSpec dn)

/-! A store stream's next granule (R193, R195, R198, R253) -/

/-- The bytes of granule g at the front of those that wait. -/
def Strm.bytesIn (t : Strm) (g : Nat) : List WByte := t.wbuf.takeWhile (fun w => decide (w.addr / 512 * 512 = g))

/-- Cluster c, which has tag k to use, with the tag taken for granule g of a store stream, whose bytes have left it. -/
def State.storeTagged (s : State) (n dn k g : Nat) (c : Cluster) : Cluster :=
  let t := (s.cl n).strm dn
  let c2 := ((dropLanded c g).setTag k
    { st := 1, write := true, gran := g, desc := dn, region := ((s.cl n).desc dn).region, stage := s.stageNo, slot := t.slot }).take 4 1
  c2.setStrm dn { c2.strm dn with wbuf := t.wbuf.drop (t.bytesIn g).length }

section
variable {s : State} {n dn : Nat} {b : WByte} {rest : List WByte} {g : Nat} (hb : ((s.cl n).strm dn).wbuf = b :: rest)
  (hg : b.addr / 512 * 512 = g)
include hb hg

theorem State.issueWrite_of_refused (hc : s.granCheck n dn g true ≠ 0) :
    s.issueWrite n dn = s.drvFault n dn (s.granCheck n dn g true) g := by
  subst hg
  unfold State.granCheck at hc ⊢
  simp only [State.issueWrite, hb, hc, false_and, if_false, ne_eq, not_false_eq_true, if_true]

/-- A speculative task's granule lies in its own provisional map entry, or the check would fail with cause 3. -/
theorem State.issueWrite_of_free_tag (hc : s.granCheck n dn g true = 0)
    (hown : (s.cl n).strmSpec dn = true → s.ownPme n ((s.cl n).strm dn).task (g / 512) = true)
    (hrelay : s.relayOf (g / 0x200000) = none) {k : Nat} {c0 : Cluster} (hk : (s.cl n).tagToUse = some (k, c0)) :
    s.issueWrite n dn = (s.setCl n (s.storeTagged n dn k g c0)).request
      { cl := n, tag := k, write := true, addr := g, bytes := ((s.cl n).strm dn).bytesIn g, spec := (s.cl n).strmSpec dn
        task := ((s.cl n).strm dn).task } := by
  subst hg
  unfold State.granCheck at hc
  have hpass : ¬((s.cl n).strmSpec dn = true ∧
      (!s.ownPme n ((s.cl n).strm dn).task (b.addr / 512 * 512 / 512)) = true) := by simpa using hown
  simp only [State.issueWrite, hb, hc, hpass, hrelay, hk, and_false, if_false, ne_eq, not_true_eq_false, Option.isSome_none,
    Bool.false_and, Bool.false_eq_true, State.storeTagged, Strm.bytesIn]

end

/-! A load stream's next granule (R193, R198) -/

/-- Cluster c, which has tag k to use, with the tag taken for granule g, which element ix of a load stream is the first to miss. -/
def State.loadTagged (s : State) (n dn k ix : Nat) (g : Int) (c : Cluster) : Cluster :=
  let t := (s.cl n).strm dn
  let d := (s.cl n).desc dn
  ((c.setTag k
    { st := 1, gran := g.toNat, desc := dn, region := d.region, upto := lastUse (s.cl n) dn d t d.total g 16400 ix
      stage := s.stageNo, slot := t.slot }).take 4 1).setStrm dn { t with iss := ix, fetched := true }

section
variable {s : State} {n dn ix : Nat} {g : Int} (hrun : ((s.cl n).strm dn).run = true) (hsp : ((s.cl n).desc dn).space = false)
  (hkind : ((s.cl n).desc dn).kind ≠ 1)
  (hmiss : firstMissing (s.cl n) dn ((s.cl n).desc dn) ((s.cl n).strm dn) ((s.cl n).desc dn).total 16400
    (max ((s.cl n).strm dn).iss ((s.cl n).strm dn).pos) = (ix, some g))
include hrun hsp hkind hmiss

theorem State.issueRead_of_refused (hc : s.granCheck n dn g false ≠ 0) :
    s.issueRead n dn = s.drvFault n dn (s.granCheck n dn g false) (g % (2 ^ 48 : Nat)).toNat := by
  unfold State.granCheck at hc ⊢
  simp only [State.issueRead, hrun, hsp, hkind, hmiss, hc, Bool.not_true, decide_false, Bool.or_self, Bool.false_eq_true, if_false,
    ne_eq, not_false_eq_true, if_true]

/-- A granule that no tag has, and no store of the cluster holds back, is asked for. -/
theorem State.issueRead_of_free_tag (hc : s.granCheck n dn g false = 0) (hhw : (s.region n ((s.cl n).desc dn).region).hw = false)
    (hahead : (s.cl n).aheadFor ((s.cl n).desc dn).region g.toNat = none) (hold : (s.cl n).oldTag dn g.toNat = none)
    (hfree : ∀ k < 16, ((s.cl n).tag k).write = true → ((s.cl n).tag k).gran = g.toNat → ((s.cl n).tag k).st = 0) {k : Nat}
    {c0 : Cluster} (hk : (s.cl n).tagToUse = some (k, c0)) :
    s.issueRead n dn = (s.setCl n (s.loadTagged n dn k ix g c0)).request
      { cl := n, tag := k, write := false, addr := g.toNat, spec := (s.cl n).strmSpec dn, task := ((s.cl n).strm dn).task
        recov := ((s.cl n).strm dn).restarted.isSome && decide (ix < ((s.cl n).strm dn).again) } := by
  unfold State.granCheck at hc
  have hheld : ((List.range 16).any fun k =>
      ((s.cl n).tag k).write && decide (((s.cl n).tag k).gran = g.toNat) && decide (((s.cl n).tag k).st ≠ 0)) = false := by
    simpa [List.any_eq_false] using hfree
  simp only [State.issueRead, hrun, hsp, hkind, hmiss, hc, hhw, hheld, hahead, hold, hk, Bool.not_true, decide_false, Bool.or_self,
    Bool.false_and, Bool.false_eq_true, if_false, ne_eq, not_true_eq_false, State.loadTagged]

end

/-! GRANULE_LAND and WRITE_ACK (R192, R196, R219) -/

section
variable {s : State} {cl : ClusterNo} {tag : Fin 16} (hon : s.clOn cl = true) (hst : ((s.cl cl).tag tag).st = 2)
include hon hst

theorem exec_writeAck_of_performed (hw : ((s.cl cl).tag tag).write = true) :
    exec (.writeAck cl tag) s = .next (s.setCl cl (endStore ((s.cl cl).dropTag tag) ((s.cl cl).tag tag).desc)) :=
  if_neg (by simp [hon, hst, hw])

variable (hr : ((s.cl cl).tag tag).write = false)
include hr

theorem exec_granuleLand_of_unwanted (hd : ((s.cl cl).tag tag).drop = true) :
    exec (.granuleLand cl tag) s = .next (s.setCl cl ((s.cl cl).dropTag tag)) :=
  (if_neg (by simp [hon, hst, hr])).trans (if_pos hd)

theorem exec_granuleLand_of_poisoned (hd : ((s.cl cl).tag tag).drop = false) (hp : ((s.cl cl).tag tag).poison = true)
    (ha : ((s.cl cl).tag tag).ahead = false) :
    exec (.granuleLand cl tag) s = .next ((s.setCl cl (((s.cl cl).dropTag tag).setStrm ((s.cl cl).tag tag).desc
      { (s.cl cl).strm ((s.cl cl).tag tag).desc with halted := true })).acts cl ((s.cl cl).strmOwner ((s.cl cl).tag tag).desc)
        [.stop 8]) :=
  (if_neg (by simp [hon, hst, hr])).trans ((if_neg (by simp [hd])).trans (if_pos (by simp [hp, ha])))

theorem exec_granuleLand_of_clean (hd : ((s.cl cl).tag tag).drop = false) (hp : ((s.cl cl).tag tag).poison = false) :
    exec (.granuleLand cl tag) s = .next (s.setCl cl (((s.cl cl).setTag tag { (s.cl cl).tag tag with st := 3, data := [] }).setStg
      (0x6000 + 512 * tag.val) ((s.cl cl).tag tag).data)) := by
  refine (if_neg (by simp [hon, hst, hr])).trans ((if_neg (by simp [hd])).trans ((if_neg (by simp [hp])).trans ?_))
  simp only [hp, Bool.false_eq_true, if_false]

end

/-! The obligation -/

/-- Settles O14: a stream's next granule by its region check, with the tag it takes and what is asked of the stacks; a performed tag by
what it was for and whether its granule is wanted and sound. -/
theorem granulesIssueAndLand : Obligations.GranulesIssueAndLand := by
  unfold Obligations.GranulesIssueAndLand
  refine ⟨fun s cl desc => ?issue, fun s cl tag => ?land⟩
  case issue =>
    intro c dn t d rg spec hw hh hst hq
    refine ⟨fun b rest k c0 hb hrelay hk hown => ?store, fun ix g hb hrun hsp hkind hmiss => ?load⟩
    case store =>
      intro g ws
      rw [exec_granuleIssue_of_bytes hw hh hst hq hb]
      exact ⟨fun hc => congrArg _ (State.issueWrite_of_refused hb rfl hc),
        fun hc => congrArg _ (State.issueWrite_of_free_tag hb rfl hc hown hrelay hk)⟩
    case load =>
      rw [exec_granuleIssue_of_no_bytes hw hh hst hq hb]
      exact ⟨fun hc => congrArg _ (State.issueRead_of_refused hrun hsp hkind hmiss hc),
        fun hc hhw hahead hold hfree k c0 hk =>
          congrArg _ (State.issueRead_of_free_tag hrun hsp hkind hmiss hc hhw hahead hold hfree hk)⟩
  case land =>
    intro c g hon hst
    exact ⟨exec_granuleLand_of_unwanted hon hst, exec_granuleLand_of_clean hon hst, exec_granuleLand_of_poisoned hon hst,
      exec_writeAck_of_performed hon hst⟩

end Sys2Proof.Machine
end

section
/-! SUPPORT. How hazard notices arrive and what follows for a watching stream (R201 to R203), and how a squashed task's window is
zeroed and its slot freed (R242, R256, R261). -/

namespace Sys2Proof.Machine

/-! What a hazard does to one watching stream (R202, R203) -/

section
variable {c : Cluster} {as : List Act} {dn stage now : Nat}

/-- The watch of a job has no stream. -/
theorem hazardStream_of_job (h : 64 ≤ dn) : hazardStream (c, as) dn stage now = (c, as) := if_pos h

/-- A stream that copies and may start again. -/
abbrev Cluster.restarts (c : Cluster) (dn : Nat) : Prop := (c.desc dn).kind = 3 ∧ (c.desc dn).restart = true

theorem hazardStream_of_restarted (h : dn < 64) (hc : c.restarts dn) (ht : (c.strm dn).restarted = some stage) :
    hazardStream (c, as) dn stage now = (c, as ++ [.hazBits 0x400000, .stop 11]) :=
  (if_neg (by omega)).trans ((if_pos hc).trans (if_pos ht))

theorem hazardStream_of_restarts (h : dn < 64) (hc : c.restarts dn) (ht : (c.strm dn).restarted ≠ some stage) :
    hazardStream (c, as) dn stage now = (restartCopy c dn stage now, as ++ [.hazBits 0x200000]) :=
  (if_neg (by omega)).trans ((if_pos hc).trans (if_neg ht))

theorem hazardStream_of_not_restarts (h : dn < 64) (hc : ¬c.restarts dn) :
    hazardStream (c, as) dn stage now = ({ c with hazards := (dn, stage) :: c.hazards },
      as ++ (c.took.filter (fun x => x.2 = (dn, stage))).map (fun x => if x.1 = 4 then .hazBits 0x100000 else .suspect (2 ^ x.1))) := by
  refine (if_neg (by omega)).trans ((if_neg hc).trans ?_)
  simp only [List.map_map]
  rfl

end

/-! The watches that a notice concerns (R201, R202) -/

/-- The watches of cluster n that a hazard of a stage on a page concerns. -/
def State.concerned (s : State) (n page stage : Nat) : List Watch :=
  (s.cl n).watches.filter (fun w => w.has page && decide (w.since ≤ stage) && (!w.off || decide (stage < s.stageNo)))

theorem State.hazard_of_no_watch {s : State} {n page stage : Nat} (who : Who) (h : s.concerned n page stage = []) :
    s.hazard n page who stage = s := by
  unfold State.concerned at h
  simp only [State.hazard, h, List.find?_nil, List.head?_nil, Option.orElse_none]

/-- With one watch concerned, the record names it and its stream alone meets the hazard. -/
theorem State.hazard_of_one_watch {s t : State} {n page stage : Nat} {who : Who} {w : Watch}
    (h : s.concerned n page stage = [w])
    (ht : t = s.acts n (s.watchOwner n w) [.hazard w.region who.kind who.id page]) :
    s.hazard n page who stage =
      (t.setCl n (hazardStream (t.cl n, []) w.desc stage t.stageNo).1).acts n (t.watchOwner n w)
        (hazardStream (t.cl n, []) w.desc stage t.stageNo).2 := by
  unfold State.concerned at h
  have hfirst (p : Watch → Bool) : (([w].find? p).orElse fun _ => [w].head?) = some w := by
    cases hp : p w <;> simp [hp]
  subst ht
  simp only [State.hazard, h, hfirst]
  rfl

theorem exec_hazardNotice_of_none {s : State} {cl : ClusterNo}
    (h : s.notices.find? (fun x => decide (x.cl = cl.val)) = none) : exec (.hazardNotice cl) s = .next s := by
  change execHazardNotice cl s = _
  simp only [execHazardNotice, h]

theorem exec_hazardNotice_of_some {s : State} {cl : ClusterNo} {x : Notice}
    (h : s.notices.find? (fun x => decide (x.cl = cl.val)) = some x) :
    exec (.hazardNotice cl) s = .next (({ s with notices := s.notices.erase x } : State).hazard cl x.page x.who x.stage) := by
  change execHazardNotice cl s = _
  simp only [execHazardNotice, h]

/-! A squashed task's window and slot (R242, R256, R261) -/

theorem exec_specZeroDone_of_other {s : State} {cl : ClusterNo} {slot : Fin 2} (h : ((s.cl cl).slot slot).st ≠ 6) :
    exec (.specZeroDone cl slot) s = .next s := if_pos h

/-- The cluster once a squashed task's window reads zero. -/
def Cluster.zeroWindow (c : Cluster) (t : TSlot) : Cluster :=
  { c with staging := sclear c.staging (t.wbase * 1024) (t.wsize * 1024) }

theorem exec_specZeroDone_of_squashed {s : State} {cl : ClusterNo} {slot : Fin 2} (h : ((s.cl cl).slot slot).st = 6) :
    exec (.specZeroDone cl slot) s =
      .next (((s.setCl cl (((s.cl cl).zeroWindow ((s.cl cl).slot slot)).freeSlot slot)).count (ca cl 0xA20) 1).count64 (ca cl 0xA28)
        ((s.cl cl).slot slot).kc) := if_neg (not_not.mpr h)

/-- The window of the squashed task, and the rest of staging. -/
theorem Cluster.zeroWindow_staging (c : Cluster) (t : TSlot) (a : Nat) : sget zeroByte (c.zeroWindow t).staging a =
    if t.wbase * 1024 ≤ a ∧ a < (t.wbase + t.wsize) * 1024 then 0 else sget zeroByte c.staging a := by
  rw [Nat.add_mul]
  exact sget_sclear ..

theorem Cluster.checkDone_frame (c : Cluster) : c.checkDone = { c with
    st := if c.st = 2 ∧ c.walked = true ∧ c.slot0.st = 0 ∧ c.slot1.st = 0 then 4 else c.st } := by
  unfold Cluster.checkDone
  simp only [Bool.and_eq_true, decide_eq_true_eq, and_assoc]
  split <;> rfl

/-- A slot that is freed, by what it leaves: the other slot, staging, and the cluster done with its last task. -/
theorem Cluster.freeSlot_frame (c : Cluster) (slot : Fin 2) :
    (c.freeSlot slot).slot slot = {} ∧ (c.freeSlot slot).slot (1 - slot.val) = c.slot (1 - slot.val) ∧
    (c.freeSlot slot).staging = c.staging ∧
    (c.freeSlot slot).st = if c.st = 2 ∧ c.walked = true ∧ (c.slot (1 - slot.val)).st = 0 then 4 else c.st := by
  rw [Cluster.freeSlot, Cluster.checkDone_frame]
  match slot with
  | 0 | 1 => exact ⟨rfl, rfl, rfl, if_congr (by simp [Cluster.setSlot, Cluster.slot, Cluster.walked]) rfl rfl⟩

/-! The obligation -/

/-- Settles O15: a notice by the watches it concerns, the one concerned by what its stream is; a squashed task's slot is freed behind
its zeroed window. -/
theorem hazardNoticesArriveAndWindowsAreZeroed : Obligations.HazardNoticesArriveAndWindowsAreZeroed := by
  unfold Obligations.HazardNoticesArriveAndWindowsAreZeroed
  refine ⟨fun s cl => ⟨exec_hazardNotice_of_none, fun x hx => ?notice⟩,
    fun s cl slot => ⟨exec_specZeroDone_of_other, fun h => ?zeroed⟩⟩
  case notice =>
    intro s1 concerned
    rw [exec_hazardNotice_of_some hx]
    refine ⟨fun h => congrArg _ (State.hazard_of_no_watch (s := s1) x.who h), fun w h => ?_⟩
    intro s2 c o copies
    rw [State.hazard_of_one_watch (s := s1) h rfl]
    exact ⟨fun hd => by rw [hazardStream_of_job hd], fun hd hc ht => by rw [hazardStream_of_restarts hd hc ht]; rfl,
      fun hd hc ht => by rw [hazardStream_of_restarted hd hc ht]; rfl,
      fun hd hc => by rw [hazardStream_of_not_restarts hd hc]; rfl⟩
  case zeroed =>
    obtain ⟨hself, hother, hstg, hst⟩ := ((s.cl cl).zeroWindow ((s.cl cl).slot slot)).freeSlot_frame slot
    refine ⟨_, exec_specZeroDone_of_squashed h, hself, hother, hst, fun a h1 h2 => ?_, fun a ha => ?_⟩
    · rw [hstg, Cluster.zeroWindow_staging, if_pos ⟨h1, h2⟩]
    · rw [hstg, Cluster.zeroWindow_staging, if_neg (by omega)]

end Sys2Proof.Machine
end

section
/-! SUPPORT. What counters, records, events and interrupts leave alone: all state but the registers and what is noted about them, the events
and the messages to the host (R12, R209, R382, R448, R460). -/

namespace Sys2Proof.Machine

/-- The state with the registers and what is noted about them, the events and what goes to the host blanked. -/
def State.sansRecords (s : State) : State :=
  { s with regs := [], caught := [], counted := [], events := [], gap := false, teth := {}, boot := { s.boot with irqs := [] } }

section
variable {s t : State} (h : t.sansRecords = s.sansRecords)
include h

theorem State.clusters_eq_of_sansRecords : t.clusters = s.clusters := (congrArg State.clusters h :)

theorem State.loess_eq_of_sansRecords : t.loess = s.loess := (congrArg State.loess h :)

theorem State.die_eq_of_sansRecords (k : Nat) : t.die k = s.die k := (congrArg (fun u => State.die u k) h :)

theorem State.port_eq_of_sansRecords (p : Nat) : t.port p = s.port p := (congrArg (fun u => State.port u p) h :)

theorem State.ring_eq_of_sansRecords (r : Nat) : t.ring r = s.ring r := (congrArg (fun u => State.ring u r) h :)

theorem State.wb_eq_of_sansRecords (r ix : Nat) : t.wb r ix = s.wb r ix := (congrArg (fun u => State.wb u r ix) h :)

theorem State.cvn_eq_of_sansRecords : t.cvn = s.cvn := (congrArg State.cvn h :)

theorem State.reds_eq_of_sansRecords : t.reds = s.reds := (congrArg State.reds h :)

theorem State.early_eq_of_sansRecords : t.early = s.early := (congrArg State.early h :)

end

@[simp] theorem State.setFld_sansRecords (s : State) (a lo n v : Nat) : (s.setFld a lo n v).sansRecords = s.sansRecords := rfl

@[simp] theorem State.noteCount_sansRecords (s : State) (a old n : Nat) : (s.noteCount a old n).sansRecords = s.sansRecords := by
  unfold State.noteCount
  split <;> rfl

@[simp] theorem State.count_sansRecords (s : State) (a n : Nat) : (s.count a n).sansRecords = s.sansRecords :=
  s.noteCount_sansRecords ..

@[simp] theorem State.count64_sansRecords (s : State) (a n : Nat) : (s.count64 a n).sansRecords = s.sansRecords :=
  s.noteCount_sansRecords ..

@[simp] theorem State.setBits_sansRecords (s : State) (a m : Nat) : (s.setBits a m).sansRecords = s.sansRecords := by
  unfold State.setBits
  split <;> rfl

@[simp] theorem State.putRegs_sansRecords (s : State) (rs : List (Nat × Nat)) : (s.putRegs rs).sansRecords = s.sansRecords :=
  List.foldlRecOn (motive := fun t : State => t.sansRecords = s.sansRecords) rs _ rfl fun _ ht _ _ => ht

/-- A record that is captured writes registers, or waits for a clear. -/
@[simp] theorem State.capture_sansRecords (s : State) (rank : Nat → Nat) (a v : Nat) (rest : List (Nat × Nat)) :
    (s.capture rank a v rest).sansRecords = s.sansRecords := by
  have hput (b : Bool) : (if b then s else s.putRegs ((a, v) :: rest)).sansRecords = s.sansRecords := by
    split
    · rfl
    · exact s.putRegs_sansRecords _
  unfold State.capture
  extract_lets k valid rs
  split
  · exact hput valid
  · split
    · exact hput k.late
    · rfl

@[simp] theorem State.raise_sansRecords (s : State) (i scls u d0 d1 : Nat) (isHeld : Bool) :
    (s.raise i scls u d0 d1 isHeld).sansRecords = s.sansRecords := by
  unfold State.raise
  extract_lets st seq s1 unrouted full counted s2 fl
  have h2 : s2.sansRecords = s.sansRecords := by
    unfold s2
    split
    · exact s1.count_sansRecords 0x106018 1
    · split <;> rfl
  split
  · rfl
  · exact h2

/-- An interrupt waits for new firmware or for its mask, or is sent (R383, R430). -/
@[simp] theorem State.trigger_sansRecords (s : State) (v : Nat) : (s.trigger v).sansRecords = s.sansRecords := by
  unfold State.trigger
  split
  · rfl
  · split
    · exact s.setBits_sansRecords ..
    · split <;> rfl

@[simp] theorem State.tthErr_sansRecords (s : State) (cause space addr : Nat) :
    (s.tthErr cause space addr).sansRecords = s.sansRecords := by
  unfold State.tthErr
  extract_lets s0 s1
  have h1 : s1.sansRecords = s.sansRecords := by
    unfold s1
    split <;> simp [s0]
  exact (s1.raise_sansRecords ..).trans h1

@[simp] theorem State.jobFault_sansRecords (s : State) (k cause wid : Nat) (wb isHeld : Bool) :
    (s.jobFault k cause wid wb isHeld).sansRecords = s.sansRecords :=
  (State.raise_sansRecords ..).trans (s.capture_sansRecords ..)

/-! Registers that a record or an event does not write -/

theorem State.setRegN_reg_other (s : State) {a i : Nat} (v : Nat) (h : i ≠ a) : (s.setRegN a v).reg i = s.reg i :=
  sget_sput_other _ _ _ _ h

@[simp] theorem State.noteCount_reg (s : State) (a old n i : Nat) : (s.noteCount a old n).reg i = s.reg i := by
  unfold State.noteCount
  split <;> rfl

theorem State.count_reg_other (s : State) {a i : Nat} (n : Nat) (h : i ≠ a) : (s.count a n).reg i = s.reg i :=
  (State.setRegN_reg_other _ _ h).trans (s.noteCount_reg ..)

/-- A counter stops at its maximum. -/
theorem State.count_regN_same (s : State) (a n : Nat) : (s.count a n).regN a = min (s.regN a + n) (2 ^ 32 - 1) := by
  unfold State.count State.regN State.setRegN
  rw [State.setReg_reg_same, BitVec.toNat_ofNat, Nat.mod_eq_of_lt (by omega)]

theorem State.putRegs_reg_other (s : State) {rs : List (Nat × Nat)} {i : Nat} (h : ∀ x ∈ rs, i ≠ x.1) :
    (s.putRegs rs).reg i = s.reg i :=
  List.foldlRecOn (motive := fun t : State => t.reg i = s.reg i) rs _ rfl fun t ht x hx => (t.setRegN_reg_other x.2 (h x hx)).trans ht

theorem State.capture_reg_other (s : State) (rank : Nat → Nat) {a i : Nat} (v : Nat) {rest : List (Nat × Nat)} (ha : i ≠ a)
    (hrest : ∀ x ∈ rest, i ≠ x.1) : (s.capture rank a v rest).reg i = s.reg i := by
  have hput (b : Bool) : (if b then s else s.putRegs ((a, v) :: rest)).reg i = s.reg i := by
    split
    · rfl
    · exact s.putRegs_reg_other (List.forall_mem_cons.mpr ⟨ha, hrest⟩)
  unfold State.capture
  extract_lets k valid rs
  split
  · exact hput valid
  · split
    · exact hput k.late
    · rfl

/-- An event writes the number of the next one and the count of those lost (R448, R449). -/
theorem State.raise_reg_other (s : State) {i : Nat} (ix scls u d0 d1 : Nat) (isHeld : Bool) (hseq : i ≠ 0x106014)
    (hlost : i ≠ 0x106018) : (s.raise ix scls u d0 d1 isHeld).reg i = s.reg i := by
  unfold State.raise
  extract_lets st seq s1 unrouted full counted s2 fl
  have h2 : s2.reg i = s.reg i := by
    have h1 : s1.reg i = s.reg i := s.setRegN_reg_other _ hseq
    unfold s2
    split
    · exact (s1.count_reg_other 1 hlost).trans h1
    · split <;> exact h1
  split
  · rfl
  · exact h2

end Sys2Proof.Machine
end

section
/-! SUPPORT. How an itinerary issues a job, how a bedrock die runs one whole, and how it is completed for its cluster or its waybill
(R224 to R227, R236, R273, R327). -/

namespace Sys2Proof.Machine

/-! JOB (R224, R226, R227, R273, R327) -/

/-- The granules that take slots wait at the stacks. -/
theorem State.claim_frame (s : State) (r : Req) (rs : List (Nat × Nat)) : s.claim r rs = { s with dies := (s.claim r rs).dies } := by
  unfold State.claim
  extract_lets gs
  refine List.foldlRecOn (motive := fun t : State => t = { s with dies := t.dies }) _ _ rfl fun t ht k _ => ?_
  extract_lets n
  split
  · exact ht
  · rw [ht]
    rfl

@[simp] theorem State.claim_region (s : State) (r : Req) (rs : List (Nat × Nat)) (n i : Nat) :
    (s.claim r rs).region n i = s.region n i := by
  rw [State.claim_frame]
  rfl

theorem State.armJob_of_unwatched {s : State} {n : Nat} {j : Job} (h : (s.region n j.d.sreg).hw = false) : s.armJob n j = s := by
  simp [State.armJob, h]

/-- The two jobs, the memory ration or the straggling that hold up a cluster's next job. -/
abbrev State.jobWaits (s : State) (n : ClusterNo) : Prop :=
  2 ≤ (s.jobsOf (.cluster n)).length ∨ s.quotaFull n = true ∨ s.cvn.straggling = true

/-- The job that a cluster issues from staging for the task in slot o. -/
def State.issuedJob (s : State) (n : ClusterNo) (o joff : Nat) : Job :=
  let t := (s.cl n).slot o
  { src := .cluster n, d := jobOf ((s.cl n).stg joff 64), ord := s.jobOrd, spec := t.holds, slot := o, task := t.task }

section
variable {s : State} {cl : ClusterNo} {o : Nat} {joff : BitVec 17} (hj : joff.toNat % 64 = 0) (hi : s.Issues cl .access o)
include hj hi

theorem exec_job_of_waits (hw : s.jobWaits cl) : exec (.job cl joff) s = .next s := by
  change execJob cl joff s = _
  simp only [execJob, hj, ne_eq, not_true_eq_false, if_false, issuing_of_issues hi]
  exact if_pos hw

variable (hw : ¬s.jobWaits cl)
include hw

theorem exec_job_of_refused {cause reg a : Nat}
    (hc : s.jobCheck cl ((s.cl cl).stg joff.toNat 64) (s.issuedJob cl o joff.toNat).d ((s.cl cl).slot o).holds ((s.cl cl).slot o).task =
      some (cause, reg, a)) :
    exec (.job cl joff) s = .next ((s.setCl cl ((s.cl cl).pass1 .access)).acts cl (some o)
      [.drover cause reg 1 ((s.cl cl).slot o).task a, .stop 2]) := by
  change execJob cl joff s = _
  rw [State.issuedJob] at hc
  simp only [execJob, hj, ne_eq, not_true_eq_false, if_false, issuing_of_issues hi, hc]
  exact if_neg hw

/-- A job whose source region no hazard watch guards is sent, and no watch is armed for it. -/
theorem exec_job_of_sent
    (hc : s.jobCheck cl ((s.cl cl).stg joff.toNat 64) (s.issuedJob cl o joff.toNat).d ((s.cl cl).slot o).holds ((s.cl cl).slot o).task =
      none)
    (hhw : (s.region cl (s.issuedJob cl o joff.toNat).d.sreg).hw = false) :
    exec (.job cl joff) s = .next ((s.setCl cl ((s.cl cl).pass1 .access)).sendJob (s.issuedJob cl o joff.toNat)) := by
  have hsent : ((s.setCl cl ((s.cl cl).pass1 .access)).sendJob (s.issuedJob cl o joff.toNat)).armJob cl (s.issuedJob cl o joff.toNat) =
      (s.setCl cl ((s.cl cl).pass1 .access)).sendJob (s.issuedJob cl o joff.toNat) :=
    State.armJob_of_unwatched ((congrArg Region.hw (State.claim_region ..)).trans hhw)
  rw [← hsent]
  change execJob cl joff s = _
  rw [State.issuedJob] at hc
  simp only [execJob, hj, ne_eq, not_true_eq_false, if_false, issuing_of_issues hi, hc]
  exact if_neg hw

end

/-! BEDROCK_JOB (R225, R226) -/

section
variable {s : State} {src : JobSrc} {j : Job} {rest : List Job}

theorem exec_bedrockJob_of_none (h : s.jobsOf src = []) : exec (.bedrockJob src []) s = .next s := by
  change execBedrockJob src [] s = _
  rw [execBedrockJob, h]

variable (h : s.jobsOf src = j :: rest)
include h

theorem exec_bedrockJob_of_ready (hd : j.done = false) (hr : s.jobReady j = true) :
    exec (.bedrockJob src []) s = .next (s.workJob j) := by
  change execBedrockJob src [] s = _
  simp [execBedrockJob, h, hd, hr]

theorem exec_bedrockJob_of_left (hl : j.done = true ∨ s.jobReady j = false) : exec (.bedrockJob src []) s = .next s := by
  change execBedrockJob src [] s = _
  simp only [execBedrockJob, h]
  exact if_pos (by simpa using hl)

end

/-! JOB_COMPLETE (R226, R227, R236, R365) -/

/-- The list without a job. -/
def State.sansJob (s : State) (j : Job) : State := { s with jobs := s.jobs.filter (fun x => decide (x.ord ≠ j.ord)) }

/-- The watches of a job's source are done. -/
def Cluster.jobWatched (c : Cluster) (j : Job) : Cluster :=
  { c with watches := c.watches.map (fun w => if w.desc = 64 + j.ord then { w with done := true } else w) }

section
variable {s : State} {j : Job} {rest : List Job}

theorem exec_jobComplete_of_none {src : JobSrc} (h : s.jobsOf src = []) : exec (.jobComplete src) s = .next s := by
  change execJobComplete src s = _
  rw [execJobComplete, h]

theorem exec_jobComplete_of_not_done {src : JobSrc} (h : s.jobsOf src = j :: rest) (hd : j.done = false) :
    exec (.jobComplete src) s = .next s := by
  change execJobComplete src s = _
  simp [execJobComplete, h, hd]

variable (hd : j.done = true)
include hd

section
variable {n : ClusterNo} (h : s.jobsOf (.cluster n) = j :: rest)
include h

theorem exec_jobComplete_cluster_of_performed (hc : j.cause = 0) :
    exec (.jobComplete (.cluster n)) s = .next ((s.sansJob j).setCl n ((s.cl n).jobWatched j)) := by
  change execJobComplete (.cluster n) s = _
  simp only [execJobComplete, h, hd, hc]
  rfl

theorem exec_jobComplete_cluster_of_stopped (hc : j.cause ≠ 0) :
    exec (.jobComplete (.cluster n)) s = .next (((s.sansJob j).setCl n ((s.cl n).jobWatched j)).acts n
      (((s.cl n).jobWatched j).owner j.slot j.task) [.job j.dieNo j.cause, .stop 8]) := by
  change execJobComplete (.cluster n) s = _
  simp only [execJobComplete, h, hd, hc, if_false, Bool.not_true, Bool.false_eq_true, State.setCl_cl_same]
  rfl

end

section
variable {r : Fin 16} {i : Word} {w : Wb} (h : s.jobsOf (.waybill r i) = j :: rest) (hw : s.wb r i.toNat = some w)
include h hw

theorem exec_jobComplete_waybill_of_performed (hc : j.cause = 0) :
    exec (.jobComplete (.waybill r i)) s = .next ((s.sansJob j).finish r w 0 [j.d.op]) := by
  have hw' : (s.sansJob j).wb r i.toNat = some w := hw
  change execJobComplete (.waybill r i) s = _
  rw [State.sansJob] at hw' ⊢
  simp only [execJobComplete, h, hd, hc, if_true, Bool.not_true, Bool.false_eq_true, if_false, hw']

/-- The record and event of a failed job leave its waybill where it is. -/
theorem exec_jobComplete_waybill_of_stopped (hc : j.cause ≠ 0) :
    exec (.jobComplete (.waybill r i)) s = .next (((s.sansJob j).jobFault j.dieNo j.cause 0 true).finish r w
      (if j.cause = 4 then 0x0C else 0x0A) (if j.cause = 4 then [j.bytes % 2 ^ 32, j.bytes / 2 ^ 32] else [j.cause])) := by
  have hw' : ((s.sansJob j).jobFault j.dieNo j.cause 0 true).wb r i.toNat = some w :=
    (State.wb_eq_of_sansRecords ((s.sansJob j).jobFault_sansRecords ..) ..).trans hw
  change execJobComplete (.waybill r i) s = _
  rw [State.sansJob] at hw' ⊢
  simp only [execJobComplete, h, hd, hc, Bool.not_true, Bool.false_eq_true, if_false, hw']

end

end

/-! The obligation -/

/-- Settles O16: a job issues by what holds it up and by its check; it runs when its granules have had their slots; it is completed by whose
it is and the cause it stopped with. -/
theorem jobsIssueRunAndComplete : Obligations.JobsIssueRunAndComplete := by
  unfold Obligations.JobsIssueRunAndComplete
  refine ⟨fun s cl o joff hi hj => ?issue,
    fun s src h => ⟨exec_bedrockJob_of_none h, exec_jobComplete_of_none h⟩, fun s src j rest h => ?run⟩
  case issue =>
    intro c t bs s1 j waits
    exact ⟨exec_job_of_waits hj hi, fun hw => ⟨fun cause reg a => exec_job_of_refused hj hi hw, exec_job_of_sent hj hi hw⟩⟩
  case run =>
    refine ⟨exec_bedrockJob_of_ready h, exec_bedrockJob_of_left h, exec_jobComplete_of_not_done h, fun hd => ⟨?cluster, ?waybill⟩⟩
    case cluster =>
      rintro n rfl s2
      refine ⟨exec_jobComplete_cluster_of_performed hd h, fun hc => ?_⟩
      rw [State.setCl_cl_same]
      exact exec_jobComplete_cluster_of_stopped hd h hc
    case waybill =>
      rintro r i w rfl hw
      refine ⟨exec_jobComplete_waybill_of_performed hd h hw, fun hc => ?_, fun hc hc4 => ?_⟩
      · rw [exec_jobComplete_waybill_of_stopped hd h hw (by omega), if_pos hc, if_pos hc, hc]
        rfl
      · rw [exec_jobComplete_waybill_of_stopped hd h hw hc, if_neg hc4, if_neg hc4]
        rfl

end Sys2Proof.Machine
end

section
/-! SUPPORT. Laws of the sparse maps' copies, blocks and erasures, as the writes of Loess memory use them (R216, R219, R254). -/

namespace Sys2Proof.Machine

section
variable {α : Type} {d : Nat → α}

theorem sget_eq_find? (m : SMap α) (k : Nat) : sget d m k = ((m.find? (fun e => decide (e.1 = k))).map (·.2)).getD (d k) := by
  induction m with
  | nil => rfl
  | cons e m ih =>
    obtain ⟨j, v⟩ := e
    by_cases hj : j = k <;> simp [sget, hj, ih]

theorem find?_filter_key (m : SMap α) (p : Nat → Bool) (k : Nat) :
    (m.filter (fun e => p e.1)).find? (fun e => decide (e.1 = k)) = if p k then m.find? (fun e => decide (e.1 = k)) else none := by
  rw [List.find?_filter]
  split
  next hk =>
    congr 1
    funext e
    by_cases he : e.1 = k <;> simp [he, hk]
  next hk =>
    rw [List.find?_eq_none]
    intro e _
    by_cases he : e.1 = k <;> simp [he, hk]

/-- An entry that a copy has moved. -/
theorem find?_moved (m : SMap α) (src dst n k : Nat) :
    ((swindow m src n).map (fun e => (e.1 - src + dst, e.2))).find? (fun e => decide (e.1 = k)) =
      if dst ≤ k ∧ k < dst + n then (m.find? (fun e => decide (e.1 = k - dst + src))).map (fun e => (e.1 - src + dst, e.2))
      else none := by
  rw [List.find?_map, swindow, List.find?_filter]
  split
  next hk =>
    congr 2
    funext e
    simp only [Function.comp_apply, Bool.and_eq_true, decide_eq_true_eq]
    exact decide_eq_decide.mpr (by omega)
  next hk =>
    rw [Option.map_eq_none_iff, List.find?_eq_none]
    intro e _
    simp only [Function.comp_apply, Bool.and_eq_true, decide_eq_true_eq]
    omega

/-- A read after a copy, where all that is not listed reads alike. -/
theorem sget_scopy (hd : ∀ i j, d i = d j) (m : SMap α) (src dst n k : Nat) :
    sget d (scopy m src dst n) k = sget d m (if dst ≤ k ∧ k < dst + n then k - dst + src else k) := by
  rw [sget_eq_find?, sget_eq_find?, scopy, List.find?_append, List.find?_append, find?_moved,
    find?_filter_key m (fun i => decide (i < dst)), find?_filter_key m (fun i => decide (dst + n ≤ i))]
  by_cases hin : dst ≤ k ∧ k < dst + n
  · rw [if_pos hin, if_pos hin, if_neg (by simp; omega), if_neg (by simp; omega), hd k (k - dst + src)]
    simp [Option.map_map, Function.comp_def]
  · rw [if_neg hin, if_neg hin]
    by_cases hlo : k < dst
    · rw [if_pos (by simpa using hlo), if_neg (by simp; omega), Option.or_none, Option.or_none]
    · rw [if_neg (by simpa using hlo), if_pos (by simp; omega), Option.none_or, Option.none_or]

/-- A block reads back as it was written. -/
theorem sgets_sputs_same [DecidableEq α] (m : SMap α) (a : Nat) (vs : List α) : sgets d (sputs d m a vs) a vs.length = vs := by
  rw [sgets_eq]
  refine List.ext_getElem (by simp) fun i h1 h2 => ?_
  rw [List.getElem_map, List.getElem_range, sget_sputs, if_pos (by omega), Nat.add_sub_cancel_left, List.getD_eq_getElem _ _ h2]

/-- Of the keys of a list, those that p names are erased. -/
theorem sget_foldl_serase (p : Nat → Bool) (key : Nat → Nat) (l : List Nat) (m : SMap α) (x : Nat) :
    sget d (l.foldl (fun m c => if p c then serase m (key c) else m) m) x =
      if ∃ c ∈ l, p c = true ∧ key c = x then d x else sget d m x := by
  induction l generalizing m with
  | nil => simp
  | cons c l ih =>
    rw [List.foldl_cons, ih]
    by_cases hp : p c = true
    · rw [if_pos hp, sget_serase]
      by_cases hx : key c = x
      · simp [hp, hx]
      · simp [hp, hx, Ne.symm hx]
    · rw [if_neg hp]
      simp [hp]

end

end Sys2Proof.Machine
end

section
/-! SUPPORT. A write of a granule, in the copy that is current for the writer (R216, R219, R254). -/

namespace Sys2Proof.Machine

/-! One physical granule (R216, R219) -/

/-- Masked bytes laid over those of a granule (R216). -/
def overlay (ws : List WByte) (old : List Byte) : List Byte :=
  ws.foldl (fun l w => l.set (w.addr % 512) (maskByte w.mask (l.getD (w.addr % 512) 0) w.val)) old

@[simp] theorem overlay_length (ws : List WByte) (old : List Byte) : (overlay ws old).length = old.length :=
  List.foldlRecOn (motive := fun l : List Byte => l.length = old.length) ws _ rfl fun _ hl _ _ => by rw [List.length_set, hl]

/-- A write covers codeword c of its granule whole (R219). -/
def coversWhole (ws : List WByte) (c : Nat) : Bool :=
  (List.range 64).all (fun i => ws.any (fun w => w.addr % 512 = c * 64 + i && w.mask = 3#2))

theorem coversWhole_iff {ws : List WByte} {c : Nat} :
    coversWhole ws c = true ↔ ∀ b < 64, ∃ w ∈ ws, w.addr % 512 = c * 64 + b ∧ w.mask = 3#2 := by
  simp [coversWhole, List.all_eq_true, List.any_eq_true]

theorem State.putGran_eq (s : State) (g : Nat) (ws : List WByte) :
    s.putGran g ws = { s.putBytes (g * 512) (overlay ws (sgets zeroByte s.loess (g * 512) 512)) with
      poison := (List.range 8).foldl (fun m c => if coversWhole ws c then serase m (g * 8 + c) else m) s.poison } := rfl

theorem State.putGran_loess_same (s : State) (g : Nat) (ws : List WByte) :
    sgets zeroByte (s.putGran g ws).loess (g * 512) 512 = overlay ws (sgets zeroByte s.loess (g * 512) 512) := by
  have h := sgets_sputs_same (d := zeroByte) s.loess (g * 512) (overlay ws (sgets zeroByte s.loess (g * 512) 512))
  rwa [overlay_length, length_sgets] at h

theorem State.putBytes_read_other (s : State) {g a : Nat} (bs : List Byte) (hlen : bs.length = 512) (h : a / 512 ≠ g) :
    sget zeroByte (s.putBytes (g * 512) bs).loess a = sget zeroByte s.loess a := by
  rw [State.putBytes_read, if_neg (by omega)]

theorem State.putGran_loess_other (s : State) {g a : Nat} (ws : List WByte) (h : a / 512 ≠ g) :
    sget zeroByte (s.putGran g ws).loess a = sget zeroByte s.loess a :=
  s.putBytes_read_other _ ((overlay_length ..).trans (length_sgets ..)) h

theorem State.putGran_poison (s : State) (g : Nat) (ws : List WByte) (x : Nat) :
    sget zeroBool (s.putGran g ws).poison x =
      if x / 8 = g ∧ coversWhole ws (x % 8) = true then false else sget zeroBool s.poison x := by
  rw [State.putGran_eq, sget_foldl_serase]
  refine if_congr ⟨?_, fun ⟨hx, hc⟩ => ⟨x % 8, by simp; omega, hc, by omega⟩⟩ rfl rfl
  rintro ⟨c, hc, hcov, rfl⟩
  rw [List.mem_range] at hc
  exact ⟨by omega, by rwa [show (g * 8 + c) % 8 = c by omega]⟩

/-! The copy that is current for the writer (R254) -/

/-- The physical granule that a write of logical granule g goes to. -/
def State.writeTarget (s : State) (own : Bool) (g : Nat) : Nat :=
  match s.pmeAt g with
  | some p => if own then s.otherOf p g else s.selOf g
  | none => s.selOf g

/-- A granule's contents, with its poison, in another physical granule, for the owner's first write of logical granule g. -/
def State.copyGran (s : State) (src dst g : Nat) : State :=
  { s.putBytes (dst * 512) (sgets zeroByte s.loess (src * 512) 512) with
    poison := scopy s.poison (src * 8) (dst * 8) 8
    wr := sput zeroBool s.wr g true }

section
variable (s : State) (src dst g : Nat)

theorem State.copyGran_loess_same :
    sgets zeroByte (s.copyGran src dst g).loess (dst * 512) 512 = sgets zeroByte s.loess (src * 512) 512 := by
  have h := sgets_sputs_same (d := zeroByte) s.loess (dst * 512) (sgets zeroByte s.loess (src * 512) 512)
  rwa [length_sgets] at h

theorem State.copyGran_loess_other {a : Nat} (h : a / 512 ≠ dst) :
    sget zeroByte (s.copyGran src dst g).loess a = sget zeroByte s.loess a :=
  s.putBytes_read_other _ (by simp) h

theorem State.copyGran_poison_same {c : Nat} (hc : c < 8) :
    sget zeroBool (s.copyGran src dst g).poison (dst * 8 + c) = sget zeroBool s.poison (src * 8 + c) := by
  rw [State.copyGran, sget_scopy (fun _ _ => rfl), if_pos (by omega), show dst * 8 + c - dst * 8 + src * 8 = src * 8 + c by omega]

theorem State.copyGran_poison_other {x : Nat} (h : x / 8 ≠ dst) :
    sget zeroBool (s.copyGran src dst g).poison x = sget zeroBool s.poison x := by
  rw [State.copyGran, sget_scopy (fun _ _ => rfl), if_neg (by omega)]

end

/-- A write goes to the granule that the writer reads; the owner's first one goes to the other copy, with what stood in the first. -/
theorem State.writeGran_cases (s : State) (own : Bool) (g : Nat) (ws : List WByte) :
    (s.writeTarget own g = s.readGran g own ∧ s.writeGran own g ws = s.putGran (s.writeTarget own g) ws) ∨
      s.writeGran own g ws = (s.copyGran (s.readGran g own) (s.writeTarget own g) g).putGran (s.writeTarget own g) ws := by
  unfold State.writeTarget State.readGran State.writeGran
  cases hp : s.pmeAt g with
  | none => exact .inl ⟨rfl, rfl⟩
  | some p =>
    cases own with
    | false => exact .inl ⟨rfl, rfl⟩
    | true =>
      by_cases hw : sget zeroBool s.wr g = true
      · exact .inl ⟨by simp [hw], by simp [hw]⟩
      · exact .inr (by simp [hw, State.copyGran])

/-- The state without Loess bytes, their poison and the marks of open provisional entries. -/
def State.sansMemory (s : State) : State := { s with loess := [], poison := [], wr := [] }

@[simp] theorem State.putGran_sansMemory (s : State) (g : Nat) (ws : List WByte) : (s.putGran g ws).sansMemory = s.sansMemory := by
  rw [State.sansMemory, State.sansMemory, State.putGran_eq]
  rfl

@[simp] theorem State.copyGran_sansMemory (s : State) (src dst g : Nat) : (s.copyGran src dst g).sansMemory = s.sansMemory := by
  rw [State.sansMemory, State.sansMemory, State.copyGran]
  rfl

section
variable (s : State) (own : Bool) (g : Nat) (ws : List WByte)

theorem State.writeGran_loess_same :
    sgets zeroByte (s.writeGran own g ws).loess (s.writeTarget own g * 512) 512 =
      overlay ws (sgets zeroByte s.loess (s.readGran g own * 512) 512) := by
  rcases s.writeGran_cases own g ws with ⟨ht, h⟩ | h
  · rw [h, State.putGran_loess_same, ht]
  · rw [h, State.putGran_loess_same, State.copyGran_loess_same]

theorem State.writeGran_loess_other {a : Nat} (ha : a / 512 ≠ s.writeTarget own g) :
    sget zeroByte (s.writeGran own g ws).loess a = sget zeroByte s.loess a := by
  rcases s.writeGran_cases own g ws with ⟨-, h⟩ | h
  · rw [h, State.putGran_loess_other _ _ ha]
  · rw [h, State.putGran_loess_other _ _ ha, State.copyGran_loess_other _ _ _ _ ha]

/-- A codeword that the write covers whole is clean, any other has the poison it had in the copy that the writer read (R219). -/
theorem State.writeGran_poison_same {c : Nat} (hc : c < 8) :
    sget zeroBool (s.writeGran own g ws).poison (s.writeTarget own g * 8 + c) =
      if coversWhole ws c then false else sget zeroBool s.poison (s.readGran g own * 8 + c) := by
  have hput (t : State) : sget zeroBool (t.putGran (s.writeTarget own g) ws).poison (s.writeTarget own g * 8 + c) =
      if coversWhole ws c then false else sget zeroBool t.poison (s.writeTarget own g * 8 + c) := by
    rw [State.putGran_poison, show (s.writeTarget own g * 8 + c) % 8 = c by omega]
    exact if_congr (and_iff_right (by omega)) rfl rfl
  rcases s.writeGran_cases own g ws with ⟨ht, h⟩ | h
  · rw [h, hput, ht]
  · rw [h, hput, State.copyGran_poison_same _ _ _ _ hc]

theorem State.writeGran_poison_other {x : Nat} (hx : x / 8 ≠ s.writeTarget own g) :
    sget zeroBool (s.writeGran own g ws).poison x = sget zeroBool s.poison x := by
  rcases s.writeGran_cases own g ws with ⟨-, h⟩ | h
  · rw [h, State.putGran_poison, if_neg (mt And.left hx)]
  · rw [h, State.putGran_poison, if_neg (mt And.left hx), State.copyGran_poison_other _ _ _ _ hx]

@[simp] theorem State.writeGran_sansMemory : (s.writeGran own g ws).sansMemory = s.sansMemory := by
  rcases s.writeGran_cases own g ws with ⟨-, h⟩ | h <;> simp [h]

end

end Sys2Proof.Machine
end

section
/-! SUPPORT. What the decoder's findings change (R217 to R219), and what the activation of a row leaves alone (R222). -/

namespace Sys2Proof.Machine

/-- The state without records and without what the bedrock dies have at work. -/
def State.sansDies (s : State) : State := { s.sansRecords with dies := [] }

theorem State.sansDies_of_sansRecords {s t : State} (h : t.sansRecords = s.sansRecords) : t.sansDies = s.sansDies :=
  congrArg (fun u : State => { u with dies := [] }) h

/-! The decoder (R217 to R219) -/

section
variable (s : State) (cw src who : Nat) (newer : Bool)

theorem State.eccCase_of_poisoned (c : EccCase) (h : sget zeroBool s.poison cw = true) : s.eccCase cw src who newer c = s :=
  if_pos h

theorem State.eccCase_clean : s.eccCase cw src who newer .clean = s := by
  unfold State.eccCase
  split <;> rfl

/-- A codeword that the decoder could change is written back, unless a newer write has been accepted (R218). -/
def State.writtenBack (s : State) (k : Nat) (newer : Bool) : State :=
  if newer then s else s.setDie k { s.die k with retry := (s.die k).retry + 1 }

theorem State.writtenBack_regs (k : Nat) : (s.writtenBack k newer).regs = s.regs := by
  unfold State.writtenBack
  split <;> rfl

theorem State.writtenBack_sansDies (k : Nat) : (s.writtenBack k newer).sansDies = s.sansDies := by
  unfold State.writtenBack
  split <;> rfl

theorem State.freeCodeword_loess_same {i : Nat} (hi : i < 64) :
    sget zeroByte (s.freeCodeword cw).loess (cw * 64 + i) = Config.ecc s.fresh i := by
  refine (s.putBytes_read ..).trans ?_
  rw [List.length_map, List.length_range, if_pos (by omega), Nat.add_sub_cancel_left]
  simp [hi]

theorem State.freeCodeword_loess_other {a : Nat} (ha : a < cw * 64 ∨ cw * 64 + 64 ≤ a) :
    sget zeroByte (s.freeCodeword cw).loess a = sget zeroByte s.loess a := by
  refine (s.putBytes_read ..).trans (if_neg ?_)
  rw [List.length_map, List.length_range]
  omega

@[simp] theorem State.uncorrectable_sansRecords :
    (s.uncorrectable cw src who).sansRecords = { s.sansRecords with poison := sput zeroBool s.poison cw true } := by
  unfold State.uncorrectable
  extract_lets p k s1 s2
  exact (s2.raise_sansRecords ..).trans ((s1.capture_sansRecords ..).trans (State.count_sansRecords ..))

/-- The event of an uncorrectable codeword and its record stand in other registers than LSM_UE (R219, R448). -/
theorem State.uncorrectable_count :
    (s.uncorrectable cw src who).regN (sa (s.place (cw * 64)).1 0x18) =
      min (s.regN (sa (s.place (cw * 64)).1 0x18) + 1) (2 ^ 32 - 1) := by
  unfold State.uncorrectable
  extract_lets p k s1 s2
  have hk : sa k 0x18 ≠ sa k 0x1C ∧ sa k 0x18 ≠ sa k 0x20 ∧ sa k 0x18 ≠ 0x106014 ∧ sa k 0x18 ≠ 0x106018 := by
    simp only [sa, Win.base]
    omega
  obtain ⟨hinfo, haddr, hseq, hlost⟩ := hk
  have h2 : s2.reg (sa k 0x18) = s1.reg (sa k 0x18) := s1.capture_reg_other _ _ hinfo (by simpa using haddr)
  rw [State.regN, State.raise_reg_other _ _ _ _ _ _ _ hseq hlost, h2]
  exact State.count_regN_same ..

end

section
variable {s : State} {cw : Nat} (src who : Nat) (newer : Bool) (h : sget zeroBool s.poison cw = false)
include h

theorem State.eccCase_corrected :
    s.eccCase cw src who newer .corrected =
      (s.count (sa (s.place (cw * 64)).1 0x14) 1).writtenBack (s.place (cw * 64)).1 newer :=
  if_neg (ne_true_of_eq_false h)

theorem State.eccCase_detected : s.eccCase cw src who newer .detected = s.uncorrectable cw src who :=
  if_neg (ne_true_of_eq_false h)

/-- A codeword that is taken wrongly for another holds free bytes, whether or not the decoder counts it (R217). -/
theorem State.eccCase_wrong {c : EccCase} (hc : c = .miscorrected ∨ c = .silent) :
    (s.eccCase cw src who newer c).sansDies = (s.freeCodeword cw).sansDies := by
  rcases hc with rfl | rfl
  · have hm : s.eccCase cw src who newer .miscorrected = ((s.freeCodeword cw).count _ 1).writtenBack _ newer :=
      if_neg (ne_true_of_eq_false h)
    rw [hm, State.writtenBack_sansDies]
    exact State.sansDies_of_sansRecords (State.count_sansRecords ..)
  · have hs : s.eccCase cw src who newer .silent = s.freeCodeword cw := if_neg (ne_true_of_eq_false h)
    rw [hs]

end

/-! Activations (R222) -/

theorem State.setDie_sansRecords (s : State) (k : Nat) (d : Stack) : (s.setDie k d).sansRecords = s.sansRecords.setDie k d := rfl

theorem State.setDie_sansDies (s : State) (k : Nat) (d : Stack) : (s.setDie k d).sansDies = s.sansDies := by
  unfold State.sansDies
  rfl

/-- Beside records, an activation changes the counts and mitigations of rows of its stack. -/
theorem State.activate_sansRecords (s : State) (k l : Nat) :
    ∃ d : Stack, d.accepted = (s.die k).accepted ∧ (s.activate k l).sansRecords = (s.setDie k d).sansRecords := by
  unfold State.activate
  extract_lets s1 d row chan n d1
  have h1 : s1.sansRecords = s.sansRecords := s.count64_sansRecords ..
  have hd : d = s.die k := State.die_eq_of_sansRecords h1 k
  simp only [State.setDie_sansRecords, ← h1]
  rw [← hd]
  split
  · exact ⟨_, by rfl, s1.setDie_sansRecords ..⟩
  · split
    · exact ⟨_, by rfl, (State.count_sansRecords ..).trans (s1.setDie_sansRecords ..)⟩
    · exact ⟨d1, by rfl, s1.setDie_sansRecords ..⟩

/-- The i-th accepted request of stack k has been performed at a local address: the stack has it no more, its row has been activated. -/
def State.served (s : State) (k i l : Nat) : State := (s.dropAccepted k i).activate k l

section
variable (s : State) (k i l : Nat)

theorem State.served_sansRecords :
    ∃ d : Stack, d.accepted = (s.die k).accepted.eraseIdx i ∧
      (s.served k i l).sansRecords = ((s.dropAccepted k i).setDie k d).sansRecords := by
  obtain ⟨d, hd, h⟩ := (s.dropAccepted k i).activate_sansRecords k l
  refine ⟨d, ?_, h⟩
  rw [hd, State.dropAccepted, State.setDie_die_same]

theorem State.served_accepted : ((s.served k i l).die k).accepted = (s.die k).accepted.eraseIdx i := by
  obtain ⟨d, hd, h⟩ := s.served_sansRecords k i l
  have hdie : (s.served k i l).die k = d := (State.die_eq_of_sansRecords h k).trans (State.setDie_die_same ..)
  rw [hdie, hd]

/-- What a stack does on its own side leaves every other unit and Loess memory alone. -/
theorem State.served_sansDies : (s.served k i l).sansDies = s.sansDies := by
  obtain ⟨d, -, h⟩ := s.served_sansRecords k i l
  rw [State.sansDies_of_sansRecords h, State.dropAccepted, State.setDie_sansDies, State.setDie_sansDies]

@[simp] theorem State.served_loess : (s.served k i l).loess = s.loess := (congrArg State.loess (s.served_sansDies k i l) :)

@[simp] theorem State.served_poison : (s.served k i l).poison = s.poison := (congrArg State.poison (s.served_sansDies k i l) :)

@[simp] theorem State.served_clusters : (s.served k i l).clusters = s.clusters :=
  (congrArg State.clusters (s.served_sansDies k i l) :)

@[simp] theorem State.served_cl (n : Nat) : (s.served k i l).cl n = s.cl n := by
  rw [State.cl, State.served_clusters, State.cl]

end

end Sys2Proof.Machine
end

section
/-! SUPPORT. How a stack performs the reads and writes that it has accepted, and whom it answers (R215, R216, R219, R254, R342, R375,
R379). -/

namespace Sys2Proof.Machine

theorem Req.finds_nil {r : Req} (hf : r.found = []) : r.finds [] = [] := by
  simp [Req.finds, hf]

/-- The tag of a request once its stack has answered (R192). -/
def Cluster.answered (c : Cluster) (tag : Nat) (data : List Byte) (poison : Bool) : Cluster :=
  c.setTag tag { c.tag tag with st := 2, data := data, poison := poison }

/-! Reads (R215, R219, R254, R375) -/

/-- The bytes that a request reads, in the copy that it sees. -/
def State.reqData (s : State) (r : Req) : List Byte :=
  sgets zeroByte s.loess (s.readGran (r.addr / 512) (s.reqOwns r) * 512 + r.addr % 512) r.len

/-- A codeword that a read takes is poisoned. -/
def State.reqPoison (s : State) (r : Req) : Bool :=
  (List.range 8).any (fun c => r.takes c && sget zeroBool s.poison (s.readGran (r.addr / 512) (s.reqOwns r) * 8 + c))

section
variable {s : State} {k i : Nat} {r : Req} (hf : r.found = [])
include hf

theorem State.performRead_of_drover (hr : r.src = .drover) :
    s.performRead k i r [] = (s.served k i (s.place r.addr).2).setCl r.cl
      ((s.cl r.cl).answered r.tag (if s.reqPoison r then [] else s.reqData r) (s.reqPoison r)) := by
  rw [← s.served_cl k i (s.place r.addr).2 r.cl]
  simp only [State.performRead, Req.finds_nil hf, hr]
  rfl

theorem State.performRead_of_host {q tag : Nat} (hr : r.src = .host q tag) :
    s.performRead k i r [] = if s.reqPoison r
      then ((s.served k i (s.place r.addr).2).tthErr 2 1 r.addr).complete 1 r.addr tag .error
      else (s.served k i (s.place r.addr).2).complete 1 r.addr tag (.data (s.reqData r)) := by
  simp only [State.performRead, Req.finds_nil hf, hr]
  rfl

end

section
variable {s : State} {k : Fin 8} {i : Nat}

theorem exec_loessRead_of_not_performed (ecc : List (Fin 8 × EccCase))
    (h : ∀ r, (s.die k).accepted[i]? = some r →
      r.write = true ∨ (s.die k).performs i (s.place r.addr).2 r = false ∨ s.domainOn (144 + k.val) = false) :
    exec (.loessRead k i ecc) s = .next s := by
  change execLoessRead k i ecc s = _
  rw [execLoessRead]
  cases hr : (s.die k).accepted[i]? with
  | none => rfl
  | some r => exact if_pos (by simpa [or_assoc] using h r hr)

theorem exec_loessWrite_of_not_performed (ecc : List (Fin 8 × EccCase))
    (h : ∀ r, (s.die k).accepted[i]? = some r →
      r.write = false ∨ (s.die k).performs i (s.place r.addr).2 r = false ∨ s.domainOn (144 + k.val) = false) :
    exec (.loessWrite k i ecc) s = .next s.hostOn := by
  have hidle : s.writeAt k i ecc = s := by
    rw [State.writeAt]
    cases hr : (s.die k).accepted[i]? with
    | none => rfl
    | some r => exact if_pos (by simpa [or_assoc] using h r hr)
  change execLoessWrite k i ecc s = _
  rw [execLoessWrite, hidle]

variable {r : Req} (hr : (s.die k).accepted[i]? = some r) (hp : (s.die k).performs i (s.place r.addr).2 r = true)
  (hon : s.domainOn (144 + k.val) = true)
include hr hp hon

theorem exec_loessRead_of_performed (ecc : List (Fin 8 × EccCase)) (hw : r.write = false) :
    exec (.loessRead k i ecc) s = .next (s.performRead k i r ecc) := by
  change execLoessRead k i ecc s = _
  simp [execLoessRead, hr, hw, hp, hon]

theorem exec_loessWrite_of_performed (ecc : List (Fin 8 × EccCase)) (hw : r.write = true) :
    exec (.loessWrite k i ecc) s = .next (s.performWrite k i r ecc).hostOn := by
  change execLoessWrite k i ecc s = _
  simp [execLoessWrite, State.writeAt, hr, hw, hp, hon]

end

/-! Writes (R215, R216, R219, R254, R342) -/

/-- The state without records, the bedrock dies' work and Loess memory. -/
def State.elsewhere (s : State) : State := { s.sansRecords with dies := [], loess := [], poison := [], wr := [] }

section
variable {s t : State}

theorem State.elsewhere_of_sansDies (h : t.sansDies = s.sansDies) : t.elsewhere = s.elsewhere :=
  (congrArg (fun u : State => { u with loess := [], poison := [], wr := [] }) h :)

theorem State.elsewhere_of_sansMemory (h : t.sansMemory = s.sansMemory) : t.elsewhere = s.elsewhere :=
  (congrArg (fun u => { u.sansRecords with dies := [] }) h :)

variable (h : t.elsewhere = s.elsewhere)
include h

theorem State.clusters_eq_of_elsewhere : t.clusters = s.clusters := (congrArg State.clusters h :)

theorem State.cl_eq_of_elsewhere (n : Nat) : t.cl n = s.cl n := (congrArg (fun u => State.cl u n) h :)

theorem State.rings_eq_of_elsewhere : t.rings = s.rings := (congrArg State.rings h :)

theorem State.ports_eq_of_elsewhere : t.ports = s.ports := (congrArg State.ports h :)

end

/-- A write has been performed, and nobody has been answered yet. -/
def State.performed (s : State) (k i : Nat) (r : Req) : State :=
  (s.writeGran (s.reqOwns r) (r.addr / 512) r.bytes).served k i (s.place r.addr).2

section
variable {s : State} {k i : Nat} {r : Req}

/-- Nothing but Loess memory, its stack and records differs. -/
theorem State.performed_elsewhere (s : State) (k i : Nat) (r : Req) : (s.performed k i r).elsewhere = s.elsewhere :=
  (State.elsewhere_of_sansDies (State.served_sansDies ..)).trans (State.elsewhere_of_sansMemory (s.writeGran_sansMemory ..))

variable (hf : r.found = [])
include hf

theorem State.performWrite_of_drover (hr : r.src = .drover) :
    s.performWrite k i r [] = (s.performed k i r).setCl r.cl ((s.cl r.cl).answered r.tag [] false) := by
  have hcl : (s.performed k i r).cl r.cl = s.cl r.cl := State.cl_eq_of_elsewhere (s.performed_elsewhere k i r) r.cl
  rw [← hcl]
  simp only [State.performWrite, Req.finds_nil hf, hr]
  rfl

theorem State.performWrite_of_other (hr : r.src ≠ .drover) :
    s.performWrite k i r [] = (s.performed k i r).carDone r.src := by
  simp only [State.performWrite, Req.finds_nil hf]
  cases h : r.src
  case drover => exact absurd h hr
  all_goals rfl

end

/-- A part of a delivery still waits or is accepted at a stack. -/
abbrev State.partWaits (s : State) (src : ReqSrc) : Prop := ∃ d ∈ s.dies, ∃ q ∈ d.2.waiting ++ d.2.accepted, q.src = src

section
variable {s : State} {p dseq cl a n : Nat}

theorem State.carDone_of_waits (h : s.partWaits (.car p dseq cl a n)) : s.carDone (.car p dseq cl a n) = s :=
  if_pos (by simpa only [List.any_eq_true, decide_eq_true_eq] using h)

theorem State.carDone_of_complete (h : ¬s.partWaits (.car p dseq cl a n)) :
    s.carDone (.car p dseq cl a n) = s.dackOut p dseq cl (if s.poisoned a n then 1 else 0) :=
  if_neg (by simpa only [List.any_eq_true, decide_eq_true_eq] using h)

end

/-! What a performed write has left (R216, R219, R222, R254) -/

section
variable (s : State) (k i : Nat) (r : Req)

theorem State.performed_memOk (h : s.memOk) : (s.performed k i r).memOk := by
  rw [State.memOk, State.performed, State.served_loess]
  exact State.writeGran_memOk h ..

theorem State.performed_accepted : ((s.performed k i r).die k).accepted = (s.die k).accepted.eraseIdx i := by
  have hdie : (s.writeGran (s.reqOwns r) (r.addr / 512) r.bytes).die k = s.die k :=
    (congrArg (fun t => State.die t k) (s.writeGran_sansMemory ..) :)
  rw [State.performed, State.served_accepted, hdie]

end

/-! The obligation -/

/-- Settles O17: a read by what it takes and whom it answers; a write by the copy it goes to, what it covers and whom it answers; a codeword
by what the decoder finds in it. -/
theorem loessAccessesActOnTheCurrentCopy : Obligations.LoessAccessesActOnTheCurrentCopy := by
  unfold Obligations.LoessAccessesActOnTheCurrentCopy
  refine ⟨⟨fun s k i ecc => exec_loessRead_of_not_performed ecc, fun s k i r hr hw hf hp hon => ?read⟩,
    ⟨fun s k i ecc => exec_loessWrite_of_not_performed ecc, fun s k i r hr hw hf hp hon => ?write⟩,
    fun s cw src who newer c => ?decoder⟩
  case read =>
    intro u pg bad data
    refine ⟨s.served_accepted .., s.served_loess .., s.served_poison .., s.served_clusters .., fun hsrc => ?_,
      fun q tag hsrc => ⟨fun hb => ?_, fun hb => ⟨?_, ?_⟩⟩⟩
    · rw [exec_loessRead_of_performed hr hp hon [] hw, State.performRead_of_drover hf hsrc]
      rfl
    · rw [exec_loessRead_of_performed hr hp hon [] hw, State.performRead_of_host hf hsrc]
      exact congrArg _ (if_neg (ne_true_of_eq_false hb))
    · rw [exec_loessRead_of_performed hr hp hon [] hw, State.performRead_of_host hf hsrc]
      exact congrArg _ (if_pos hb)
    · exact (State.loess_eq_of_sansRecords (u.tthErr_sansRecords ..)).trans (s.served_loess ..)
  case write =>
    intro g own pg whole
    have hexec := exec_loessWrite_of_performed hr hp hon [] hw
    have hother (hsrc : r.src ≠ .drover) : exec (.loessWrite k i []) s = .next ((s.performed k i r).carDone r.src).hostOn := by
      rw [hexec, State.performWrite_of_other hf hsrc]
    have hkept := s.performed_elsewhere k i r
    refine ⟨s.performed k i r, s.performed_memOk k i r, fun hsrc => ?_, fun q t hsrc => ?_, fun p dseq cl a n hsrc => ?_,
      fun x hx => ?_, fun c hc => ⟨fun hcov => ?_, fun hcov => ?_⟩, fun a ha => ?_, ?_, s.performed_accepted k i r,
      State.clusters_eq_of_elsewhere hkept, State.rings_eq_of_elsewhere hkept, State.ports_eq_of_elsewhere hkept⟩
    · rw [hexec, State.performWrite_of_drover hf hsrc]
      rfl
    · rw [hother (by simp [hsrc]), hsrc]
      rfl
    · rw [hother (by simp [hsrc]), hsrc]
      exact ⟨fun hp => by rw [State.carDone_of_waits hp], fun hp => by rw [State.carDone_of_complete hp]⟩
    · rw [State.performed, State.served_poison]
      exact s.writeGran_poison_other _ _ _ hx
    · rw [State.performed, State.served_poison]
      exact (s.writeGran_poison_same _ _ _ hc).trans (if_pos (coversWhole_iff.mpr hcov))
    · rw [State.performed, State.served_poison]
      exact (s.writeGran_poison_same _ _ _ hc).trans (if_neg (mt coversWhole_iff.mp hcov))
    · rw [State.performed, State.served_loess]
      exact s.writeGran_loess_other _ _ _ ha
    · rw [State.performed, State.served_loess]
      exact s.writeGran_loess_same ..
  case decoder =>
    intro k t
    refine ⟨s.eccCase_of_poisoned cw src who newer c, fun hp => ⟨?clean, ?corrected, ?detected, fun hc => ?wrong⟩⟩
    case clean =>
      rintro rfl
      exact s.eccCase_clean ..
    case corrected =>
      rintro rfl
      rw [show t = _ from State.eccCase_corrected src who newer hp]
      have hback := ((s.count (sa k 0x14) 1).writtenBack_sansDies newer k).trans
        (State.sansDies_of_sansRecords (s.count_sansRecords (sa k 0x14) 1))
      exact ⟨State.writtenBack_regs .., (congrArg State.loess hback :), (congrArg State.poison hback :)⟩
    case detected =>
      rintro rfl
      rw [show t = _ from State.eccCase_detected src who newer hp]
      have hmem := s.uncorrectable_sansRecords cw src who
      have hpoison : (s.uncorrectable cw src who).poison = sput zeroBool s.poison cw true := (congrArg State.poison hmem :)
      refine ⟨?_, (congrArg State.loess hmem :), (congrArg State.clusters hmem :), fun x hx => ?_, s.uncorrectable_count ..⟩
      · rw [hpoison, sget_sput_same]
      · rw [hpoison, sget_sput_other _ _ _ _ hx]
    case wrong =>
      have hwrong := State.eccCase_wrong src who newer hp hc
      have hloess : t.loess = (s.freeCodeword cw).loess := (congrArg State.loess hwrong :)
      refine ⟨(congrArg State.poison hwrong :), fun i hi => ?_, fun a ha => ?_⟩
      · rw [hloess, s.freeCodeword_loess_same cw hi]
      · rw [hloess, s.freeCodeword_loess_other cw ha]

end Sys2Proof.Machine
end

section
/-! SUPPORT. How a stack's rows, calibrations, HOLD transitions and restarts with a new image go on (R222, R223, R229 to R231, R275). -/

namespace Sys2Proof.Machine

/-! Rows (R222, R223) -/

section
variable (s : State) (k : Fin 8) (chan : Fin 16) (row : BitVec 22)

/-- A mitigation of the row is to be throttled, and has not been. -/
def Mit.hit (chan row : Nat) (m : Mit) : Bool :=
  decide (m.row = row) && decide (m.chan = chan) && decide (256 ≤ m.further) && !m.throttled

theorem exec_rhThrottle_of_hit (h : (s.die k).mits.any (Mit.hit chan.val row.toNat) = true) :
    exec (.rhThrottle k chan row) s = .next (((s.setDie k { s.die k with
      mits := (s.die k).mits.map (fun m => if m.hit chan.val row.toNat then { m with throttled := true } else m) }).count
        (sa k 0x2C) 1).raise 13 3 k row.toNat 0) :=
  congrArg Host.Outcome.next (if_pos h)

theorem exec_rhThrottle_of_no_hit (h : (s.die k).mits.any (Mit.hit chan.val row.toNat) = false) :
    exec (.rhThrottle k chan row) s = .next s :=
  congrArg Host.Outcome.next (if_neg (ne_true_of_eq_false h))

theorem exec_rowRefresh :
    exec (.rowRefresh k chan row) s =
      .next (s.setDie k { s.die k with rows := serase (s.die k).rows (chan.val * 2 ^ 22 + row.toNat) }) := rfl

theorem exec_periodicCalibration :
    exec (.periodicCalibration k) s = .next (s.setDie k { s.die k with cal := (s.die k).cal ++ [s.stageNo] }) := rfl

end

/-! HOLD (R229, R230) -/

/-- What a stack that has changed its state lets go on: a power transition, HOLD receipts, a put-off service request. -/
def State.holdSettled (s : State) : State := s.settleTrans.holdReceipts.svcRetry

/-- Stack k is ready again: its pages count as not written and its watches are blind; a long HOLD has refreshed its rows. -/
def State.heldOver (s : State) (k : Nat) : State :=
  let d : Stack := if Config.heldLong k s.fresh then { s.die k with rows := [] } else s.die k
  ({ (s.draw.setStack k 2).setDie k d with written := s.written.filter (fun e => decide (e.1 % 8 ≠ k)) } : State).mapCl
    (fun c => { c with watches := c.watches.map (fun w => { w with blind := k :: w.blind }) })

section
variable {s : State} {k : Fin 8}

theorem exec_holdTransitionDone_of_done (hst : s.stackState k = 3) (hacc : (s.die k).accepted = []) (howes : s.stackOwes k = false) :
    exec (.holdTransitionDone k) s = .next (s.setStack k 4).holdSettled :=
  if_pos ⟨hst, hacc, by simp [howes]⟩

theorem exec_holdTransitionDone_of_owing (hst : s.stackState k = 3) (h : (s.die k).accepted ≠ [] ∨ s.stackOwes k = true) :
    exec (.holdTransitionDone k) s = .next s := by
  change execHoldTransitionDone k s = _
  rw [execHoldTransitionDone]
  simp only [hst, true_and]
  rw [if_neg, if_neg (by omega)]
  rintro ⟨hacc, howes⟩
  rcases h with h | h
  · exact h hacc
  · simp [h] at howes

theorem exec_holdTransitionDone_of_leaving (hst : s.stackState k = 5) :
    exec (.holdTransitionDone k) s =
      .next (if s.trans = some (2, true) then (s.heldOver k).stackIn k else s.heldOver k).holdSettled := by
  change execHoldTransitionDone k s = _
  rw [execHoldTransitionDone]
  simp only [hst, Nat.reduceEqDiff, false_and, if_false, if_true]
  rfl

theorem exec_holdTransitionDone_of_steady (h3 : s.stackState k ≠ 3) (h5 : s.stackState k ≠ 5) :
    exec (.holdTransitionDone k) s = .next s :=
  (if_neg (mt And.left h3)).trans (if_neg h5)

end

/-! Restarts (R231, R440) -/

/-- A stack that has restarted, in HOLD: with its new image, or with the one before until the next ARM. -/
def State.restarted (s : State) (k : Nat) (b : FwBank) (ok : Bool) : State :=
  let t := (s.setStack k 4).setDie k { s.die k with fwNew := none, needArm := !ok }
  if ok then t.bedRuns k b else t.setBits (sa k 0) 8

section
variable {s : State} {k : Fin 8} {b : FwBank} (hnew : (s.die k).fwNew = some b) (hst : s.stackState k = 6) (ok : Bool)
include hnew hst

theorem exec_bedrockFwRestart_of_no_waybill (hw : s.bedrockWb k = none) :
    exec (.bedrockFwRestart k ok) s = .next (s.restarted k b ok).settleTrans := by
  change execBedrockFwRestart k ok s = _
  rw [execBedrockFwRestart]
  simp only [hnew, hst, hw, ne_eq, not_true_eq_false, if_false]
  rfl

theorem exec_bedrockFwRestart_of_waybill {r : Nat} {w : Wb} (hw : s.bedrockWb k = some (r, w)) :
    exec (.bedrockFwRestart k ok) s = .next ((if ok then (s.restarted k b ok).finish r w 0 [b.version.toNat, (s.restarted k b ok).arb 1]
      else (s.restarted k b ok).finish r w 0x0A [(Config.openWord 0x900 0).toNat]).settleTrans.svcRetry) := by
  change execBedrockFwRestart k ok s = _
  rw [execBedrockFwRestart]
  simp only [hnew, hst, hw, ne_eq, not_true_eq_false, if_false]
  rfl

end

/-- The stack runs the image; the other stacks run what they ran (R440). -/
theorem State.bedRuns_bedOf (s : State) (k o : Nat) (b : FwBank) : (s.bedRuns k b).bedOf o = if o = k then b else s.bedOf o := by
  have hput : (sget noFw (sput noFw s.boot.beds k (some b)) o).getD (deliveredBed o) = if o = k then b else s.bedOf o := by
    rw [sget_sput]
    split <;> rfl
  unfold State.bedRuns
  extract_lets s1 s2
  split <;> exact hput

/-! The obligation -/

/-- Settles O18: rows by their mitigations and counts; a stack in transition by what it owes and whether the module goes into HOLD; a
restart by its end and by whether a waybill asked for it. -/
theorem stacksKeepTheirUpkeep : Obligations.StacksKeepTheirUpkeep := by
  unfold Obligations.StacksKeepTheirUpkeep
  refine ⟨fun s k chan row => ⟨exec_rhThrottle_of_hit s k chan row, exec_rhThrottle_of_no_hit s k chan row, ?rows,
      exec_periodicCalibration s k⟩,
    fun s k => ⟨exec_holdTransitionDone_of_done, exec_holdTransitionDone_of_owing, fun hst => ?leaving,
      exec_holdTransitionDone_of_steady⟩,
    fun s k b hnew hst => ⟨fun hw => ?alone, fun r w hw => ?asked, fun o => State.bedRuns_bedOf ..⟩⟩
  case rows =>
    exact ⟨exec_rowRefresh s k chan row, (sget_serase ..).trans (if_pos rfl), fun x hx => (sget_serase ..).trans (if_neg hx)⟩
  case leaving =>
    rw [exec_holdTransitionDone_of_leaving hst]
    exact ⟨fun h => congrArg (fun t => Host.Outcome.next (State.holdSettled t)) (if_neg h),
      fun h => congrArg (fun t => Host.Outcome.next (State.holdSettled t)) (if_pos h)⟩
  case alone =>
    exact ⟨exec_bedrockFwRestart_of_no_waybill hnew hst true hw, exec_bedrockFwRestart_of_no_waybill hnew hst false hw⟩
  case asked =>
    exact ⟨exec_bedrockFwRestart_of_waybill hnew hst true hw, exec_bedrockFwRestart_of_waybill hnew hst false hw⟩

end Sys2Proof.Machine
end

section
/-! SUPPORT. What JOB, COPY and CHECKSUM do when they start: with their ranges out of reach, with poison in what they read, and without
(R224, R226, R364 to R367). -/

namespace Sys2Proof.Machine

section
variable {s : State} {r : Fin 16} {i : Word} {w : Wb} (ecc : List (Nat × EccCase))

/-! JOB (R224, R226, R365) -/

section
variable (hs : s.Starts 0x300 r i.toNat w)
include hs

theorem exec_jobWaybill_of_not_up (hup : s.rangeUp (pPair w.params 0) 64 = false) : exec (.jobWaybill r i ecc) s = .next s :=
  congrArg Host.Outcome.next (startWb_of_starts_of_not_up hs hup _)

variable (hup : s.rangeUp (pPair w.params 0) 64 = true) {u : State}
  (hu : ((s.switchOn w.clus).eccReads [(pPair w.params 0, 64)] mgmtWho ecc).mgmtTraffic false [(pPair w.params 0, 64)] = u)
include hup hu

theorem exec_jobWaybill_of_poison (hp : u.firstPoison (pPair w.params 0) 64 ≠ none) :
    exec (.jobWaybill r i ecc) s = .next (u.finish r w 0x0C [0, 0]) := by
  obtain ⟨d, hd⟩ := Option.ne_none_iff_exists'.mp hp
  refine congrArg Host.Outcome.next ((startWb_of_starts hs hup _).trans ?_)
  simp only [hu, hd]
  rfl

variable (hp : u.firstPoison (pPair w.params 0) 64 = none)
include hp

theorem exec_jobWaybill_of_sound (hd : jobRefusedBy (jobOf (u.loessRead (pPair w.params 0) 64)) = 0) :
    exec (.jobWaybill r i ecc) s =
      .next ((u.sendJob { src := .waybill r i, d := jobOf (u.loessRead (pPair w.params 0) 64), ord := u.jobOrd }).setWb r
        { w with phase := 2 }) := by
  refine congrArg Host.Outcome.next ((startWb_of_starts hs hup _).trans ?_)
  simp only [hu, hp, hd]
  rfl

theorem exec_jobWaybill_of_refused (hd : jobRefusedBy (jobOf (u.loessRead (pPair w.params 0) 64)) ≠ 0) :
    let bs := u.loessRead (pPair w.params 0) 64
    exec (.jobWaybill r i ecc) s =
      .next ((u.jobFault (Config.jobDie bs % 8) (jobRefusedBy (jobOf bs)) 0 true).finish r w 0x0A [jobRefusedBy (jobOf bs)]) := by
  refine congrArg Host.Outcome.next ((startWb_of_starts hs hup _).trans ?_)
  simp only [hu, hp, hd, ne_eq, not_false_eq_true, if_true]

end

/-! COPY (R365, R366) -/

section
variable (hs : s.Starts 0x301 r i.toNat w)
include hs

theorem exec_copy_of_not_up (hup : s.rangeUp (pPair w.params 0) (pPair w.params 4) = false ∨
    s.rangeUp (pPair w.params 2) (pPair w.params 4) = false) : exec (.copy r i ecc) s = .next s :=
  congrArg Host.Outcome.next (startWb_of_starts_of_not_up hs (Bool.and_eq_false_iff.mpr hup) _)

variable (hsrc : s.rangeUp (pPair w.params 0) (pPair w.params 4) = true)
  (hdst : s.rangeUp (pPair w.params 2) (pPair w.params 4) = true) {v : State}
  (hv : ((s.switchOn w.clus).eccReads [(pPair w.params 0, pPair w.params 4)] mgmtWho ecc).eccEdges
    (pPair w.params 2) (pPair w.params 4) mgmtWho ecc = v)
include hsrc hdst hv

theorem exec_copy_of_clean (hp : v.firstPoison (pPair w.params 0) (pPair w.params 4) = none) :
    let u := v.mgmtTraffic false [(pPair w.params 0, pPair w.params 4), (pPair w.params 2, pPair w.params 4)]
    exec (.copy r i ecc) s = .next ((u.agentWrite (pPair w.params 2) (u.loessRead (pPair w.params 0) (pPair w.params 4)) mgmtWho).finish
      r w 0 (pairOf (pPair w.params 4))) := by
  refine congrArg Host.Outcome.next ((startWb_of_starts hs (Bool.and_eq_true_iff.mpr ⟨hsrc, hdst⟩) _).trans ?_)
  simp only [hv, hp]
  rfl

theorem exec_copy_of_poison {d : Nat} (hp : v.firstPoison (pPair w.params 0) (pPair w.params 4) = some d) :
    let u := v.mgmtTraffic false [(pPair w.params 0, d), (pPair w.params 2, d)]
    exec (.copy r i ecc) s = .next ((u.agentWrite (pPair w.params 2) (u.loessRead (pPair w.params 0) d) mgmtWho).finish
      r w 0x0C (pairOf d)) := by
  refine congrArg Host.Outcome.next ((startWb_of_starts hs (Bool.and_eq_true_iff.mpr ⟨hsrc, hdst⟩) _).trans ?_)
  simp only [hv, hp]
  rfl

end

/-! CHECKSUM (R364, R365, R387) -/

/-- The check value of bytes that a CHECKSUM asks for. -/
def Wb.checkOf (w : Wb) (bs : List Byte) : Nat :=
  if (w.params.getD 4 0).testBit 0 then (crc64 0 bs).toNat else (crc32c 0 bs).toNat

/-- The check value that a CHECKSUM expects. -/
def Wb.wanted (w : Wb) : Nat := if (w.params.getD 4 0).testBit 0 then pPair w.params 5 else w.params.getD 5 0

section
variable (hs : s.Starts 0x801 r i.toNat w)
include hs

theorem exec_checksum_of_not_up (hup : s.rangeUp (pPair w.params 0) (pPair w.params 2) = false) :
    exec (.checksum r i ecc) s = .next s :=
  congrArg Host.Outcome.next (startWb_of_starts_of_not_up hs hup _)

variable (hup : s.rangeUp (pPair w.params 0) (pPair w.params 2) = true) {u : State}
  (hu : ((s.switchOn w.clus).eccReads [(pPair w.params 0, pPair w.params 2)] mgmtWho ecc).mgmtTraffic false
    [(pPair w.params 0, pPair w.params 2)] = u)
include hup hu

theorem exec_checksum_of_poison {d : Nat} (hp : u.firstPoison (pPair w.params 0) (pPair w.params 2) = some d) :
    exec (.checksum r i ecc) s = .next (u.finish r w 0x0C (pairOf d)) := by
  refine congrArg Host.Outcome.next ((startWb_of_starts hs hup _).trans ?_)
  simp only [hu, hp]
  rfl

variable (hp : u.firstPoison (pPair w.params 0) (pPair w.params 2) = none) {v : Nat}
  (hv : w.checkOf (u.loessRead (pPair w.params 0) (pPair w.params 2)) = v)
include hp hv

theorem exec_checksum_of_clean :
    exec (.checksum r i ecc) s =
      .next (u.finish r w (if (w.params.getD 4 0).testBit 1 && decide (v ≠ w.wanted) then 0x10 else 0) (pairOf v)) := by
  refine congrArg Host.Outcome.next ((startWb_of_starts hs hup _).trans ?_)
  rw [← hv]
  simp only [hu, hp]
  rfl

theorem exec_checksum_of_match (hm : (w.params.getD 4 0).testBit 1 = false ∨ v = w.wanted) :
    exec (.checksum r i ecc) s = .next (u.finish r w 0 (pairOf v)) := by
  rw [exec_checksum_of_clean ecc hs hup hu hp hv, if_neg]
  rw [Bool.and_eq_true, decide_eq_true_eq]
  rintro ⟨hc, hne⟩
  exact hm.elim (ne_false_of_eq_true hc) hne

theorem exec_checksum_of_mismatch (hc : (w.params.getD 4 0).testBit 1 = true) (hm : v ≠ w.wanted) :
    exec (.checksum r i ecc) s = .next (u.finish r w 0x10 (pairOf v)) := by
  rw [exec_checksum_of_clean ecc hs hup hu hp hv, if_pos]
  rw [hc, decide_eq_true hm, Bool.and_true]

end

end

/-! The obligation -/

/-- Settles O42: each waybill by whether its ranges can be reached, by the first poison in what it reads, and by what the bytes say. -/
theorem loessWaybillsAct : Obligations.LoessWaybillsAct := by
  unfold Obligations.LoessWaybillsAct
  intro s r i w ecc s1 src two
  refine ⟨fun hs => ?job, fun hs => ?copy, fun hs => ?checksum⟩
  case job =>
    exact ⟨exec_jobWaybill_of_not_up ecc hs, fun hup => ⟨exec_jobWaybill_of_poison ecc hs hup rfl, fun hp =>
      ⟨exec_jobWaybill_of_sound ecc hs hup rfl hp, exec_jobWaybill_of_refused ecc hs hup rfl hp⟩⟩⟩
  case copy =>
    exact ⟨exec_copy_of_not_up ecc hs, fun hsrc hdst =>
      ⟨exec_copy_of_clean ecc hs hsrc hdst rfl, fun d => exec_copy_of_poison ecc hs hsrc hdst rfl⟩⟩
  case checksum =>
    exact ⟨exec_checksum_of_not_up ecc hs, fun hup => ⟨fun d => exec_checksum_of_poison ecc hs hup rfl, fun hp =>
      ⟨exec_checksum_of_match ecc hs hup rfl hp rfl, exec_checksum_of_mismatch ecc hs hup rfl hp rfl⟩⟩⟩

end Sys2Proof.Machine
end

section
/-! SUPPORT. What a module that leaves its domain loses and keeps (R365, R406), whom the receipts of PORT waybills reach (R365), and what
HOLD, PORT, MUSTER and DISBAND do when they start (R229, R317, R322, R360, R365). -/

namespace Sys2Proof.Machine

/-! The domain is left (R365, R406) -/

/-- A module without book, votes, muster and reductions, its credits given back and its ports' votes forgotten. -/
def State.alone (s : State) : State :=
  let s1 := s.early.foldl (fun s e => s.giveSlot e.1) s
  (List.range 16).foldl (fun s p => s.setPort p { s.port p with vin := 0, vout := 0 })
    ({ s1 with cvn := {}, early := [], reds := [] } : State)

theorem State.setReg64_sansRecords (s : State) (a v : Nat) : (s.setReg64 a v).sansRecords = s.sansRecords := rfl

theorem State.leaveDomain_eq (s : State) :
    s.leaveDomain = ((s.alone.setFld 0x500000 0 2 0).setFld 0x500000 2 2 0).setReg64 0x500004 0 := rfl

theorem State.foldl_setPort_frame {β : Type} {f : State → β → State} (hf : ∀ s x, f s x = { s with ports := (f s x).ports })
    (l : List β) (s : State) : l.foldl f s = { s with ports := (l.foldl f s).ports } :=
  List.foldlRecOn (motive := fun t : State => t = { s with ports := t.ports }) l f rfl fun t ht x _ => by
    rw [hf, ht]

theorem State.giveSlot_frame (s : State) (p : Nat) : s.giveSlot p = { s with ports := (s.giveSlot p).ports } := by
  unfold State.giveSlot
  split <;> rfl

/-- Nothing but the ports and the caravan's own state differs. -/
theorem State.alone_frame (s : State) : s.alone = { s with ports := s.alone.ports, cvn := {}, early := [], reds := [] } := by
  have hgive := State.foldl_setPort_frame (fun t (e : Nat × List Byte) => t.giveSlot_frame e.1) s.early s
  unfold State.alone
  extract_lets s1
  rw [State.foldl_setPort_frame (fun t p => by rfl), show s1 = _ from hgive]

theorem State.alone_reg (s : State) (a : Nat) : s.alone.reg a = s.reg a := by
  have hregs : s.alone.regs = s.regs := (congrArg State.regs s.alone_frame :)
  have hgrade : s.alone.grade = s.grade := (congrArg State.grade s.alone_frame :)
  rw [State.reg, hregs, hgrade, State.reg]

/-- Votes that have been set to 0 at a port are 0 there. -/
theorem State.votes_foldl {p : Nat} (l : List Nat) (s : State) (h : p ∈ l ∨ ((s.port p).vin = 0 ∧ (s.port p).vout = 0)) :
    let t := l.foldl (fun s p => s.setPort p { s.port p with vin := 0, vout := 0 }) s
    (t.port p).vin = 0 ∧ (t.port p).vout = 0 := by
  induction l generalizing s with
  | nil => exact h.resolve_left List.not_mem_nil
  | cons q l ih =>
    refine ih _ ?_
    rw [State.setPort_port]
    by_cases hq : p = q
    · rw [if_pos hq]
      exact .inr ⟨rfl, rfl⟩
    · rw [if_neg hq]
      exact h.imp_left fun hp => (List.mem_cons.mp hp).resolve_left hq

section
variable (s : State)

/-- CVN_STATUS keeps the module's own number, not the state of the domain, the lock and the lead. -/
theorem State.leaveDomain_status : s.leaveDomain.regN 0x500000 = s.regN 0x500000 / 16 * 16 := by
  have hlt := (s.reg 0x500000).isLt
  rw [State.leaveDomain_eq, State.setReg64, State.regN, State.setRegN_reg_other _ _ (by decide), State.setRegN_reg_other _ _ (by decide),
    State.setFld, State.setRegN_reg, if_pos rfl, State.regN, State.setFld, State.setRegN_reg, if_pos rfl, State.regN, State.alone_reg]
  simp only [putBits, bits, BitVec.toNat_ofNat, State.regN]
  omega

theorem State.leaveDomain_reg_other {a : Nat} (h : a ≠ 0x500000 ∧ a ≠ 0x500004 ∧ a ≠ 0x500008) :
    s.leaveDomain.reg a = s.reg a := by
  obtain ⟨h0, h4, h8⟩ := h
  rw [State.leaveDomain_eq, State.setReg64, State.setRegN_reg_other _ _ h8, State.setRegN_reg_other _ _ h4,
    State.setFld_reg_other _ _ _ _ h0, State.setFld_reg_other _ _ _ _ h0, State.alone_reg]

theorem State.leaveDomain_rbid : s.leaveDomain.reg64 0x500004 = 0 := by
  rw [State.leaveDomain_eq, State.setReg64, State.reg64, State.regN, State.regN, State.setRegN_reg, if_neg (by decide), State.setRegN_reg,
    if_pos rfl, State.setRegN_reg, if_pos rfl]
  rfl

theorem State.leaveDomain_dstate : s.leaveDomain.dstate = 0 := by
  rw [State.dstate, State.fld, State.leaveDomain_status, bits]
  omega

theorem State.leaveDomain_modnum : s.leaveDomain.modnum = s.modnum := by
  rw [State.modnum, State.fld, State.leaveDomain_status, State.modnum, State.fld, bits, bits]
  omega

theorem State.leaveDomain_lnk {p : Nat} (hp : p < 16) : s.leaveDomain.lnk p = s.lnk p := by
  have hpa : pa p 0 ≠ 0x500000 ∧ pa p 0 ≠ 0x500004 ∧ pa p 0 ≠ 0x500008 := by
    simp only [pa, Win.base]
    omega
  rw [State.lnk, State.fld, State.regN, State.leaveDomain_reg_other _ hpa]
  rfl

theorem State.leaveDomain_sansRecords : s.leaveDomain.sansRecords = s.alone.sansRecords := by
  rw [State.leaveDomain_eq, State.setReg64_sansRecords, State.setFld_sansRecords, State.setFld_sansRecords]

/-- Beside records, nothing but the ports and the caravan's own state differs. -/
theorem State.leaveDomain_frame :
    ∃ ps, s.leaveDomain.sansRecords = ({ s with ports := ps, cvn := {}, early := [], reds := [] } : State).sansRecords :=
  ⟨s.alone.ports, s.leaveDomain_sansRecords.trans (congrArg State.sansRecords s.alone_frame)⟩

theorem State.leaveDomain_cvn : s.leaveDomain.cvn = {} := by
  obtain ⟨ps, h⟩ := s.leaveDomain_frame
  exact State.cvn_eq_of_sansRecords h

theorem State.leaveDomain_reds : s.leaveDomain.reds = [] := by
  obtain ⟨ps, h⟩ := s.leaveDomain_frame
  exact State.reds_eq_of_sansRecords h

theorem State.leaveDomain_early : s.leaveDomain.early = [] := by
  obtain ⟨ps, h⟩ := s.leaveDomain_frame
  exact State.early_eq_of_sansRecords h

theorem State.leaveDomain_clusters : s.leaveDomain.clusters = s.clusters := by
  obtain ⟨ps, h⟩ := s.leaveDomain_frame
  exact (State.clusters_eq_of_sansRecords h :)

theorem State.leaveDomain_loess : s.leaveDomain.loess = s.loess := by
  obtain ⟨ps, h⟩ := s.leaveDomain_frame
  exact (State.loess_eq_of_sansRecords h :)

theorem State.leaveDomain_votes {p : Nat} (hp : p < 16) : (s.leaveDomain.port p).vin = 0 ∧ (s.leaveDomain.port p).vout = 0 := by
  rw [State.port_eq_of_sansRecords s.leaveDomain_sansRecords p]
  exact State.votes_foldl _ _ (.inl (List.mem_range.mpr hp))

end

/-! Receipts of PORT waybills (R357, R365) -/

/-- A receipt concerns the waybill's own ring. -/
theorem State.receipt_ring_other (s : State) {r q : Nat} (h : q ≠ r) (ix seq opc status : Nat) (res : List Nat) (irq : Bool) :
    (s.receipt r ix seq opc status res irq).ring q = s.ring q := by
  unfold State.receipt
  extract_lets size body bs s1 s2 g s3
  have h3 : s3.ring q = s.ring q := (s2.setRing_ring ..).trans (if_neg h)
  split
  · exact (State.ring_eq_of_sansRecords (s3.trigger_sansRecords r) q).trans h3
  · exact h3

theorem State.finish_ring_other (s : State) {r q : Nat} (h : q ≠ r) (w : Wb) (status : Nat) (res : List Nat) :
    (s.finish r w status res).ring q = s.ring q :=
  (State.receipt_ring_other _ h ..).trans ((s.setRing_ring ..).trans (if_neg h))

/-- A waybill has acted on port p and waits for what it asks of it. -/
abbrev Wb.waitsForPort (w : Wb) (p : Nat) : Prop := w.opc = 0x601 ∧ w.phase = 2 ∧ portNo w = p

/-- The state of its port that a PORT waybill waits for. -/
def Wb.portGoal (w : Wb) : Nat := match portOp w with | 0 => 3 | 3 => 0 | _ => 2

/-- What a taken waybill of ring r is answered, port p having come to its state. -/
def State.portReceipt (s : State) (p r : Nat) (w : Wb) : State :=
  if w.waitsForPort p then
    if s.lnk p = w.portGoal then s.finish r w 0 [s.regN (pa p 0)]
    else if s.lnk p = 4 then s.finish r w 0x0A [s.fld (pa p 0) 3 3]
    else s
  else s

theorem State.portReceipts_eq (s : State) (p : Nat) :
    s.portReceipts p = (List.range 16).foldl (fun s r => (s.ring r).taken.foldl (fun s w => s.portReceipt p r w) s) s := rfl

theorem State.portReceipt_ring_other (s : State) (p : Nat) {r q : Nat} (h : q ≠ r) (w : Wb) :
    (s.portReceipt p r w).ring q = s.ring q := by
  unfold State.portReceipt
  split
  · split
    · exact s.finish_ring_other h ..
    · split
      · exact s.finish_ring_other h ..
      · rfl
  · rfl

theorem State.portReceipts_of_no_taken {p : Nat} {l : List Nat} {s : State} (h : ∀ q ∈ l, (s.ring q).taken = []) :
    l.foldl (fun s r => (s.ring r).taken.foldl (fun s w => s.portReceipt p r w) s) s = s := by
  induction l with
  | nil => rfl
  | cons q l ih =>
    obtain ⟨hq, hl⟩ := List.forall_mem_cons.mp h
    rw [List.foldl_cons, hq]
    exact ih hl

/-- With one waybill taken in all, it is the one that may be answered. -/
theorem State.portReceipts_of_one_taken {s : State} {r : Nat} {w : Wb} (hr : r < 16) (hw : (s.ring r).taken = [w])
    (hq : ∀ q, q < 16 → q ≠ r → (s.ring q).taken = []) (p : Nat) : s.portReceipts p = s.portReceipt p r w := by
  obtain ⟨l, m, hlm⟩ := List.append_of_mem (List.mem_range.mpr hr)
  have hr' : r ∉ l ++ m := (List.nodup_cons.mp (List.nodup_middle.mp (hlm ▸ List.nodup_range))).1
  have hother (q : Nat) (hql : q ∈ l ++ m) : q ≠ r ∧ (s.ring q).taken = [] := by
    have hne : q ≠ r := fun h => hr' (h ▸ hql)
    refine ⟨hne, hq q (List.mem_range.mp ?_) hne⟩
    rw [hlm]
    exact List.mem_append.mpr ((List.mem_append.mp hql).imp_right (List.mem_cons_of_mem r))
  have hbefore := State.portReceipts_of_no_taken (p := p) fun q hql => (hother q (List.mem_append_left m hql)).2
  rw [State.portReceipts_eq, hlm, List.foldl_append, List.foldl_cons, hbefore, hw]
  refine State.portReceipts_of_no_taken fun q hqm => ?_
  obtain ⟨hne, hnone⟩ := hother q (List.mem_append_right l hqm)
  exact (congrArg Ring.taken (s.portReceipt_ring_other p hne w)).trans hnone

end Sys2Proof.Machine
end

section
/-! SUPPORT. What HOLD, PORT, MUSTER and DISBAND do when they start (R229, R317, R322, R360, R365, R367). -/

namespace Sys2Proof.Machine

/-! Rows of clusters that a waybill has had switched on (R398) -/

theorem State.freshGlaze_frame (s : State) (ns : List Nat) : s.freshGlaze ns = { s with clusters := (s.freshGlaze ns).clusters } := by
  unfold State.freshGlaze
  split
  · refine List.foldlRecOn (motive := fun t : State => t = { s with clusters := t.clusters }) ns _ rfl fun t ht n _ => ?_
    rw [ht]
    rfl
  · rfl

theorem State.switchOn_frame (s : State) (clus : List Nat) : ∃ cs gs, s.switchOn clus = { s with clusters := cs, gated := gs } := by
  refine ⟨(s.switchOn clus).clusters, (s.switchOn clus).gated, ?_⟩
  unfold State.switchOn State.rowsOn
  extract_lets on s1
  have h1 : s1 = { s with clusters := s1.clusters } := s.freshGlaze_frame ..
  rw [h1]

@[simp] theorem State.switchOn_lnk (s : State) (clus : List Nat) (p : Nat) : (s.switchOn clus).lnk p = s.lnk p := by
  obtain ⟨cs, gs, h⟩ := s.switchOn_frame clus
  rw [h]
  rfl

section
variable {s : State} {r : Fin 16} {i : Word} {w : Wb}

/-- The waybill has begun to act. -/
abbrev Wb.acting (w : Wb) : Wb := { w with phase := 2 }

/-! HOLD (R229, R360) -/

/-- LSM_CTL.HOLD of stack k, if the waybill names it, is written and armed, and stands against direct writes of the kc. -/
def State.holdAsked (p : Nat) (s : State) (k : Nat) : State :=
  if p.testBit k then
    (((s.plainWrite (.stack k) (sa k 4) (bits p 8 1)).setFld (sa k 0xFF0) 2 1 1).wbWrote (sa k 4) 4 1).wbWrote (sa k 0xFF0) 4 3
  else s

theorem exec_hold_of_starts (hs : s.Starts 0x302 r i.toNat w) :
    exec (.hold r i) s = .next (((List.range 8).foldl (State.holdAsked (w.params.getD 0 0)) (s.switchOn w.clus)).setWb r w.acting) :=
  congrArg Host.Outcome.next (startWb_of_starts hs rfl _)

/-! PORT (R317, R365) -/

section
variable (hs : s.Starts 0x601 r i.toNat w)
include hs

theorem exec_port_quiesce (hop : portOp w = 0) (hst : s.lnk (portNo w) = 2 ∨ s.lnk (portNo w) = 3) :
    exec (.port r i) s = .next ((((s.switchOn w.clus).setWb r w.acting).portQuiesce (portNo w)).portReceipts (portNo w)) := by
  refine congrArg Host.Outcome.next ((startWb_of_starts hs rfl _).trans ?_)
  simp only [hop, State.switchOn_lnk]
  exact if_pos hst

theorem exec_port_quiesce_refused (hop : portOp w = 0) (hst : ¬(s.lnk (portNo w) = 2 ∨ s.lnk (portNo w) = 3)) :
    exec (.port r i) s = .next ((s.switchOn w.clus).finish r w 8 [portNo w, s.lnk (portNo w)]) := by
  refine congrArg Host.Outcome.next ((startWb_of_starts hs rfl _).trans ?_)
  simp only [hop, State.switchOn_lnk]
  exact if_neg hst

theorem exec_port_train (hop : portOp w = 1) (hst : s.lnk (portNo w) = 3 ∨ s.lnk (portNo w) = 4) :
    exec (.port r i) s = .next (((s.switchOn w.clus).setWb r w.acting).portRetrain (portNo w)) := by
  refine congrArg Host.Outcome.next ((startWb_of_starts hs rfl _).trans ?_)
  simp only [hop, State.switchOn_lnk]
  exact if_pos hst

theorem exec_port_train_refused (hop : portOp w = 1) (hst : ¬(s.lnk (portNo w) = 3 ∨ s.lnk (portNo w) = 4)) :
    exec (.port r i) s = .next ((s.switchOn w.clus).finish r w 8 [portNo w, s.lnk (portNo w)]) := by
  refine congrArg Host.Outcome.next ((startWb_of_starts hs rfl _).trans ?_)
  simp only [hop, State.switchOn_lnk]
  exact if_neg hst

theorem exec_port_enable (hop : portOp w = 2) :
    exec (.port r i) s = .next (((((s.switchOn w.clus).setWb r w.acting).portEnable (portNo w)).portReceipts (portNo w)).wbWrote
      (pa (portNo w) 4) 4 1) := by
  refine congrArg Host.Outcome.next ((startWb_of_starts hs rfl _).trans ?_)
  simp only [hop]
  rfl

theorem exec_port_disable (hop : portOp w = 3) :
    exec (.port r i) s = .next (((((s.switchOn w.clus).setWb r w.acting).portOff (portNo w)).setFld (pa (portNo w) 4) 0 1 0).wbWrote
      (pa (portNo w) 4) 4 1) := by
  refine congrArg Host.Outcome.next ((startWb_of_starts hs rfl _).trans ?_)
  simp only [hop]
  rfl

end

/-! MUSTER (R322, R323, R367) -/

/-- The bytes that a MUSTER reads of its image. -/
abbrev State.musterSize (s : State) (w : Wb) : Nat := max 256 (s.imageAt (pPair w.params 3)).bs.length

/-- The image of a MUSTER has been read, unless it begins past the end of memory. -/
def State.musterRead (s : State) (w : Wb) (ecc : List (Nat × EccCase)) : State :=
  let far := pastEnd (pPair w.params 3) 256
  (if far = true then s.switchOn w.clus else (s.switchOn w.clus).eccImage (pPair w.params 3) ecc).mgmtTraffic false
    (if far = true then [] else [(pPair w.params 3, s.musterSize w)])

/-- The route book that a MUSTER has read. -/
def State.musterBook (u : State) (w : Wb) : Option Book :=
  if pastEnd (pPair w.params 3) 256 = true then none else (u.imageAt (pPair w.params 3)).book (w.params.getD 0 0)

/-- The bytes before the poison that a MUSTER has met in its image of n bytes. -/
def State.musterPoison (u : State) (w : Wb) (n : Nat) : Option Nat :=
  if pastEnd (pPair w.params 3) 256 = true then none else u.firstPoison (pPair w.params 3) n

theorem State.musterPoison_of_near {u : State} {n : Nat} (h : pastEnd (pPair w.params 3) 256 = false) :
    u.musterPoison w n = u.firstPoison (pPair w.params 3) n :=
  if_neg (ne_true_of_eq_false h)

theorem State.musterPoison_eq_none {u : State} {n : Nat} :
    u.musterPoison w n = none ↔ pastEnd (pPair w.params 3) 256 = true ∨ u.firstPoison (pPair w.params 3) n = none :=
  ite_eq_left_iff.trans or_iff_not_imp_left.symm

/-- What a MUSTER does with the image it has read. -/
def State.musterAnswer (u : State) (r : Nat) (w : Wb) (n : Nat) : State :=
  let own := w.params.getD 0 0
  match u.musterPoison w n with
  | some d => u.memErr r w d
  | none =>
    let t := u.setWb r w.acting
    match u.musterBook w, u.musterCause (u.musterBook w) own with
    | some b, 0 => t.musterBegin b own (pPair w.params 1) (r, w.ix)
    | _, c => ({ t with cvn := { t.cvn with wb := some (r, w.ix) } } : State).musterFail c

section
variable {u : State} {n : Nat}

theorem State.musterAnswer_of_poison {d : Nat} (hp : u.musterPoison w n = some d) :
    u.musterAnswer r w n = u.finish r w 0x0C (pairOf d) := by
  rw [State.musterAnswer, hp]
  rfl

variable (hp : u.musterPoison w n = none)
include hp

theorem State.musterAnswer_of_passed {b : Book} (hb : u.musterBook w = some b) (hc : u.musterCause (some b) (w.params.getD 0 0) = 0) :
    u.musterAnswer r w n = (u.setWb r w.acting).musterBegin b (w.params.getD 0 0) (pPair w.params 1) (r, w.ix) := by
  rw [State.musterAnswer, hp, hb]
  dsimp only
  rw [hc]
  rfl

theorem State.musterAnswer_of_failed (hc : u.musterCause (u.musterBook w) (w.params.getD 0 0) ≠ 0) :
    let t := u.setWb r w.acting
    u.musterAnswer r w n = ({ t with cvn := { t.cvn with wb := some (r.val, w.ix) } } : State).musterFail
      (u.musterCause (u.musterBook w) (w.params.getD 0 0)) := by
  obtain ⟨c, hc'⟩ := Nat.exists_eq_succ_of_ne_zero hc
  rw [State.musterAnswer, hp]
  dsimp only
  rw [hc']
  cases u.musterBook w <;> rfl

end

section
variable (ecc : List (Nat × EccCase)) (hs : s.Starts 0x600 r i.toNat w)
include hs

theorem exec_muster_of_not_up (hup : s.rangeUp (pPair w.params 3) (s.musterSize w) = false) : exec (.muster r i ecc) s = .next s :=
  congrArg Host.Outcome.next
    (startWb_of_starts_of_not_up (up := fun w => s.rangeUp (pPair w.params 3) (s.musterSize w)) hs hup _)

theorem exec_muster_of_up (hup : s.rangeUp (pPair w.params 3) (s.musterSize w) = true) :
    exec (.muster r i ecc) s = .next ((s.musterRead w ecc).musterAnswer r w (s.musterSize w)) := by
  refine congrArg Host.Outcome.next
    ((startWb_of_starts (up := fun w => s.rangeUp (pPair w.params 3) (s.musterSize w)) hs hup _).trans ?_)
  beta_reduce
  extract_lets a u own
  rw [show s.musterRead w ecc = u from rfl]
  clear_value u
  rfl

end

/-! DISBAND (R365) -/

theorem exec_disband_of_running (hs : s.Starts 0x602 r i.toNat w) {res : List Nat} (hr : (s.switchOn w.clus).anyRuns = some res) :
    exec (.disband r i) s = .next ((s.switchOn w.clus).finish r w 8 res) := by
  refine congrArg Host.Outcome.next ((startWb_of_starts hs rfl _).trans ?_)
  simp only [hr]

theorem exec_disband_of_at_rest (hs : s.Starts 0x602 r i.toNat w) (hr : (s.switchOn w.clus).anyRuns = none) :
    exec (.disband r i) s = .next ((s.switchOn w.clus).leaveDomain.finish r w 0 [(s.switchOn w.clus).leaveDomain.regN 0x500000]) := by
  refine congrArg Host.Outcome.next ((startWb_of_starts hs rfl _).trans ?_)
  simp only [hr]

end

/-! The obligation -/

/-- Settles O44: each waybill by the case it starts in; the one taken PORT waybill by what it waits for; a module that leaves its domain by
what of it is left. -/
theorem stackAndLinkWaybillsAct : Obligations.StackAndLinkWaybillsAct := by
  unfold Obligations.StackAndLinkWaybillsAct
  refine ⟨fun s r i w => ⟨exec_hold_of_starts, fun hs => ?port, fun ecc hs => ?muster,
      fun hs => ⟨fun res => exec_disband_of_running hs, exec_disband_of_at_rest hs⟩⟩,
    fun s p r w hr hw hq => ?receipts, fun s => ?left⟩
  case port =>
    exact ⟨exec_port_quiesce hs, fun hop h2 h3 => exec_port_quiesce_refused hs hop (not_or.mpr ⟨h2, h3⟩),
      exec_port_train hs, fun hop h3 h4 => exec_port_train_refused hs hop (not_or.mpr ⟨h3, h4⟩),
      exec_port_enable hs, exec_port_disable hs⟩
  case muster =>
    intro a n own far u u2 book begins
    refine ⟨exec_muster_of_not_up ecc hs, fun hup => ?_⟩
    rw [exec_muster_of_up ecc hs hup, show s.musterRead w ecc = u from rfl]
    clear_value u
    refine ⟨fun d hfar hp => ?_, fun hp => ⟨fun b hb hc => ?_, fun hc => ?_⟩⟩
    · rw [State.musterAnswer_of_poison ((State.musterPoison_of_near hfar).trans hp)]
      rfl
    · exact congrArg _ (State.musterAnswer_of_passed (State.musterPoison_eq_none.mpr hp) hb hc)
    · exact congrArg _ (State.musterAnswer_of_failed (State.musterPoison_eq_none.mpr hp) hc)
  case receipts =>
    intro waits goal
    rw [State.portReceipts_of_one_taken hr hw hq p]
    exact ⟨fun h => if_neg h, fun h hg => (if_pos h).trans (if_pos hg),
      fun h hg h4 => (if_pos h).trans ((if_neg hg).trans (if_pos h4)),
      fun h hg h4 => (if_pos h).trans ((if_neg hg).trans (if_neg h4))⟩
  case left =>
    exact ⟨s.leaveDomain_dstate, s.leaveDomain_cvn, s.leaveDomain_reds, s.leaveDomain_early, s.leaveDomain_rbid,
      s.leaveDomain_modnum, s.leaveDomain_clusters, s.leaveDomain_loess,
      fun p hp => ⟨s.leaveDomain_lnk hp, s.leaveDomain_votes hp⟩⟩

end Sys2Proof.Machine
end

section
/-! SUPPORT. How the halves of a task end, how tasks issue and their halves start, and how a gated task meets its predicate (R242,
R248 to R252, R254, R260, R289). -/

namespace Sys2Proof.Machine

/-! Slots and halves of a cluster -/

@[simp] theorem Cluster.setSlot_slot_same (c : Cluster) (n : Nat) (t : TSlot) : (c.setSlot n t).slot n = t := by
  unfold Cluster.setSlot Cluster.slot
  split <;> rfl

@[simp] theorem Cluster.setSlot_slot_other (c : Cluster) (o : Fin 2) (t : TSlot) :
    (c.setSlot o t).slot (1 - o.val) = c.slot (1 - o.val) := by
  match o with
  | 0 | 1 => rfl

@[simp] theorem Cluster.setHalf_slot (c : Cluster) (h : Half) (p : HalfPc) (n : Nat) : (c.setHalf h p).slot n = c.slot n := by
  cases h <;> rfl

@[simp] theorem Cluster.pass1_slot (c : Cluster) (h : Half) (n : Nat) : (c.pass1 h).slot n = c.slot n := c.setHalf_slot h _ n

@[simp] theorem Cluster.pass1_st (c : Cluster) (h : Half) : (c.pass1 h).st = c.st := by
  cases h <;> rfl

theorem Cluster.pass1_ix (c : Cluster) (h : Half) : ((c.pass1 h).half h).ix = (c.half h).ix + 1 :=
  congrArg HalfPc.ix (c.half_setHalf h _)

@[simp] theorem Cluster.freeSlot_half (c : Cluster) (o : Nat) (h : Half) : (c.freeSlot o).half h = c.half h := by
  rw [Cluster.freeSlot, Cluster.checkDone_frame, Cluster.setSlot]
  split <;> cases h <;> rfl

theorem Cluster.lt_two_of_halfSlot {c : Cluster} {h : Half} {o : Nat} (ho : c.halfSlot h = some o) : o < 2 := by
  unfold Cluster.halfSlot at ho
  extract_lets on at ho
  split at ho
  · cases ho
    decide
  · split at ho
    · cases ho
      decide
    · cases ho

/-! END (R250, R260) -/

theorem exec_endHalf_of_issues {s : State} {cl : ClusterNo} {h : Half} {o : Nat} (hi : s.Issues cl h o) :
    exec (.endHalf cl h) s = .next (s.setCl cl (((s.cl cl).endHalf o h).pass1 h)) :=
  congrArg Host.Outcome.next (issue_plain hi rfl)

section
variable {c : Cluster} {o : Nat} {h : Half}

theorem Cluster.endHalf_of_not_ended (he : ((c.slot o).endHalf h).ended = false) :
    c.endHalf o h = c.setSlot o ((c.slot o).endHalf h) := by
  simp only [Cluster.endHalf, he, Bool.not_false, if_true]

theorem Cluster.endHalf_of_ended (he : ((c.slot o).endHalf h).ended = true) :
    c.endHalf o h =
      if ((c.slot o).endHalf h).st = 2 then c.freeSlot o
      else if ((c.slot o).endHalf h).st = 3 then c.setSlot o { (c.slot o).endHalf h with st := 4 }
      else c.setSlot o ((c.slot o).endHalf h) := by
  simp only [Cluster.endHalf, he, Bool.not_true, Bool.false_eq_true, if_false]

theorem Cluster.endHalf_of_committed (he : ((c.slot o).endHalf h).ended = true) (hst : ((c.slot o).endHalf h).st = 2) :
    c.endHalf o h = c.freeSlot o := by
  rw [Cluster.endHalf_of_ended he, if_pos hst]

theorem Cluster.endHalf_of_unresolved (he : ((c.slot o).endHalf h).ended = true) (hst : ((c.slot o).endHalf h).st = 3) :
    c.endHalf o h = c.setSlot o { (c.slot o).endHalf h with st := 4 } := by
  rw [Cluster.endHalf_of_ended he, if_neg (by omega), if_pos hst]

end

/-! TASK_ISSUE (R249, R250, R254, R289) -/

/-- The task of the walk's next entry, as it begins in its slot. -/
def Cluster.nextTask (c : Cluster) : TSlot :=
  let e := c.taskE c.next
  { st := if e.mode = 0 then 2 else if e.mode = 1 then 1 else e.mode + 1
    task := c.next, mode := e.mode, sense := e.sense, pred := e.pred, wbase := e.wbase, wsize := e.wsize, ord := c.ord
    accIx := e.acc, execIx := e.exec, base := c.base }

/-- The walk's next task is in slot o, and the walk is at the entry behind it; a task whose stage has slipped is counted. -/
def State.taskIssued (s : State) (n o : Nat) : State :=
  let c := s.cl n
  (if c.base + (c.taskE c.next).stage < s.stageNo then s.count 0x608 1 else s).setCl n
    ((({ c with ord := c.ord + 1 } : Cluster).setSlot o c.nextTask).advance)

/-- The stage of the next entry of cluster n's walk has come, slot o is free for it, and no more than a vote can hold it up. -/
structure State.TaskDue (s : State) (n o : Nat) : Prop where
  free : (s.cl n).freeSlotNo = some o
  runs : (s.cl n).st = 2
  on : s.clOn n = true
  settled : (s.cl n).pausing = false
  keepsUp : s.cvn.straggling = false
  left : (s.cl n).walked = false
  come : (s.cl n).base + ((s.cl n).taskE (s.cl n).next).stage ≤ s.stageNo

section
variable {s : State} {cl : ClusterNo} {o : Nat} (hd : s.TaskDue cl o)
include hd

theorem exec_taskIssue_of_due :
    exec (.taskIssue cl) s = .next (
      if ((s.cl cl).taskE (s.cl cl).next).mode = 2 ∧ s.specWaits = true then s
      else if ((s.cl cl).taskE (s.cl cl).next).mode = 2 then (s.taskIssued cl o).openPmes cl (s.cl cl).next
      else s.taskIssued cl o) := by
  obtain ⟨hfree, hruns, hon, hsettled, hkeeps, hleft, hcome⟩ := hd
  have hmode (m : Nat) : m + (if m = 0 then 2 else if m = 1 then 0 else 1) = if m = 0 then 2 else if m = 1 then 1 else m + 1 := by
    split_ifs <;> omega
  change execTaskIssue cl s = _
  unfold execTaskIssue
  extract_lets c e t s0
  have ht : t = c.nextTask := by
    simp only [t, hmode]
    rfl
  rw [ht, show c.freeSlotNo = some o from hfree]
  dsimp only
  by_cases hw : e.mode = 2 ∧ s.specWaits = true
  · rw [if_pos hw, if_neg (by simp [hw.1, hw.2])]
  · have hvote : ¬e.mode = 2 ∨ s.specWaits = false := (not_and_or.mp hw).imp_right eq_false_of_ne_true
    rw [if_neg hw, if_pos (by simpa [c, e, hruns, hon, hsettled, hkeeps, hleft, hcome] using hvote)]
    split <;> rfl

theorem exec_taskIssue_of_not_speculative (hm : ((s.cl cl).taskE (s.cl cl).next).mode ≠ 2) :
    exec (.taskIssue cl) s = .next (s.taskIssued cl o) := by
  rw [exec_taskIssue_of_due hd, if_neg fun hw => hm hw.1, if_neg hm]

theorem exec_taskIssue_of_speculative (hm : ((s.cl cl).taskE (s.cl cl).next).mode = 2) (hw : s.specWaits = false) :
    exec (.taskIssue cl) s = .next ((s.taskIssued cl o).openPmes cl (s.cl cl).next) := by
  rw [exec_taskIssue_of_due hd, if_neg fun h => ne_true_of_eq_false hw h.2, if_pos hm]

theorem exec_taskIssue_of_vote (hm : ((s.cl cl).taskE (s.cl cl).next).mode = 2) (hw : s.specWaits = true) :
    exec (.taskIssue cl) s = .next s := by
  rw [exec_taskIssue_of_due hd, if_pos ⟨hm, hw⟩]

end

/-! TASK_HALF_START (R250, R252) -/

/-- A half of the task runs. -/
def TSlot.started (t : TSlot) (h : Half) : TSlot :=
  match h with | .access => { t with accOn := true } | .execute => { t with execOn := true }

/-- The instruction at which the task's entry has a half begin. -/
def TSlot.entryIx (t : TSlot) (h : Half) : Nat := match h with | .access => t.accIx | .execute => t.execIx

section
variable {s : State} {cl : ClusterNo} {h : Half} {o : Nat} (hn : (s.cl cl).nextHalf h = some o)
include hn

theorem exec_taskHalfStart_of_gated (ht : ((s.cl cl).slot o).st = 1) : exec (.taskHalfStart cl h) s = .next s := by
  change execTaskHalfStart cl h s = _
  simp only [execTaskHalfStart, hn, ht, ne_eq, not_true_eq_false, decide_false, Bool.and_false, Bool.false_and, Bool.false_eq_true,
    if_false]

theorem exec_taskHalfStart_of_ready (hst : (s.cl cl).st = 2) (hon : s.clOn cl = true) (hp : (s.cl cl).pausing = false)
    (ht : ((s.cl cl).slot o).st ≠ 1) (hoff : ((s.cl cl).slot o).halfOn h = false) (hh : ((s.cl cl).slot o).halted = false) :
    exec (.taskHalfStart cl h) s =
      .next (s.setCl cl (((s.cl cl).setSlot o (((s.cl cl).slot o).started h)).setHalf h { ix := ((s.cl cl).slot o).entryIx h })) := by
  change execTaskHalfStart cl h s = _
  unfold execTaskHalfStart
  extract_lets c
  rw [show c.nextHalf h = some o from hn]
  dsimp only
  rw [if_pos (by simp [c, hst, hon, hp, ht, hoff, hh])]
  cases h <;> rfl

end

/-! A gated task and its predicate (R251, R252) -/

@[simp] theorem State.count_events (s : State) (a n : Nat) : (s.count a n).events = s.events := by
  unfold State.count State.noteCount
  split <;> rfl

@[simp] theorem State.count_cl (s : State) (a n k : Nat) : (s.count a n).cl k = s.cl k :=
  congrArg (sget _ · k) (State.clusters_eq_of_sansRecords (s.count_sansRecords a n))

@[simp] theorem State.count_loess (s : State) (a n : Nat) : (s.count a n).loess = s.loess :=
  State.loess_eq_of_sansRecords (s.count_sansRecords a n)

/-- A gated task whose predicate fits runs, its predicate's value kept. -/
def TSlot.admitted (t : TSlot) (b : Bool) : TSlot := { t with st := 2, value := some b }

section
variable {s : State} {n o : Nat} (ht : ((s.cl n).slot o).st = 1)
include ht

theorem State.outcome_of_unresolved : s.outcome n o none = s := by
  simp only [State.outcome, ht]

theorem State.outcome_of_fits {b : Bool} (hb : b ≠ ((s.cl n).slot o).sense) :
    s.outcome n o (some b) = s.setCl n ((s.cl n).setSlot o (((s.cl n).slot o).admitted b)) := by
  simp only [State.outcome, ht, agrees, bne_iff_ne.mpr hb, if_true]
  rfl

theorem State.outcome_of_skipped {b : Bool} (hb : b = ((s.cl n).slot o).sense) :
    s.outcome n o (some b) = (s.setCl n ((s.cl n).freeSlot o)).count (ca n 0xA24) 1 := by
  simp only [State.outcome, ht, agrees, hb, bne_self_eq_false, Bool.false_eq_true, if_false]

end

/-- Admitting a gated task does not change which task's half is next. -/
theorem Cluster.nextHalf_setSlot_admitted (c : Cluster) (o : Fin 2) (b : Bool) (h : Half) (ht : (c.slot o).st = 1) :
    (c.setSlot o ((c.slot o).admitted b)).nextHalf h = c.nextHalf h := by
  have hend (t : TSlot) : (t.admitted b).halfEnded h = t.halfEnded h := by cases h <;> rfl
  match o with
  | 0 | 1 => simp_all [Cluster.nextHalf, Cluster.setSlot, Cluster.slot, TSlot.admitted]

@[simp] theorem Cluster.setSlot_st (c : Cluster) (n : Nat) (t : TSlot) : (c.setSlot n t).st = c.st := by
  unfold Cluster.setSlot
  split <;> rfl

@[simp] theorem Cluster.setSlot_pausing (c : Cluster) (n : Nat) (t : TSlot) : (c.setSlot n t).pausing = c.pausing := by
  unfold Cluster.setSlot
  split <;> rfl

@[simp] theorem Cluster.setSlot_staging (c : Cluster) (n : Nat) (t : TSlot) : (c.setSlot n t).staging = c.staging := by
  unfold Cluster.setSlot
  split <;> rfl

/-- Once admitted, a gated task's access half starts. -/
theorem exec_taskHalfStart_of_admitted {s : State} {cl : ClusterNo} {o : Fin 2} {b : Bool} (ht : ((s.cl cl).slot o).st = 1)
    (hb : b ≠ ((s.cl cl).slot o).sense) (hn : (s.cl cl).nextHalf .access = some o.val) (hst : (s.cl cl).st = 2) (hon : s.clOn cl = true)
    (hp : (s.cl cl).pausing = false) (hoff : ((s.cl cl).slot o).halfOn .access = false) (hh : ((s.cl cl).slot o).halted = false) :
    ∃ v : State, exec (.taskHalfStart cl .access) (s.outcome cl o (some b)) = .next v ∧ ((v.cl cl).slot o.val).accOn = true ∧
      (v.cl cl).acc.ix = ((s.cl cl).slot o).accIx := by
  rw [State.outcome_of_fits ht hb]
  have hstart := exec_taskHalfStart_of_ready (s := s.setCl cl ((s.cl cl).setSlot o (((s.cl cl).slot o).admitted b))) (cl := cl) (o := o.val)
    (h := .access)
  simp only [State.setCl_cl_same, Cluster.setSlot_slot_same] at hstart
  refine ⟨_, hstart ?next ?runs hon ?settled (by simp [TSlot.admitted]) hoff hh, ?accOn, ?ix⟩
  case next => rw [Cluster.nextHalf_setSlot_admitted _ _ _ _ ht, hn]
  case runs => rw [Cluster.setSlot_st, hst]
  case settled => rw [Cluster.setSlot_pausing, hp]
  case accOn => simp [TSlot.started]
  case ix => rw [State.setCl_cl_same]; rfl

/-! The obligations -/

/-- Settles O2: a half that ends by whether the other has ended, and then by the task's state; what the freed slot leaves. -/
theorem endHalfIssues : Obligations.EndHalfIssues := by
  unfold Obligations.EndHalfIssues
  intro s cl h o hi c t
  rw [exec_endHalf_of_issues hi]
  refine ⟨fun he => ?on, fun he hst => ?unresolved, fun he hst => ⟨_, rfl, ?freed⟩⟩
  case on => rw [Cluster.endHalf_of_not_ended he]
  case unresolved => rw [Cluster.endHalf_of_unresolved he hst]
  case freed =>
    obtain ⟨hruns, -, -, -, -, hslot, -⟩ := hi
    obtain ⟨hown, hother, -, hdone⟩ := c.freeSlot_frame ⟨o, Cluster.lt_two_of_halfSlot hslot⟩
    rw [Cluster.endHalf_of_committed he hst, Cluster.pass1_slot, Cluster.pass1_slot, Cluster.pass1_ix, Cluster.pass1_st,
      Cluster.freeSlot_half]
    refine ⟨hown, hother, rfl, hdone.trans ?_⟩
    rw [show c.st = 2 from hruns]
    simp only [true_and]

/-- Settles O8: TASK_ISSUE by the mode of the next entry, TASK_HALF_START by whether the task is gated. -/
theorem tasksIssueAndStart : Obligations.TasksIssueAndStart := by
  unfold Obligations.TasksIssueAndStart
  refine ⟨fun s cl o => ?issue, fun s cl h o => ?start⟩
  case issue =>
    intro c e st t c1 s0 hfree hruns hon hsettled hkeeps hleft hcome
    have hd : s.TaskDue cl o := ⟨hfree, hruns, hon, hsettled, hkeeps, hleft, hcome⟩
    exact ⟨exec_taskIssue_of_not_speculative hd, exec_taskIssue_of_speculative hd, exec_taskIssue_of_vote hd⟩
  case start =>
    intro c t hn hruns hon hsettled
    refine ⟨exec_taskHalfStart_of_gated hn, fun ht hoff hh => ⟨?_, ?_⟩⟩ <;>
    · rintro rfl
      exact exec_taskHalfStart_of_ready hn hruns hon hsettled ht hoff hh

/-- Settles O9: the outcome by the predicate's value and SENSE, with what each leaves of the cluster and the module. -/
theorem gatedTasksMeetTheirPredicate : Obligations.GatedTasksMeetTheirPredicate := by
  unfold Obligations.GatedTasksMeetTheirPredicate
  intro s cl o b c t u ht hmode
  obtain ⟨hown, hother, hstaging, -⟩ := c.freeSlot_frame o
  have hfits (hb : b ≠ t.sense) : u = s.setCl cl (c.setSlot o (t.admitted b)) := State.outcome_of_fits ht hb
  have hskip (hb : b = t.sense) : u = (s.setCl cl (c.freeSlot o)).count (ca cl 0xA24) 1 := State.outcome_of_skipped ht hb
  refine ⟨State.outcome_of_unresolved ht, fun hb => ⟨?admitted, ?regs, exec_taskHalfStart_of_admitted ht hb⟩,
    fun hb => ⟨?freed, ?skips, ?others, ?acc, ?exec⟩, ?frame⟩
  case admitted => rw [hfits hb, State.setCl_cl_same, Cluster.setSlot_slot_same]; rfl
  case regs => rw [hfits hb, State.setCl_regs]
  case freed => rw [hskip hb, State.count_cl, State.setCl_cl_same, hown]
  case skips => rw [hskip hb, State.count_regN_same]; rfl
  case others => exact fun a ha => hskip hb ▸ State.count_reg_other _ _ ha
  case acc => rw [hskip hb, State.count_cl, State.setCl_cl_same]; exact c.freeSlot_half o .access
  case exec => rw [hskip hb, State.count_cl, State.setCl_cl_same]; exact c.freeSlot_half o .execute
  case frame =>
    have hgate (hn : c.nextHalf .access = some o.val) (_ : c.st = 2) (_ : s.clOn cl = true) (_ : c.pausing = false) :
        exec (.taskHalfStart cl .access) s = .next s := exec_taskHalfStart_of_gated hn ht
    by_cases hb : b = t.sense
    · rw [hskip hb]
      simp only [State.count_cl, State.setCl_cl_same, State.count_loess, State.count_events, State.setCl_loess, State.setCl_events,
        true_and]
      exact ⟨hother, hstaging, fun n hn => (State.setCl_cl ..).trans (if_neg hn), hgate⟩
    · rw [hfits hb]
      simp only [State.setCl_cl_same, Cluster.setSlot_slot_other, Cluster.setSlot_staging, State.setCl_loess, State.setCl_events, true_and]
      exact ⟨fun n hn => (State.setCl_cl ..).trans (if_neg hn), hgate⟩

end Sys2Proof.Machine
end

section
/-! SUPPORT. How SETP leaves a predicate, and how STREAM and SPAIR start their streams (R190, R244, R245, R247, R251). -/

namespace Sys2Proof.Machine

/-! SETP (R247, R251) -/

/-- A SETP's comparison, by the meaning of its CMP codes. -/
theorem setpValue_eq (c : Cluster) (f : SetpF) :
    let x := signedOf 32 (leNat (c.stg f.off.toNat 4))
    let i := signedOf 32 f.imm.toNat
    setpValue c f = decide (
      (f.cmp = 0#2 ∧ x = i) ∨ (f.cmp = 1#2 ∧ x ≠ i) ∨ (f.cmp = 2#2 ∧ x < i) ∨ (f.cmp = 3#2 ∧ i ≤ x)) := by
  have hcmp : f.cmp = 0#2 ∨ f.cmp = 1#2 ∨ f.cmp = 2#2 ∨ f.cmp = 3#2 := by
    generalize f.cmp = m
    revert m
    decide
  unfold setpValue
  rcases hcmp with h | h | h | h <;> simp [h]

/-- A predicate is pending after a SETP's comparison has come out v; m is 4 once its event has been raised. -/
def State.predPending (s : State) (p : Nat) (v : Bool) (m : Nat) : State :=
  { s with
    preds := sput zeroNat s.preds p ((if v = true ∧ sget zeroNat s.preds p % 4 ≠ 1 then 3 else 1) + m)
    setpLate := s.setpLate || decide (8127 < s.kc) }

section
variable {s : State} {cl p : Nat} (v : Bool)

theorem State.setPred_of_unresolved (h : sget zeroNat s.preds p = 0) : s.setPred cl p v = s.predPending p v 0 := by
  simp [State.setPred, State.predPending, h]

theorem State.setPred_of_pending (h0 : 0 < sget zeroNat s.preds p) (h4 : sget zeroNat s.preds p < 4) :
    s.setPred cl p v = (s.predPending p v 4).raise 10 1 cl p 0 := by
  have hraise : ¬ (sget zeroNat s.preds p = 0 ∨ 4 ≤ sget zeroNat s.preds p) := by omega
  simp only [State.setPred, if_neg hraise, if_neg (Nat.ne_of_gt h0), State.predPending, Bool.and_eq_true, decide_eq_true_eq]

theorem State.setPred_of_raised (h4 : 4 ≤ sget zeroNat s.preds p) : s.setPred cl p v = s.predPending p v 4 := by
  have h0 : sget zeroNat s.preds p ≠ 0 := by omega
  simp only [State.setPred, if_pos (Or.inr h4), if_neg h0, State.predPending, Bool.and_eq_true, decide_eq_true_eq]

end

theorem exec_setp_of_issues {s : State} {cl : ClusterNo} {o : Nat} {f : SetpF} (hi : s.Issues cl .execute o) (hoff : f.off.toNat % 4 = 0) :
    exec (.setp cl f) s = .next ((s.setCl cl ((s.cl cl).pass1 .execute)).setPred cl f.pred.toNat (setpValue (s.cl cl) f)) := by
  change execSetp cl f s = _
  rw [execSetp, if_neg (not_not.mpr hoff), issuing_of_issues hi, issue_plain hi rfl]

/-! Streams that start (R190, R244, R245) -/

/-- A descriptor's stream at its first element. -/
def Cluster.freshStrm (c : Cluster) (dn stage o : Nat) : Strm :=
  { run := true, task := (c.slot o).task, slot := c.specSlot o, ptr := (c.desc dn).base, began := stage }

/-- Starting a stream changes no more than that stream, tags and counts that it had, and where its groups are numbered from. -/
theorem Cluster.startStrm_frame (c : Cluster) (dn stage o : Nat) : ∃ tags gbase popped,
    c.startStrm dn stage o = { c with
      tags := tags, streams := sput idleStrm c.streams dn (c.freshStrm dn stage o), gbase := gbase, popped := popped } := by
  unfold Cluster.startStrm
  extract_lets d t c0
  obtain ⟨tags, h0⟩ : ∃ tags, c0 = { c with tags := tags } :=
    List.foldlRecOn (motive := fun e : Cluster => ∃ tags, e = { c with tags := tags }) _ _ ⟨c.tags, rfl⟩
      fun e ⟨tags, he⟩ k _ => by
      rw [he]
      split
      · exact ⟨_, rfl⟩
      · exact ⟨tags, rfl⟩
  clear_value c0
  subst h0
  split
  · exact ⟨_, _, _, rfl⟩
  · exact ⟨_, _, c.popped, rfl⟩

/-- d is c with the streams of ds at their first elements, started in a stage for the task of slot o. -/
structure Cluster.Started (c : Cluster) (stage o : Nat) (ds : List Nat) (d : Cluster) : Prop where
  begun : ∀ e ∈ ds, (d.strm e).run = true ∧ (d.strm e).pos = 0 ∧ (d.strm e).task = (c.slot o).task ∧ (d.strm e).began = stage
  others : ∀ e, e ∉ ds → d.strm e = c.strm e
  slots : d.slot o = c.slot o
  pairs : d.pairs = c.pairs
  acc : d.acc = c.acc

theorem Cluster.started_startStrm (c : Cluster) (dn stage o : Nat) : c.Started stage o [dn] (c.startStrm dn stage o) := by
  obtain ⟨tags, gbase, popped, h⟩ := c.startStrm_frame dn stage o
  rw [h]
  constructor
  case begun =>
    intro e he
    obtain rfl := List.mem_singleton.mp he
    rw [Cluster.strm, sget_sput_same]
    exact ⟨rfl, rfl, rfl, rfl⟩
  case others =>
    intro e he
    rw [Cluster.strm, sget_sput_other _ _ _ _ fun h => he (List.mem_singleton.mpr h)]
    rfl
  all_goals rfl

theorem Cluster.Started.cons {c d e : Cluster} {stage o dn : Nat} {ds : List Nat} (hd : c.Started stage o [dn] d)
    (he : d.Started stage o ds e) : c.Started stage o (dn :: ds) e where
  begun x hx := by
    by_cases hxs : x ∈ ds
    · exact hd.slots ▸ he.begun x hxs
    · rw [he.others x hxs]
      exact hd.begun x (List.mem_singleton.mpr ((List.mem_cons.mp hx).resolve_right hxs))
  others x hx := by
    obtain ⟨hxd, hxs⟩ := not_or.mp (mt List.mem_cons.mpr hx)
    exact (he.others x hxs).trans (hd.others x (mt List.mem_singleton.mp hxd))
  slots := he.slots.trans hd.slots
  pairs := he.pairs.trans hd.pairs
  acc := he.acc.trans hd.acc

theorem Cluster.started_foldl (c : Cluster) (stage o : Nat) (ds : List Nat) :
    c.Started stage o ds (ds.foldl (fun c d => c.startStrm d stage o) c) := by
  induction ds generalizing c with
  | nil => exact ⟨fun _ h => (List.not_mem_nil h).elim, fun _ _ => rfl, rfl, rfl, rfl⟩
  | cons d ds ih => exact (c.started_startStrm d stage o).cons (ih _)

section
variable {s : State} {cl : ClusterNo} {o : Nat} (hi : s.Issues cl .access o)
include hi

theorem exec_stream_of_running {d : BitVec 6} (hd : ((s.cl cl).strm d.toNat).run = true) : exec (.stream cl d) s = .next s :=
  congrArg Host.Outcome.next (issue_waits hi (if_pos hd))

theorem exec_stream_of_at_rest {d : BitVec 6} (hd : ((s.cl cl).strm d.toNat).run = false) :
    ∃ c, (s.cl cl).Started s.stageNo o [d.toNat] c ∧ exec (.stream cl d) s = .next (s.setCl cl
      (({ c with pairs := c.pairs.filter (fun p => !((SpairF.descs p.f).contains d.toNat)) } : Cluster).pass1 .access)) :=
  ⟨_, (s.cl cl).started_startStrm d.toNat s.stageNo o,
    congrArg Host.Outcome.next (issue_plain hi (if_neg (ne_true_of_eq_false hd)))⟩

section
variable {f : SpairF} (hwf : (Instr.spair cl f).wf = true)
include hwf

theorem exec_spair_of_running (hd : (SpairF.descs f).any (fun d => ((s.cl cl).strm d).run) = true) : exec (.spair cl f) s = .next s := by
  change execSpair cl f s = _
  rw [execSpair, hwf, issue_waits hi (if_pos hd)]
  rfl

theorem exec_spair_of_at_rest (hd : (SpairF.descs f).any (fun d => ((s.cl cl).strm d).run) = false) :
    ∃ c, (s.cl cl).Started s.stageNo o (SpairF.descs f) c ∧ exec (.spair cl f) s = .next (s.setCl cl
      (({ c with pairs := c.pairs.filter (fun p => !((SpairF.descs p.f).any (fun d => (SpairF.descs f).contains d))) ++ [{ f := f }] } :
        Cluster).pass1 .access)) := by
  refine ⟨_, (s.cl cl).started_foldl s.stageNo o (SpairF.descs f), ?_⟩
  change execSpair cl f s = _
  rw [execSpair, hwf, issue_plain hi (if_neg (ne_true_of_eq_false hd))]
  rfl

end

end

/-! The obligation -/

/-- Settles O7: SETP by what its predicate was; STREAM and SPAIR by whether a stream of theirs runs, with what starting a stream leaves. -/
theorem predicatesAreSetAndStreamsStart : Obligations.PredicatesAreSetAndStreamsStart := by
  unfold Obligations.PredicatesAreSetAndStreamsStart
  refine ⟨fun s cl o f hi hoff => ?setp, fun s cl o hi => ⟨fun d => ⟨exec_stream_of_running hi, fun hd => ?stream⟩,
    fun f hwf => ⟨exec_spair_of_running hi hwf, fun hd => ?spair⟩⟩⟩
  case setp =>
    rw [exec_setp_of_issues hi hoff, setpValue_eq]
    extract_lets c x i v old pending t
    exact ⟨fun h => congrArg Host.Outcome.next (State.setPred_of_unresolved v h),
      fun h0 h4 => congrArg Host.Outcome.next (State.setPred_of_pending v h0 h4),
      fun h4 => congrArg Host.Outcome.next (State.setPred_of_raised v h4)⟩
  case stream =>
    obtain ⟨u, hu, hexec⟩ := exec_stream_of_at_rest hi hd
    obtain ⟨hrun, hpos, htask, hbegan⟩ := hu.begun _ (List.mem_singleton.mpr rfl)
    exact ⟨_, hexec, hrun, hpos, htask, hbegan, fun e he => hu.others e (mt List.mem_singleton.mp he),
      congrArg (List.filter _) hu.pairs, hu.acc⟩
  case spair =>
    obtain ⟨u, hu, hexec⟩ := exec_spair_of_at_rest hi hwf hd
    exact ⟨_, hexec, hu.begun, hu.others, congrArg (fun ps : List Pair => ps.filter _ ++ [{ f := f }]) hu.pairs, hu.acc⟩

end Sys2Proof.Machine
end

section
/-! SUPPORT. What START, RESUME, STOP, UNLOAD and PAUSE do when they start (R242, R294, R300, R365). -/

namespace Sys2Proof.Machine

@[simp] theorem State.switchOn_stageNo (s : State) (clus : List Nat) : (s.switchOn clus).stageNo = s.stageNo := by
  obtain ⟨cs, gs, h⟩ := s.switchOn_frame clus
  rw [h]
  rfl

@[simp] theorem State.switchOn_pause (s : State) (clus : List Nat) : (s.switchOn clus).pause = s.pause := by
  obtain ⟨cs, gs, h⟩ := s.switchOn_frame clus
  rw [h]

/-! Waybills that wait for a stage (R242, R300) -/

/-- What becomes of a waybill whose set is to begin at a stage, its clusters in no state that `bad` names. -/
def State.awaitStage (s : State) (r : Nat) (w : Wb) (bad : Nat → Bool) : State :=
  match s.wrongState w.clus bad with
  | some res => s.finish r w 8 res
  | none =>
    if pPair w.params 3 ≤ s.stageNo then s.finish r w 0x11 (pairOf s.stageNo)
    else s.setWb r { w with phase := 1, stage := pPair w.params 3 }

section
variable {s : State} {r : Nat} {w : Wb} {bad : Nat → Bool}

theorem State.awaitStage_of_wrong {res : List Nat} (h : s.wrongState w.clus bad = some res) :
    s.awaitStage r w bad = s.finish r w 8 res := by
  rw [State.awaitStage, h]

variable (h : s.wrongState w.clus bad = none)
include h

theorem State.awaitStage_of_past (hp : pPair w.params 3 ≤ s.stageNo) :
    s.awaitStage r w bad = s.finish r w 0x11 (pairOf s.stageNo) := by
  rw [State.awaitStage, h]
  exact if_pos hp

theorem State.awaitStage_of_future (hf : s.stageNo < pPair w.params 3) :
    s.awaitStage r w bad = s.setWb r { w with phase := 1, stage := pPair w.params 3 } := by
  rw [State.awaitStage, h]
  exact if_neg (Nat.not_le.mpr hf)

end

section
variable {s : State} {r : Fin 16} {i : Word} {w : Wb}

theorem exec_start_of_starts (hs : s.Starts 0x201 r i.toNat w) :
    exec (.start r i) s = .next ((s.switchOn w.clus).awaitStage r w (fun st => decide (st ≠ 1) && decide (st ≠ 4))) :=
  congrArg Host.Outcome.next (startWb_of_starts hs rfl _)

theorem exec_resume_of_starts (hs : s.Starts 0x703 r i.toNat w) :
    exec (.resume r i) s = .next ((s.switchOn w.clus).awaitStage r w (fun st => decide (st ≠ 3))) :=
  congrArg Host.Outcome.next (startWb_of_starts hs rfl _)

/-! STOP (R242) -/

theorem exec_stop_of_starts (hs : s.Starts 0x202 r i.toNat w) :
    let t := s.switchOn w.clus
    let runs := w.clus.filter (fun n => decide ((t.cl n).st = 2))
    exec (.stop r i) s = .next ((runs.foldl (fun s n => s.stopCl n 1) t).setWb r
      { w with phase := 2, done := w.clus.length - runs.length }) :=
  congrArg Host.Outcome.next (startWb_of_starts hs rfl _)

/-! UNLOAD (R365) -/

section
variable (hs : s.Starts 0x203 r i.toNat w)
include hs

theorem exec_unload_of_running {res : List Nat} (h : (s.switchOn w.clus).wrongState w.clus (fun st => decide (st = 2)) = some res) :
    exec (.unload r i) s = .next ((s.switchOn w.clus).finish r w 8 res) := by
  refine congrArg Host.Outcome.next ((startWb_of_starts hs rfl _).trans ?_)
  simp only [h]

theorem exec_unload_of_at_rest (h : (s.switchOn w.clus).wrongState w.clus (fun st => decide (st = 2)) = none) :
    let t := s.switchOn w.clus
    let had := w.clus.filter (fun n => decide ((t.cl n).st ≠ 0))
    exec (.unload r i) s = .next ((had.foldl State.unload t).trimPause.evalMismatch.finish r w 0 [had.length]) := by
  refine congrArg Host.Outcome.next ((startWb_of_starts hs rfl _).trans ?_)
  simp only [h]

end

theorem State.freePmes_cl (s : State) (n k : Nat) : (s.freePmes n).cl k = s.cl k := rfl

theorem State.unload_eq_idled (s : State) (n : Nat) : ∃ (t : State) (c : Cluster), s.unload n = (t.setCl n c.idled).freePmes n :=
  ⟨_, _, rfl⟩

/-- An unloaded cluster is idle. -/
theorem State.unload_st (s : State) (n : Nat) : ((s.unload n).cl n).st = 0 := by
  obtain ⟨t, c, h⟩ := s.unload_eq_idled n
  rw [h, State.freePmes_cl, State.setCl_cl_same]
  rfl

/-! PAUSE (R294) -/

/-- A pause waits for its boundary or settles. -/
abbrev Pause.underWay (p : Pause) : Prop := p.st = 1 ∨ p.st = 2

section
variable (hs : s.Starts 0x700 r i.toNat w)
include hs

theorem exec_pause_of_under_way {p : Pause} (hp : s.pause = some p) (hu : p.underWay) :
    exec (.pause r i) s = .next ((s.switchOn w.clus).finish r w 8 [w.clus.headD 0, ((s.switchOn w.clus).cl (w.clus.headD 0)).st]) := by
  refine congrArg Host.Outcome.next ((startWb_of_starts hs rfl _).trans ?_)
  simp only [State.switchOn_pause, hp]
  obtain ⟨clus, b, wb, st⟩ := p
  obtain rfl | rfl : st = 1 ∨ st = 2 := hu <;> rfl

theorem exec_pause_of_none_under_way (hp : ∀ p, s.pause = some p → p.st ≠ 1 ∧ p.st ≠ 2) :
    exec (.pause r i) s = .next
      (({ s.switchOn w.clus with pause := some { clus := w.clus, b := pPair w.params 3, wb := some (r.val, w.ix) } } : State).setWb r
        { w with phase := 1 }) := by
  refine congrArg Host.Outcome.next ((startWb_of_starts hs rfl _).trans ?_)
  simp only [State.switchOn_pause]
  split
  next h => exact absurd rfl (hp _ h).1
  next h => exact absurd rfl (hp _ h).2
  next => rfl

end

end

/-! The obligation -/

/-- Settles O40: each waybill by the states of its clusters, START and RESUME by their stage too, PAUSE by the pause there is. -/
theorem itineraryWaybillsAct : Obligations.ItineraryWaybillsAct := by
  unfold Obligations.ItineraryWaybillsAct
  intro s r i w s1 wrong stage now begins
  have hstage : s1.stageNo = s.stageNo := s.switchOn_stageNo _
  have hwait (bad : Nat → Bool) :
      (∀ res, wrong bad = some res → s1.awaitStage r w bad = s1.finish r w 8 res) ∧
      (wrong bad = none →
        (stage ≤ s.stageNo → s1.awaitStage r w bad = s1.finish r w 0x11 now) ∧
        (s.stageNo < stage → s1.awaitStage r w bad = begins s1)) :=
    ⟨fun res => State.awaitStage_of_wrong, fun h =>
      ⟨fun hp => by rw [State.awaitStage_of_past h (hstage ▸ hp), hstage]; rfl,
        fun hf => State.awaitStage_of_future h (hstage.symm ▸ hf)⟩⟩
  refine ⟨fun hs => ?start, fun hs => ?resume, exec_stop_of_starts,
    fun hs => ⟨fun res => exec_unload_of_running hs, fun h => ⟨exec_unload_of_at_rest hs h, fun ns n hhad => ?unloaded⟩⟩,
    fun hs => ⟨fun p => exec_pause_of_under_way hs, exec_pause_of_none_under_way hs⟩⟩
  case start =>
    rw [exec_start_of_starts hs]
    simpa only [Host.Outcome.next.injEq] using hwait (fun st => decide (st ≠ 1) && decide (st ≠ 4))
  case resume =>
    rw [exec_resume_of_starts hs]
    simpa only [Host.Outcome.next.injEq] using hwait (fun st => decide (st ≠ 3))
  case unloaded =>
    rw [hhad, List.foldl_append]
    exact State.unload_st _ n

end Sys2Proof.Machine
end

section
/-! SUPPORT. What LOAD, SAVE and RESTORE do when they start (R241, R295, R296, R299, R360, R365, R367). -/

namespace Sys2Proof.Machine

/-- A load that is done has loaded the sections chosen. -/
theorem State.loadImage_eq_done {s l : State} {addr n id : Nat} {set : List Nat} {all : Bool}
    (h : s.loadImage addr set all = .done l n id) :
    l = s.loadChosen (s.imageAt addr) (if all = true then (s.imageAt addr).sects.map (s.imageAt addr).secNo else set) := by
  unfold State.loadImage at h
  dsimp only at h
  split at h
  · cases h
  · split at h
    · cases h
    · split at h <;> cases h
      rfl

section
variable {s : State} {r : Fin 16} {i : Word} {w : Wb} (ecc : List (Nat × EccCase))

/-! LOAD (R241, R360, R367) -/

/-- The bytes that a LOAD reads of its image. -/
abbrev State.loadSize (s : State) (w : Wb) : Nat := max 256 (s.imageAt (pPair w.params 3)).bs.length

/-- The waybill loads every section of its image. -/
abbrev Wb.loadsAll (w : Wb) : Bool := decide (w.params.getD 0 0 / 2 ^ 30 = 1)

/-- What a LOAD does with the image it has read (R241, R360, R367). -/
def State.loadAnswer (u : State) (r : Nat) (w : Wb) : State :=
  match u.loadImage (pPair w.params 3) w.clus w.loadsAll with
  | .poison _ => u.memErr r w 0
  | .refused c e => (if c = 9 then u.authFail else u).finish r w 0x0A [c, e.1, e.2]
  | .done l n id =>
    (w.clus.foldl (fun s k => s.wbWrote (ca k 0x800) 0x200 (2 ^ 32 - 1)) l.trimPause).finish r w 0 (n :: pairOf id)

section
variable (hs : s.Starts 0x200 r i.toNat w)
include hs

theorem exec_load_of_not_up (hup : s.rangeUp (pPair w.params 3) (s.loadSize w) = false) : exec (.load r i ecc) s = .next s :=
  congrArg Host.Outcome.next
    (startWb_of_starts_of_not_up (up := fun w => s.rangeUp (pPair w.params 3) (s.loadSize w)) hs hup _)

variable (hup : s.rangeUp (pPair w.params 3) (s.loadSize w) = true) {u : State}
  (hu : ((s.switchOn w.clus).eccImage (pPair w.params 3) ecc).mgmtTraffic false
    [(pPair w.params 3, (s.switchOn w.clus).loadSize w)] = u)
include hup hu

/-- A LOAD that has read its image is answered by how the image is loaded. -/
theorem exec_load_of_read : exec (.load r i ecc) s = .next (u.loadAnswer r w) := by
  subst hu
  exact congrArg Host.Outcome.next
    (startWb_of_starts (up := fun w => s.rangeUp (pPair w.params 3) (s.loadSize w)) hs hup _)

theorem exec_load_of_poison {n : Nat} (hl : u.loadImage (pPair w.params 3) w.clus w.loadsAll = .poison n) :
    exec (.load r i ecc) s = .next (u.finish r w 0x0C [0, 0]) := by
  rw [exec_load_of_read ecc hs hup hu, State.loadAnswer, hl]
  rfl

theorem exec_load_of_refused {c : Nat} {e : LoadAt} (hl : u.loadImage (pPair w.params 3) w.clus w.loadsAll = .refused c e) :
    exec (.load r i ecc) s = .next ((if c = 9 then u.authFail else u).finish r w 0x0A [c, e.1, e.2]) := by
  rw [exec_load_of_read ecc hs hup hu, State.loadAnswer, hl]

theorem exec_load_of_done {l : State} {n id : Nat} (hl : u.loadImage (pPair w.params 3) w.clus w.loadsAll = .done l n id) :
    exec (.load r i ecc) s = .next
      ((w.clus.foldl (fun s k => s.wbWrote (ca k 0x800) 0x200 (2 ^ 32 - 1)) l.trimPause).finish r w 0 (n :: pairOf id)) := by
  rw [exec_load_of_read ecc hs hup hu, State.loadAnswer, hl]

end

/-! SAVE (R295, R296) -/

/-- The two words of a SAVE with no paused set, which the spec leaves open. -/
def openSave : List Nat := [(Config.openWord 0x701 0).toNat, (Config.openWord 0x701 1).toNat]

/-- The bytes that a SAVE writes. -/
abbrev Pause.saveSize (p : Pause) : Nat := 4096 + recSize * p.clus.length

section
variable (hs : s.Starts 0x701 r i.toNat w)
include hs

theorem exec_save_of_no_pause (hp : s.pause = none) (hup : s.rangeUp (pPair w.params 0) 0 = true) :
    exec (.save r i ecc) s = .next ((s.switchOn w.clus).finish r w 8 openSave) := by
  change execSave r i ecc s = _
  unfold execSave
  rw [hp]
  dsimp only
  rw [startWb_of_starts hs hup]
  simp only [State.switchOn_pause, hp]
  rfl

variable {p : Pause} (hp : s.pause = some p)
include hp

theorem exec_save_of_not_up (hup : s.rangeUp (pPair w.params 0) p.saveSize = false) : exec (.save r i ecc) s = .next s := by
  change execSave r i ecc s = _
  unfold execSave
  rw [hp]
  dsimp only
  rw [startWb_of_starts_of_not_up hs hup]

variable (hup : s.rangeUp (pPair w.params 0) p.saveSize = true)
include hup

/-- A SAVE that can reach its range, with a pause there is: its set settled or not, its image inside memory or past its end. -/
theorem exec_save_of_up : exec (.save r i ecc) s = .next (
    let t := s.switchOn w.clus
    let b := pPair w.params 0
    if p.st ≠ 3 then t.finish r w 8 openSave
    else if pastEnd b p.saveSize = true then t.finish r w 5 [0]
    else
      let img := t.saveImage p
      let v := ((t.noteSaved p).eccEdges b img.1.length mgmtWho ecc).mgmtTraffic true [(b, img.1.length)]
      (v.agentWrite b img.1 mgmtWho).draw.finish r w 0 (pairOf img.1.length ++ pairOf img.2)) := by
  change execSave r i ecc s = _
  unfold execSave
  rw [hp]
  dsimp only
  rw [startWb_of_starts hs hup]
  simp only [State.switchOn_pause, hp]
  rfl

end

/-! RESTORE (R299) -/

/-- The bytes of the saved image that its header tells. -/
abbrev State.savedSize (s : State) (w : Wb) : Nat := 4096 + recSize * leAt (s.loessRead (pPair w.params 0) 32) 24 4

/-- What a RESTORE does with the image it has read (R299, R360). -/
def State.restoreAnswer (u : State) (r : Nat) (w : Wb) : State :=
  match u.restoreImage (pPair w.params 0) with
  | .poison _ => u.memErr r w 0
  | .refused c k => u.finish r w 0x0A [c, k]
  | .done l n =>
    (l.presentList.foldl (fun s k => if (s.cl k).st = 3 then s.wbWrote (ca k 0) 0x1000 (2 ^ 32 - 1) else s) l).finish r w 0 [n]

section
variable (hs : s.Starts 0x702 r i.toNat w)
include hs

theorem exec_restore_of_not_up (hup : s.rangeUp (pPair w.params 0) (s.savedSize w) = false) : exec (.restore r i ecc) s = .next s :=
  congrArg Host.Outcome.next (startWb_of_starts_of_not_up (up := fun w => s.rangeUp (pPair w.params 0) (s.savedSize w)) hs hup _)

variable (hup : s.rangeUp (pPair w.params 0) (s.savedSize w) = true)
include hup

theorem exec_restore_of_past_end (hpast : pastEnd (pPair w.params 0) 4096 = true) :
    exec (.restore r i ecc) s = .next ((s.switchOn w.clus).finish r w 0x0A [1, 0]) :=
  congrArg Host.Outcome.next
    ((startWb_of_starts (up := fun w => s.rangeUp (pPair w.params 0) (s.savedSize w)) hs hup _).trans (if_pos hpast))

variable (hpast : pastEnd (pPair w.params 0) 4096 = false) {u : State}
  (hu : ((s.switchOn w.clus).eccSaved (pPair w.params 0) ecc).mgmtTraffic true
    [(pPair w.params 0, (s.switchOn w.clus).savedSize w)] = u)
include hpast hu

/-- A RESTORE that has read its image is answered by how the image is taken up. -/
theorem exec_restore_of_read : exec (.restore r i ecc) s = .next (u.restoreAnswer r w) := by
  subst hu
  exact congrArg Host.Outcome.next
    ((startWb_of_starts (up := fun w => s.rangeUp (pPair w.params 0) (s.savedSize w)) hs hup _).trans
      (if_neg (ne_true_of_eq_false hpast)))

theorem exec_restore_of_poison {n : Nat} (hr : u.restoreImage (pPair w.params 0) = .poison n) :
    exec (.restore r i ecc) s = .next (u.finish r w 0x0C [0, 0]) := by
  rw [exec_restore_of_read ecc hs hup hpast hu, State.restoreAnswer, hr]
  rfl

theorem exec_restore_of_refused {c k : Nat} (hr : u.restoreImage (pPair w.params 0) = .refused c k) :
    exec (.restore r i ecc) s = .next (u.finish r w 0x0A [c, k]) := by
  rw [exec_restore_of_read ecc hs hup hpast hu, State.restoreAnswer, hr]

theorem exec_restore_of_done {l : State} {n : Nat} (hr : u.restoreImage (pPair w.params 0) = .done l n) :
    exec (.restore r i ecc) s = .next
      ((l.presentList.foldl (fun s k => if (s.cl k).st = 3 then s.wbWrote (ca k 0) 0x1000 (2 ^ 32 - 1) else s) l).finish r w 0 [n]) := by
  rw [exec_restore_of_read ecc hs hup hpast hu, State.restoreAnswer, hr]

end

end

/-! The obligation -/

/-- Settles O41: each waybill by whether its range can be reached, LOAD and RESTORE by how their image is taken up, SAVE by the pause. -/
theorem imageWaybillsAct : Obligations.ImageWaybillsAct := by
  unfold Obligations.ImageWaybillsAct
  refine ⟨fun s r i w ecc => ?load, fun s r i w ecc => ⟨fun hs => ?save, fun hs => ?restore⟩⟩
  case load =>
    intro s1 a all u hs
    exact ⟨exec_load_of_not_up ecc hs, fun hup => ⟨fun n => exec_load_of_poison ecc hs hup rfl,
      fun c e => exec_load_of_refused ecc hs hup rfl,
      fun l n id hl => ⟨exec_load_of_done ecc hs hup rfl hl, State.loadImage_eq_done hl⟩⟩⟩
  case save =>
    refine ⟨exec_save_of_no_pause ecc hs, fun p hp => ⟨exec_save_of_not_up ecc hs hp, fun hup => ?_⟩⟩
    rw [exec_save_of_up ecc hs hp hup]
    exact ⟨fun h => congrArg _ (if_pos h),
      fun h hpast => congrArg _ ((if_neg (not_not.mpr h)).trans (if_pos hpast)),
      fun h hpast => congrArg _ ((if_neg (not_not.mpr h)).trans (if_neg (ne_true_of_eq_false hpast)))⟩
  case restore =>
    exact ⟨exec_restore_of_not_up ecc hs, fun hup => ⟨exec_restore_of_past_end ecc hs hup, fun hpast =>
      ⟨fun n => exec_restore_of_poison ecc hs hup hpast rfl, fun c k => exec_restore_of_refused ecc hs hup hpast rfl,
        fun l n => exec_restore_of_done ecc hs hup hpast rfl⟩⟩⟩

end Sys2Proof.Machine
end

section
/-! SUPPORT. How the next slot of a wheel is granted, and how a stack accepts a plain task's read (R268 to R273). -/

namespace Sys2Proof.Machine

/-- The state in which one slot more of a unit's wheel has passed. -/
def State.turned (s : State) (w : Wheel) (unit : Nat) : State :=
  { s with wheel := sput zeroNat s.wheel (wheelKey w unit) (sget zeroNat s.wheel (wheelKey w unit) + 1) }

/-- What a slot that nothing takes leaves: on a sending port an idle slot in the frame (R311). -/
def State.idleSlot (w : Wheel) (unit : Nat) (s : State) : State := if w = .link ∧ unit % 2 = 0 then s.linkIdle (unit / 2) else s

section
variable {s : State} {w : Wheel} {unit : Nat} {f : State → Nat → Option State} {idle : State → State}

theorem State.offer_of_no_slot (h : slotsIn w s.clkStep ≤ sget zeroNat s.wheel (wheelKey w unit)) : s.offer w unit f idle = s :=
  if_pos h

/-- The first activity of the slot's order that has something waiting takes it. -/
theorem State.offer_of_taken (h : sget zeroNat s.wheel (wheelKey w unit) < slotsIn w s.clkStep) {t : State}
    (ht : firstTaker (f (s.turned w unit))
      (offered (s.slotOwner w (sget zeroNat s.wheel (wheelKey w unit))) (s.orderOf w unit)) = some t) : s.offer w unit f idle = t :=
  (if_neg (Nat.not_le.mpr h)).trans (congrArg (·.getD (idle (s.turned w unit))) ht)

theorem State.offer_of_not_taken (h : sget zeroNat s.wheel (wheelKey w unit) < slotsIn w s.clkStep)
    (hn : firstTaker (f (s.turned w unit))
      (offered (s.slotOwner w (sget zeroNat s.wheel (wheelKey w unit))) (s.orderOf w unit)) = none) :
    s.offer w unit f idle = idle (s.turned w unit) :=
  (if_neg (Nat.not_le.mpr h)).trans (congrArg (·.getD (idle (s.turned w unit))) hn)

end

theorem exec_slotGrant_of_no_unit {w : Wheel} {u : Fin 2048} (h : wheelUnits w ≤ u.val) (s : State) (ecc : List (Fin 8 × EccCase)) :
    exec (.slotGrant w u ecc) s = .next s :=
  if_pos h

theorem exec_slotGrant_of_stagesRun {w : Wheel} {u : Fin 2048} (h : u.val < wheelUnits w) {s : State} (hr : s.stagesRun = true)
    (ecc : List (Fin 8 × EccCase)) :
    exec (.slotGrant w u ecc) s = .next (s.offer w u (s.takers w u ecc) (State.idleSlot w u)) := by
  refine (if_neg (Nat.not_le.mpr h)).trans ?_
  rw [State.rewind_of_stagesRun hr]
  rfl

/-- A ready stack accepts the first request that waits, a plain task's read within its cluster's ration. -/
theorem State.acceptReq_of_plain_read {s : State} {k : Nat} {r : Req} {rest : List Req} (hwait : (s.die k).waiting = r :: rest)
    (hsrc : r.src = .drover) (hspec : r.spec = false) (hrecov : r.recov = false) (hread : r.write = false) (hn : r.n ≤ 1)
    (hleft : s.slotsUsed r.cl = false) :
    s.acceptReq k 0 = some ((s.setDie k { s.die k with waiting := rest, accepted := (s.die k).accepted ++ [r] }).setCl r.cl
      { s.cl r.cl with slots := (s.cl r.cl).slots + 1 }) := by
  have hact : r.act = 0 := by simp [Req.act, hsrc, hspec, hrecov]
  have hcharged : r.charged r.cl = true := by simp [Req.charged, Req.who, hsrc, hrecov]
  have hfind : (r :: rest).find? (fun q => decide (q.act = 0) && (!q.charged q.cl || !s.slotsUsed q.cl)) = some r :=
    List.find?_cons_of_pos (by simp [hact, hleft])
  unfold State.acceptReq
  simp only [hwait, hfind, hsrc, hread, hcharged, if_neg (Nat.not_lt.mpr hn), List.erase_cons_head, Bool.and_false, Bool.false_and,
    Bool.false_eq_true, if_true, if_false]
  rfl

/-- Settles O19: the wheel as long as it has slots, then who takes the slot; the owner FG by the first request that waits. -/
theorem slotsAreGranted : Obligations.SlotsAreGranted := by
  unfold Obligations.SlotsAreGranted
  refine ⟨fun s w u ecc => ⟨fun h => exec_slotGrant_of_no_unit h s ecc, fun hu hr => ?granted⟩, fun s u ecc r rest => ?memory⟩
  case granted =>
    intro n s1
    rw [exec_slotGrant_of_stagesRun hu hr]
    exact ⟨fun h => congrArg _ (State.offer_of_no_slot h), fun h =>
      ⟨fun t ht => congrArg _ (State.offer_of_taken h ht), fun hn => congrArg _ (State.offer_of_not_taken h hn)⟩⟩
  case memory =>
    intro d n s1 c hu hr hn ho hready hwait hsrc hspec hrecov hread hone hleft
    rw [exec_slotGrant_of_stagesRun hu hr]
    refine congrArg _ (State.offer_of_owner_takes rfl hn ho (Nat.zero_le 7) ?_)
    rw [State.takers]
    simp only [hready, if_true]
    exact State.acceptReq_of_plain_read (s := s1) hwait hsrc hspec hrecov hread hone hleft

end Sys2Proof.Machine
end

section
/-! SUPPORT. The boundary actions of GSTEP and WADV (R56, R139, R264, log entry 152). -/

namespace Sys2Proof.Machine

/-! The grit step (R56) -/

theorem State.setRegN_regN (s : State) (a i : Nat) {v : Nat} (h : v < 2 ^ 32) : (s.setRegN a v).regN i = if i = a then v else s.regN i := by
  rw [State.regN, State.setRegN_reg]
  split
  · rw [BitVec.toNat_ofNat, Nat.mod_eq_of_lt h]
  · rfl

/-- A pair of registers reads as the 64-bit value put into it (R11). -/
theorem State.setReg64_reg64_same (s : State) (a : Nat) {v : Nat} (h : v < 2 ^ 64) : (s.setReg64 a v).reg64 a = v := by
  rw [State.setReg64, State.reg64, State.setRegN_regN _ _ _ (by omega), if_neg (by omega), State.setRegN_regN _ _ _ (by omega), if_pos rfl,
    State.setRegN_regN _ _ _ (by omega), if_pos rfl]
  omega

theorem State.setReg64_reg_other (s : State) {a i : Nat} (v : Nat) (h : i ≠ a) (h4 : i ≠ a + 4) : (s.setReg64 a v).reg i = s.reg i :=
  (State.setRegN_reg_other _ _ h4).trans (s.setRegN_reg_other _ h)

theorem State.gritStep_of_no_gstep {s : State} (h : s.gstep = false) : s.gritStep = s := if_neg (ne_true_of_eq_false h)

theorem State.gritStep_of_gstep {s : State} (h : s.gstep = true) :
    s.gritStep = { s.setReg64 0x108 ((s.reg64 0x108 + 1) % 2 ^ 64) with gstep := false } := if_pos h

/-! The window advance (R139) -/

/-- What is put under each number of a range is found there. -/
theorem sget_foldl_sput_range (f : Nat → Nat) {n k : Nat} (h : k < n) :
    sget zeroNat ((List.range n).foldl (fun m k => sput zeroNat m k (f k)) []) k = f k := by
  induction n with
  | zero => omega
  | succ n ih =>
    rw [List.range_succ, List.foldl_append, List.foldl_cons, List.foldl_nil, sget_sput]
    split
    next hk => rw [hk]
    next hk => exact ih (by omega)

section
variable {c : Cluster} {depth : Nat}

theorem Cluster.advanceWindows_of_no_wadv (h : c.wadv = false) : c.advanceWindows depth = c := if_pos (by simp [h])

variable (h : c.wadv = true)
include h

theorem Cluster.advanceWindows_of_wadv : c.advanceWindows depth = { c with
    wadv := false
    wins := (c.wins.filter (fun e => decide (e.1 % 16 + 1 < depth))).map (fun e => (e.1 + 1, e.2))
    fill := (List.range 16).foldl (fun m k => sput zeroNat m k (min (sget zeroNat c.fill k + 1) depth)) [] } :=
  if_neg (by simp [h])

/-- A window holds what stood one entry before, where the entry before had another after it. -/
theorem Cluster.mem_advanceWindows_wins {i : Nat} {j : Nat × Nat} :
    (i, j) ∈ (c.advanceWindows depth).wins ↔ ∃ e, (e, j) ∈ c.wins ∧ e % 16 + 1 < depth ∧ e + 1 = i := by
  rw [Cluster.advanceWindows_of_wadv h]
  constructor
  · intro hi
    obtain ⟨⟨e, x⟩, hx, heq⟩ := List.mem_map.mp hi
    obtain ⟨hmem, hlt⟩ := List.mem_filter.mp hx
    obtain ⟨rfl, rfl⟩ := Prod.mk.inj heq
    exact ⟨e, hmem, of_decide_eq_true hlt, rfl⟩
  · rintro ⟨e, hmem, hlt, rfl⟩
    exact List.mem_map.mpr ⟨(e, j), List.mem_filter.mpr ⟨hmem, decide_eq_true hlt⟩, rfl⟩

theorem Cluster.advanceWindows_fill {k : Nat} (hk : k < 16) :
    sget zeroNat (c.advanceWindows depth).fill k = min (sget zeroNat c.fill k + 1) depth := by
  rw [Cluster.advanceWindows_of_wadv h]
  exact sget_foldl_sput_range (fun k => min (sget zeroNat c.fill k + 1) depth) hk

theorem Cluster.advanceWindows_wins_first (hd : depth ≤ 16) (k : Nat) (j : Nat × Nat) : (k * 16, j) ∉ (c.advanceWindows depth).wins := by
  rw [Cluster.mem_advanceWindows_wins h]
  rintro ⟨e, -, hlt, he⟩
  omega

theorem Cluster.advanceWindows_wins_beyond (k : Nat) {e : Nat} (hpos : 0 < depth) (hd : depth ≤ e) (he : e < 16) (j : Nat × Nat) :
    (k * 16 + e, j) ∉ (c.advanceWindows depth).wins := by
  rw [Cluster.mem_advanceWindows_wins h]
  rintro ⟨i, -, hlt, hi⟩
  omega

theorem Cluster.advanceWindows_wins_next (k : Nat) {e : Nat} (hd : depth ≤ 16) (he : e + 1 < depth) (j : Nat × Nat) :
    (k * 16 + (e + 1), j) ∈ (c.advanceWindows depth).wins ↔ (k * 16 + e, j) ∈ c.wins := by
  rw [Cluster.mem_advanceWindows_wins h]
  constructor
  · rintro ⟨i, hmem, -, hi⟩
    obtain rfl : i = k * 16 + e := by omega
    exact hmem
  · exact fun hmem => ⟨k * 16 + e, hmem, by omega, rfl⟩

end

end Sys2Proof.Machine
end

section
/-! SUPPORT. How a period ends, of a module alone and in a domain; extension periods and hung stages (R264 to R267, R280, R326, R327). -/

namespace Sys2Proof.Machine

/-! What a period's end does -/

section
variable {s : State}

/-- The state whose period ends, with the recovery traffic that waits at the nominal end counted. -/
def State.edgeCounted (s : State) : State := if s.late = 0 ∧ s.recoveryWaits then s.count 0x100C 1 else s

theorem State.edgeCounted_of_nominal (h : s.late = 0) : s.edgeCounted = if s.recoveryWaits = true then s.count 0x100C 1 else s := by
  simp [State.edgeCounted, h]

theorem State.edgeCounted_of_extension (h : 0 < s.late) : s.edgeCounted = s := if_neg fun hl => Nat.ne_of_gt h hl.1

theorem State.edgeCounted_sansRecords (s : State) : s.edgeCounted.sansRecords = s.sansRecords := by
  unfold State.edgeCounted
  split
  · exact s.count_sansRecords ..
  · rfl

section
variable (hm : s.mustered = false)
include hm

theorem State.periodEdge_of_complete (hc : s.stageComplete = true) :
    s.periodEdge = (s.edgeCounted.takeBoundary (s.stageNo + 1) false).dueResets := by
  simp only [State.periodEdge, hm, hc, Bool.not_false, if_true]
  rfl

theorem State.periodEdge_of_incomplete (hc : s.stageComplete = false) : s.periodEdge = s.edgeCounted.extend.dueResets := by
  simp only [State.periodEdge, hm, hc, Bool.not_false, if_true, Bool.false_eq_true, if_false]
  rfl

end

/-- The module's own work is not complete (R327). -/
def State.straggles (s : State) : Bool := s.storesWait || s.jobsWait || s.setpLate

section
variable (hm : s.mustered = true)
include hm

theorem State.periodEdge_of_take {p : Bool} (hd : s.cvn.decision = some (true, p)) :
    s.periodEdge = (s.edgeCounted.takeBoundary (s.stageNo + 1) s.straggles).dueResets := by
  simp only [State.periodEdge, hm, hd, Bool.not_true, Bool.false_eq_true, if_false]
  rfl

theorem State.periodEdge_of_extension {p : Bool} (hd : s.cvn.decision = some (false, p)) : s.periodEdge = s.edgeCounted.extend.dueResets := by
  simp only [State.periodEdge, hm, hd, Bool.not_true, Bool.false_eq_true, if_false]
  rfl

theorem State.periodEdge_of_no_decision (hd : s.cvn.decision = none) :
    s.periodEdge = ((s.edgeCounted.count 0x500020 1).raise 27 0 0 ((s.edgeCounted.count 0x500020 1).regN 0x500020) 0).extend.dueResets := by
  simp only [State.periodEdge, hm, hd, Bool.not_true, Bool.false_eq_true, if_false]
  rfl

end

end

/-! The boundary (R264) -/

/-- The state in which the orders of a boundary act: the stage that begins has its number and kc 0, and the votes are forgotten. -/
def State.begun (s : State) (stage : Nat) (straggles : Bool) : State :=
  let s1 : State := { (s.setReg64 0x400 (stage % 2 ^ 64)).newKc with
    kc := 0, late := 0, hung := false, setpLate := s.setpLate && straggles }
  let s2 : State := { s1 with cvn := { s1.cvn with straggling := straggles } }
  (if straggles then s2.count 0x500018 1 else s2).clearVotes

theorem State.takeBoundary_eq (s : State) (stage : Nat) (straggles : Bool) : s.takeBoundary stage straggles =
    ((s.begun stage straggles).orders (decide (0 < s.late))).1.afterOrders ((s.begun stage straggles).orders (decide (0 < s.late))).2
      (match s.cvn.decision with | some (_, p) => p | none => false) := rfl

theorem State.takeBoundary_of_decision {s : State} {take pause : Bool} (h : s.cvn.decision = some (take, pause)) (stage : Nat)
    (straggles : Bool) : s.takeBoundary stage straggles =
    ((s.begun stage straggles).orders (decide (0 < s.late))).1.afterOrders ((s.begun stage straggles).orders (decide (0 < s.late))).2
      pause := by
  rw [State.takeBoundary_eq, h]

/-- A module that does not straggle begins its stage with no late predicate. -/
theorem State.begun_complete (s : State) (stage : Nat) : s.begun stage false =
    (({ (s.setReg64 0x400 (stage % 2 ^ 64)).newKc with
      kc := 0, late := 0, hung := false, setpLate := false
      cvn := { s.cvn with straggling := false } } : State)).clearVotes := by
  simp only [State.begun, Bool.and_false, Bool.false_eq_true, if_false]
  rfl

/-! The commands -/

section
variable {s : State}

theorem exec_stageBoundary_of_due (hr : s.stagesRun = true) (hk : s.kc = 8192) (hl : s.late = 0) :
    exec .stageBoundary s = .next s.periodEdge :=
  congrArg Host.Outcome.next (if_pos (by simp [hr, hk, hl]))

theorem exec_stageBoundary_of_not_due (h : (s.stagesRun = false ∨ s.kc ≠ 8192) ∨ 0 < s.late) : exec .stageBoundary s = .next s := by
  refine congrArg Host.Outcome.next (if_neg ?_)
  rcases h with (h | h) | h
  · simp [h]
  · simp [h]
  · simp [Nat.ne_of_gt h]

theorem exec_extensionPeriodEnd_of_due (hr : s.stagesRun = true) (hk : s.kc = 8192) (hl : 0 < s.late) :
    exec .extensionPeriodEnd s = .next s.periodEdge :=
  congrArg Host.Outcome.next (if_pos (by simp [hr, hk, hl]))

theorem exec_extensionPeriodEnd_of_not_due (h : (s.stagesRun = false ∨ s.kc ≠ 8192) ∨ s.late = 0) :
    exec .extensionPeriodEnd s = .next s := by
  refine congrArg Host.Outcome.next (if_neg ?_)
  rcases h with (h | h) | h <;> simp [h]

end

/-! Extension periods (R266, R280) -/

/-- An extension period before it is recorded: kc starts again, and what belonged to the period before is forgotten. -/
def State.extended (s : State) : State :=
  ((({ s.newKc with kc := 0, late := s.late + 1, wheel := [], setpLate := false } : State).count 0x408 1).mapCl
    (fun c => { c with slots := 0 })).clearVotes

section
variable {s : State}

theorem State.extend_of_first (h : s.late = 0) :
    let a := ({ s.extended with snap := s.extended.shadow, shadow := [] } : State).capture noRank 0x40C
      (1 + s.unmet + 2 ^ 6 + s.stageNo % 2 ^ 16 * 2 ^ 16) []
    s.extend = a.raise 15 0 0 (a.regN 0x40C) 0 :=
  if_pos (decide_eq_true h)

/-- The record of this stage's first extension counts the later ones. -/
theorem State.extend_of_recorded (h : 0 < s.late) (hs : s.fld 0x40C 16 16 = s.stageNo % 2 ^ 16) (hv : (s.reg 0x40C).getLsbD 0 = true) :
    s.extend = s.extended.setFld 0x40C 6 7 (min (s.extended.fld 0x40C 6 7 + 1) 127) :=
  (if_neg (by simp [Nat.ne_of_gt h])).trans (if_pos (by simp [hs, hv]))

theorem State.extend_of_not_recorded (h : 0 < s.late) (hn : s.fld 0x40C 16 16 ≠ s.stageNo % 2 ^ 16 ∨ (s.reg 0x40C).getLsbD 0 = false) :
    s.extend = s.extended := by
  refine (if_neg (by simp [Nat.ne_of_gt h])).trans (if_neg fun hrec => ?_)
  obtain ⟨hs, hv⟩ := Bool.and_eq_true_iff.mp hrec
  exact hn.elim (fun hn => hn (of_decide_eq_true hs)) (fun hn => ne_true_of_eq_false hn hv)

/-! Hung stages (R267) -/

/-- The state that knows its stage to hang and has said so. -/
def State.hangs (s : State) : State := ({ s with hung := true } : State).raise 16 0 0 (s.regN 0x40C) 0

theorem exec_stageHung_of_hanging (hl : 64 < s.late) (hh : s.hung = false) : exec .stageHung s = .next s.hangs :=
  if_neg (by simp [hh, hl])

theorem exec_stageHung_of_not_hanging (h : s.late ≤ 64 ∨ s.hung = true) : exec .stageHung s = .next s := if_pos h

theorem State.hangs_frame (s : State) :
    s.hangs.hung = true ∧ s.hangs.kc = s.kc ∧ s.hangs.late = s.late ∧ s.hangs.regN 0x400 = s.regN 0x400 := by
  have h : s.hangs.sansRecords = ({ s with hung := true } : State).sansRecords := State.raise_sansRecords ..
  exact ⟨(congrArg State.hung h :), (congrArg State.kc h :), (congrArg State.late h :),
    congrArg BitVec.toNat (State.raise_reg_other _ 16 0 0 _ 0 false (i := 0x400) (by decide) (by decide))⟩

end

/-! The obligation -/

/-- Settles O21: each command by whether its period ends, the end by the module's work or its domain's decision; an extension by what is
recorded of the stage. -/
theorem periodsEnd : Obligations.PeriodsEnd := by
  unfold Obligations.PeriodsEnd
  refine ⟨fun s => ?alone, fun s hr hk hm => ?mustered, fun s => ?extension, ⟨fun s => ?grit, fun c depth hpos hd => ?windows⟩,
    fun s => ?hung⟩
  case alone =>
    intro s0 begins
    have htake (u : State) : (u.takeBoundary (s.stageNo + 1) false).dueResets = begins u := by
      rw [State.takeBoundary_eq, State.begun_complete]
      rfl
    refine ⟨fun h => ⟨exec_stageBoundary_of_not_due (.inl h), exec_extensionPeriodEnd_of_not_due (.inl h)⟩,
      fun h => exec_stageBoundary_of_not_due (.inr h), fun h => exec_extensionPeriodEnd_of_not_due (.inr h), fun hr hk hm =>
      ⟨fun hl hc => ?_, fun hl hc => ?_, fun hl hc => ?_, fun hl hc => ?_⟩⟩
    · rw [exec_stageBoundary_of_due hr hk hl, State.periodEdge_of_complete hm hc, State.edgeCounted_of_nominal hl, htake]
    · rw [exec_stageBoundary_of_due hr hk hl, State.periodEdge_of_incomplete hm hc, State.edgeCounted_of_nominal hl]
    · rw [exec_extensionPeriodEnd_of_due hr hk hl, State.periodEdge_of_complete hm hc, State.edgeCounted_of_extension hl, htake]
    · rw [exec_extensionPeriodEnd_of_due hr hk hl, State.periodEdge_of_incomplete hm hc, State.edgeCounted_of_extension hl]
  case mustered =>
    intro late begins ends
    have hedge : Host.Outcome.next s.periodEdge = ends s.edgeCounted := by
      have hcvn : s.edgeCounted.cvn = s.cvn := State.cvn_eq_of_sansRecords s.edgeCounted_sansRecords
      unfold ends
      split
      next pause hd => rw [State.periodEdge_of_take hm hd, State.takeBoundary_of_decision (hcvn ▸ hd)]; rfl
      next hd => rw [State.periodEdge_of_extension hm hd]
      next hd => rw [State.periodEdge_of_no_decision hm hd]
    exact ⟨fun hl => (exec_stageBoundary_of_due hr hk hl).trans (hedge.trans (congrArg ends (State.edgeCounted_of_nominal hl))),
      fun hl => (exec_extensionPeriodEnd_of_due hr hk hl).trans (hedge.trans (congrArg ends (State.edgeCounted_of_extension hl)))⟩
  case extension => exact ⟨State.extend_of_first, State.extend_of_recorded, State.extend_of_not_recorded⟩
  case grit =>
    refine ⟨State.gritStep_of_no_gstep, fun h => ?_⟩
    rw [State.gritStep_of_gstep h]
    exact ⟨s.setReg64_reg64_same 0x108 (Nat.mod_lt _ (by decide)), rfl, fun a ha hb => s.setReg64_reg_other _ ha hb, rfl, rfl⟩
  case windows =>
    refine ⟨Cluster.advanceWindows_of_no_wadv, fun h => ?_⟩
    have heq := Cluster.advanceWindows_of_wadv (depth := depth) h
    exact ⟨(congrArg Cluster.wadv heq :), (congrArg Cluster.acc heq :), (congrArg Cluster.exec heq :), (congrArg Cluster.tile0 heq :),
      (congrArg Cluster.tile1 heq :), fun k hk => ⟨Cluster.advanceWindows_fill h hk, Cluster.advanceWindows_wins_first h hd k,
        fun e hde he => Cluster.advanceWindows_wins_beyond h k hpos hde he, fun e he => Cluster.advanceWindows_wins_next h k hd he⟩⟩
  case hung =>
    refine ⟨fun hl hh => ⟨exec_stageHung_of_hanging hl hh, fun t ht => ?_⟩, exec_stageHung_of_not_hanging⟩
    obtain rfl : s.hangs = t := Host.Outcome.next.inj ((exec_stageHung_of_hanging hl hh).symm.trans ht)
    obtain ⟨hhung, hframe⟩ := s.hangs_frame
    exact ⟨exec_stageHung_of_not_hanging (.inr hhung), hframe⟩

end Sys2Proof.Machine
end

section
/-! SUPPORT. What a kc that nothing waits for leaves of the state, and what timed-out tandem records leave (R263, R304, R305, R319, R391). -/

namespace Sys2Proof.Machine

/-! Check units and scrub targets go on (R221, R391) -/

theorem State.setChk_chk (s : State) (u i : Nat) (c : Chk) : (s.setChk u c).chk i = if i = u then c else s.chk i :=
  sget_sput _ _ _ _ _

/-- A unit for which nothing waits only goes on with its feed. -/
theorem State.chkTick_of_no_queue {s : State} {u : Nat} (h : (s.chk u).queue = []) (n : Nat) :
    ∃ c : Chk, s.chkTick n u = s.setChk u c ∧ c.queue = [] := by
  unfold State.chkTick
  extract_lets c c1
  split
  · exact ⟨c1, rfl, h⟩
  · exact ⟨{ c1 with queue := [] }, by rw [h, List.foldl_nil], rfl⟩

/-- Units for which nothing waits touch nothing but themselves. -/
theorem State.checkTime_frame {s : State} (h : ∀ u < 16, (s.chk u).queue = []) :
    s.checkTime = { s with checks := s.checkTime.checks } := by
  refine (List.foldlRecOn (motive := fun t : State => t = { s with checks := t.checks } ∧ ∀ u < 16, (t.chk u).queue = [])
    (List.range 16) _ ⟨rfl, h⟩ fun t ⟨ht, hq⟩ u hu => ?_).1
  obtain ⟨c, hc, hcq⟩ := State.chkTick_of_no_queue (hq u (List.mem_range.mp hu)) _
  rw [hc]
  refine ⟨congrArg (fun x : State => { x with checks := (t.setChk u c).checks }) ht, fun i hi => ?_⟩
  rw [State.setChk_chk]
  split
  · exact hcq
  · exact hq i hi

theorem State.scrubTarget_frame (s : State) (k : Nat) : s.scrubTarget k = { s with dies := (s.scrubTarget k).dies } := by
  unfold State.scrubTarget
  split
  · rfl
  · extract_lets d acc full
    split <;> rfl

theorem State.scrubTargets_frame (l : List Nat) (s : State) :
    l.foldl State.scrubTarget s = { s with dies := (l.foldl State.scrubTarget s).dies } :=
  List.foldlRecOn (motive := fun t : State => t = { s with dies := t.dies }) l _ rfl fun t ht k _ =>
    (t.scrubTarget_frame k).trans (congrArg (fun x : State => { x with dies := (t.scrubTarget k).dies }) ht)

/-- The state in a kc that passes, before its clusters are counted: caravan time, check units and scrub targets have gone on. -/
def State.timePassed (s : State) : State :=
  (List.range 8).foldl State.scrubTarget (s.newKc.setReg64 0x50000C ((s.cvnTime + s.ticksPerKc) % 2 ^ 64)).checkTime

theorem State.timePassed_frame {s : State} (h : ∀ u < 16, (s.chk u).queue = []) : ∃ cs ds, s.timePassed =
    { s.newKc.setReg64 0x50000C ((s.cvnTime + s.ticksPerKc) % 2 ^ 64) with checks := cs, dies := ds } := by
  have hcheck := State.checkTime_frame (s := s.newKc.setReg64 0x50000C ((s.cvnTime + s.ticksPerKc) % 2 ^ 64)) h
  exact ⟨_, _, (State.scrubTargets_frame ..).trans (congrArg (fun x : State => { x with dies := s.timePassed.dies }) hcheck)⟩

/-! The counters of the running clusters (R204) -/

/-- Nothing but registers and what is noted about counters differs, and caravan time is as it was. -/
def State.OnlyCounts (s t : State) : Prop := t = { s with regs := t.regs, counted := t.counted } ∧ t.cvnTime = s.cvnTime

theorem State.OnlyCounts.refl (s : State) : s.OnlyCounts s := ⟨rfl, rfl⟩

theorem State.OnlyCounts.trans {s t u : State} (h : s.OnlyCounts t) (k : t.OnlyCounts u) : s.OnlyCounts u :=
  ⟨k.1.trans (congrArg (fun x : State => { x with regs := u.regs, counted := u.counted }) h.1), k.2.trans h.2⟩

theorem State.count64_frame (s : State) (a n : Nat) :
    s.count64 a n = { s with regs := (s.count64 a n).regs, counted := (s.count64 a n).counted } := by
  unfold State.count64 State.noteCount
  split <;> rfl

/-- The counters of engines and clusters lie above caravan time. -/
theorem State.count64_onlyCounts (s : State) {a : Nat} (h : 0x1000000 ≤ a) (n : Nat) : s.OnlyCounts (s.count64 a n) := by
  have hreg (i : Nat) (hi : i < 0x1000000) : (s.count64 a n).reg i = s.reg i :=
    (State.setReg64_reg_other _ _ (by omega) (by omega)).trans (s.noteCount_reg ..)
  refine ⟨s.count64_frame a n, ?_⟩
  rw [State.cvnTime, State.reg64, State.regN, State.regN, hreg _ (by decide), hreg _ (by decide)]
  rfl

theorem le_ea (e o : Nat) : 0x1000000 ≤ ea e o := by
  simp only [ea, Win.base]
  omega

theorem le_ca (n o : Nat) : 0x1000000 ≤ ca n o := by
  simp only [ca, Win.base]
  omega

theorem State.countKc_onlyCounts (s : State) (n : Nat) (issued : Bool) : s.OnlyCounts (s.countKc n issued) := by
  unfold State.countKc
  extract_lets e s1
  have h1 : s.OnlyCounts s1 := s.count64_onlyCounts (le_ea ..) 1
  split
  · exact h1.trans (s1.count64_onlyCounts (le_ea ..) 1)
  · exact h1.trans (s1.count64_onlyCounts (le_ea ..) 1)

/-- A kc of a running cluster in its engine's counters and its own. -/
def State.countCl (s : State) (issued : List ClusterNo) (e : Nat × Cluster) : State :=
  if e.2.st = 2 ∧ s.clOn e.1 then
    let a := s.countKc e.1 (issued.any (fun i => decide (i.val = e.1)))
    if e.2.arrOn || e.2.runs.any (fun m => m.begun) then a.count64 (ca e.1 0x188) 1 else a
  else s

theorem State.countCl_onlyCounts (s : State) (issued : List ClusterNo) (e : Nat × Cluster) : s.OnlyCounts (s.countCl issued e) := by
  unfold State.countCl
  split
  · extract_lets a
    have ha : s.OnlyCounts a := s.countKc_onlyCounts ..
    split
    · exact ha.trans (a.count64_onlyCounts (le_ca ..) 1)
    · exact ha
  · exact State.OnlyCounts.refl s

/-- The state in a kc that counts, with its clusters' counters gone on. -/
def State.clustersCounted (s : State) (issued : List ClusterNo) : State :=
  s.clusters.foldl (fun t e => t.countCl issued e) s.timePassed

theorem State.clustersCounted_onlyCounts (s : State) (issued : List ClusterNo) : s.timePassed.OnlyCounts (s.clustersCounted issued) :=
  List.foldlRecOn (motive := s.timePassed.OnlyCounts) s.clusters _ (State.OnlyCounts.refl _) fun _ ht e _ =>
    ht.trans (State.countCl_onlyCounts _ issued e)

/-! A kc (R263, R319) -/

theorem State.drainStep_of_not_draining {s : State} (h : s.svcPhase ≠ 4) : s.drainStep = s :=
  if_neg (by simp [State.portsServed, h])

theorem State.catchUp_frame (s : State) : s.catchUp = { s with setpLate := s.catchUp.setpLate, cvn := s.catchUp.cvn } := by
  unfold State.catchUp
  split <;> rfl

theorem State.hostOn_of_no_later {s : State} (h : s.teth.later = []) : s.hostOn = s := by rw [State.hostOn, h, List.foldl_nil]

/-- In OFF, and at the end of a period, no kc passes (R263). -/
theorem State.kilnCycle_of_standing {s : State} (h : s.phase = 0 ∨ (s.stagesRun = true ∧ 8192 ≤ s.kc)) (issued : List ClusterNo) :
    s.kilnCycle issued = s :=
  if_pos (h.elim (fun h => by simp [h]) fun ⟨hr, hk⟩ => by simp [hr, hk])

section
variable {s : State} (hres : s.resets = []) (hsvc : s.svcPhase ≠ 4) (hp : s.phase ≠ 0)
include hres hsvc hp

theorem State.kilnCycle_of_counting (hr : s.stagesRun = true) (hk : s.kc < 8192) (issued : List ClusterNo) :
    s.kilnCycle issued =
      ({ (s.clustersCounted issued).mapCl Cluster.tick with kc := s.kc + 1, counted := [] } : State).catchUp := by
  unfold State.kilnCycle
  rw [if_neg (by simp [hp, hk])]
  simp only [State.dueResets_of_nil hres, State.drainStep_of_not_draining hsvc, ite_self, hr, Bool.not_true, Bool.false_eq_true, if_false]
  rfl

theorem State.kilnCycle_of_not_counting (hr : s.stagesRun = false) (issued : List ClusterNo) :
    s.kilnCycle issued = { s.timePassed with counted := [] } := by
  unfold State.kilnCycle
  rw [if_neg (by simp [hp, hr])]
  simp only [State.dueResets_of_nil hres, State.drainStep_of_not_draining hsvc, ite_self, hr, Bool.not_false, if_true]
  rfl

end

/-- What a kc leaves as it was, and the caravan time it gives. -/
structure State.PassesTo (s t : State) : Prop where
  late : t.late = s.late
  loess : t.loess = s.loess
  rings : t.rings = s.rings
  teth : t.teth = s.teth
  cvnTime : t.cvnTime = (s.cvnTime + s.ticksPerKc) % 2 ^ 64

theorem State.timePassed_passesTo {s : State} (h : ∀ u < 16, (s.chk u).queue = []) : s.PassesTo s.timePassed := by
  obtain ⟨cs, ds, heq⟩ := State.timePassed_frame h
  rw [heq]
  exact ⟨rfl, rfl, rfl, rfl, State.setReg64_reg64_same s.newKc 0x50000C (Nat.mod_lt _ (by decide))⟩

theorem State.PassesTo.of_onlyCounts {s t u : State} (h : s.PassesTo t) (k : t.OnlyCounts u) : s.PassesTo u := by
  obtain ⟨hu, htime⟩ := k
  exact ⟨(congrArg State.late hu :).trans h.late, (congrArg State.loess hu :).trans h.loess, (congrArg State.rings hu :).trans h.rings,
    (congrArg State.teth hu :).trans h.teth, htime.trans h.cvnTime⟩

theorem State.kilnCycle_passesTo_of_counting {s : State} (hres : s.resets = []) (hsvc : s.svcPhase ≠ 4)
    (hq : ∀ u < 16, (s.chk u).queue = []) (hp : s.phase ≠ 0) (hr : s.stagesRun = true) (hk : s.kc < 8192) (issued : List ClusterNo) :
    s.PassesTo (s.kilnCycle issued) ∧ (s.kilnCycle issued).kc = s.kc + 1 := by
  have h := (State.timePassed_passesTo hq).of_onlyCounts (s.clustersCounted_onlyCounts issued)
  rw [State.kilnCycle_of_counting hres hsvc hp hr hk, State.catchUp_frame]
  exact ⟨⟨h.late, h.loess, h.rings, h.teth, h.cvnTime⟩, rfl⟩

theorem State.kilnCycle_passesTo_of_not_counting {s : State} (hres : s.resets = []) (hsvc : s.svcPhase ≠ 4)
    (hq : ∀ u < 16, (s.chk u).queue = []) (hp : s.phase ≠ 0) (hr : s.stagesRun = false) (issued : List ClusterNo) :
    s.PassesTo (s.kilnCycle issued) ∧ (s.kilnCycle issued).kc = s.kc ∧ (s.kilnCycle issued).clusters = s.clusters := by
  have h := State.timePassed_passesTo hq
  obtain ⟨cs, ds, heq⟩ := State.timePassed_frame hq
  rw [State.kilnCycle_of_not_counting hres hsvc hp hr]
  exact ⟨⟨h.late, h.loess, h.rings, h.teth, h.cvnTime⟩, (congrArg State.kc heq :), (congrArg State.clusters heq :)⟩

/-- With no access of the host waiting, the command is the kc alone. -/
theorem exec_kilnCycle_of_no_later {s : State} {issued : List ClusterNo} (h : (s.kilnCycle issued).teth.later = []) :
    exec (.kilnCycle issued) s = .next (s.kilnCycle issued) :=
  congrArg Host.Outcome.next (State.hostOn_of_no_later h)

theorem exec_kilnCycle_of_standing {s : State} (hlater : s.teth.later = []) (h : s.phase = 0 ∨ (s.stagesRun = true ∧ 8192 ≤ s.kc))
    (issued : List ClusterNo) : exec (.kilnCycle issued) s = .next s := by
  have hk := State.kilnCycle_of_standing h issued
  rw [exec_kilnCycle_of_no_later (by rw [hk, hlater]), hk]

/-! Tandem records without partner (R304, R305) -/

theorem State.stopCl_tandem (s : State) (n cause : Nat) : (s.stopCl n cause).tandem = s.tandem := by
  unfold State.stopCl
  extract_lets c
  split <;> rfl

/-- A divergence is recorded, and may stop clusters; the tandem queues stay. -/
theorem State.diverge_tandem (s : State) (cause : Nat) (own : TRec) : (s.diverge cause own).tandem = s.tandem := by
  unfold State.diverge
  extract_lets k s2 s3
  have hrec : s3.sansRecords = s.sansRecords :=
    (s2.raise_sansRecords ..).trans ((State.capture_sansRecords ..).trans (s.count_sansRecords ..))
  have h3 : s3.tandem = s.tandem := (congrArg State.tandem hrec :)
  split
  · refine List.foldlRecOn (motive := fun t : State => t.tandem = s.tandem) s3.clusters _ h3 fun t ht e _ => ?_
    split
    · exact (t.stopCl_tandem ..).trans ht
    · exact ht
  · exact h3

theorem State.diverges_unit (s : State) (cause : Nat) (rs : List TRec) (e : Nat) :
    (rs.foldl (fun s r => s.diverge cause r) s).unit e = s.unit e :=
  List.foldlRecOn (motive := fun t : State => t.unit e = s.unit e) rs _ rfl fun t ht r _ =>
    (congrArg (fun m => sget idleUnit m e) (t.diverge_tandem cause r)).trans ht

theorem exec_tandemTimeout_of_off {s : State} (h : s.tmode = 0) (e : Fin 16) : exec (.tandemTimeout e) s = .next s := if_pos h

/-- An own record's partner has not come after TIMEOUT boundaries. -/
def State.overdue (s : State) (r : TRec) : Bool := decide (r.stage + s.fld 0x700 8 8 ≤ s.stageNo)

theorem exec_tandemTimeout_of_on {s : State} (h : s.tmode ≠ 0) (e : Fin 16) : exec (.tandemTimeout e) s =
    .next (((s.unit e).own.filter s.overdue).foldl (fun s r => s.diverge 3 r)
      (s.setUnit e { s.unit e with own := (s.unit e).own.filter (fun r => !s.overdue r) })) :=
  if_neg h

/-! The obligation -/

/-- Settles O23: a kc by whether it passes and whether stages are counted, what it leaves by the frame of each of its parts; a timeout by
what a divergence leaves. -/
theorem kilnCyclesPassAndTandemRecordsTimeOut : Obligations.KilnCyclesPassAndTandemRecordsTimeOut := by
  unfold Obligations.KilnCyclesPassAndTandemRecordsTimeOut
  refine ⟨fun s issued hres hlater hsvc hq => ⟨fun hp => exec_kilnCycle_of_standing hlater (.inl hp) issued,
    fun hr hk => exec_kilnCycle_of_standing hlater (.inr ⟨hr, hk⟩) issued, fun hp hr hk => ?counting, fun hp hr => ?not_counting⟩,
    fun s e => ?timeout⟩
  case counting =>
    obtain ⟨h, hkc⟩ := State.kilnCycle_passesTo_of_counting hres hsvc hq hp hr hk issued
    exact ⟨_, exec_kilnCycle_of_no_later (h.teth ▸ hlater), hkc, h.late, h.loess, h.rings, h.cvnTime⟩
  case not_counting =>
    obtain ⟨h, hkc, hcl⟩ := State.kilnCycle_passesTo_of_not_counting hres hsvc hq hp hr issued
    exact ⟨_, exec_kilnCycle_of_no_later (h.teth ▸ hlater), hkc, hcl, h.loess, h.rings, h.cvnTime⟩
  case timeout =>
    intro u late
    refine ⟨fun h => exec_tandemTimeout_of_off h e, fun h => ⟨_, exec_tandemTimeout_of_on h e, rfl, ?_, ?_⟩⟩
    · rw [State.diverges_unit, State.setUnit_unit_same]
      rfl
    · rw [State.diverges_unit, State.setUnit_unit_same]

end Sys2Proof.Machine
end

section
/-! SUPPORT. How the partner's tandem records arrive and meet the own ones, and how TIME messages lock caravan time and missed ones unlock it
(R303, R304, R320, R323). -/

namespace Sys2Proof.Machine

/-! A slot of the partner's records (R303, R304) -/

section
variable {s s1 : State} {p : Fin 16} {m : List Byte}

/-- Out of tandem mode 1, on another port than the partner's, and with no slot of records received. -/
theorem exec_tandemRecords_of_idle
    (h : s.tmode ≠ 1 ∨ s.fld 0x700 2 4 ≠ p.val ∨ s.takeRx p (fun m => decide (m.1 = 3)) = none) :
    exec (.tandemRecords p) s = .next s := by
  change execTandemRecords p s = _
  unfold execTandemRecords
  split
  · rfl
  next hon =>
    have hnone : s.takeRx p (fun m => decide (m.1 = 3)) = none := by
      rw [not_or] at hon
      exact (h.resolve_left hon.1).resolve_left hon.2
    rw [hnone]

/-- The records of a slot that go to an engine. -/
def recordsFor (rs : List TRec) (e : Nat) : List TRec := rs.filter (fun r => decide (r.cl / 128 = e))

/-- A slot has records for an engine, and its partner queue has no room for them. -/
def State.partnersFull (s : State) (rs : List TRec) (e : Nat) : Bool :=
  rs.any (fun r => decide (r.cl / 128 = e)) && decide (512 < (s.unit e).partner.length + (recordsFor rs e).length)

theorem State.partnersFull_iff (s : State) (rs : List TRec) (e : Nat) : s.partnersFull rs e = true ↔
    0 < (recordsFor rs e).length ∧ 512 < (s.unit e).partner.length + (recordsFor rs e).length := by
  have hany : rs.any (fun r => decide (r.cl / 128 = e)) = true ↔ 0 < (recordsFor rs e).length := by
    simp [recordsFor, List.length_pos_iff_exists_mem]
  rw [State.partnersFull, Bool.and_eq_true, hany, decide_eq_true_iff]

theorem exec_tandemRecords_of_slot (hmode : s.tmode = 1) (hport : s.fld 0x700 2 4 = p.val)
    (h : s.takeRx p (fun m => decide (m.1 = 3)) = some (m, s1)) : exec (.tandemRecords p) s =
      if (List.range 16).any (s.partnersFull (recordsOf m)) then .next s
      else .next ((recordsOf m).foldl (fun s r => s.tandemPartner (r.cl / 128) r) s1) := by
  change execTandemRecords p s = _
  unfold execTandemRecords
  rw [if_neg (by simp [hmode, hport]), h]
  rfl

end

/-! A partner record meets its own (R304) -/

/-- Two records are of one cluster identity and SEQ. -/
def TRec.meets (r x : TRec) : Bool := decide (x.cl = r.cl) && decide (x.seq = r.seq)

theorem TRec.meets_iff (r x : TRec) : r.meets x = true ↔ x.cl = r.cl ∧ x.seq = r.seq := by
  simp [TRec.meets]

theorem State.tandemPartner_of_waits {s : State} {e : Nat} {r : TRec} (h : ∀ x ∈ (s.unit e).own, ¬ r.meets x = true) :
    s.tandemPartner e r = s.setUnit e { s.unit e with partner := (s.unit e).partner ++ [r] } := by
  unfold State.tandemPartner
  extract_lets u
  split
  next x hx => exact absurd (List.find?_some hx) (h x (List.mem_of_find?_eq_some hx))
  next => rfl

theorem State.tandemPartner_of_meets {s : State} {e : Nat} {r x : TRec} {pre post : List TRec}
    (heq : (s.unit e).own = pre ++ x :: post) (hpre : ∀ y ∈ pre, ¬ r.meets y = true) (hx : r.meets x = true) :
    s.tandemPartner e r = (s.setUnit e { s.unit e with own := pre ++ post }).compare x r := by
  have hfind : (s.unit e).own.find? r.meets = some x := List.find?_eq_some_iff_append.mpr ⟨hx, pre, post, heq, by simpa using hpre⟩
  have herase : (s.unit e).own.erase x = pre ++ post := by
    rw [heq, List.erase_append_right _ fun hmem => hpre x hmem hx, List.erase_cons_head]
  rw [← herase]
  unfold State.tandemPartner
  extract_lets u
  split
  next y hy =>
    obtain rfl : y = x := Option.some.inj (hy.symm.trans hfind)
    rfl
  next hnone => exact absurd (hnone.symm.trans hfind) nofun

section
variable {own partner : TRec} (s : State)

theorem State.compare_of_check (h : own.check ≠ partner.check) : s.compare own partner = (s.count64 0x720 1).diverge 1 own :=
  if_pos h

theorem State.compare_of_count (hc : own.check = partner.check) (hk : own.k % 2 ^ 32 ≠ partner.k % 2 ^ 32) :
    s.compare own partner = (s.count64 0x720 1).diverge 2 own :=
  (if_neg (not_not_intro hc)).trans (if_pos hk)

theorem State.compare_of_equal (hc : own.check = partner.check) (hk : own.k % 2 ^ 32 = partner.k % 2 ^ 32) :
    s.compare own partner = s.count64 0x720 1 :=
  (if_neg (not_not_intro hc)).trans (if_neg (not_not_intro hk))

end

/-! TIME (R320, R323) -/

section
variable {s s1 : State} {p : Fin 16} {trx : BitVec 64} {m : List Byte}

theorem exec_time_of_none (h : s.takeControl p 1 = none) : exec (.time p trx) s = .next s := by
  change execTime p trx s = _
  rw [execTime, h]

theorem exec_time_of_not_parent (h : s.takeControl p 1 = some (m, s1)) (hp : s.parent ≠ some p.val) :
    exec (.time p trx) s = .next s1 := by
  change execTime p trx s = _
  rw [execTime, h]
  exact if_pos hp

/-- Twice the offset that a TIME message gives: its times' difference less the one-way delay, in half ticks. -/
def State.offset2 (s : State) (p : Nat) (trx : BitVec 64) (m : List Byte) : Int :=
  2 * ((trx.toNat : Int) - (leAt m 8 8 : Nat)) - s.delay2 p

/-- How many TIME messages in a row have given an offset within one tick, 16 at most, after one that gives `two` half ticks. -/
def State.runAfter (s : State) (two : Int) : Nat := if -2 ≤ two ∧ two ≤ 2 then min (s.cvn.lockRun + 1) 16 else 0

/-- The state with a TIME message's offset recorded, before the lock. -/
def State.timed (s : State) (run : Nat) (two : Int) : State :=
  ({ s with cvn := { s.cvn with lockRun := run, missed := 0 } } : State).setRegN 0x500014 (bitsOf 16 (two / 2))

theorem offsetReg_of_fits {o : Int} (hlo : -32768 ≤ o) (hhi : o < 32768) : offsetReg o = bitsOf 16 o := if_pos ⟨hlo, hhi⟩

/-- The lock follows the run: it is given where 16 in a row are within a tick, else left as it is. -/
theorem exec_time_of_parent (h : s.takeControl p 1 = some (m, s1)) (hp : s.parent = some p.val)
    (hlo : -32768 ≤ s.offset2 p trx m / 2) (hhi : s.offset2 p trx m / 2 < 32768) :
    let run := s.runAfter (s.offset2 p trx m)
    let t := s1.timed run (s.offset2 p trx m)
    exec (.time p trx) s = .next (if 16 ≤ run then t.setFld 0x500000 2 1 1 else t).musterStep := by
  intro run t
  have hrun : run = if decide (-2 ≤ s.offset2 p trx m) && decide (s.offset2 p trx m ≤ 2)
      then min (s.cvn.lockRun + 1) 16 else 0 := by
    simp [run, State.runAfter]
  change execTime p trx s = _
  rw [execTime, h]
  simp only [t, hrun, State.timed, ← offsetReg_of_fits hlo hhi]
  exact if_neg (not_not_intro hp)

theorem exec_time_of_run (h : s.takeControl p 1 = some (m, s1)) (hp : s.parent = some p.val)
    (hlo : -32768 ≤ s.offset2 p trx m / 2) (hhi : s.offset2 p trx m / 2 < 32768) (hrun : s.runAfter (s.offset2 p trx m) < 16) :
    exec (.time p trx) s = .next (s1.timed (s.runAfter (s.offset2 p trx m)) (s.offset2 p trx m)).musterStep := by
  rw [exec_time_of_parent h hp hlo hhi, if_neg (Nat.not_le.mpr hrun)]

theorem exec_time_of_lock (h : s.takeControl p 1 = some (m, s1)) (hp : s.parent = some p.val)
    (hlo : -32768 ≤ s.offset2 p trx m / 2) (hhi : s.offset2 p trx m / 2 < 32768) (hrun : s.runAfter (s.offset2 p trx m) = 16) :
    exec (.time p trx) s =
      .next ((s1.timed (s.runAfter (s.offset2 p trx m)) (s.offset2 p trx m)).setFld 0x500000 2 1 1).musterStep := by
  rw [exec_time_of_parent h hp hlo hhi, if_pos (Nat.le_of_eq hrun.symm)]

end

/-! CVN_UNLOCK (R320) -/

theorem exec_cvnUnlock_of_missed {s : State} (hm : 16 ≤ s.cvn.missed) (hl : (s.reg 0x500000).getLsbD 2 = true) :
    let u := ({ s with cvn := { s.cvn with lockRun := 0 } } : State).setFld 0x500000 2 1 0
    exec .cvnUnlock s = .next (u.raise 25 0 0 (u.regN 0x500000) 0) :=
  if_pos ⟨hm, hl⟩

theorem exec_cvnUnlock_of_not_missed {s : State} (h : s.cvn.missed < 16 ∨ (s.reg 0x500000).getLsbD 2 = false) :
    exec .cvnUnlock s = .next s :=
  if_neg fun ⟨hm, hl⟩ => h.elim (fun hlt => Nat.not_lt.mpr hm hlt) fun hf => Bool.false_ne_true (hf ▸ hl)

/-! The obligation -/

/-- Settles O26: a slot of records by whether a queue is full, a record by whether its own waits and how the two differ, TIME by the port
and the run of offsets within a tick, CVN_UNLOCK by its guard. -/
theorem partnerRecordsArriveAndTimeLocks : Obligations.PartnerRecordsArriveAndTimeLocks := by
  unfold Obligations.PartnerRecordsArriveAndTimeLocks
  refine ⟨⟨fun s p => ⟨exec_tandemRecords_of_idle, fun m s1 hmode hport htake => ?slot⟩, fun s e r => ?record⟩,
    fun s p trx => ⟨exec_time_of_none, fun m s1 htake =>
      ⟨exec_time_of_not_parent htake, exec_time_of_run htake, exec_time_of_lock htake⟩⟩,
    fun s => ⟨exec_cvnUnlock_of_missed, exec_cvnUnlock_of_not_missed⟩⟩
  case slot =>
    intro rs need
    rw [exec_tandemRecords_of_slot hmode hport htake]
    refine ⟨fun hroom => if_neg ?_, fun ⟨e, he, hfull⟩ => if_pos ?_⟩
    · rw [List.any_eq_true]
      rintro ⟨e, he, hfull⟩
      obtain ⟨hneed, hover⟩ := (s.partnersFull_iff rs e).mp hfull
      exact (hroom e (List.mem_range.mp he)).elim (Nat.ne_of_gt hneed) (Nat.not_le.mpr hover)
    · exact List.any_eq_true.mpr ⟨e, List.mem_range.mpr he, (s.partnersFull_iff rs e).mpr hfull⟩
  case record =>
    intro u same
    refine ⟨fun h => State.tandemPartner_of_waits fun x hx => mt (r.meets_iff x).mp (h x hx), fun pre x post heq hpre hx => ?_⟩
    rw [State.tandemPartner_of_meets heq (fun y hy => mt (r.meets_iff y).mp (hpre y hy)) ((r.meets_iff x).mpr hx)]
    exact ⟨State.compare_of_check _, State.compare_of_count _, State.compare_of_equal _⟩

end Sys2Proof.Machine
end

section
/-! SUPPORT. Fields of registers: what a field reads after a write of it or of another, bit by bit (R12). -/

namespace Sys2Proof.Machine

/-! Fields of a number -/

theorem bits_testBit (x lo n i : Nat) : (bits x lo n).testBit i = (decide (i < n) && x.testBit (lo + i)) := by
  rw [bits, Nat.testBit_mod_two_pow, Nat.testBit_div_two_pow, Nat.add_comm]

theorem bits_lt (x lo n : Nat) : bits x lo n < 2 ^ n := Nat.mod_lt _ (Nat.two_pow_pos n)

/-- A number cut at the two ends of a field. -/
theorem eq_above_field_add (x lo n : Nat) : x = 2 ^ lo * (2 ^ n * (x / 2 ^ lo / 2 ^ n) + bits x lo n) + x % 2 ^ lo := by
  rw [bits, Nat.div_add_mod, Nat.div_add_mod]

theorem putBits_eq (x lo n v : Nat) :
    putBits x lo n v = 2 ^ lo * (2 ^ n * (x / 2 ^ lo / 2 ^ n) + v % 2 ^ n) + x % 2 ^ lo := by
  have hx := eq_above_field_add x lo n
  rw [putBits]
  generalize bits x lo n = b at *
  generalize x / 2 ^ lo / 2 ^ n = a at *
  generalize x % 2 ^ lo = c at *
  rw [hx, Nat.mul_add, Nat.mul_add, Nat.mul_comm b, Nat.mul_comm (v % _)]
  omega

/-- A written field holds the value's bits, every other bit stays. -/
theorem putBits_testBit (x lo n v i : Nat) :
    (putBits x lo n v).testBit i = if lo ≤ i ∧ i < lo + n then v.testBit (i - lo) else x.testBit i := by
  rw [putBits_eq, Nat.testBit_two_pow_mul_add _ (Nat.mod_lt _ (Nat.two_pow_pos lo))]
  by_cases hlo : i < lo
  · rw [if_pos hlo, if_neg (by omega), Nat.testBit_mod_two_pow]
    simp [hlo]
  · rw [if_neg hlo, Nat.testBit_two_pow_mul_add _ (Nat.mod_lt _ (Nat.two_pow_pos n))]
    by_cases hn : i - lo < n
    · rw [if_pos hn, if_pos (by omega), Nat.testBit_mod_two_pow]
      simp [hn]
    · rw [if_neg hn, if_neg (by omega), Nat.testBit_div_two_pow, Nat.testBit_div_two_pow]
      congr 1
      omega

theorem putBits_lt {x lo n w : Nat} (v : Nat) (hx : x < 2 ^ w) (hn : lo + n ≤ w) : putBits x lo n v < 2 ^ w := by
  refine Nat.lt_pow_two_of_testBit _ fun i hi => ?_
  rw [putBits_testBit, if_neg (by omega)]
  exact Nat.testBit_lt_two_pow (hx.trans_le (Nat.pow_le_pow_right Nat.two_pos hi))

theorem bits_putBits_same (x lo n v : Nat) : bits (putBits x lo n v) lo n = v % 2 ^ n := by
  refine Nat.eq_of_testBit_eq fun i => ?_
  rw [bits_testBit, putBits_testBit, Nat.testBit_mod_two_pow]
  by_cases hi : i < n
  · rw [if_pos ⟨by omega, by omega⟩, Nat.add_sub_cancel_left]
  · simp [hi]

theorem bits_putBits_other {x lo n v lo' n' : Nat} (h : lo' + n' ≤ lo ∨ lo + n ≤ lo') :
    bits (putBits x lo n v) lo' n' = bits x lo' n' := by
  refine Nat.eq_of_testBit_eq fun i => ?_
  rw [bits_testBit, bits_testBit, putBits_testBit]
  by_cases hi : i < n'
  · rw [if_neg (by omega)]
  · simp [hi]

/-! Fields of registers -/

theorem State.reg_getLsbD (s : State) (a i : Nat) : (s.reg a).getLsbD i = (s.regN a).testBit i := rfl

theorem State.regN_lt (s : State) (a : Nat) : s.regN a < 2 ^ 32 := (s.reg a).isLt

theorem State.setRegN_regN_same (s : State) (a v : Nat) : (s.setRegN a v).regN a = v % 2 ^ 32 := by
  rw [State.regN, State.setRegN_reg, if_pos rfl, BitVec.toNat_ofNat]

theorem State.setFld_regN_same (s : State) (a v : Nat) {lo n : Nat} (hn : lo + n ≤ 32) :
    (s.setFld a lo n v).regN a = putBits (s.regN a) lo n v := by
  rw [State.setFld, State.setRegN_regN_same, Nat.mod_eq_of_lt (putBits_lt v (s.regN_lt a) hn)]

theorem State.setFld_regN_other (s : State) {a b : Nat} (lo n v : Nat) (h : b ≠ a) : (s.setFld a lo n v).regN b = s.regN b :=
  congrArg BitVec.toNat (s.setFld_reg_other lo n v h)

theorem State.setFld_fld_same (s : State) (a v : Nat) {lo n : Nat} (hn : lo + n ≤ 32) :
    (s.setFld a lo n v).fld a lo n = v % 2 ^ n := by
  rw [State.fld, s.setFld_regN_same a v hn, bits_putBits_same]

/-- Another field of the register written. -/
theorem State.setFld_fld_apart (s : State) (a v : Nat) {lo n lo' n' : Nat} (hn : lo + n ≤ 32)
    (h : lo' + n' ≤ lo ∨ lo + n ≤ lo') : (s.setFld a lo n v).fld a lo' n' = s.fld a lo' n' := by
  rw [State.fld, s.setFld_regN_same a v hn, bits_putBits_other h, State.fld]

theorem State.setFld_fld_other (s : State) {a b : Nat} (lo n v lo' n' : Nat) (h : b ≠ a) :
    (s.setFld a lo n v).fld b lo' n' = s.fld b lo' n' :=
  congrArg (bits · lo' n') (s.setFld_regN_other lo n v h)

theorem State.setFld_reg_bit (s : State) (a v i : Nat) {lo n : Nat} (hn : lo + n ≤ 32) :
    ((s.setFld a lo n v).reg a).getLsbD i = if lo ≤ i ∧ i < lo + n then v.testBit (i - lo) else (s.reg a).getLsbD i := by
  rw [State.reg_getLsbD, s.setFld_regN_same a v hn, putBits_testBit, State.reg_getLsbD]

end Sys2Proof.Machine
end

section
/-! SUPPORT. What no command disturbs, put together over all commands, and what a step and the reset leave (R395, R404, R409,
R434, R435). -/

namespace Sys2Proof.Machine

/-- Every command keeps the queue of those that wait, the grade, the form of Loess memory, counters and revoked slots. -/
theorem exec_keeps {z s : State} (hk : Keeps z s) (i : Instr) : KeepsOut z (exec i s) := by
  cases i with
  | nop => exact execNop_keeps (hk := hk) ..
  | endHalf => exact execEndHalf_keeps (hk := hk) ..
  | loop => exact execLoop_keeps (hk := hk) ..
  | stagew => exact execStagew_keeps (hk := hk) ..
  | mop => exact execMop_keeps (hk := hk) ..
  | wload => exact execWload_keeps (hk := hk) ..
  | swap => exact execSwap_keeps (hk := hk) ..
  | read => exact execRead_keeps (hk := hk) ..
  | drain => exact execDrain_keeps (hk := hk) ..
  | tload => exact execTload_keeps (hk := hk) ..
  | clear => exact execClear_keeps (hk := hk) ..
  | glz => exact execGlz_keeps (hk := hk) ..
  | gtload => exact execGtload_keeps (hk := hk) ..
  | gswitch => exact execGswitch_keeps (hk := hk) ..
  | gstep => exact execGstep_keeps (hk := hk) ..
  | wadv => exact execWadv_keeps (hk := hk) ..
  | setp => exact execSetp_keeps (hk := hk) ..
  | red => exact execRed_keeps (hk := hk) ..
  | stream => exact execStream_keeps (hk := hk) ..
  | spair => exact execSpair_keeps (hk := hk) ..
  | job => exact execJob_keeps (hk := hk) ..
  | waits => exact execWaits_keeps (hk := hk) ..
  | taskIssue => exact execTaskIssue_keeps (hk := hk) ..
  | taskHalfStart => exact execTaskHalfStart_keeps (hk := hk) ..
  | outerProductStep => exact execOuterProductStep_keeps (hk := hk) ..
  | streamTokenStep => exact execStreamTokenStep_keeps (hk := hk) ..
  | weightRowLoad => exact execWeightRowLoad_keeps (hk := hk) ..
  | manifestLaneAccept => exact execManifestLaneAccept_keeps (hk := hk) ..
  | glazeVectorEntry => exact execGlazeVectorEntry_keeps (hk := hk) ..
  | glazeLoadStart => exact execGlazeLoadStart_keeps (hk := hk) ..
  | glazeLoadDone => exact execGlazeLoadDone_keeps (hk := hk) ..
  | loadQueuePush => exact execLoadQueuePush_keeps (hk := hk) ..
  | storeQueuePush => exact execStoreQueuePush_keeps (hk := hk) ..
  | storeQueuePop => exact execStoreQueuePop_keeps (hk := hk) ..
  | granuleIssue => exact execGranuleIssue_keeps (hk := hk) ..
  | granuleLand => exact execGranuleLand_keeps (hk := hk) ..
  | writeAck => exact execWriteAck_keeps (hk := hk) ..
  | slotGrant => exact execSlotGrant_keeps (hk := hk) ..
  | loessRead => exact execLoessRead_keeps (hk := hk) ..
  | loessWrite => exact execLoessWrite_keeps (hk := hk) ..
  | rhThrottle => exact execRhThrottle_keeps (hk := hk) ..
  | rowRefresh => exact execRowRefresh_keeps (hk := hk) ..
  | bedrockJob => exact execBedrockJob_keeps (hk := hk) ..
  | jobComplete => exact execJobComplete_keeps (hk := hk) ..
  | hazardNotice => exact execHazardNotice_keeps (hk := hk) ..
  | holdTransitionDone => exact execHoldTransitionDone_keeps (hk := hk) ..
  | bedrockFwRestart => exact execBedrockFwRestart_keeps (hk := hk) ..
  | specZeroDone => exact execSpecZeroDone_keeps (hk := hk) ..
  | tileDrainRow => exact execTileDrainRow_keeps (hk := hk) ..
  | stageBoundary => exact execStageBoundary_keeps (hk := hk) ..
  | extensionPeriodEnd => exact execExtensionPeriodEnd_keeps (hk := hk) ..
  | stageHung => exact execStageHung_keeps (hk := hk) ..
  | votePoint => exact execVotePoint_keeps (hk := hk) ..
  | leadDecisionDeadline => exact execLeadDecisionDeadline_keeps (hk := hk) ..
  | pauseSettled => exact execPauseSettled_keeps (hk := hk) ..
  | tandemTimeout => exact execTandemTimeout_keeps (hk := hk) ..
  | caravanFrame => exact execCaravanFrame_keeps (hk := hk) ..
  | reductionChunk => exact execReductionChunk_keeps (hk := hk) ..
  | delivery => exact execDelivery_keeps (hk := hk) ..
  | tandemRecords => exact execTandemRecords_keeps (hk := hk) ..
  | time => exact execTime_keeps (hk := hk) ..
  | identMessage => exact execIdentMessage_keeps (hk := hk) ..
  | readyMessage => exact execReadyMessage_keeps (hk := hk) ..
  | go => exact execGo_keeps (hk := hk) ..
  | dack => exact execDack_keeps (hk := hk) ..
  | leave => exact execLeave_keeps (hk := hk) ..
  | musterStart => exact execMusterStart_keeps (hk := hk) ..
  | musterTimeout => exact execMusterTimeout_keeps (hk := hk) ..
  | cvnUnlock => exact execCvnUnlock_keeps (hk := hk) ..
  | linkDown => exact execLinkDown_keeps (hk := hk) ..
  | trainingComplete => exact execTrainingComplete_keeps (hk := hk) ..
  | quiesceComplete => exact execQuiesceComplete_keeps (hk := hk) ..
  | trainingPatternDetect => exact execTrainingPatternDetect_keeps (hk := hk) ..
  | tetherFlit => exact execTetherFlit_keeps (hk := hk) ..
  | hostLoessRead => exact execHostLoessRead_keeps (hk := hk) ..
  | hostLoessWrite => exact execHostLoessWrite_keeps (hk := hk) ..
  | rejectedRegisterAccess => exact execRejectedRegisterAccess_keeps (hk := hk) ..
  | tetherDown => exact execTetherDown_keeps (hk := hk) ..
  | tetherTrained => exact execTetherTrained_keeps (hk := hk) ..
  | eventDeliver => exact execEventDeliver_keeps (hk := hk) ..
  | sensorRefresh => exact execSensorRefresh_keeps (hk := hk) ..
  | wbrDoorbell => exact execWbrDoorbell_keeps (hk := hk) ..
  | waybillTake => exact execWaybillTake_keeps (hk := hk) ..
  | waybillTimeout => exact execWaybillTimeout_keeps (hk := hk) ..
  | ready => exact execReady_keeps (hk := hk) ..
  | echo => exact execEcho_keeps (hk := hk) ..
  | ident => exact execIdent_keeps (hk := hk) ..
  | resetWarm => exact execResetWarm_keeps (hk := hk) ..
  | resetEngine => exact execResetEngine_keeps (hk := hk) ..
  | resetCluster => exact execResetCluster_keeps (hk := hk) ..
  | cancel => exact execCancel_keeps (hk := hk) ..
  | load => exact execLoad_keeps (hk := hk) ..
  | start => exact execStart_keeps (hk := hk) ..
  | stop => exact execStop_keeps (hk := hk) ..
  | unload => exact execUnload_keeps (hk := hk) ..
  | itnQuery => exact execItnQuery_keeps (hk := hk) ..
  | jobWaybill => exact execJobWaybill_keeps (hk := hk) ..
  | copy => exact execCopy_keeps (hk := hk) ..
  | hold => exact execHold_keeps (hk := hk) ..
  | gload => exact execGload_keeps (hk := hk) ..
  | gswitchWaybill => exact execGswitchWaybill_keeps (hk := hk) ..
  | glzQuery => exact execGlzQuery_keeps (hk := hk) ..
  | propose => exact execPropose_keeps (hk := hk) ..
  | wclear => exact execWclear_keeps (hk := hk) ..
  | muster => exact execMuster_keeps (hk := hk) ..
  | port => exact execPort_keeps (hk := hk) ..
  | disband r i => exact execDisband_keeps r i s hk
  | pause => exact execPause_keeps (hk := hk) ..
  | save => exact execSave_keeps (hk := hk) ..
  | restore => exact execRestore_keeps (hk := hk) ..
  | resume => exact execResume_keeps (hk := hk) ..
  | sensors => exact execSensors_keeps (hk := hk) ..
  | checksum => exact execChecksum_keeps (hk := hk) ..
  | update => exact execUpdate_keeps (hk := hk) ..
  | fwswitch => exact execFwswitch_keeps (hk := hk) ..
  | fwswitchFallback => exact execFwswitchFallback_keeps (hk := hk) ..
  | attest => exact execAttest_keeps (hk := hk) ..
  | pstate => exact execPstate_keeps (hk := hk) ..
  | cap => exact execCap_keeps (hk := hk) ..
  | kstep r i => exact execKstep_keeps r i s hk
  | arm => exact execArm_keeps (hk := hk) ..
  | disarm => exact execDisarm_keeps (hk := hk) ..
  | wbrEnable => exact execWbrEnable_keeps (hk := hk) ..
  | wbrResume => exact execWbrResume_keeps (hk := hk) ..
  | wbrDbRead => exact execWbrDbRead_keeps (hk := hk) ..
  | counterLowRead => exact execCounterLowRead_keeps (hk := hk) ..
  | qntWposRead => exact execQntWposRead_keeps (hk := hk) ..
  | chkStart => exact execChkStart_keeps (hk := hk) ..
  | chkCmp => exact execChkCmp_keeps (hk := hk) ..
  | chkFeedb => exact execChkFeedb_keeps (hk := hk) ..
  | chkFeedh => exact execChkFeedh_keeps (hk := hk) ..
  | chkFeedw => exact execChkFeedw_keeps (hk := hk) ..
  | glzCtlSwitch => exact execGlzCtlSwitch_keeps (hk := hk) ..
  | drvDescWrite => exact execDrvDescWrite_keeps (hk := hk) ..
  | glbFootPinWrite => exact execGlbFootPinWrite_keeps (hk := hk) ..
  | tndModeWrite => exact execTndModeWrite_keeps (hk := hk) ..
  | evtEnable => exact execEvtEnable_keeps (hk := hk) ..
  | evtRdWrite => exact execEvtRdWrite_keeps (hk := hk) ..
  | tthImaskWrite => exact execTthImaskWrite_keeps (hk := hk) ..
  | tthIpendClear => exact execTthIpendClear_keeps (hk := hk) ..
  | lnkEnable => exact execLnkEnable_keeps (hk := hk) ..
  | lnkRetrain => exact execLnkRetrain_keeps (hk := hk) ..
  | lnkQuiesce => exact execLnkQuiesce_keeps (hk := hk) ..
  | pwrEngrst => exact execPwrEngrst_keeps (hk := hk) ..
  | pwrResetWrite => exact execPwrResetWrite_keeps (hk := hk) ..
  | moduleReset => exact execModuleReset_keeps (hk := hk) ..
  | registerWrite => exact execRegisterWrite_keeps (hk := hk) ..
  | powerApplied => exact execPowerApplied_keeps (hk := hk) ..
  | startupPhaseDone => exact execStartupPhaseDone_keeps (hk := hk) ..
  | undervoltage => exact execUndervoltage_keeps (hk := hk) ..
  | brownOut => exact execBrownOut_keeps (hk := hk) ..
  | dieTrip => exact execDieTrip_keeps (hk := hk) ..
  | buttonPress => exact execButtonPress_keeps (hk := hk) ..
  | buttonHeld1s => exact execButtonHeld1s_keeps (hk := hk) ..
  | buttonHeld8s => exact execButtonHeld8s_keeps (hk := hk) ..
  | identifyEnd => exact execIdentifyEnd_keeps (hk := hk) ..
  | svcReq => exact execSvcReq_keeps (hk := hk) ..
  | svcForce => exact execSvcForce_keeps (hk := hk) ..
  | svcCancel => exact execSvcCancel_keeps (hk := hk) ..
  | svcRelease => exact execSvcRelease_keeps (hk := hk) ..
  | svcStopped => exact execSvcStopped_keeps (hk := hk) ..
  | svcWaitExpiry => exact execSvcWaitExpiry_keeps (hk := hk) ..
  | svcDrained => exact execSvcDrained_keeps (hk := hk) ..
  | forcedQuiesceReset => exact execForcedQuiesceReset_keeps (hk := hk) ..
  | ejectorLeverOpen => exact execEjectorLeverOpen_keeps (hk := hk) ..
  | ejectorLeverClose => exact execEjectorLeverClose_keeps (hk := hk) ..
  | cageLatchClose => exact execCageLatchClose_keeps (hk := hk) ..
  | cageLatchOpen => exact execCageLatchOpen_keeps (hk := hk) ..
  | bypass => exact execBypass_keeps (hk := hk) ..
  | idcode => exact execIdcode_keeps (hk := hk) ..
  | samplePreload => exact execSamplePreload_keeps (hk := hk) ..
  | extest => exact execExtest_keeps (hk := hk) ..
  | clamp => exact execClamp_keeps (hk := hk) ..
  | highz => exact execHighz_keeps (hk := hk) ..
  | getSensorReading => exact execGetSensorReading_keeps (hk := hk) ..
  | getPdr => exact execGetPdr_keeps (hk := hk) ..
  | setEventReceiver => exact execSetEventReceiver_keeps (hk := hk) ..
  | getTid => exact execGetTid_keeps (hk := hk) ..
  | getPldmVersion => exact execGetPldmVersion_keeps (hk := hk) ..
  | getPldmTypes => exact execGetPldmTypes_keeps (hk := hk) ..
  | getPldmCommands => exact execGetPldmCommands_keeps (hk := hk) ..
  | setEndpointId => exact execSetEndpointId_keeps (hk := hk) ..
  | setdasa => exact execSetdasa_keeps (hk := hk) ..
  | entdaa => exact execEntdaa_keeps (hk := hk) ..
  | kilnCycle => exact execKilnCycle_keeps (hk := hk) ..
  | testLogicReset => exact execTestLogicReset_keeps (hk := hk) ..
  | periodicCalibration => exact execPeriodicCalibration_keeps (hk := hk) ..

/-- A step keeps them too, but for the command it takes off the queue. -/
theorem step_keeps {s t : State} (h : step s = .next t) : Keeps { s with pending := s.pending.tail } t := by
  unfold step at h
  cases hp : s.pending with
  | nil =>
    rw [hp] at h
    cases h
    exact ⟨hp, rfl, id, fun _ => le_refl _, fun _ _ => id⟩
  | cons c rest =>
    rw [hp] at h
    exact (exec_keeps (Keeps.refl _) c).get t h

/-- Settles O55, by the two forms of the queue. -/
theorem stepRunsTheFrontCommand : Obligations.StepRunsTheFrontCommand := by
  unfold Obligations.StepRunsTheFrontCommand
  refine ⟨fun s c rest hp => ?_, fun s hp => ?_⟩ <;> rw [step, hp]

/-- Settles O56, by `step_keeps`. -/
theorem stepsKeepTheQueue : Obligations.StepsKeepTheQueue := fun _ _ h => ⟨(step_keeps h).pending, (step_keeps h).grade⟩

/-- Settles O57, by `step_keeps`. -/
theorem stepsKeepMemoryCanonical : Obligations.StepsKeepMemoryCanonical := fun _ _ hm h => (step_keeps h).loess hm

/-- Settles O58, by `step_keeps`. -/
theorem stepsNeverUnfuse : Obligations.StepsNeverUnfuse := fun _ _ h => ⟨(step_keeps h).counters, (step_keeps h).revoked⟩

/-- Settles O59: each clause is a field of the reset state, and an empty queue idles. -/
theorem resetStartsUp : Obligations.ResetStartsUp := by
  unfold Obligations.ResetStartsUp
  exact ⟨wf_reset, rfl, rfl, rfl, rfl, fun k => rfl, rfl, rfl⟩

end Sys2Proof.Machine
end

section
/-! SUPPORT. What the query waybills are answered with: module and cluster registers as they read when the waybill starts (R365, R438). -/

namespace Sys2Proof.Machine

/-! What the switching on of rows leaves (R398) -/

section
variable (s : State) (clus : List Nat)

@[simp] theorem State.switchOn_reg (a : Nat) : (s.switchOn clus).reg a = s.reg a := by
  obtain ⟨cs, gs, h⟩ := s.switchOn_frame clus
  rw [h]
  rfl

@[simp] theorem State.switchOn_regN (a : Nat) : (s.switchOn clus).regN a = s.regN a :=
  congrArg BitVec.toNat (s.switchOn_reg clus a)

@[simp] theorem State.switchOn_fld (a lo n : Nat) : (s.switchOn clus).fld a lo n = s.fld a lo n :=
  congrArg (bits · lo n) (s.switchOn_regN clus a)

@[simp] theorem State.switchOn_ready : (s.switchOn clus).ready = s.ready :=
  congrArg (·.getLsbD 0) (s.switchOn_reg clus _)

@[simp] theorem State.switchOn_failed : (s.switchOn clus).failed = s.failed := by
  simp [State.failed]

@[simp] theorem State.switchOn_pstate : (s.switchOn clus).pstate = s.pstate := by
  simp [State.pstate]

@[simp] theorem State.switchOn_grade : (s.switchOn clus).grade = s.grade := by
  obtain ⟨cs, gs, h⟩ := s.switchOn_frame clus
  rw [h]

@[simp] theorem State.switchOn_boot : (s.switchOn clus).boot = s.boot := by
  obtain ⟨cs, gs, h⟩ := s.switchOn_frame clus
  rw [h]

@[simp] theorem State.switchOn_identReg : (s.switchOn clus).identReg = s.identReg := by
  simp [State.identReg]

@[simp] theorem State.switchOn_presentCount : (s.switchOn clus).presentCount = s.presentCount := by
  obtain ⟨cs, gs, h⟩ := s.switchOn_frame clus
  rw [h]
  rfl

end

section
variable {s : State} {r : Fin 16} {i : Word} {w : Wb}

/-- READY when it starts: answered by a module that is ready or that has failed, else it waits (R353, R411). -/
theorem exec_ready_of_starts (hs : s.Starts 0x100 r i.toNat w) :
    exec (.ready r i) s = .next (
      if s.ready then (s.switchOn w.clus).finish r w 0 (s.switchOn w.clus).readyWords
      else if s.failed then (s.switchOn w.clus).finish r w 0x12 [s.fld 0x200000 4 4]
      else (s.switchOn w.clus).setWb r { w with phase := 1 }) := by
  refine congrArg Host.Outcome.next ((startWb_of_starts hs rfl _).trans ?_)
  simp only [State.switchOn_ready, State.switchOn_failed, State.switchOn_fld, State.phaseWb]

theorem exec_echo_of_starts (hs : s.Starts 0x101 r i.toNat w) :
    exec (.echo r i) s = .next ((s.switchOn w.clus).finish r w 0
      [w.params.getD 0 0, if s.boot.recovery then 0 else s.regN 0x400]) := by
  refine congrArg Host.Outcome.next ((startWb_of_starts hs rfl _).trans ?_)
  rw [State.switchOn_boot, State.switchOn_regN]

theorem exec_ident_of_starts (hs : s.Starts 0x102 r i.toNat w) :
    exec (.ident r i) s = .next ((s.switchOn w.clus).finish r w 0
      [s.identReg, s.presentCount, if (if s.boot.recovery then s.boot.sel else s.boot.act) then 1 else 0,
        Config.serial.toNat % 2 ^ 32, Config.serial.toNat / 2 ^ 32 % 2 ^ 32]) := by
  refine congrArg Host.Outcome.next ((startWb_of_starts hs rfl _).trans ?_)
  rw [State.switchOn_identReg, State.switchOn_presentCount, State.switchOn_boot]
  rfl

theorem exec_sensors_of_starts (hs : s.Starts 0x800 r i.toNat w) :
    exec (.sensors r i) s = .next ((s.switchOn w.clus).finish r w 0
      [s.regN 0x20001C, s.regN 0x200020, signWord (s.fld 0x200024 0 16), signWord (s.fld 0x200028 0 16), s.regN 0x200018]) := by
  refine congrArg Host.Outcome.next ((startWb_of_starts hs rfl _).trans ?_)
  simp only [State.switchOn_regN, State.switchOn_fld]

theorem exec_itnQuery_of_starts (hs : s.Starts 0x204 r i.toNat w) :
    exec (.itnQuery r i) s = .next ((s.switchOn w.clus).finish r w 0
      ((s.switchOn w.clus).clWords (w.params.getD 0 0) [0xA00, 0xA04, 0xA08, 0xA0C, 0xA10])) :=
  congrArg Host.Outcome.next (startWb_of_starts hs rfl _)

theorem exec_glzQuery_of_starts (hs : s.Starts 0x402 r i.toNat w) :
    exec (.glzQuery r i) s = .next ((s.switchOn w.clus).finish r w 0
      ((s.switchOn w.clus).clWords (w.params.getD 0 0) [0x304, 0x308, 0x30C, 0x318, 0x31C])) :=
  congrArg Host.Outcome.next (startWb_of_starts hs rfl _)

end

/-- Settles O38, query by query. -/
theorem queriesAreAnswered : Obligations.QueriesAreAnswered := by
  unfold Obligations.QueriesAreAnswered
  intro s r i w s1 words
  refine ⟨fun hs => ?ready, exec_echo_of_starts, exec_ident_of_starts, exec_sensors_of_starts, exec_itnQuery_of_starts,
    exec_glzQuery_of_starts⟩
  case ready =>
    rw [exec_ready_of_starts hs]
    refine ⟨fun hr => ?_, fun hr hf => ?_, fun hr hf => ?_⟩
    · rw [if_pos hr, State.readyWords, State.switchOn_identReg, State.switchOn_regN]
    · rw [if_neg (by simp [hr]), if_pos hf]
    · rw [if_neg (by simp [hr]), if_neg (by simp [hf])]

end Sys2Proof.Machine
end

section
/-! SUPPORT. What the power waybills do: power states entered and left, the cap, the kiln step (R398, R399, R401, R402, R412). -/

namespace Sys2Proof.Machine

@[simp] theorem State.switchOn_svcPhase (s : State) (clus : List Nat) : (s.switchOn clus).svcPhase = s.svcPhase :=
  s.switchOn_fld ..

@[simp] theorem State.switchOn_dstate (s : State) (clus : List Nat) : (s.switchOn clus).dstate = s.dstate :=
  s.switchOn_fld ..

@[simp] theorem State.switchOn_mustered (s : State) (clus : List Nat) : (s.switchOn clus).mustered = s.mustered := by
  simp [State.mustered]

@[simp] theorem State.switchOn_gradeMax (s : State) (clus : List Nat) : (s.switchOn clus).gradeMax = s.gradeMax := by
  obtain ⟨cs, gs, h⟩ := s.switchOn_frame clus
  rw [h]
  rfl

/-! The transitions of R399 -/

theorem pstateMoves_iff (x y : Nat) :
    pstateMoves x y = true ↔ (x, y) ∈ [(0, 1), (0, 2), (0, 3), (1, 0), (1, 2), (1, 3), (2, 0), (2, 3), (3, 0)] :=
  List.contains_iff_mem

/-- How a listed transition begins, by the state it leaves. -/
theorem State.pstateBegin_of_listed {s : State} {t : Nat}
    (h : (s.pstate, t) ∈ [(0, 1), (0, 2), (0, 3), (1, 0), (1, 2), (1, 3), (2, 0), (2, 3), (3, 0)]) :
    s.pstateBegin t =
      if s.pstate = 3 then (if s.svcPhase = 5 then (s.svcEvent 40).setSvcPhase 0 else s).leaveStandby
      else if s.pstate = 2 then (if t = 0 then s.leaveHold else s.enterStandby.svcRetry)
      else { s.setFld 0x200000 1 3 4 with trans := some (t, false) } := by
  unfold State.pstateBegin
  generalize s.pstate = p at h ⊢
  simp only [List.mem_cons, Prod.mk.injEq, List.not_mem_nil, or_false] at h
  rcases h with ⟨rfl, rfl⟩ | ⟨rfl, rfl⟩ | ⟨rfl, rfl⟩ | ⟨rfl, rfl⟩ | ⟨rfl, rfl⟩ | ⟨rfl, rfl⟩ | ⟨rfl, rfl⟩ | ⟨rfl, rfl⟩ | ⟨rfl, rfl⟩ <;> simp

section
variable {s : State} {r : Fin 16} {i : Word} {w : Wb}

/-! PSTATE -/

section
variable (hs : s.Starts 0xA00 r i.toNat w)
include hs

theorem exec_pstate_of_transition (ht : s.trans.isSome = true) : exec (.pstate r i) s = .next s :=
  congrArg Host.Outcome.next
    (startWb_of_starts_of_not_up (up := fun _ => s.trans.isNone) hs (Option.isNone_eq_false_iff.mpr ht) _)

variable (ht : s.trans = none)
include ht

theorem exec_pstate_of_unlisted (hm : pstateMoves s.pstate (w.params.getD 0 0) = false) :
    exec (.pstate r i) s = .next ((s.switchOn w.clus).finish r w 8 [(Config.openWord 0xA00 0).toNat, s.pstate]) := by
  refine congrArg Host.Outcome.next
    ((startWb_of_starts (up := fun _ => s.trans.isNone) hs (Option.isNone_iff_eq_none.mpr ht) _).trans ?_)
  simp only [State.switchOn_pstate, hm, Bool.not_false, if_true]

variable (hm : pstateMoves s.pstate (w.params.getD 0 0) = true)
include hm

theorem exec_pstate_of_listed (hp : ¬ (s.pstate < 2 ∧ 2 ≤ w.params.getD 0 0)) :
    exec (.pstate r i) s = .next (((s.switchOn w.clus).setWb r w.acting).pstateBegin (w.params.getD 0 0)) := by
  refine congrArg Host.Outcome.next
    ((startWb_of_starts (up := fun _ => s.trans.isNone) hs (Option.isNone_iff_eq_none.mpr ht) _).trans ?_)
  simp only [State.switchOn_pstate, hm, Bool.not_true, Bool.false_eq_true, if_false, hp, State.phaseWb]

variable (hp : s.pstate < 2 ∧ 2 ≤ w.params.getD 0 0)
include hp

theorem exec_pstate_of_running {res : List Nat} (hr : (s.switchOn w.clus).anyRuns = some res) :
    exec (.pstate r i) s = .next ((s.switchOn w.clus).finish r w 8 res) := by
  refine congrArg Host.Outcome.next
    ((startWb_of_starts (up := fun _ => s.trans.isNone) hs (Option.isNone_iff_eq_none.mpr ht) _).trans ?_)
  simp only [State.switchOn_pstate, hm, Bool.not_true, Bool.false_eq_true, if_false, hp, and_self, if_true, hr]

variable (hr : (s.switchOn w.clus).anyRuns = none)
include hr

theorem exec_pstate_of_alone (hd : s.dstate = 0) :
    exec (.pstate r i) s = .next (((s.switchOn w.clus).setWb r w.acting).pstateBegin (w.params.getD 0 0)) := by
  refine congrArg Host.Outcome.next
    ((startWb_of_starts (up := fun _ => s.trans.isNone) hs (Option.isNone_iff_eq_none.mpr ht) _).trans ?_)
  simp only [State.switchOn_pstate, State.switchOn_dstate, hm, Bool.not_true, Bool.false_eq_true, if_false, hp, and_self, if_true, hr,
    hd, ne_eq, not_true_eq_false, State.phaseWb]

theorem exec_pstate_of_domain (hd : s.dstate ≠ 0) :
    exec (.pstate r i) s = .next ((s.switchOn w.clus).finish r w 8 [(Config.openWord 0xA00 1).toNat, s.dstate]) := by
  refine congrArg Host.Outcome.next
    ((startWb_of_starts (up := fun _ => s.trans.isNone) hs (Option.isNone_iff_eq_none.mpr ht) _).trans ?_)
  simp only [State.switchOn_pstate, State.switchOn_dstate, hm, Bool.not_true, Bool.false_eq_true, if_false, hp, and_self, if_true, hr,
    hd, ne_eq, not_false_eq_true]

end

/-! CAP -/

theorem exec_cap_of_over (hs : s.Starts 0xA01 r i.toNat w) (hm : s.gradeMax < w.params.getD 0 0) :
    exec (.cap r i) s = .next (((s.switchOn w.clus).busyW .power).finish r w 7 [0xFF, 0, 0, 0, 0x0C]) := by
  refine congrArg Host.Outcome.next ((startWb_of_starts (up := always) hs rfl _).trans ?_)
  simp only [State.switchOn_gradeMax, hm, if_true]

theorem exec_cap_of_le (hs : s.Starts 0xA01 r i.toNat w) (hm : w.params.getD 0 0 ≤ s.gradeMax) :
    exec (.cap r i) s = .next ((((((s.switchOn w.clus).plainWrite .power 0x20000C (w.params.getD 0 0)).setFld 0x200FF0 2 1 1).wbWrote
      0x20000C 4 0xFFFF).wbWrote 0x200FF0 4 3).setWb r w.acting) := by
  refine congrArg Host.Outcome.next ((startWb_of_starts (up := always) hs rfl _).trans ?_)
  simp only [State.switchOn_gradeMax, Nat.not_lt.mpr hm, if_false, State.armBlock, State.phaseWb]

/-! KSTEP -/

section
variable (hs : s.Starts 0xA02 r i.toNat w)
include hs

theorem exec_kstep_of_running {res : List Nat} (hr : (s.switchOn w.clus).anyRuns = some res) :
    exec (.kstep r i) s = .next ((s.switchOn w.clus).finish r w 8 res) := by
  refine congrArg Host.Outcome.next ((startWb_of_starts (up := always) hs rfl _).trans ?_)
  simp only [hr]

variable (hr : (s.switchOn w.clus).anyRuns = none)
include hr

theorem exec_kstep_of_mustered (hm : s.mustered = true) :
    exec (.kstep r i) s = .next ((s.switchOn w.clus).finish r w 8 [(Config.openWord 0xA02 0).toNat, s.dstate]) := by
  refine congrArg Host.Outcome.next ((startWb_of_starts (up := always) hs rfl _).trans ?_)
  simp only [hr, State.switchOn_mustered, State.switchOn_dstate, hm, if_true]

theorem exec_kstep_of_not_mustered (hm : s.mustered = false) :
    exec (.kstep r i) s = .next (({ s.switchOn w.clus with kstepTo := some (w.params.getD 0 0) } : State).setWb r w.acting) := by
  refine congrArg Host.Outcome.next ((startWb_of_starts (up := always) hs rfl _).trans ?_)
  simp only [hr, State.switchOn_mustered, hm, Bool.false_eq_true, if_false, State.phaseWb]

end
end

/-! The obligation -/

/-- Settles O46: PSTATE by the transition asked for and what stands against it, CAP by the grade's maximum, KSTEP by what runs. -/
theorem powerWaybillsAct : Obligations.PowerWaybillsAct := by
  unfold Obligations.PowerWaybillsAct
  intro s r i w s1 s2 t
  refine ⟨fun hs => ?pstate, fun hs => ⟨exec_cap_of_over hs, exec_cap_of_le hs⟩,
    fun hs => ⟨fun _ => exec_kstep_of_running hs, exec_kstep_of_mustered hs, exec_kstep_of_not_mustered hs⟩⟩
  case pstate =>
    intro listed begins
    have hps : s2.pstate = s.pstate := s.switchOn_pstate _
    have hsp : s2.svcPhase = s.svcPhase := s.switchOn_svcPhase _
    have hbegins (hl : listed) : s2.pstateBegin t = begins := by
      rw [State.pstateBegin_of_listed (hps.symm ▸ hl), hps, hsp]
    refine ⟨exec_pstate_of_transition hs, fun ht => ⟨fun hl => ?_, fun hl hp => ?_, fun hl hlow hhigh => ⟨fun res hr => ?_, fun hr hd => ?_,
      fun hr hd => ?_⟩⟩⟩
    · exact exec_pstate_of_unlisted hs ht (Bool.eq_false_iff.mpr (mt (pstateMoves_iff _ _).mp hl))
    · rw [exec_pstate_of_listed hs ht ((pstateMoves_iff _ _).mpr hl) hp, ← hbegins hl]
    · exact exec_pstate_of_running hs ht ((pstateMoves_iff _ _).mpr hl) ⟨hlow, hhigh⟩ hr
    · rw [exec_pstate_of_alone hs ht ((pstateMoves_iff _ _).mpr hl) ⟨hlow, hhigh⟩ hr hd, ← hbegins hl]
    · exact exec_pstate_of_domain hs ht ((pstateMoves_iff _ _).mpr hl) ⟨hlow, hhigh⟩ hr hd

end Sys2Proof.Machine
end

section
/-! SUPPORT. What the reset waybills do and what cluster, engine and warm resets leave; CANCEL (R363, R404 to R408). -/

namespace Sys2Proof.Machine

/-! What resets leave (R405, R406, R408) -/

@[simp] theorem State.evalMismatch_sansRecords (s : State) : s.evalMismatch.sansRecords = s.sansRecords := by
  unfold State.evalMismatch
  extract_lets bad was s1 odd
  split
  · exact (s1.raise_sansRecords ..).trans (s.setFld_sansRecords ..)
  · exact s.setFld_sansRecords ..

theorem State.evalMismatch_reg_other (s : State) {a : Nat} (h : a ≠ 0x1004) (hseq : a ≠ 0x106014) (hlost : a ≠ 0x106018) :
    s.evalMismatch.reg a = s.reg a := by
  unfold State.evalMismatch
  extract_lets bad was s1 odd
  have h1 : s1.reg a = s.reg a := s.setFld_reg_other _ _ _ h
  split
  · exact (s1.raise_reg_other _ _ _ _ _ _ hseq hlost).trans h1
  · exact h1

@[simp] theorem State.effReset_sansRecords (s : State) : s.effReset.sansRecords = s.sansRecords := by
  unfold State.effReset
  split
  · exact s.setFld_sansRecords ..
  · rfl

theorem State.effReset_reg_other (s : State) {a : Nat} (h : a ≠ 0x200010) : s.effReset.reg a = s.reg a := by
  unfold State.effReset
  split
  · exact s.setFld_reg_other _ _ _ h
  · rfl

theorem State.cl_eq_of_clusters {s t : State} (h : t.clusters = s.clusters) (n : Nat) : t.cl n = s.cl n :=
  congrArg (sget idleCluster · n) h

/-- What a reset of a window leaves of a cluster. -/
theorem State.resetCl_cl (s : State) (k : RKind) (n : Nat) : ∃ c : Cluster, (s.resetCl k n).cl n = c.afterReset k := by
  unfold State.resetCl
  extract_lets s1 s2 c s3 s4 s5 s6
  refine ⟨c, Eq.trans (State.cl_eq_of_clusters ?_ n) (s4.setCl_cl_same n (c.afterReset k))⟩
  clear_value s4 c
  split <;> rfl

/-- A cluster after its own reset: idle, without staging, tasks, streams, tags and queue entries, its tiles empty. -/
structure Cluster.Idle (c : Cluster) : Prop where
  st : c.st = 0
  stopc : c.stopc = 0
  slot0 : c.slot0 = {}
  slot1 : c.slot1 = {}
  staging : c.staging = []
  streams : c.streams = []
  tags : c.tags = []
  loadQ : c.loadQ = []
  storeQ : c.storeQ = []
  scaleQ : c.scaleQ = []
  manQ : c.manQ = []
  tile0 : c.tile0 = {}
  tile1 : c.tile1 = {}
  mop : c.mop = none
  glz : c.glz = none
  credits : c.issued = c.returned

theorem Cluster.afterReset_idle (c : Cluster) : (c.afterReset .clu).Idle := by
  unfold Cluster.afterReset
  extract_lets c0 c1
  rw [if_pos rfl]
  have h0 : c0.Idle := by constructor <;> rfl
  unfold c1
  split
  · unfold Cluster.setGbank
    split <;> exact { h0 with }
  · exact h0

/-- A cluster reset ends with the cluster it names last. -/
theorem State.resetClusters_idle (s : State) (ns : List Nat) (n : Nat) : ((s.resetClusters (ns ++ [n])).cl n).Idle := by
  unfold State.resetClusters
  extract_lets s1
  rw [List.foldl_append, List.foldl_cons, List.foldl_nil]
  generalize ns.foldl (fun s n => s.resetCl .clu n) s1 = u
  obtain ⟨c, hc⟩ := u.resetCl_cl .clu n
  have hcl : (u.resetCl .clu n).evalMismatch.cl n = (u.resetCl .clu n).cl n :=
    State.cl_eq_of_clusters (State.clusters_eq_of_sansRecords (State.evalMismatch_sansRecords _)) n
  rw [hcl, hc]
  exact c.afterReset_idle

theorem State.resetEngine1_unit (s : State) (e : Nat) : (s.resetEngine1 e).unit e = {} := by
  unfold State.resetEngine1
  extract_lets ns s1 s2
  exact s2.setUnit_unit_same e {}

theorem State.ageless_sansDies (s : State) : s.ageless.sansDies = s.sansDies := rfl

theorem State.resetRegs_cvn (s : State) (k : RKind) (f : Win → Bool) : (s.resetRegs k f).cvn = s.cvn := rfl

theorem State.resetRegs_reds (s : State) (k : RKind) (f : Win → Bool) : (s.resetRegs k f).reds = s.reds := rfl

/-- Fields that are neither records nor the dies'. -/
theorem State.fields_eq_of_sansDies {s t : State} (h : t.sansDies = s.sansDies) :
    t.preds = s.preds ∧ t.pause = s.pause ∧ t.relays = s.relays ∧ t.reds = s.reds ∧ t.order = s.order ∧ t.starved = s.starved ∧
      t.tandem = s.tandem ∧ t.cvn = s.cvn :=
  ⟨(congrArg State.preds h :), (congrArg State.pause h :), (congrArg State.relays h :), (congrArg State.reds h :),
    (congrArg State.order h :), (congrArg State.starved h :), (congrArg State.tandem h :), (congrArg State.cvn h :)⟩

/-- How a warm reset ends, once the clusters are reset, the domain is left and the registers are set back. -/
def State.warmEnd (s : State) : State :=
  let u : State := { s with
    preds := [], pause := none, order := [], starved := [], setpLate := false, relays := [], tandem := []
    svc := { life := s.svc.life, uv := s.svc.uv, beyond := s.svc.beyond, tripped := s.svc.tripped, asked := s.svc.asked } }
  ((u.setFld 0x200008 0 2 3).effReset.ageless).evalMismatch

theorem State.warmReset_eq (s : State) (but : Option (Nat × Nat)) :
    ∃ u : State, s.warmReset but = (u.leaveDomain.resetRegs .warm (fun w => match w with | .cluster _ => false | _ => true)).warmEnd :=
  ⟨_, rfl⟩

theorem State.warmEnd_frame (s : State) :
    s.warmEnd.preds = [] ∧ s.warmEnd.pause = none ∧ s.warmEnd.relays = [] ∧ s.warmEnd.reds = s.reds ∧ s.warmEnd.order = [] ∧
      s.warmEnd.starved = [] ∧ s.warmEnd.tandem = [] ∧ s.warmEnd.cvn = s.cvn := by
  unfold State.warmEnd
  extract_lets u
  refine State.fields_eq_of_sansDies (s := u) ?_
  rw [State.sansDies_of_sansRecords (State.evalMismatch_sansRecords _), State.ageless_sansDies,
    State.sansDies_of_sansRecords (State.effReset_sansRecords _), State.sansDies_of_sansRecords (State.setFld_sansRecords ..)]

theorem State.warmEnd_kind (s : State) : s.warmEnd.fld 0x200008 0 2 = 3 := by
  unfold State.warmEnd
  extract_lets u
  rw [State.fld, State.regN, State.evalMismatch_reg_other _ (by decide) (by decide) (by decide)]
  have h : (u.setFld 0x200008 0 2 3).effReset.ageless.reg 0x200008 = (u.setFld 0x200008 0 2 3).reg 0x200008 :=
    State.effReset_reg_other _ (by decide)
  rw [h]
  exact u.setFld_fld_same _ _ (by decide)

/-! The reset waybills -/

section
variable {s : State} {r : Fin 16} {i : Word} {w : Wb}

/-- RESET_WARM waits for the end of a power transition, every reset waybill for the end of the stage (R407). -/
theorem exec_resetWarm_of_waits (hs : s.Starts 0x103 r i.toNat w) (h : s.trans.isSome = true ∨ s.lastKc = true) :
    exec (.resetWarm r i) s = .next s := by
  refine congrArg Host.Outcome.next (startWb_of_starts_of_not_up (up := fun _ => s.trans.isNone && !s.lastKc) hs ?_ _)
  rcases h with h | h
  · rw [Option.isNone_eq_false_iff.mpr h, Bool.false_and]
  · rw [h, Bool.not_true, Bool.and_false]

theorem exec_resetWarm_of_acts (hs : s.Starts 0x103 r i.toNat w) (ht : s.trans = none) (hk : s.lastKc = false) :
    exec (.resetWarm r i) s = .next ((((((s.switchOn w.clus).setWb r w.acting).warmReset (some (r.val, w.ix))).warmActive
      (s.switchOn w.clus).pstate).finish r w 0 [((((s.switchOn w.clus).setWb r w.acting).warmReset (some (r.val, w.ix))).warmActive
      (s.switchOn w.clus).pstate).regN 0x400]).svcRetry) :=
  congrArg Host.Outcome.next
    (startWb_of_starts (up := fun _ => s.trans.isNone && !s.lastKc) hs (by rw [ht, hk]; rfl) _)

theorem exec_resetEngine_of_waits (hs : s.Starts 0x104 r i.toNat w) (hk : s.lastKc = true) : exec (.resetEngine r i) s = .next s :=
  congrArg Host.Outcome.next (startWb_of_starts_of_not_up (up := fun _ => !s.lastKc) hs (by rw [hk]; rfl) _)

theorem exec_resetEngine_of_acts (hs : s.Starts 0x104 r i.toNat w) (hk : s.lastKc = false) :
    exec (.resetEngine r i) s = .next (((List.range 16).foldl
      (fun s e => if (w.params.getD 0 0).testBit e then s.resetEngine1 e else s) ((s.switchOn w.clus).setWb r w.acting)).finish r w 0
        [w.params.getD 0 0]) :=
  congrArg Host.Outcome.next (startWb_of_starts (up := fun _ => !s.lastKc) hs (by rw [hk]; rfl) _)

theorem exec_resetCluster_of_waits (hs : s.Starts 0x105 r i.toNat w) (hk : s.lastKc = true) : exec (.resetCluster r i) s = .next s :=
  congrArg Host.Outcome.next (startWb_of_starts_of_not_up (up := fun _ => !s.lastKc) hs (by rw [hk]; rfl) _)

theorem exec_resetCluster_of_acts (hs : s.Starts 0x105 r i.toNat w) (hk : s.lastKc = false) :
    exec (.resetCluster r i) s =
      .next ((((s.switchOn w.clus).setWb r w.acting).resetClusters w.clus).finish r w 0 [w.clus.length]) :=
  congrArg Host.Outcome.next (startWb_of_starts (up := fun _ => !s.lastKc) hs (by rw [hk]; rfl) _)

/-! CANCEL (R363) -/

/-- A pause that waits for a waybill goes with it, any other stays (R362, R363). -/
theorem State.undoWb_of_mine {s : State} {r : Nat} {w : Wb} {p : Pause} (hp : s.pause = some p) (hm : p.wb = some (r, w.ix) ∧ p.st = 1) :
    s.undoWb r w = { s with pause := none } := by
  simp only [State.undoWb, hp, hm, and_self, if_true]

theorem State.undoWb_of_not_mine {s : State} {r : Nat} {w : Wb} (h : ∀ p, s.pause = some p → ¬ (p.wb = some (r, w.ix) ∧ p.st = 1)) :
    s.undoWb r w = s := by
  unfold State.undoWb
  split
  case h_1 p hp => exact if_neg (h p hp)
  case h_2 => rfl

/-- The waybill of its ring that a CANCEL w of ring r names. -/
def Wb.cancels (w : Wb) (r : Nat) (x : Wb) : Bool :=
  decide (x.seq = w.params.getD 1 0) && decide (x.phase < 2) && !(decide (w.params.getD 0 0 = r) && decide (x.ix = w.ix))

theorem State.switchOn_ring (s : State) (clus : List Nat) (q : Nat) : (s.switchOn clus).ring q = s.ring q := by
  obtain ⟨cs, gs, h⟩ := s.switchOn_frame clus
  rw [h]
  rfl

section
variable (hs : s.Starts 0x106 r i.toNat w)
include hs

theorem exec_cancel_of_none (hn : (s.ring (w.params.getD 0 0)).taken.find? (w.cancels r) = none) :
    exec (.cancel r i) s = .next ((s.switchOn w.clus).finish r w 0 [0]) := by
  refine congrArg Host.Outcome.next ((startWb_of_starts (up := always) hs rfl _).trans ?_)
  dsimp only
  rw [State.switchOn_ring]
  generalize hf : List.find? _ (s.ring (w.params.getD 0 0)).taken = o
  obtain rfl : o = none := hf.symm.trans hn
  rfl

theorem exec_cancel_of_some {x : Wb} (hx : (s.ring (w.params.getD 0 0)).taken.find? (w.cancels r) = some x) :
    exec (.cancel r i) s = .next ((((s.switchOn w.clus).undoWb (w.params.getD 0 0) x).finish (w.params.getD 0 0) x 0x0F
      [0, r, w.seq]).finish r w 0 [1]) := by
  refine congrArg Host.Outcome.next ((startWb_of_starts (up := always) hs rfl _).trans ?_)
  dsimp only
  rw [State.switchOn_ring]
  generalize hf : List.find? _ (s.ring (w.params.getD 0 0)).taken = o
  obtain rfl : o = some x := hf.symm.trans hx
  rfl

end
end

/-! The obligation -/

/-- Settles O39: each waybill by whether it waits, CANCEL by what it names and whose the pause is; what a reset leaves by its kind. -/
theorem resetWaybillsAct : Obligations.ResetWaybillsAct := by
  unfold Obligations.ResetWaybillsAct
  refine ⟨fun s r i w => ⟨fun hs => ⟨exec_resetWarm_of_waits hs, fun ht hk => ?warmWaybill⟩,
    fun hs => ⟨exec_resetEngine_of_waits hs, exec_resetEngine_of_acts hs⟩,
    fun hs => ⟨exec_resetCluster_of_waits hs, exec_resetCluster_of_acts hs⟩, fun hs => ⟨exec_cancel_of_none hs, fun x hx => ?cancel⟩⟩,
    fun s ns n => ?clu, State.resetEngine1_unit, fun s but => ?warm⟩
  case cancel =>
    intro mine
    rw [exec_cancel_of_some hs hx]
    refine ⟨fun hp => ?_, fun p hp hm => ?_⟩
    · rw [State.undoWb_of_not_mine]
      rwa [State.switchOn_pause]
    · rw [State.undoWb_of_mine ((s.switchOn_pause _).trans hp) hm]
  case warmWaybill =>
    rw [exec_resetWarm_of_acts hs ht hk]
    rfl
  case clu =>
    obtain ⟨h1, h2, h3, h4, h5, h6, h7, h8, h9, h10, h11, h12, h13, h14, h15, h16⟩ := s.resetClusters_idle ns n
    exact ⟨h1, h2, h3, h4, h5, h6, h7, h8, h9, h10, h11, h12, h13, h14, h15, h16⟩
  case warm =>
    obtain ⟨u, hu⟩ := s.warmReset_eq but
    obtain ⟨hpreds, hpause, hrelays, hreds, horder, hstarved, htandem, hcvn⟩ :=
      (u.leaveDomain.resetRegs .warm (fun w => match w with | .cluster _ => false | _ => true)).warmEnd_frame
    rw [State.resetRegs_reds, State.leaveDomain_reds] at hreds
    rw [State.resetRegs_cvn, State.leaveDomain_cvn] at hcvn
    rw [hu]
    exact ⟨hpreds, hpause, hrelays, hreds, horder, hstarved, htandem, hcvn, State.warmEnd_kind _⟩

end Sys2Proof.Machine
end

section
/-! SUPPORT. Numbers in lists of bytes, and the receipt of a waybill: its 32 bytes, where it goes, what it counts and the interrupt it
triggers (R350, R357, R382, R383). -/

namespace Sys2Proof.Machine

/-! Numbers in lists of bytes -/

@[simp] theorem leBytes_length (n v : Nat) : (leBytes n v).length = n := by
  induction n generalizing v with
  | zero => rfl
  | succ n ih => rw [leBytes, List.length_cons, ih]

theorem leNat_leBytes (n v : Nat) : leNat (leBytes n v) = v % 2 ^ (8 * n) := by
  induction n generalizing v with
  | zero => rw [Nat.mul_zero, Nat.pow_zero, Nat.mod_one]; rfl
  | succ n ih => rw [leBytes, leNat, ih, BitVec.toNat_ofNat, Nat.mul_succ, Nat.add_comm (8 * n), Nat.pow_add, Nat.mod_mul]

/-- Bytes inside the first of two lists. -/
theorem leAt_append_left {xs : List Byte} (ys : List Byte) {o n : Nat} (h : o + n ≤ xs.length) : leAt (xs ++ ys) o n = leAt xs o n := by
  rw [leAt, leAt, List.drop_append_of_le_length (by omega), List.take_append_of_le_length (by rw [List.length_drop]; omega)]

/-- Bytes inside the second. -/
theorem leAt_append_right {xs : List Byte} (ys : List Byte) {o n : Nat} (h : xs.length ≤ o) :
    leAt (xs ++ ys) o n = leAt ys (o - xs.length) n := by
  rw [leAt, leAt, List.drop_append, List.drop_eq_nil_of_le h, List.nil_append]

theorem leAt_leBytes (n v : Nat) : leAt (leBytes n v) 0 n = v % 2 ^ (8 * n) := by
  rw [leAt, List.drop_zero, List.take_of_length_le (leBytes_length n v).le, leNat_leBytes]

/-- A number that stands between two lists. -/
theorem leAt_middle {pre : List Byte} (post : List Byte) {o : Nat} (n v : Nat) (h : pre.length = o) :
    leAt (pre ++ (leBytes n v ++ post)) o n = v % 2 ^ (8 * n) := by
  rw [leAt_append_right _ h.le, h, Nat.sub_self, leAt_append_left _ (by rw [leBytes_length, Nat.zero_add]), leAt_leBytes]

theorem length_flatMap_leBytes {α : Type} (n : Nat) (f : α → Nat) (xs : List α) :
    (xs.flatMap (fun x => leBytes n (f x))).length = n * xs.length := by
  simp [List.length_flatMap, Nat.mul_comm]

/-- Numbers that follow each other. -/
theorem leAt_flatMap_range {n m k : Nat} (f : Nat → Nat) (hk : k < m) :
    leAt ((List.range m).flatMap (fun i => leBytes n (f i))) (n * k) n = f k % 2 ^ (8 * n) := by
  obtain ⟨j, rfl⟩ : ∃ j, m = k + (1 + j) := ⟨m - k - 1, by omega⟩
  rw [List.range_add, List.flatMap_append, List.range_add, List.map_append, List.flatMap_append]
  change leAt (_ ++ ((leBytes n (f k) ++ []) ++ _)) _ _ = _
  rw [List.append_nil]
  exact leAt_middle _ n _ (by rw [length_flatMap_leBytes, List.length_range])

/-! An interrupt (R382, R383) -/

theorem State.setBits_reg_other (s : State) {a i : Nat} (m : Nat) (h : i ≠ a) : (s.setBits a m).reg i = s.reg i := by
  unfold State.setBits
  split
  · rfl
  · exact s.setRegN_reg_other _ h

theorem State.setBits_reg_bit (s : State) (a : Nat) {k : Nat} (h : k < 32) : ((s.setBits a (2 ^ k)).reg a).getLsbD k = true := by
  have hreg : (s.setBits a (2 ^ k)).reg a = BitVec.ofNat 32 (s.regN a ||| 2 ^ k) := by
    unfold State.setBits
    rw [if_neg (Nat.two_pow_pos k).ne']
    exact s.setReg_reg_same a _
  rw [hreg, BitVec.getLsbD_ofNat, Nat.testBit_or, Nat.testBit_two_pow_self, Bool.or_true, Bool.and_true, decide_eq_true h]

theorem State.setBits_teth (s : State) (a m : Nat) : (s.setBits a m).teth = s.teth := by
  unfold State.setBits
  split <;> rfl

theorem State.trigger_reg_other (s : State) (v : Nat) {i : Nat} (h : i ≠ 0x600024) : (s.trigger v).reg i = s.reg i := by
  unfold State.trigger
  split
  · rfl
  · split
    · exact s.setBits_reg_other _ h
    · split <;> rfl

/-- What an interrupt sends: with the firmware running and the vector not masked its message, else nothing; masked it is pending. -/
theorem State.trigger_txq (s : State) (v : Nat) :
    ∃ more, (s.trigger v).teth.txq = s.teth.txq ++ more ∧
      (s.boot.switching = none → (s.reg 0x600020).getLsbD v = false → v ∉ s.unmasked →
        more = [{ act := 7, due := s.stageNo, msg := s.irqMsg v }]) ∧
      (s.boot.switching = none → (s.reg 0x600020).getLsbD v = true →
        more = [] ∧ (v < 32 → ((s.trigger v).reg 0x600024).getLsbD v = true)) := by
  unfold State.trigger
  by_cases hsw : s.boot.switching.isSome = true
  · have hne : s.boot.switching ≠ none := Option.isSome_iff_ne_none.mp hsw
    exact ⟨[], by rw [if_pos hsw, List.append_nil], fun h => absurd h hne, fun h => absurd h hne⟩
  rw [if_neg hsw]
  by_cases hm : (s.reg 0x600020).getLsbD v = true
  · rw [if_pos hm]
    exact ⟨[], by rw [State.setBits_teth, List.append_nil], fun _ hm' => absurd (hm.symm.trans hm') (by decide),
      fun _ _ => ⟨rfl, s.setBits_reg_bit _⟩⟩
  rw [if_neg hm]
  by_cases hu : s.unmasked.contains v = true
  · rw [if_pos hu]
    exact ⟨[], (List.append_nil _).symm, fun _ _ h => absurd (List.contains_iff_mem.mp hu) h, fun _ h => absurd h hm⟩
  · rw [if_neg hu]
    exact ⟨_, rfl, fun _ _ _ => rfl, fun _ h => absurd h hm⟩

/-! The receipt (R357) -/

/-- A receipt's first 28 bytes. -/
def receiptBody (size ix seq opc status : Nat) (res : List Nat) : List Byte :=
  leBytes 4 seq ++ leBytes 2 opc ++ leBytes 1 status ++ leBytes 1 (1 - ix / size % 2) ++
    (List.range 5).flatMap (fun i => leBytes 4 (res.getD i 0))

/-- A receipt's 32 bytes. -/
def receiptBytes (size ix seq opc status : Nat) (res : List Nat) : List Byte :=
  receiptBody size ix seq opc status res ++ leBytes 4 (crc32c seq (receiptBody size ix seq opc status res)).toNat

/-- The receipt's message goes to the receipt ring, DONE moves on, the receipt is counted. -/
def State.receiptSent (s : State) (r ix : Nat) (bs : List Byte) : State :=
  ((s.toHost 7 (.mem (s.reg64 (ra r 0x0C) + 32 * (ix % s.ringSize r)) bs)).setRegN (ra r 0x1C) (s.regN (ra r 0x1C) + 1)).setRing r
    { s.ring r with returned := ((s.ring r).returned + 1) % 2 ^ 32 }

section
variable {size ix seq opc status : Nat} {res : List Nat}

theorem receiptBody_length : (receiptBody size ix seq opc status res).length = 28 := by
  simp only [receiptBody, List.length_append, leBytes_length, length_flatMap_leBytes, List.length_range]

theorem receiptBytes_length : (receiptBytes size ix seq opc status res).length = 32 := by
  rw [receiptBytes, List.length_append, receiptBody_length, leBytes_length]

theorem receiptBytes_body {o n : Nat} (h : o + n ≤ 28) :
    leAt (receiptBytes size ix seq opc status res) o n = leAt (receiptBody size ix seq opc status res) o n :=
  leAt_append_left _ (receiptBody_length.symm ▸ h)

/-- The fields of a receipt's head. -/
theorem receiptBytes_head :
    leAt (receiptBytes size ix seq opc status res) 0 4 = seq % 2 ^ 32 ∧ leAt (receiptBytes size ix seq opc status res) 4 2 = opc % 2 ^ 16 ∧
      leAt (receiptBytes size ix seq opc status res) 6 1 = status % 2 ^ 8 ∧
      leAt (receiptBytes size ix seq opc status res) 7 1 = 1 - ix / size % 2 := by
  refine ⟨?_, ?_, ?_, ?_⟩ <;> rw [receiptBytes_body (by decide), receiptBody]
  · simp only [List.append_assoc]
    exact leAt_middle (pre := []) _ 4 seq rfl
  · simp only [List.append_assoc]
    exact leAt_middle _ 2 opc (leBytes_length 4 seq)
  · simp only [List.append_assoc]
    rw [← List.append_assoc]
    exact leAt_middle _ 1 status (by simp)
  · rw [List.append_assoc, leAt_middle _ 1 _ (by simp), Nat.mod_eq_of_lt]
    exact (Nat.sub_le ..).trans_lt (by decide)

theorem receiptBytes_result {k : Nat} (hk : k < 5) :
    leAt (receiptBytes size ix seq opc status res) (8 + 4 * k) 4 = res.getD k 0 % 2 ^ 32 := by
  have hhead : (leBytes 4 seq ++ leBytes 2 opc ++ leBytes 1 status ++ leBytes 1 (1 - ix / size % 2)).length = 8 := by simp
  rw [receiptBytes_body (by omega), receiptBody, leAt_append_right _ (by rw [hhead]; omega), hhead, Nat.add_sub_cancel_left]
  exact leAt_flatMap_range _ hk

theorem receiptBytes_crc :
    leAt (receiptBytes size ix seq opc status res) 28 4 = (crc32c seq ((receiptBytes size ix seq opc status res).take 28)).toNat := by
  rw [receiptBytes, leAt_append_right _ receiptBody_length.le, receiptBody_length, leAt_leBytes, List.take_left' receiptBody_length]
  exact Nat.mod_eq_of_lt (crc32c ..).isLt

end

section
variable (s : State) (r ix seq opc status : Nat) (res : List Nat) (irq : Bool)

theorem State.receiptSent_reg_other (bs : List Byte) {i : Nat} (h : i ≠ ra r 0x1C) : (s.receiptSent r ix bs).reg i = s.reg i :=
  (s.toHost 7 (.mem (s.reg64 (ra r 0x0C) + 32 * (ix % s.ringSize r)) bs)).setRegN_reg_other (s.regN (ra r 0x1C) + 1) h

theorem State.receipt_eq :
    s.receipt r ix seq opc status res irq =
      let u := s.receiptSent r ix (receiptBytes (s.ringSize r) ix seq opc status res)
      if irq || (s.reg (ra r 0)).getLsbD 5 then u.trigger r else u := by
  have h : (s.receiptSent r ix (receiptBytes (s.ringSize r) ix seq opc status res)).reg (ra r 0) = s.reg (ra r 0) :=
    s.receiptSent_reg_other r ix _ (by simp only [ra]; omega)
  dsimp only
  rw [← h]
  rfl

/-- Beside records, a receipt changes nothing but its ring, whose receipts it counts. -/
theorem State.receipt_sansRecords :
    (s.receipt r ix seq opc status res irq).sansRecords =
      (s.setRing r { s.ring r with returned := ((s.ring r).returned + 1) % 2 ^ 32 }).sansRecords := by
  rw [State.receipt_eq]
  dsimp only
  split
  · exact (State.trigger_sansRecords _ r).trans rfl
  · rfl

theorem State.receipt_ring_same :
    (s.receipt r ix seq opc status res irq).ring r = { s.ring r with returned := ((s.ring r).returned + 1) % 2 ^ 32 } := by
  rw [State.ring_eq_of_sansRecords (s.receipt_sansRecords ..), State.setRing_ring_same]

/-- A receipt writes DONE of its ring and, while its vector is masked, the pending bits. -/
theorem State.receipt_reg_other {i : Nat} (hd : i ≠ ra r 0x1C) (hp : i ≠ 0x600024) :
    (s.receipt r ix seq opc status res irq).reg i = s.reg i := by
  have h := s.receiptSent_reg_other r ix (receiptBytes (s.ringSize r) ix seq opc status res) hd
  rw [State.receipt_eq]
  dsimp only
  split
  · exact (State.trigger_reg_other _ r hp).trans h
  · exact h

end

end Sys2Proof.Machine
end

section
/-! SUPPORT. How a waybill starts, times out and ends with its receipt (R354, R357, R358, R361, R362, R383, R417). -/

namespace Sys2Proof.Machine

/-! Starting (R358, R361, R417) -/

section
variable {s : State} {opc r ix : Nat} {w : Wb} (up : Wb → Bool) (f : State → Wb → State)
variable (hw : s.wb r ix = some w) (ho : w.opc = opc) (hi : s.interprets = true)

section
include hw ho hi

theorem State.startWb_of_waits (h : s.startOf r w = .waits) : s.startWb opc r ix up f = s := by
  unfold State.startWb
  simp only [hw, ho, hi, h, ne_eq, not_true_eq_false, decide_false, Bool.not_true, Bool.or_self, Bool.false_eq_true, if_false]

theorem State.startWb_of_busy {q : Nat} (h : s.startOf r w = .busy q) : s.startWb opc r ix up f = s.finish r w 7 [q] := by
  unfold State.startWb
  simp only [hw, ho, hi, h, ne_eq, not_true_eq_false, decide_false, Bool.not_true, Bool.or_self, Bool.false_eq_true, if_false]

variable (h : s.startOf r w = .starts)
include h

theorem State.startWb_of_forbidden (hp : s.powerForbids opc w.params w.clus = true) :
    s.startWb opc r ix up f = s.finish r w 0x0E [s.pstate] := by
  unfold State.startWb
  simp only [hw, ho, hi, h, hp, ne_eq, not_true_eq_false, decide_false, Bool.not_true, Bool.or_self, Bool.false_eq_true, if_false,
    if_true]

variable (hp : s.powerForbids opc w.params w.clus = false)
include hp

/-- A service sequence keeps classes of waybills out (R417). -/
theorem State.startWb_of_allowed : s.startWb opc r ix up f =
    if 1 ≤ s.svcPhase ∧ [2, 3, 4, 5, 6, 7, 9].contains (wbClass opc) = true ∧ opc ≠ 0x700 ∧ opc ≠ 0x701 then
      s.finish r w 8 [0xFFFFFFFF, s.svcPhase]
    else if !up w then s
    else f (s.switchOn w.clus) w := by
  unfold State.startWb
  simp only [hw, ho, hi, h, hp, ne_eq, not_true_eq_false, decide_false, Bool.not_true, Bool.or_self, Bool.false_eq_true, if_false]

theorem State.startWb_of_kept (hk : s.svcPhase ≠ 0 ∧ wbClass opc ∈ [2, 3, 4, 5, 6, 7, 9] ∧ opc ≠ 0x700 ∧ opc ≠ 0x701) :
    s.startWb opc r ix up f = s.finish r w 8 [0xFFFFFFFF, s.svcPhase] := by
  obtain ⟨hne, hc, h01⟩ := hk
  rw [State.startWb_of_allowed up f hw ho hi h hp, if_pos ⟨Nat.one_le_iff_ne_zero.mpr hne, List.contains_iff_mem.mpr hc, h01⟩]

theorem State.startWb_of_not_kept (hk : ¬ (s.svcPhase ≠ 0 ∧ wbClass opc ∈ [2, 3, 4, 5, 6, 7, 9] ∧ opc ≠ 0x700 ∧ opc ≠ 0x701)) :
    s.startWb opc r ix up f = if !up w then s else f (s.switchOn w.clus) w := by
  rw [State.startWb_of_allowed up f hw ho hi h hp, if_neg]
  rintro ⟨hne, hc, h01⟩
  exact hk ⟨Nat.one_le_iff_ne_zero.mp hne, List.contains_iff_mem.mp hc, h01⟩

end

theorem State.startOf_of_started (h : w.phase ≠ 0) : s.startOf r w = .waits := by
  unfold State.startOf
  exact if_pos (by simp [h])

theorem State.startOf_of_exclusive (hx : wbExclusive w.opc = true) (h : s.startedCount ≠ 0) : s.startOf r w = .waits := by
  unfold State.startOf
  exact if_pos (by simp [hx, h])

theorem State.startOf_of_full (h : 16 ≤ s.startedCount) : s.startOf r w = .waits := by
  unfold State.startOf
  exact if_pos (by simp [h])

end

/-! WAYBILL_TIMEOUT (R354, R362) -/

section
variable {s : State} {r : Fin 16} {i : Word} {w : Wb}

theorem exec_waybillTimeout_of_none (h : s.wb r i.toNat = none) : exec (.waybillTimeout r i) s = .next s := by
  change execWaybillTimeout r i s = _
  rw [execWaybillTimeout, h]

theorem exec_waybillTimeout_of_limited (hw : s.wb r i.toNat = some w) (hi : s.interprets = true) (hp : w.phase < 2)
    (hl : wbLimited w.opc w.tmo = true) : exec (.waybillTimeout r i) s = .next ((s.undoWb r w).finish r w 9 []) := by
  change execWaybillTimeout r i s = _
  rw [execWaybillTimeout, hw]
  exact if_neg (by simp [hl, hi, hp])

theorem exec_waybillTimeout_of_standing (hw : s.wb r i.toNat = some w)
    (h : 2 ≤ w.phase ∨ wbLimited w.opc w.tmo = false ∨ s.interprets = false) : exec (.waybillTimeout r i) s = .next s := by
  change execWaybillTimeout r i s = _
  rw [execWaybillTimeout, hw]
  refine if_pos ?_
  rcases h with h | h | h <;> simp [h]

end

/-! The end of a waybill (R357) -/

section
variable (s : State) (r : Nat) (w : Wb) (st : Nat) (res : List Nat)

/-- The waybill leaves those taken. -/
def State.untaken (s : State) (r : Nat) (w : Wb) : State :=
  s.setRing r { s.ring r with taken := (s.ring r).taken.filter (fun x => x.ix ≠ w.ix) }

theorem State.finish_eq : s.finish r w st res = (s.untaken r w).receipt r w.ix w.seq w.opc st res w.irq := rfl

theorem State.finish_ring_same :
    (s.finish r w st res).ring r = { s.ring r with
      taken := (s.ring r).taken.filter (fun x => x.ix ≠ w.ix), returned := ((s.ring r).returned + 1) % 2 ^ 32 } := by
  rw [State.finish_eq, State.receipt_ring_same, State.untaken, State.setRing_ring_same]

theorem State.finish_loess : (s.finish r w st res).loess = s.loess :=
  (State.loess_eq_of_sansRecords ((s.untaken r w).receipt_sansRecords r w.ix w.seq w.opc st res w.irq)).trans rfl

theorem State.finish_clusters : (s.finish r w st res).clusters = s.clusters :=
  (State.clusters_eq_of_sansRecords ((s.untaken r w).receipt_sansRecords r w.ix w.seq w.opc st res w.irq)).trans rfl

theorem State.finish_reg_other {i : Nat} (hd : i ≠ ra r 0x1C) (hp : i ≠ 0x600024) : (s.finish r w st res).reg i = s.reg i :=
  State.receipt_reg_other _ _ _ _ _ _ _ _ hd hp

/-- DONE moves on by one. -/
theorem State.receipt_done (ix seq opc : Nat) (irq : Bool) (hr : r < 16) :
    (s.receipt r ix seq opc st res irq).regN (ra r 0x1C) = (s.regN (ra r 0x1C) + 1) % 2 ^ 32 := by
  have hne : ra r 0x1C ≠ 0x600024 := by simp only [ra, Win.base]; omega
  have h := (s.toHost 7 (.mem (s.reg64 (ra r 0x0C) + 32 * (ix % s.ringSize r))
    (receiptBytes (s.ringSize r) ix seq opc st res))).setRegN_regN_same (ra r 0x1C) (s.regN (ra r 0x1C) + 1)
  rw [State.receipt_eq]
  dsimp only
  split
  · exact (congrArg BitVec.toNat (State.trigger_reg_other _ r hne)).trans h
  · exact h

theorem State.stageNo_congr {s t : State} (h : ∀ a < 0x1000, t.reg a = s.reg a) : t.stageNo = s.stageNo := by
  unfold State.stageNo State.reg64 State.regN
  rw [h _ (by decide), h _ (by decide)]

/-- The registers of an interrupt's message are the Tether's. -/
theorem State.irqMsg_congr {s t : State} {v : Nat} (h : ∀ a, 0x600000 ≤ a → t.reg a = s.reg a) : t.irqMsg v = s.irqMsg v := by
  unfold State.irqMsg State.fld State.regN
  rw [h _ (by omega), h _ (by omega), h _ (by omega)]

/-- What the receipt of ring r's waybill sends: its message, and with an interrupt the vector's. -/
theorem State.receipt_txq (ix seq opc : Nat) (irq : Bool) (hr : r < 16) :
    let tells := irq = true ∨ (s.reg (ra r 0)).getLsbD 5 = true
    ∃ more, (s.receipt r ix seq opc st res irq).teth.txq = s.teth.txq ++
        { act := 7, due := s.stageNo, msg := .mem (s.reg64 (ra r 0x0C) + 32 * (ix % s.ringSize r))
            (receiptBytes (s.ringSize r) ix seq opc st res) } :: more ∧
      (¬ tells → more = []) ∧
      (tells → s.boot.switching = none → (s.reg 0x600020).getLsbD r = false → r ∉ s.unmasked →
        more = [{ act := 7, due := s.stageNo, msg := s.irqMsg r }]) ∧
      (tells → s.boot.switching = none → (s.reg 0x600020).getLsbD r = true →
        more = [] ∧ ((s.receipt r ix seq opc st res irq).reg 0x600024).getLsbD r = true) := by
  intro tells
  have htells : tells ↔ (irq || (s.reg (ra r 0)).getLsbD 5) = true := (Bool.or_eq_true ..).symm.to_iff
  rw [State.receipt_eq]
  extract_lets u
  have hu {i : Nat} (h : i ≠ ra r 0x1C) : u.reg i = s.reg i := s.receiptSent_reg_other r ix _ h
  have hra : 0x102000 ≤ ra r 0x1C ∧ ra r 0x1C < 0x102400 := by simp only [ra, Win.base]; omega
  have htx : u.teth.txq = s.teth.txq ++ [{
      act := 7, due := s.stageNo, msg := .mem (s.reg64 (ra r 0x0C) + 32 * (ix % s.ringSize r))
        (receiptBytes (s.ringSize r) ix seq opc st res) }] := rfl
  have hboot : u.boot = s.boot := rfl
  have hunm : u.unmasked = s.unmasked := rfl
  have hstage : u.stageNo = s.stageNo := State.stageNo_congr fun a ha => hu (by omega)
  have hmsg : u.irqMsg r = s.irqMsg r := State.irqMsg_congr fun a ha => hu (by omega)
  have hmask : u.reg 0x600020 = s.reg 0x600020 := hu (by omega)
  clear_value u
  by_cases ht : tells
  · obtain ⟨more, hmore, hsent, hpend⟩ := u.trigger_txq r
    rw [if_pos (htells.mp ht)]
    refine ⟨more, ?_, fun h => absurd ht h, fun _ hs hm hnu => ?_, fun _ hs hm => ?_⟩
    · rw [hmore, htx, List.append_assoc]
      rfl
    · rw [hsent (hboot ▸ hs) (hmask ▸ hm) (hunm ▸ hnu), hstage, hmsg]
    · exact (hpend (hboot ▸ hs) (hmask ▸ hm)).imp_right fun h => h (by omega)
  · rw [if_neg (mt htells.mpr ht)]
    exact ⟨[], htx, fun _ => rfl, fun h => absurd h ht, fun h => absurd h ht⟩

end

/-! The obligation -/

/-- Settles O37: the start by what the rules answer, the time limit by how far the waybill has come, the receipt by its bytes and what it
triggers. -/
theorem waybillsStartAndEnd : Obligations.WaybillsStartAndEnd := by
  unfold Obligations.WaybillsStartAndEnd
  refine ⟨fun s opc r ix w up f hw ho hi => ?start, fun s r i => ⟨exec_waybillTimeout_of_none, fun w hw => ?timeout⟩,
    fun s r w st res hr _ _ => ?receipt⟩
  case start =>
    subst ho
    refine ⟨State.startWb_of_waits up f hw rfl hi, fun q => State.startWb_of_busy up f hw rfl hi, fun h =>
      ⟨State.startWb_of_forbidden up f hw rfl hi h, State.startWb_of_kept up f hw rfl hi h, fun hp hk hu => ?_, fun hp hk hu => ?_⟩,
      State.startOf_of_started, State.startOf_of_exclusive, State.startOf_of_full⟩
    · rw [State.startWb_of_not_kept up f hw rfl hi h hp hk, hu]
      rfl
    · rw [State.startWb_of_not_kept up f hw rfl hi h hp hk, hu]
      rfl
  case timeout =>
    refine ⟨fun hi hp hl => ⟨fun p hpause hm => ?_, fun hn => ?_⟩, exec_waybillTimeout_of_standing hw⟩
    · rw [exec_waybillTimeout_of_limited hw hi hp hl, State.undoWb_of_mine hpause hm]
    · rw [exec_waybillTimeout_of_limited hw hi hp hl, State.undoWb_of_not_mine hn]
  case receipt =>
    intro t tells
    obtain ⟨more, htx, hrest⟩ := (s.untaken r w).receipt_txq r st res w.ix w.seq w.opc w.irq hr
    obtain ⟨hseq, hopc, hst, hphase⟩ := receiptBytes_head (size := s.ringSize r) (ix := w.ix) (seq := w.seq) (opc := w.opc) (status := st)
      (res := res)
    have hring : t.ring r = _ := s.finish_ring_same r w st res
    refine ⟨congrArg Ring.taken hring, (s.untaken r w).receipt_done r st res _ _ _ _ hr, fun q hq => s.finish_ring_other hq w st res,
      s.finish_loess .., s.finish_clusters .., _, more, htx,
      receiptBytes_length, hseq, hopc, hst, hphase, fun k hk => receiptBytes_result hk, receiptBytes_crc, hrest⟩

end Sys2Proof.Machine
end

section
/-! SUPPORT. Doorbells, writes of WBR_CTLr and RESUME in their turn (R350, R351, R356, R376). -/

namespace Sys2Proof.Machine

section
variable (s : State) (r : Nat)

@[simp] theorem State.arrived_ring : s.arrived.ring r = s.ring r := s.arrived_congr (·.ring r) fun _ => rfl
@[simp] theorem State.arrived_ringOn : s.arrived.ringOn r = s.ringOn r := s.arrived_congr (·.ringOn r) fun _ => rfl
@[simp] theorem State.arrived_ringHalted : s.arrived.ringHalted r = s.ringHalted r := s.arrived_congr (·.ringHalted r) fun _ => rfl
@[simp] theorem State.arrived_ringSize : s.arrived.ringSize r = s.ringSize r := s.arrived_congr (·.ringSize r) fun _ => rfl
@[simp] theorem State.arrived_loess : s.arrived.loess = s.loess := s.arrived_congr (·.loess) fun _ => rfl
@[simp] theorem State.arrived_expectedSeq (ix : Nat) : s.arrived.expectedSeq r ix = s.expectedSeq r ix :=
  s.arrived_congr (·.expectedSeq r ix) fun _ => rfl

end

@[simp] theorem State.setRing_reg (s : State) (r : Nat) (x : Ring) (a : Nat) : (s.setRing r x).reg a = s.reg a := rfl
@[simp] theorem State.setRing_regN (s : State) (r : Nat) (x : Ring) (a : Nat) : (s.setRing r x).regN a = s.regN a := rfl

/-- Two registers of one ring are apart as their offsets are. -/
theorem ra_inj {r o p : Nat} : ra r o = ra r p ↔ o = p := by
  simp only [ra, Nat.add_left_cancel_iff]

/-! Doorbells (R351) -/

section
variable {s : State} {r tail : Nat}

theorem State.doorbell_of_stored (h : s.ringOn r = false ∨ s.ringHalted r = true ∨
    (tail + 2 ^ 32 - s.regN (ra r 0x14)) % 2 ^ 32 ≤ s.ringSize r - (s.regN (ra r 0x14) + 2 ^ 32 - s.regN (ra r 0x1C)) % 2 ^ 32) :
    s.doorbell r tail = s.setRegN (ra r 0x14) tail := by
  unfold State.doorbell
  extract_lets old s1 held
  rcases h with h | h | h
  · exact if_pos (by simp [h])
  · exact if_pos (by simp [h])
  · split
    · rfl
    · exact if_neg (Nat.not_lt.mpr h)

/-- Where a ring halts, and the event. -/
theorem State.doorbell_of_overrun (hon : s.ringOn r = true) (hh : s.ringHalted r = false)
    (h : s.ringSize r - (s.regN (ra r 0x14) + 2 ^ 32 - s.regN (ra r 0x1C)) % 2 ^ 32 < (tail + 2 ^ 32 - s.regN (ra r 0x14)) % 2 ^ 32) :
    s.doorbell r tail = (s.setRegN (ra r 0x14) tail).haltRing r (s.regN (ra r 0x18)) 3 := by
  have hhead : (s.setRegN (ra r 0x14) tail).regN (ra r 0x18) = s.regN (ra r 0x18) :=
    congrArg BitVec.toNat (s.setRegN_reg_other tail (mt ra_inj.mp (by decide)))
  unfold State.doorbell
  extract_lets old s1 held
  rw [if_neg (by simp [hon, hh]), if_pos h, hhead]

end

/-- A halt is noted with its index and cause, and the event names the SEQ expected there. -/
theorem State.haltRing_eq (s : State) (r ix cause : Nat) :
    let u := ((s.setFld (ra r 0x24) 0 1 1).setFld (ra r 0x24) 1 2 cause).setRing r { s.ring r with haltIx := ix }
    s.haltRing r ix cause = u.raise 32 5 r (u.live (ra r 0x24)) (s.expectedSeq r ix) := by
  intro u
  have hseq : u.expectedSeq r ix = s.expectedSeq r ix := by
    simp only [State.expectedSeq, u, State.setRing_ring_same]
  rw [← hseq]
  rfl

/-! RESUME (R356) -/

section
variable {s : State} {r : Nat}

theorem State.ringResume_of_not_halted (h : s.ringHalted r = false) : s.ringResume r = s :=
  if_pos (by simp [h])

theorem State.ringResume_of_taken (h : s.ringHalted r = true) (ht : (s.ring r).taken ≠ []) : s.ringResume r = s.busyW (.ring r) :=
  (if_neg (by simp [h])).trans (if_pos ht)

/-- The ring goes on at TAIL. -/
def State.ringResumed (s : State) (r : Nat) : State :=
  (((s.setRegN (ra r 0x18) (s.regN (ra r 0x14))).setRegN (ra r 0x1C) (s.regN (ra r 0x14))).setFld (ra r 0x24) 0 3 0).setRing r
    { seqBase := s.regN (ra r 0x20), ixBase := s.regN (ra r 0x14), issued := (s.ring r).issued, returned := (s.ring r).issued }

theorem State.ringResume_of_none_taken (h : s.ringHalted r = true) (ht : (s.ring r).taken = []) : s.ringResume r = s.ringResumed r :=
  (if_neg (by simp [h])).trans (if_neg (by simp [ht]))

theorem State.ringResumed_head : (s.ringResumed r).regN (ra r 0x18) = s.regN (ra r 0x14) := by
  rw [State.ringResumed, State.setRing_regN, State.setFld_regN_other _ _ _ _ (mt ra_inj.mp (by decide)), State.regN, State.setRegN_reg_other _ _ (mt ra_inj.mp (by decide))]
  exact (s.setRegN_regN_same ..).trans (Nat.mod_eq_of_lt (s.regN_lt _))

theorem State.ringResumed_done : (s.ringResumed r).regN (ra r 0x1C) = s.regN (ra r 0x14) := by
  rw [State.ringResumed, State.setRing_regN, State.setFld_regN_other _ _ _ _ (mt ra_inj.mp (by decide)), State.setRegN_regN_same, Nat.mod_eq_of_lt (s.regN_lt _)]

theorem State.ringResumed_not_halted : (s.ringResumed r).ringHalted r = false := by
  rw [State.ringHalted, State.ringResumed, State.setRing_reg, State.setFld_reg_bit _ _ _ _ (by decide), if_pos (by decide)]
  rfl

end

/-! The host's writes (R350, R376) -/

/-- Which bits of WBR_CTLr a write leaves: SIZE outside 4 to 12, and EN of a ring with waybills under way. -/
def State.ctlRefused (s : State) (r v : Nat) : Nat :=
  (if bits v 1 4 < 4 ∨ 12 < bits v 1 4 then 0x1E else 0) +
    (if (s.ringOn r && !v.testBit 0 && decide (s.regN (ra r 0x18) ≠ s.regN (ra r 0x1C))) = true then 1 else 0)

@[simp] theorem State.arrived_ctlRefused (s : State) (r v : Nat) : s.arrived.ctlRefused r v = s.ctlRefused r v :=
  s.arrived_congr (·.ctlRefused r v) fun _ => rfl

theorem State.writeRingCtl_eq (s : State) (r v : Nat) :
    let s1 := s.writeBut (.ring r) (ra r 0) v (s.ctlRefused r v)
    let s2 := if s.ringOn r = false ∧ v.testBit 0 = true then s1.ringFresh r else s1
    s.writeRingCtl r v = if v.testBit 6 then s2.ringResume r else s2 := by
  intro s1 s2
  have h2 : s2 = if (!s.ringOn r && v.testBit 0) = true then s1.ringFresh r else s1 := by
    simp only [s2, Bool.and_eq_true, Bool.not_eq_true']
  rw [h2]
  rfl

section
variable {s : State} (hs : s.InTurn)
include hs

theorem exec_wbrDoorbell_of_off (hp : s.phase = 0) (r : Fin 16) (tail : Word) : exec (.wbrDoorbell r tail) s = .next s.arrived := by
  refine congrArg Host.Outcome.next ((State.hostAccess_of_slotted hs rfl).trans ?_)
  exact if_pos (s.arrived_phase.trans hp)

variable (hp : s.phase ≠ 0)
include hp

theorem exec_wbrDoorbell_of_inTurn (r : Fin 16) (tail : Word) :
    exec (.wbrDoorbell r tail) s = .next (s.arrived.doorbell r tail.toNat) :=
  congrArg Host.Outcome.next (State.hostAccess_of_powered hs rfl hp rfl)

theorem exec_wbrEnable_of_inTurn (r : Fin 16) (v : Word) : exec (.wbrEnable r v) s = .next (s.arrived.writeRingCtl r v.toNat) :=
  congrArg Host.Outcome.next (State.hostAccess_of_powered hs rfl hp rfl)

theorem exec_wbrResume_of_inTurn (r : Fin 16) : exec (.wbrResume r) s = .next (s.arrived.ringResume r) :=
  congrArg Host.Outcome.next (State.hostAccess_of_powered hs rfl hp rfl)

end

/-! The obligation -/

/-- Settles O33: a doorbell by power, the ring's state and the room left, a write of WBR_CTLr by its bits, RESUME by what is taken. -/
theorem doorbellsAnnounceAndRingsRun : Obligations.DoorbellsAnnounceAndRingsRun := by
  unfold Obligations.DoorbellsAnnounceAndRingsRun
  refine ⟨fun s r tail hs => ?doorbell, fun s r hs hp => ⟨fun v => ?control, fun hh => ?running, fun hh ht => ?taken, fun hh ht => ?resumed⟩⟩
  case doorbell =>
    intro old head s1 s2 room new
    refine ⟨fun hp => exec_wbrDoorbell_of_off hs hp r tail, fun hp h => ?_, fun hp hon hh hroom => ?_⟩
    · rw [exec_wbrDoorbell_of_inTurn hs hp, State.doorbell_of_stored]
      simp only [State.arrived_ringOn, State.arrived_ringHalted, State.arrived_regN, State.arrived_ringSize]
      exact h
    · have hring : s1.ring r = s.ring r := s.arrived_ring r
      have hseq : s1.expectedSeq r head = s.expectedSeq r head := s.arrived_expectedSeq r head
      rw [exec_wbrDoorbell_of_inTurn hs hp, State.doorbell_of_overrun, State.haltRing_eq, State.arrived_regN,
          hring, hseq]
      · simpa using hon
      · simpa using hh
      · rw [State.arrived_regN, State.arrived_regN, State.arrived_ringSize]
        exact hroom
  case control =>
    intro n stuck s1 zero fresh s2
    rw [exec_wbrEnable_of_inTurn hs hp, State.writeRingCtl_eq, State.arrived_ctlRefused, State.arrived_ringOn]
    exact ⟨fun hv => by rw [hv]; rfl, fun hv => by rw [hv]; rfl⟩
  case running =>
    rw [exec_wbrResume_of_inTurn hs hp, State.ringResume_of_not_halted (by simpa using hh)]
  case taken =>
    rw [exec_wbrResume_of_inTurn hs hp, State.ringResume_of_taken (by simpa using hh) (by simpa using ht)]
  case resumed =>
    refine ⟨_, (exec_wbrResume_of_inTurn hs hp r).trans (congrArg _ (State.ringResume_of_none_taken (by simpa using hh) (by simpa using ht))),
      State.ringResumed_head.trans (s.arrived_regN _), State.ringResumed_done.trans (s.arrived_regN _), State.ringResumed_not_halted, ?_,
      fun q hq => ?_, rfl, s.arrived_clusters, s.arrived_loess⟩
    · rw [State.ringResumed, State.setRing_ring_same, State.arrived_regN, State.arrived_regN, State.arrived_ring]
    · rw [State.ringResumed, State.setRing_ring, if_neg hq]
      exact s.arrived_ring q

end Sys2Proof.Machine
end

section
/-! SUPPORT. What a write of a register does by the access types of its fields, bit by bit, and what a counter written in the kc of an
increment holds (R12, R13, R52, R209, R460). -/

namespace Sys2Proof.Machine

/-! Masks of fields -/

/-- Bit i lies in a field of a list. -/
def inFields (fs : List Fld) (i : Nat) : Bool := fs.any (fun f => decide (f.lo ≤ i) && decide (i < f.lo + f.len))

theorem maskOf_testBit (fs : List Fld) (i : Nat) : (maskOf fs).testBit i = inFields fs i := by
  have h (x : Nat) : (fs.foldl (fun a f => putBits a f.lo f.len (2 ^ f.len - 1)) x).testBit i = (x.testBit i || inFields fs i) := by
    induction fs generalizing x with
    | nil => exact (Bool.or_false _).symm
    | cons f fs ih =>
      rw [List.foldl_cons, ih, putBits_testBit, show inFields (f :: fs) i = (_ || inFields fs i) from List.any_cons, ← Bool.or_assoc]
      congr 1
      by_cases hf : f.lo ≤ i ∧ i < f.lo + f.len
      · rw [if_pos hf, Nat.testBit_two_pow_sub_one, decide_eq_true (by omega), decide_eq_true hf.1, decide_eq_true hf.2, Bool.true_and,
          Bool.or_true]
      · rw [if_neg hf, ← Bool.decide_and, decide_eq_false hf, Bool.or_false]
  rw [maskOf, h, Nat.zero_testBit, Bool.false_or]

theorem inFields_filter (fs : List Fld) (p : Fld → Bool) (i : Nat) :
    inFields (fs.filter p) i = fs.any (fun f => p f && decide (f.lo ≤ i) && decide (i < f.lo + f.len)) := by
  simp only [inFields, List.any_filter, Bool.and_assoc]

theorem mixBits_testBit (m x v : Nat) {i : Nat} (hi : i < 32) :
    (mixBits m x v).testBit i = if m.testBit i = true then x.testBit i else v.testBit i := by
  have h32 : ((2 ^ 32 - 1 : Nat)).testBit i = true := by rw [Nat.testBit_two_pow_sub_one, decide_eq_true hi]
  rw [mixBits, Nat.testBit_or, Nat.testBit_and, Nat.testBit_and, Nat.testBit_xor, h32]
  cases m.testBit i <;> simp

theorem mixBits_zero {x v : Nat} (hv : v < 2 ^ 32) : mixBits 0 x v = v := by
  rw [mixBits, Nat.and_zero, Nat.zero_or, Nat.xor_zero, Nat.and_two_pow_sub_one_eq_mod, Nat.mod_eq_of_lt hv]

/-- A bit of a register after a plain write: written if its field is RW or RWS, cleared by a 1 if it is W1C (R12). -/
theorem plainValue_testBit (fs : List Fld) (old v : Nat) {i : Nat} (hi : i < 32) :
    (plainValue fs old v).testBit i =
      ((if inFields (fs.filter (fun f => f.acc = .rw || f.acc = .rws)) i = true then v.testBit i else old.testBit i) ^^
        (old.testBit i && (inFields (fs.filter (fun f => f.acc = .w1c)) i && v.testBit i))) := by
  unfold plainValue
  rw [Nat.testBit_xor, mixBits_testBit _ _ _ hi, maskOf_testBit, Nat.testBit_and, Nat.testBit_and, maskOf_testBit]

/-! What a plain write leaves -/

section
variable {s : State} {w : Win} {a v : Nat}

/-- The bits of a register's W1C fields that a write clears. -/
def clearedBits (fs : List Fld) (v : Nat) : Nat := maskOf (fs.filter (fun f => f.acc = .w1c)) &&& v

theorem State.recount_of_none (h : (sget noCount s.counted ((regPair w a).getD a)).2 = 0) : s.recount w a v = s := by
  unfold State.recount
  split
  · rfl
  · exact if_pos h

/-- Where no record waits for the clear, the bits that hardware has set in this kc stand. -/
theorem State.keepCaught_of_no_record (h : (sget noCaught s.caught a).regs = []) :
    s.keepCaught w a v = { s.setRegN a (s.regN a ||| (sget noCaught s.caught a).bits) with
      caught := sput noCaught s.caught a { sget noCaught s.caught a with late := (sget noCaught s.caught a).late } } := by
  unfold State.keepCaught
  simp only [h, List.isEmpty_nil, Bool.not_true, Bool.and_false, Bool.false_eq_true, if_false, Bool.false_and, Bool.not_false,
    Bool.and_true]

/-- The register after the write of its fields, before what the clear leaves. -/
def State.plainPut (s : State) (w : Win) (a v : Nat) : State := s.setRegN a (plainValue (fldsOf s.grade w (a - w.base)) (s.regN a) v)

/-- What hardware has set in this kc stands in a register of which bits are cleared. -/
def State.plainKept (s : State) (w : Win) (a v : Nat) : State :=
  if clearedBits (fldsOf s.grade w (a - w.base)) v = 0 then s.plainPut w a v
  else (s.plainPut w a v).setRegN a ((s.plainPut w a v).regN a ||| (sget noCaught s.caught a).bits)

theorem State.plainKept_frame : ∃ rg, s.plainKept w a v = { s with regs := rg } := by
  unfold State.plainKept
  split <;> exact ⟨_, rfl⟩

theorem State.plainKept_reg_other {b : Nat} (h : b ≠ a) : (s.plainKept w a v).reg b = s.reg b := by
  have hput : (s.plainPut w a v).reg b = s.reg b := s.setRegN_reg_other _ h
  unfold State.plainKept
  split
  · exact hput
  · exact (State.setRegN_reg_other _ _ h).trans hput

theorem State.plainKept_bit {i : Nat} (hi : i < 32) :
    ((s.plainKept w a v).reg a).getLsbD i = ((plainValue (fldsOf s.grade w (a - w.base)) (s.regN a) v).testBit i ||
      (decide (clearedBits (fldsOf s.grade w (a - w.base)) v ≠ 0) && (sget noCaught s.caught a).bits.testBit i)) := by
  have hput : (s.plainPut w a v).reg a = BitVec.ofNat 32 (plainValue (fldsOf s.grade w (a - w.base)) (s.regN a) v) :=
    s.setReg_reg_same a _
  have hbit (x : Nat) : (BitVec.ofNat 32 x).getLsbD i = x.testBit i := by
    rw [BitVec.getLsbD_ofNat, decide_eq_true hi, Bool.true_and]
  unfold State.plainKept
  by_cases h : clearedBits (fldsOf s.grade w (a - w.base)) v = 0
  · rw [if_pos h, hput, hbit, decide_eq_false (not_not.mpr h), Bool.false_and, Bool.or_false]
  · rw [if_neg h, State.setRegN_reg, if_pos rfl, hbit, Nat.testBit_or, decide_eq_true h, Bool.true_and, ← State.reg_getLsbD, hput, hbit]

section
variable (hk : (sget noCaught s.caught a).regs = []) (hc : (sget noCount s.counted ((regPair w a).getD a)).2 = 0)
include hk hc

/-- A plain write writes one register, and what is noted about it. -/
theorem State.plainWrite_eq : ∃ c sh, s.plainWrite w a v = { s.plainKept w a v with caught := c, shadow := sh } := by
  have hput : (s.plainPut w a v).recount w a v = s.plainPut w a v := State.recount_of_none hc
  have hkeep := State.keepCaught_of_no_record (s := s.plainPut w a v) (w := w) (v := v) hk
  unfold State.plainWrite
  extract_lets fs rwa s0 clear s1
  have h1 : ∃ c, s1 = { s.plainKept w a v with caught := c } := by
    have hs0 : s0 = s.plainPut w a v := hput
    unfold State.plainKept
    by_cases h : clearedBits (fldsOf s.grade w (a - w.base)) v = 0
    · refine ⟨(s.plainPut w a v).caught, ?_⟩
      rw [if_pos h]
      exact (if_pos h).trans hs0
    · refine ⟨(((s.plainPut w a v).keepCaught w a v).noteClear a (clear &&& s.regN a)).caught, ?_⟩
      rw [if_neg h]
      refine (if_neg h).trans ?_
      rw [hs0, hkeep]
      rfl
  clear_value s1
  obtain ⟨c, rfl⟩ := h1
  split
  · exact ⟨c, _, rfl⟩
  · exact ⟨c, _, rfl⟩

theorem State.plainWrite_reg (b : Nat) : (s.plainWrite w a v).reg b = (s.plainKept w a v).reg b := by
  obtain ⟨c, sh, heq⟩ := State.plainWrite_eq (v := v) hk hc
  rw [heq]
  rfl

theorem State.plainWrite_loess : (s.plainWrite w a v).loess = s.loess := by
  obtain ⟨c, sh, heq⟩ := State.plainWrite_eq (v := v) hk hc
  obtain ⟨rg, hrg⟩ := s.plainKept_frame (w := w) (a := a) (v := v)
  rw [heq, hrg]

theorem State.plainWrite_clusters : (s.plainWrite w a v).clusters = s.clusters := by
  obtain ⟨c, sh, heq⟩ := State.plainWrite_eq (v := v) hk hc
  obtain ⟨rg, hrg⟩ := s.plainKept_frame (w := w) (a := a) (v := v)
  rw [heq, hrg]

end
end

end Sys2Proof.Machine
end

section
/-! SUPPORT. The host's register writes in their turn, by the window and register they name; counters written in the kc of an increment;
ARM and DISARM (R10, R12, R279, R280, R360, R376, R459, R460). -/

namespace Sys2Proof.Machine

/-! A write of a register (R10, R12, R360, R459) -/

section
variable (s : State)

@[simp] theorem State.arrived_wbMask (a : Nat) : s.arrived.wbMask a = s.wbMask a := s.arrived_congr (·.wbMask a) fun _ => rfl
@[simp] theorem State.arrived_shadowOf (a : Nat) : s.arrived.shadowOf a = s.shadowOf a := s.arrived_congr (·.shadowOf a) fun _ => rfl

end

/-- What a write does in its window: registers with a row of their own, and the others. -/
def State.writeWin (s : State) (w : Win) (a v : Nat) : State :=
  match w with
  | .global =>
    if a - w.base = 0x200 then s.writeBut w a v (if bits v 2 2 = 3 then 0xC else 0)
    else if a - w.base = 0x600 then s.writePin (v % 2)
    else if a - w.base = 0x700 then s.writeTnd v
    else s.plainWrite w a v
  | .ring r => s.writeRing r (a - w.base) v
  | .check u => s.writeChk u (a - w.base) v
  | .service => s.writeService (a - w.base) v
  | .security => s.writeSecurity (a - w.base) v
  | .events => s.writeEvents (a - w.base) v
  | .power => s.writePower (a - w.base) v
  | .port p => s.writePort p (a - w.base) v
  | .tether => s.writeTether (a - w.base) v
  | .stack k => s.writeStack k (a - w.base) v
  | .cluster n => s.writeCluster n (a - w.base) v
  | _ => s.plainWrite w a v

section
variable {s : State} {a : Nat} {w : Win}

theorem State.writeReg_of_no_window (h : winOf a = none) (v : Nat) : s.writeReg a v = s := by
  unfold State.writeReg
  simp only [h]

variable (hw : winOf a = some w)
include hw

theorem State.writeReg_of_closed (h : fldsOf s.grade w (a - w.base) = [] ∨ s.winOn w = false) (v : Nat) : s.writeReg a v = s := by
  unfold State.writeReg
  simp only [hw]
  refine if_pos ?_
  rcases h with h | h <;> simp [h]

/-- An open register is written but for what a waybill has written of it in this kc. -/
theorem State.writeReg_of_open (ha : a % 4 = 0) (hf : fldsOf s.grade w (a - w.base) ≠ []) (hon : s.winOn w = true)
    (harm : armOf w ≠ some a) (v : Nat) :
    s.writeReg a v = s.writeWin w a
      (mixBits (s.wbMask a) (mixBits (rwaMask (fldsOf s.grade w (a - w.base))) (s.shadowOf a) (s.regN a)) v) := by
  unfold State.writeReg
  simp only [hw]
  rw [if_neg (by simp [ha, hf, hon]), if_neg harm, if_neg harm]
  rfl

end

section
variable {s : State} (hs : s.InTurn)
include hs

theorem exec_registerWrite_of_inTurn (a : Nat) (v : Word) : exec (.registerWrite a v) s = .next (s.arrived.hostWriteReg a v.toNat) :=
  congrArg Host.Outcome.next (State.hostAccess_of_slotted hs rfl)

theorem exec_registerWrite_of_unaligned {a : Nat} (ha : a % 4 ≠ 0) (v : Word) :
    exec (.registerWrite a v) s = .next (if s.tth = 1 then s.arrived.tthErr 1 2 a else s.arrived) := by
  rw [exec_registerWrite_of_inTurn hs, State.hostWriteReg, if_pos ha, State.arrived_tth]

variable {a : Nat} (ha : a % 4 = 0)
include ha

theorem exec_registerWrite_of_aligned (v : Word) : exec (.registerWrite a v) s = .next (s.arrived.writeReg a v.toNat) := by
  rw [exec_registerWrite_of_inTurn hs, State.hostWriteReg, if_neg (not_not.mpr ha)]

variable {w : Win} (hw : winOf a = some w)
include hw

theorem exec_registerWrite_of_closed (h : fldsOf s.grade w (a - w.base) = [] ∨ s.winOn w = false) (v : Word) :
    exec (.registerWrite a v) s = .next s.arrived := by
  rw [exec_registerWrite_of_aligned hs ha, State.writeReg_of_closed hw (by simpa using h)]

theorem exec_registerWrite_of_open (hf : fldsOf s.grade w (a - w.base) ≠ []) (hon : s.winOn w = true) (harm : armOf w ≠ some a) (v : Word) :
    exec (.registerWrite a v) s = .next (s.arrived.writeWin w a
      (mixBits (s.wbMask a) (mixBits (rwaMask (fldsOf s.grade w (a - w.base))) (s.shadowOf a) (s.regN a)) v.toNat)) := by
  rw [exec_registerWrite_of_aligned hs ha, State.writeReg_of_open hw ha (by simpa using hf) (by simpa using hon) harm]
  simp only [State.arrived_wbMask, State.arrived_grade, State.arrived_shadowOf, State.arrived_regN]

/-- The same where no waybill has written the register in this kc. -/
theorem exec_registerWrite_of_unheld (hf : fldsOf s.grade w (a - w.base) ≠ []) (hon : s.winOn w = true) (harm : armOf w ≠ some a)
    (hm : s.wbMask a = 0) (v : Word) : exec (.registerWrite a v) s = .next (s.arrived.writeWin w a v.toNat) := by
  rw [exec_registerWrite_of_open hs ha hw hf hon harm, hm, mixBits_zero v.isLt]

end

theorem State.writeWin_of_plain (s : State) {w : Win} (h : w = .ration ∨ w = .mgmt ∨ w = .caravan ∨ ∃ e, w = .engine e) (a v : Nat) :
    s.writeWin w a v = s.plainWrite w a v := by
  rcases h with rfl | rfl | rfl | ⟨e, rfl⟩ <;> rfl

/-! Registers with a row of their own -/

theorem winOf_ra {r o : Nat} (hr : r < 16) (ho : o < 0x40) : winOf (ra r o) = some (.ring r) := by
  have h : (ra r o - 0x102000) / 0x40 = r := by simp only [ra, Win.base]; omega
  have hb : 0x102000 ≤ ra r o ∧ ra r o < 0x102400 := by simp only [ra, Win.base]; omega
  unfold winOf
  rw [if_neg (by omega), if_neg (by omega), if_neg (by omega), if_pos hb, h]

theorem winOf_ha {u o : Nat} (hu : u < 16) (ho : o < 0x40) : winOf (ha u o) = some (.check u) := by
  have h : (ha u o - 0x103000) / 0x40 = u := by simp only [ha, Win.base]; omega
  have hb : 0x103000 ≤ ha u o ∧ ha u o < 0x103400 := by simp only [ha, Win.base]; omega
  unfold winOf
  rw [if_neg (by omega), if_neg (by omega), if_neg (by omega), if_neg (by omega), if_pos hb, h]

theorem State.winOn_of_powered {s : State} (hp : s.phase ≠ 0) {w : Win} (h : s.winOn w = s.domainOn 177) : s.winOn w = true := by
  rw [h, State.domainOn]
  dsimp only
  rw [if_neg hp, if_pos rfl]

theorem State.writeWin_ring (s : State) (r o v : Nat) : s.writeWin (.ring r) (ra r o) v = s.writeRing r o v := by
  rw [show s.writeWin (.ring r) (ra r o) v = s.writeRing r (ra r o - (Win.ring r).base) v from rfl, ra, Nat.add_sub_cancel_left]

theorem State.writeWin_check (s : State) (u o v : Nat) : s.writeWin (.check u) (ha u o) v = s.writeChk u o v := by
  rw [show s.writeWin (.check u) (ha u o) v = s.writeChk u (ha u o - (Win.check u).base) v from rfl, ha, Nat.add_sub_cancel_left]

theorem State.writeRing_ctl (s : State) (r v : Nat) : s.writeRing r 0 v = s.writeRingCtl r v := by
  unfold State.writeRing
  rw [if_pos rfl]

theorem State.writeRing_db (s : State) (r v : Nat) : s.writeRing r 0x14 v = s.doorbell r v := by
  unfold State.writeRing
  rw [if_neg (by decide), if_neg (by decide), if_pos rfl]

theorem State.writeEvents_rd (s : State) (v : Nat) : s.writeEvents 0x10 v = s.writeEvtRd v := by
  unfold State.writeEvents
  dsimp only
  rw [if_neg (by decide), if_neg (by decide), if_pos rfl]

section
variable {s : State} (hs : s.InTurn) (hp : s.phase ≠ 0)
include hs hp

theorem exec_registerWrite_of_ring {r o : Nat} (hr : r < 16) (ho : o < 0x40) (h4 : o % 4 = 0) (hf : fldsRing o ≠ [])
    (hm : s.wbMask (ra r o) = 0) (v : Word) : exec (.registerWrite (ra r o) v) s = .next (s.arrived.writeRing r o v.toNat) := by
  have hal : ra r o % 4 = 0 := by simp only [ra, Win.base]; omega
  have hof : ra r o - (Win.ring r).base = o := Nat.add_sub_cancel_left ..
  rw [exec_registerWrite_of_unheld hs hal (winOf_ra hr ho) (hof.symm ▸ hf) (State.winOn_of_powered hp rfl) nofun hm, State.writeWin_ring]

theorem exec_registerWrite_of_check {u o : Nat} (hu : u < 16) (ho : o < 0x40) (h4 : o % 4 = 0) (hf : fldsCheck o ≠ [])
    (hm : s.wbMask (ha u o) = 0) (v : Word) :
    exec (.registerWrite (ha u o) v) s = .next (s.arrived.writeChk u o v.toNat) := by
  have hal : ha u o % 4 = 0 := by simp only [ha, Win.base]; omega
  have hof : ha u o - (Win.check u).base = o := Nat.add_sub_cancel_left ..
  rw [exec_registerWrite_of_unheld hs hal (winOf_ha hu ho) (hof.symm ▸ hf) (State.winOn_of_powered hp rfl) nofun hm, State.writeWin_check]

/-- A write of a register with a row of its own is that row's command. -/
theorem exec_registerWrite_of_row (r u : Fin 16) (v : Word) :
    ∀ e ∈ ([(ra r 0, .wbrEnable r v), (ra r 0x14, .wbrDoorbell r v), (ha u 0x10, .chkFeedw u v), (0x106000, .evtEnable v),
        (0x106010, .evtRdWrite v), (0x600020, .tthImaskWrite v), (0x200034, .pwrEngrst v), (0x700, .tndModeWrite v)] : List (Nat × Instr)),
      s.wbMask e.1 = 0 → exec (.registerWrite e.1 v) s = exec e.2 s := by
  simp only [List.forall_mem_cons, List.not_mem_nil, false_imp_iff, implies_true, and_true]
  refine ⟨fun hm => ?ctl, fun hm => ?db, fun hm => ?feed, fun hm => ?evt, fun hm => ?evtRd, fun hm => ?imask, fun hm => ?engrst, fun hm => ?tnd⟩
  case ctl =>
    rw [exec_registerWrite_of_ring hs hp r.isLt (by decide) (by decide) (by decide) hm, exec_wbrEnable_of_inTurn hs hp,
      State.writeRing_ctl]
  case db =>
    rw [exec_registerWrite_of_ring hs hp r.isLt (by decide) (by decide) (by decide) hm, exec_wbrDoorbell_of_inTurn hs hp,
      State.writeRing_db]
  case feed =>
    rw [exec_registerWrite_of_check hs hp u.isLt (by decide) (by decide) (by decide) hm]
    exact (congrArg Host.Outcome.next (State.hostAccess_of_powered hs rfl hp rfl)).symm
  case evt =>
    rw [exec_registerWrite_of_unheld hs (by decide) (show winOf 0x106000 = some .events from rfl) (show fldsEvents 0 ≠ [] by decide)
      (State.winOn_of_powered hp rfl) nofun hm, exec_evtEnable_of_inTurn hs hp]
    rfl
  case evtRd =>
    rw [exec_registerWrite_of_unheld hs (by decide) (show winOf 0x106010 = some .events from rfl) (show fldsEvents 0x10 ≠ [] by decide)
      (State.winOn_of_powered hp rfl) nofun hm, exec_evtRdWrite_of_inTurn hs hp, ← State.writeEvents_rd]
    rfl
  case imask =>
    have hw : winOf 0x600020 = some .tether := rfl
    rw [exec_tthImaskWrite_of_inTurn hs]
    by_cases hon : s.winOn .tether = true
    · rw [exec_registerWrite_of_unheld hs (by decide) hw (show fldsTether 0x20 ≠ [] by decide) hon nofun hm, if_pos hon]
      rfl
    · rw [exec_registerWrite_of_closed hs (by decide) hw (.inr (Bool.eq_false_iff.mpr hon)), if_neg hon]
  case engrst =>
    rw [exec_registerWrite_of_unheld hs (by decide) (show winOf 0x200034 = some .power from rfl) (show fldsPower s.grade 0x34 ≠ [] by cases s.grade <;> decide)
      (State.winOn_of_powered hp rfl) (by decide) hm, exec_pwrEngrst_of_inTurn hs hp]
    rfl
  case tnd =>
    rw [exec_registerWrite_of_unheld hs (by decide) (show winOf 0x700 = some .global from rfl)
      (show fldsGlobal s.grade 0x700 ≠ [] by cases s.grade <;> decide) (State.winOn_of_powered hp rfl) (by decide) hm,
      exec_tndModeWrite_of_inTurn hs hp]
    rfl

end

/-! Counters (R460) -/

theorem State.drift_reg_other (s : State) (n slot : Nat) (isHeld : Bool) {a : Nat} (h : a ≠ ca n 0x224) (hseq : a ≠ 0x106014)
    (hlost : a ≠ 0x106018) : (s.drift n slot isHeld).reg a = s.reg a := by
  unfold State.drift
  extract_lets v
  split
  · exact (State.raise_reg_other _ _ _ _ _ _ _ hseq hlost).trans (s.setBits_reg_other _ h)
  · rfl

/-- What drift detection does leaves the count it judges. -/
theorem State.redrift_reg (s : State) (w : Win) (a : Nat) : (s.redrift w (a - w.base)).reg a = s.reg a := by
  unfold State.redrift
  cases w with
  | cluster n =>
    dsimp only
    split
    case isTrue h =>
      obtain ⟨hlo, -⟩ := h
      have hb : 0x1000000 ≤ (Win.cluster n).base := by simp only [Win.base]; omega
      exact s.drift_reg_other n _ false (by simp only [ca]; omega) (by omega) (by omega)
    case isFalse => rfl
  | _ => rfl

section
variable {c : RClass} {i : Nat}

/-- One RW field that takes the whole register holds what is written. -/
theorem plainValue_whole_rw (old : Nat) {v : Nat} (hv : v < 2 ^ 32) : plainValue [⟨0, 32, .rw, c, i⟩] old v = v := by
  have hput : putBits 0 0 32 (2 ^ 32 - 1) = 2 ^ 32 - 1 := by decide
  simp only [plainValue, List.filter_cons, List.filter_nil, maskOf, List.foldl_cons, List.foldl_nil, decide_true, Bool.true_or, if_true,
    reduceCtorEq, decide_false, Bool.false_eq_true, if_false, hput, mixBits, Nat.xor_self, Nat.and_zero, Nat.or_zero, Nat.zero_and,
    Nat.xor_zero, Nat.and_two_pow_sub_one_eq_mod, Nat.mod_eq_of_lt hv]

variable {s : State} {w : Win} {a v n : Nat} (hv : v < 2 ^ 32) (hf : fldsOf s.grade w (a - w.base) = [⟨0, 32, .rw, c, i⟩])
include hv hf

/-- A register that is one RW field takes the value, and what this kc has added to its counter. -/
theorem State.plainWrite_of_counter : s.plainWrite w a v = (s.setRegN a v).recount w a v := by
  have hval := plainValue_whole_rw (c := c) (i := i) (s.regN a) hv
  have hrwa : rwaMask [(⟨0, 32, .rw, c, i⟩ : Fld)] = 0 := rfl
  have hclear : maskOf ([(⟨0, 32, .rw, c, i⟩ : Fld)].filter (fun f => f.acc = .w1c)) &&& v = 0 := Nat.zero_and v
  unfold State.plainWrite
  rw [hf]
  dsimp only
  rw [hval, hrwa, hclear, if_pos rfl, if_pos rfl]

variable (hp : regPair w a = none) (hc : (sget noCount s.counted a).2 = 0)
include hp hc

theorem State.plainWrite_count : ((s.plainWrite w a v).count a n).regN a = min (v + n) (2 ^ 32 - 1) := by
  have hrec : (s.setRegN a v).recount w a v = s.setRegN a v := State.recount_of_none (by rw [hp]; exact hc)
  rw [State.count_regN_same, State.plainWrite_of_counter hv hf, hrec, State.setRegN_regN_same, Nat.mod_eq_of_lt hv]

theorem State.count_plainWrite (hn : 0 < n) : ((s.count a n).plainWrite w a v).regN a = min (v + n) (2 ^ 32 - 1) := by
  have hgrade : (s.count a n).grade = s.grade := (congrArg State.grade (s.count_sansRecords a n) :)
  have hnoted : sget noCount ((s.count a n).setRegN a v).counted a = (s.regN a, n) := by
    have h : (s.count a n).counted = sput noCount s.counted a (s.regN a, n) := by
      simp only [State.count, State.setRegN_counted, State.noteCount, hc, if_neg hn.ne', if_true]
    rw [State.setRegN_counted, h, sget_sput_same]
  have hany : [(⟨0, 32, .rw, c, i⟩ : Fld)].any (fun f => decide (f.acc = .rw) && decide (f.len = 32)) = true := rfl
  rw [State.plainWrite_of_counter hv (s := s.count a n) (hgrade.symm ▸ hf), State.recount, State.setRegN_grade, hgrade, hf, hany, hp]
  simp only [Bool.not_true, Bool.false_eq_true, if_false, Option.getD_none, hnoted, hn.ne', if_true]
  rw [State.regN, State.redrift_reg, ← State.regN, State.setRegN_regN_same, Nat.mod_eq_of_lt hv, Nat.mod_eq_of_lt (by omega)]

end

/-! ARM and DISARM (R279, R280, R360) -/

section
variable {s : State} (hs : s.InTurn) (x : ArmWin)
include hs

theorem exec_arm_of_open (hon : s.winOn (ArmWin.win x) = true) : exec (.arm x) s = .next (s.arrived.setFld ((ArmWin.win x).base + 0xFF0) 2 1 1) := by
  have h := State.hostAccess_of_winOn hs (i := .arm x) (t := s.arrived.armBlock ((ArmWin.win x).base + 0xFF0)) rfl (w := (ArmWin.win x)) rfl
  rw [if_pos hon] at h
  exact congrArg Host.Outcome.next h

theorem exec_arm_of_closed (hoff : s.winOn (ArmWin.win x) = false) : exec (.arm x) s = .next s.arrived := by
  have h := State.hostAccess_of_winOn hs (i := .arm x) (t := s.arrived.armBlock ((ArmWin.win x).base + 0xFF0)) rfl (w := (ArmWin.win x)) rfl
  rw [if_neg (by simp [hoff])] at h
  exact congrArg Host.Outcome.next h

theorem exec_disarm_of_open (hon : s.winOn (ArmWin.win x) = true) :
    exec (.disarm x) s = .next (s.arrived.disarmBlock ((ArmWin.win x).base + 0xFF0)) := by
  have h := State.hostAccess_of_winOn hs (i := .disarm x) (t := s.arrived.disarmBlock ((ArmWin.win x).base + 0xFF0)) rfl (w := (ArmWin.win x)) rfl
  rw [if_pos hon] at h
  exact congrArg Host.Outcome.next h

theorem exec_disarm_of_closed (hoff : s.winOn (ArmWin.win x) = false) : exec (.disarm x) s = .next s.arrived := by
  have h := State.hostAccess_of_winOn hs (i := .disarm x) (t := s.arrived.disarmBlock ((ArmWin.win x).base + 0xFF0)) rfl (w := (ArmWin.win x)) rfl
  rw [if_neg (by simp [hoff])] at h
  exact congrArg Host.Outcome.next h

end

theorem State.disarmBlock_of_unheld {s : State} {a : Nat} (h : s.wbMask a = 0) : s.disarmBlock a = s.setFld a 2 1 0 := if_pos h
theorem State.disarmBlock_of_held {s : State} {a : Nat} (h : s.wbMask a ≠ 0) : s.disarmBlock a = s := if_neg h

section
variable {s : State} {w : Win} {a v : Nat} (hk : (sget noCaught s.caught a).regs = [])
  (hc : (sget noCount s.counted ((regPair w a).getD a)).2 = 0)
include hk hc

/-- One bit of a register after a plain write of it. -/
theorem State.plainWrite_bit {i : Nat} (hi : i < 32) : ((s.plainWrite w a v).reg a).getLsbD i =
    ((plainValue (fldsOf s.grade w (a - w.base)) (s.regN a) v).testBit i ||
      (decide (clearedBits (fldsOf s.grade w (a - w.base)) v ≠ 0) && (sget noCaught s.caught a).bits.testBit i)) := by
  rw [State.plainWrite_reg hk hc, State.plainKept_bit hi]

end

/-- A bit of a W1C field that is written 1 is among those cleared. -/
theorem clearedBits_ne_zero {fs : List Fld} {v i : Nat} (hf : inFields (fs.filter (fun f => f.acc = .w1c)) i = true)
    (hv : v.testBit i = true) : clearedBits fs v ≠ 0 := by
  intro h
  have hbit : (clearedBits fs v).testBit i = true := by rw [clearedBits, Nat.testBit_and, maskOf_testBit, hf, hv]; rfl
  rw [h, Nat.zero_testBit] at hbit
  exact Bool.false_ne_true hbit

/-- Settles O48: a write in its turn goes by its register's window and fields, a counter keeps what its kc adds, ARM and DISARM mark. -/
theorem registerWritesFollowTheirFields : Obligations.RegisterWritesFollowTheirFields := by
  unfold Obligations.RegisterWritesFollowTheirFields
  refine ⟨⟨fun s a v hs => ⟨fun ha => exec_registerWrite_of_unaligned hs ha v, fun ha hw => ?noWindow, fun w hw ha =>
      ⟨fun h => exec_registerWrite_of_closed hs ha hw h v, fun hf hon harm hplain => ⟨fun hm => ?unheld, ?mixed⟩⟩⟩,
    fun s r u v hs e he hp hm => exec_registerWrite_of_row hs hp r u v e he hm, fun s w a v no => rfl⟩,
    fun s w a v i hi hv => ?bits, fun s w a v n c i hv hn hpair hf hc => ?counters, fun s x hs => ?arm⟩
  case noWindow => rw [exec_registerWrite_of_aligned hs ha, State.writeReg_of_no_window hw]
  case unheld => rw [exec_registerWrite_of_unheld hs ha hw hf hon harm hm, State.writeWin_of_plain _ hplain]
  case mixed => rw [exec_registerWrite_of_open hs ha hw hf hon harm, State.writeWin_of_plain _ hplain]
  case bits =>
    intro fs has rw' w1c t k hk hc
    have hbit := State.plainWrite_bit (v := v) hk hc hi
    have hrw : inFields (fs.filter (fun f => f.acc = .rw || f.acc = .rws)) i = rw' := inFields_filter ..
    have hw1c : inFields (fs.filter (fun f => f.acc = .w1c)) i = w1c := inFields_filter ..
    rw [plainValue_testBit _ _ _ hi, hrw, hw1c, ← State.reg_getLsbD] at hbit
    refine ⟨fun h1 h2 h3 => ?_, fun h1 h2 h3 => ?_, fun h1 h2 h3 h4 => ?_, fun h1 h2 h3 => ?_, fun b hb => ?_,
      State.plainWrite_loess hk hc, State.plainWrite_clusters hk hc⟩
    · rw [hbit, h1, h2, h3]
      simp
    · rw [hbit, h1, h2, h3]
      cases (s.reg a).getLsbD i <;> cases v.testBit i <;> simp
    · rw [hbit, h4, decide_eq_true (clearedBits_ne_zero (hw1c.trans h2) h3), Bool.and_self, Bool.or_true]
    · rw [hbit, h1, h2, h3]
      simp
    · rw [State.plainWrite_reg hk hc, State.plainKept_reg_other hb]
  case counters => exact ⟨State.count_plainWrite hv hf hpair hc hn, State.plainWrite_count hv hf hpair hc⟩
  case arm =>
    intro w a f
    refine ⟨fun hon => ⟨exec_arm_of_open hs x hon, ?_, fun hm => ⟨?_, ?_⟩, fun hm => ?_⟩,
      fun hoff => ⟨exec_arm_of_closed hs x hoff, exec_disarm_of_closed hs x hoff⟩⟩
    · rw [State.setFld_reg_bit f a 1 2 (by decide)]
      rfl
    · rw [exec_disarm_of_open hs x hon, State.disarmBlock_of_unheld ((s.arrived_wbMask a).trans hm)]
    · rw [State.setFld_reg_bit f a 0 2 (by decide)]
      rfl
    · rw [exec_disarm_of_open hs x hon, State.disarmBlock_of_held ((s.arrived_wbMask a).symm ▸ hm)]

end Sys2Proof.Machine
end

section
/-! SUPPORT. The software check units: the Tether's commands of one in their turn, feeds in parts, and the check of R387 as shifts of
numbers (R387, R391 to R393). -/

namespace Sys2Proof.Machine

/-! Check values as shifts of numbers (R387) -/

/-- One shift of a check's register with the polynomial P. -/
def checkShift (p r : Nat) : Nat := (r / 2) ^^^ (if r.testBit 0 then p else 0)

/-- Eight of them. -/
def checkEight (p r : Nat) : Nat := (List.replicate 8 ()).foldl (fun r _ => checkShift p r) r

theorem crcBit_toNat {w : Nat} (p r : BitVec w) : (crcBit w p r).toNat = checkShift p.toNat r.toNat := by
  have hbit : r.getLsbD 0 = r.toNat.testBit 0 := rfl
  rw [crcBit, checkShift, BitVec.toNat_xor, BitVec.toNat_ushiftRight, Nat.shiftRight_one, hbit]
  cases r.toNat.testBit 0 <;> simp

/-- A byte is taken in, and eight shifts follow. -/
theorem crcByte_toNat {w : Nat} (hw : 8 ≤ w) (p r : BitVec w) (b : Byte) :
    (crcByte w p r b).toNat = checkEight p.toNat (r.toNat ^^^ b.toNat) := by
  have hb : (b.setWidth w).toNat = b.toNat :=
    (BitVec.toNat_setWidth ..).trans (Nat.mod_eq_of_lt (b.isLt.trans_le (Nat.pow_le_pow_right Nat.two_pos hw)))
  simp only [crcByte, crcBit_toNat, BitVec.toNat_xor, hb]
  rfl

theorem crcFeed_toNat {w : Nat} (hw : 8 ≤ w) (p r : BitVec w) (bs : List Byte) :
    (crcFeed w p r bs).toNat = bs.foldl (fun r b => checkEight p.toNat (r ^^^ b.toNat)) r.toNat := by
  induction bs generalizing r with
  | nil => rfl
  | cons b bs ih =>
    rw [crcFeed, List.foldl_cons, ← crcFeed, ih, crcByte_toNat hw, List.foldl_cons]

theorem crcFeed_append {w : Nat} (p r : BitVec w) (xs ys : List Byte) : crcFeed w p (crcFeed w p r xs) ys = crcFeed w p r (xs ++ ys) :=
  List.foldl_append.symm

/-- The running state from all ones with the fold, all ones taken off at the end. -/
theorem check_toNat {w f : Nat} (hw : 8 ≤ w) (hf : f < 2 ^ w) (p : BitVec w) (bs : List Byte) :
    (crcFeed w p (BitVec.allOnes w ^^^ BitVec.ofNat w f) bs ^^^ BitVec.allOnes w).toNat =
      bs.foldl (fun r b => checkEight p.toNat (r ^^^ b.toNat)) ((2 ^ w - 1) ^^^ f) ^^^ (2 ^ w - 1) := by
  rw [BitVec.toNat_xor, crcFeed_toNat hw, BitVec.toNat_xor, BitVec.toNat_allOnes, BitVec.toNat_ofNat, Nat.mod_eq_of_lt hf]

/-! Feeds in parts -/

theorem Chk.feed_wide (c : Chk) (bs : List Byte) : (c.feed bs).wide = c.wide := rfl

theorem setWidth_setWidth_64 (x : BitVec 32) : (x.setWidth 64).setWidth 32 = x := by
  rw [BitVec.setWidth_setWidth_of_le _ (by decide), BitVec.setWidth_eq]

theorem Chk.feed_feed_acc (c : Chk) (xs ys : List Byte) : ((c.feed xs).feed ys).acc = (c.feed (xs ++ ys)).acc := by
  unfold Chk.feed
  cases c.wide
  case true => exact crcFeed_append ..
  case false =>
    simp only [Bool.false_eq_true, if_false]
    rw [setWidth_setWidth_64, crcFeed_append]

theorem Chk.feed_feed_result (c : Chk) (xs ys : List Byte) : ((c.feed xs).feed ys).result = (c.feed (xs ++ ys)).result := by
  unfold Chk.result
  rw [Chk.feed_feed_acc, Chk.feed_wide, Chk.feed_wide, Chk.feed_wide]

/-! Commands in their turn -/

section
variable (s : State) (u : Nat)

@[simp] theorem State.arrived_checks : s.arrived.checks = s.checks := s.arrived_congr (·.checks) fun _ => rfl
@[simp] theorem State.arrived_chk : s.arrived.chk u = s.chk u := congrArg (sget idleChk · u) s.arrived_checks
@[simp] theorem State.arrived_reg64 (a : Nat) : s.arrived.reg64 a = s.reg64 a := s.arrived_congr (·.reg64 a) fun _ => rfl

/-- The low word of a pair of registers. -/
theorem State.reg64_mod (a : Nat) : s.reg64 a % 2 ^ 32 = s.regN a := by
  rw [State.reg64, Nat.add_mul_mod_self_left, Nat.mod_eq_of_lt (s.regN_lt a)]

/-- The initial value a START takes, of the width its ALG gives. -/
theorem State.chkStarted_eq (wide : Bool) : s.chkStarted u wide (s.reg64 (ha u 0x14)) =
    ((s.setChk u { s.chk u with
        wide := wide
        acc := (if wide then BitVec.allOnes 64 else 0xFFFFFFFF#64) ^^^ BitVec.ofNat 64 (if wide then s.reg64 (ha u 0x14) else s.regN (ha u 0x14))
      }).setRegN (ha u 0x2C) 0).setFld (ha u 4) 1 1 0 := by
  unfold State.chkStarted
  cases wide
  case true => rfl
  case false =>
    simp only [Bool.false_eq_true, if_false]
    rw [State.reg64_mod]

theorem State.arrived_setChk (c : Chk) : s.arrived.setChk u c = { s.arrived with checks := sput idleChk s.checks u c } := by
  rw [State.setChk, State.arrived_checks]

variable {s u}

theorem State.chkPut_of_busy (h : 0 < (s.chk u).busy) (o : ChkOp) :
    s.chkPut u o = s.setChk u { s.chk u with queue := (s.chk u).queue ++ [o] } := if_pos h
theorem State.chkPut_of_free (h : (s.chk u).busy = 0) (o : ChkOp) : s.chkPut u o = s.chkDo u o := if_neg (by omega)
theorem State.chkFeed_of_busy (h : 0 < (s.chk u).busy) (n v : Nat) : s.chkFeed u n v = s.setBits (ha u 4) 8 := if_pos h
theorem State.chkFeed_of_free (h : (s.chk u).busy = 0) (n v : Nat) :
    s.chkFeed u n v = (s.setChk u ((s.chk u).feed (leBytes n v))).count (ha u 0x2C) n := if_neg (by omega)
theorem State.chkCompared_of_match (h : (s.chk u).result = if (s.chk u).wide then s.reg64 (ha u 0x1C) else s.regN (ha u 0x1C)) :
    s.chkCompared u = s.setFld (ha u 4) 1 1 1 := if_pos h
theorem State.chkCompared_of_mismatch (h : (s.chk u).result ≠ if (s.chk u).wide then s.reg64 (ha u 0x1C) else s.regN (ha u 0x1C)) :
    s.chkCompared u = ((s.setFld (ha u 4) 1 1 0).setBits (ha u 4) 4).raise 36 6 u ((s.chk u).result % 2 ^ 32) (s.regN (ha u 0x1C)) :=
  if_neg h

/-- What waits for the end of a feed acts in its order, and not before. -/
theorem State.chkTick_of_busy {n : Nat} (h : n < (s.chk u).busy) : s.chkTick n u = s.setChk u { s.chk u with busy := (s.chk u).busy - n } :=
  if_pos (show 0 < (s.chk u).busy - n by omega)
theorem State.chkTick_of_free {n : Nat} (h : (s.chk u).busy ≤ n) :
    s.chkTick n u = (s.chk u).queue.foldl (State.chkDo u) (s.setChk u { s.chk u with busy := 0, queue := [] }) := by
  unfold State.chkTick
  simp only [Nat.sub_eq_zero_of_le h, Nat.lt_irrefl, if_false]

end

section
variable {s : State} (hs : s.InTurn) (hp : s.phase ≠ 0) (u : Fin 16) (v : Word)
include hs hp

theorem exec_chkStart_of_inTurn : exec (.chkStart u) s = .next (s.arrived.chkPut u .start) :=
  congrArg Host.Outcome.next (State.hostAccess_of_powered hs rfl hp rfl)

theorem exec_chkCmp_of_inTurn : exec (.chkCmp u) s = .next (s.arrived.chkPut u .compare) :=
  congrArg Host.Outcome.next (State.hostAccess_of_powered hs rfl hp rfl)

theorem exec_chkFeedb_of_inTurn : exec (.chkFeedb u v) s = .next (s.arrived.chkFeed u 1 v.toNat) :=
  congrArg Host.Outcome.next (State.hostAccess_of_powered hs rfl hp rfl)

theorem exec_chkFeedh_of_inTurn : exec (.chkFeedh u v) s = .next (s.arrived.chkFeed u 2 v.toNat) :=
  congrArg Host.Outcome.next (State.hostAccess_of_powered hs rfl hp rfl)

theorem exec_chkFeedw_of_inTurn : exec (.chkFeedw u v) s = .next (s.arrived.chkFeed u 4 v.toNat) :=
  congrArg Host.Outcome.next (State.hostAccess_of_powered hs rfl hp rfl)

end

/-- What a feed of n bytes of a word does to a unit that is not busy. -/
theorem State.chkFeed_arrived_of_free {s : State} {u : Nat} (h : (s.chk u).busy = 0) (n v : Nat) :
    s.arrived.chkFeed u n v = (s.arrived.setChk u ((s.chk u).feed (leBytes n v))).count (ha u 0x2C) n := by
  rw [State.chkFeed_of_free (by rwa [s.arrived_chk]), s.arrived_chk]

/-- Settles O49: each command by the unit's BUSY, a feed in parts by the running state, the check as shifts of numbers. -/
theorem checkUnitsWork : Obligations.CheckUnitsWork := by
  unfold Obligations.CheckUnitsWork
  refine ⟨⟨fun s u v hp hs => ?commands, fun s u n => ⟨State.chkTick_of_busy, State.chkTick_of_free⟩⟩,
    fun c xs ys => ⟨c.feed_feed_result xs ys, c.feed_wide xs⟩, ⟨fun f bs hf => ?crc32, fun f bs hf => ?crc64⟩, ?digits⟩
  case commands =>
    intro c f put feed wide fold init queued
    have hc : f.chk u = c := s.arrived_chk u
    refine ⟨fun h => ?start, fun h => ⟨?startWaits, ?cmpWaits⟩, fun h => ⟨?b, ?h, ?w⟩, fun h i hi => ?refused, ?cmp⟩
    case start =>
      rw [exec_chkStart_of_inTurn hs hp, State.chkPut_of_free (by rw [hc]; exact h), State.chkDo, State.chkStarted_eq, hc,
        State.arrived_reg, State.arrived_reg64, State.arrived_regN, State.arrived_setChk]
    case startWaits => rw [exec_chkStart_of_inTurn hs hp, State.chkPut_of_busy (by rw [hc]; exact h), hc, State.arrived_setChk]
    case cmpWaits => rw [exec_chkCmp_of_inTurn hs hp, State.chkPut_of_busy (by rw [hc]; exact h), hc, State.arrived_setChk]
    case b => rw [exec_chkFeedb_of_inTurn hs hp, State.chkFeed_arrived_of_free h, Chk.feed, leBytes_length, State.arrived_setChk]; rfl
    case h => rw [exec_chkFeedh_of_inTurn hs hp, State.chkFeed_arrived_of_free h, Chk.feed, leBytes_length, State.arrived_setChk]; rfl
    case w => rw [exec_chkFeedw_of_inTurn hs hp, State.chkFeed_arrived_of_free h, Chk.feed, leBytes_length, State.arrived_setChk]; rfl
    case refused =>
      have hbusy (n w : Nat) : f.chkFeed u n w = f.setBits (ha u 4) 8 := State.chkFeed_of_busy (by rw [hc]; exact h) n w
      simp only [List.mem_cons, List.not_mem_nil, or_false] at hi
      rcases hi with rfl | rfl | rfl
      · rw [exec_chkFeedb_of_inTurn hs hp, hbusy]
      · rw [exec_chkFeedh_of_inTurn hs hp, hbusy]
      · rw [exec_chkFeedw_of_inTurn hs hp, hbusy]
    case cmp =>
      intro want h
      have hwant : (if (f.chk u).wide then f.reg64 (ha u 0x1C) else f.regN (ha u 0x1C)) = want := by
        rw [hc, State.arrived_reg64, State.arrived_regN]
      have hrun : exec (.chkCmp u) s = .next (f.chkCompared u) := by
        rw [exec_chkCmp_of_inTurn hs hp, State.chkPut_of_free (by rw [hc]; exact h)]
        rfl
      refine ⟨fun heq => ?_, fun hne => ?_⟩
      · rw [hrun, State.chkCompared_of_match (by rw [hwant, hc]; exact heq)]
      · rw [hrun, State.chkCompared_of_mismatch (by rw [hwant, hc]; exact hne), hc, State.arrived_regN]
  case crc32 => exact check_toNat (by decide) hf poly32 bs
  case crc64 => exact check_toNat (by decide) hf poly64 bs
  case digits => exact ⟨by decide +kernel, by decide +kernel⟩

end Sys2Proof.Machine
end

section
/-! SUPPORT. Votes on a domain's links and the frames that carry them; a pause that settles (R294, R311, R312, R314, R324 to R328). -/

namespace Sys2Proof.Machine

/-! A decision goes to the children (R325, R326) -/

/-- The VB bits of a vote or a decision. -/
def voteBits (take pause : Bool) : Nat := 1 + (if take then 2 else 0) + (if pause then 4 else 0)

/-- VB bits are put on the frames of some ports. -/
def State.setVouts (s : State) (v : Nat) (ps : List Nat) : State := ps.foldl (fun s p => s.setPort p { s.port p with vout := v }) s

theorem State.setVouts_frame (s : State) (v : Nat) (ps : List Nat) : ∃ x, s.setVouts v ps = { s with ports := x } := by
  induction ps generalizing s with
  | nil => exact ⟨s.ports, rfl⟩
  | cons p ps ih =>
    obtain ⟨x, hx⟩ := ih (s.setPort p { s.port p with vout := v })
    exact ⟨x, hx⟩

theorem State.setVouts_port (s : State) (v : Nat) (ps : List Nat) (q : Nat) :
    (s.setVouts v ps).port q = if q ∈ ps then { s.port q with vout := v } else s.port q := by
  induction ps generalizing s with
  | nil => rfl
  | cons p ps ih =>
    rw [State.setVouts, List.foldl_cons, ← State.setVouts, ih, State.setPort_port]
    by_cases hq : q = p
    · subst hq
      simp
    · simp [hq]

section
variable (s : State) (take pause : Bool)

theorem State.setDecision_eq : s.setDecision take pause =
    ({ s with cvn := { s.cvn with decision := some (take, pause) } } : State).setVouts (voteBits take pause) s.children := rfl

theorem State.setDecision_port (q : Nat) : (s.setDecision take pause).port q =
    if q ∈ s.children then { s.port q with vout := voteBits take pause } else s.port q := by
  rw [State.setDecision_eq, State.setVouts_port]
  rfl

theorem State.setDecision_frame : s.setDecision take pause =
    { s with ports := (s.setDecision take pause).ports, cvn := { s.cvn with decision := some (take, pause) } } := by
  obtain ⟨x, hx⟩ := State.setVouts_frame ({ s with cvn := { s.cvn with decision := some (take, pause) } } : State) (voteBits take pause)
    s.children
  rw [State.setDecision_eq, hx]

end

/-! Votes (R324 to R326) -/

/-- The votes the children's frames have brought. -/
def State.childVotes (s : State) : List Nat := s.children.map (fun p => (s.port p).vin)

section
variable {s : State} {o : Bool × Bool} (ho : s.cvn.own = some o)
include ho

theorem State.passVote_of_waits (h : s.cvn.decision.isSome = true ∨ ∃ x ∈ s.childVotes, x % 2 = 0) : s.passVote = s := by
  unfold State.passVote
  simp only [ho]
  refine if_pos ?_
  rcases h with h | h <;> simp_all [State.childVotes]

variable (hd : s.cvn.decision = none) (hv : ∀ x ∈ s.childVotes, x % 2 = 1)
include hd hv

/-- Votes that are complete make the lead's decision, or one vote to the parent. -/
theorem State.passVote_of_complete : s.passVote =
    (let c := o.1 && s.childVotes.all (fun v => v.testBit 1)
     let k := o.2 && s.childVotes.all (fun v => v.testBit 2)
     if s.leads then s.setDecision c (c && k)
     else match s.parent with
       | some p => s.setPort p { s.port p with vout := voteBits c k }
       | none => s) := by
  have hany : (s.children.map (fun p => (s.port p).vin)).any (fun v => v % 2 = 0) = false := by
    rw [List.any_eq_false]
    intro x hx
    have := hv x hx
    simp [this]
  unfold State.passVote
  simp only [ho]
  refine (if_neg ?_).trans rfl
  rw [hd, hany]
  decide

theorem State.passVote_of_lead (hl : s.leads = true) : s.passVote =
    s.setDecision (o.1 && s.childVotes.all (fun v => v.testBit 1))
      ((o.1 && s.childVotes.all (fun v => v.testBit 1)) && (o.2 && s.childVotes.all (fun v => v.testBit 2))) := by
  rw [State.passVote_of_complete ho hd hv]
  exact if_pos hl

theorem State.passVote_of_parent (hl : s.leads = false) {p : Nat} (hp : s.parent = some p) : s.passVote =
    s.setPort p { s.port p with
      vout := voteBits (o.1 && s.childVotes.all (fun v => v.testBit 1)) (o.2 && s.childVotes.all (fun v => v.testBit 2)) } := by
  rw [State.passVote_of_complete ho hd hv]
  simp only [hl, hp, Bool.false_eq_true, if_false]

theorem State.passVote_of_alone (hl : s.leads = false) (hp : s.parent = none) : s.passVote = s := by
  rw [State.passVote_of_complete ho hd hv]
  simp only [hl, hp, Bool.false_eq_true, if_false]

end

theorem exec_votePoint_of_time {s : State} (hm : s.mustered = true) (hr : s.stagesRun = true) (hv : s.cvn.voted = false)
    (hk : 8192 - s.voteKc ≤ s.kc) :
    exec .votePoint s = .next ({ s with cvn := { s.cvn with voted := true, own := some (!s.linksWait, s.pauseOk) } } : State).passVote := by
  refine (if_pos ?_ : execVotePoint s = _)
  rw [hm, hr, hv, decide_eq_true hk]
  rfl

theorem exec_votePoint_of_not_time {s : State}
    (h : s.mustered = false ∨ s.stagesRun = false ∨ s.cvn.voted = true ∨ s.kc < 8192 - s.voteKc) : exec .votePoint s = .next s := by
  refine (if_neg ?_ : execVotePoint s = _)
  rcases h with h | h | h | h
  · simp [h]
  · simp [h]
  · simp [h]
  · rw [decide_eq_false (Nat.not_le.mpr h), Bool.and_false]
    exact Bool.false_ne_true

theorem exec_leadDecisionDeadline_of_time {s : State} (hm : s.mustered = true) (hl : s.leads = true) (hv : s.cvn.voted = true)
    (hd : s.cvn.decision = none) (hk : 8192 - s.voteKc / 2 ≤ s.kc) : exec .leadDecisionDeadline s = .next (s.setDecision false false) := by
  refine (if_pos ?_ : execLeadDecisionDeadline s = _)
  rw [hm, hl, hv, hd, decide_eq_true hk]
  rfl

theorem exec_leadDecisionDeadline_of_not_time {s : State} (h : s.mustered = false ∨ s.leads = false ∨ s.cvn.voted = false ∨
    s.cvn.decision.isSome = true ∨ s.kc < 8192 - s.voteKc / 2) : exec .leadDecisionDeadline s = .next s := by
  refine (if_neg ?_ : execLeadDecisionDeadline s = _)
  rcases h with h | h | h | h | h
  · simp [h]
  · simp [h]
  · simp [h]
  · rw [show s.cvn.decision.isNone = false by simpa using h, Bool.and_false, Bool.false_and]
    exact Bool.false_ne_true
  · rw [decide_eq_false (Nat.not_le.mpr h), Bool.and_false]
    exact Bool.false_ne_true

/-! A pause that settles (R294) -/

/-- What becomes of a cluster of a pausing set once all have settled. -/
def Cluster.paused (p : Nat) (c : Cluster) : Cluster :=
  if c.st = 2 then { c with st := 3, stopc := 1, stopDue := none, stopAt := p, pausing := false } else { c with pausing := false }

theorem Cluster.paused_paused (p : Nat) (c : Cluster) : (c.paused p).paused p = c.paused p := by
  unfold Cluster.paused
  by_cases h : c.st = 2
  · simp [h]
  · simp [h]

/-- The clusters of a set change alike. -/
def State.onClusters (s : State) (f : Cluster → Cluster) (ns : List Nat) : State := ns.foldl (fun s n => s.setCl n (f (s.cl n))) s

theorem State.onClusters_frame (s : State) (f : Cluster → Cluster) (ns : List Nat) : ∃ x, s.onClusters f ns = { s with clusters := x } := by
  induction ns generalizing s with
  | nil => exact ⟨s.clusters, rfl⟩
  | cons n ns ih =>
    obtain ⟨x, hx⟩ := ih (s.setCl n (f (s.cl n)))
    exact ⟨x, hx⟩

theorem State.onClusters_cl (s : State) {f : Cluster → Cluster} (hf : ∀ c, f (f c) = f c) (ns : List Nat) (i : Nat) :
    (s.onClusters f ns).cl i = if i ∈ ns then f (s.cl i) else s.cl i := by
  induction ns generalizing s with
  | nil => rfl
  | cons n ns ih =>
    rw [State.onClusters, List.foldl_cons, ← State.onClusters, ih, State.setCl_cl]
    by_cases hi : i = n
    · subst hi
      simp [hf]
    · simp [hi]

/-- The set is stopped and its pause is in force. -/
def State.pausedAt (s : State) (p : Pause) : State :=
  { s.onClusters (Cluster.paused p.p) p.clus with pause := some { p with st := 3, wb := none } }

section
variable (s : State) (p : Pause)

theorem State.pausedAt_frame :
    ∃ x, s.pausedAt p = { s with clusters := x, pause := some { p with st := 3, wb := none } } := by
  obtain ⟨x, hx⟩ := s.onClusters_frame (Cluster.paused p.p) p.clus
  exact ⟨x, by rw [State.pausedAt, hx]⟩

theorem State.pausedAt_cl (n : Nat) : (s.pausedAt p).cl n = if n ∈ p.clus then (s.cl n).paused p.p else s.cl n :=
  s.onClusters_cl (Cluster.paused_paused p.p) p.clus n

theorem State.pausedAt_wb (r ix : Nat) : (s.pausedAt p).wb r ix = s.wb r ix := by
  obtain ⟨x, hx⟩ := s.pausedAt_frame p
  rw [hx]
  rfl

variable {s p} (hp : s.pause = some p)
include hp

theorem exec_pauseSettled_of_not (h : p.st ≠ 2 ∨ p.clus.all s.settled = false) : exec .pauseSettled s = .next s := by
  show execPauseSettled s = _
  unfold execPauseSettled
  simp only [hp]
  refine if_pos ?_
  rcases h with h | h <;> simp [h]

theorem exec_pauseSettled_of_settled (hst : p.st = 2) (hset : p.clus.all s.settled = true) :
    (p.wb = none → exec .pauseSettled s = .next (s.pausedAt p)) ∧
    (∀ r ix, p.wb = some (r, ix) → s.wb r ix = none → exec .pauseSettled s = .next (s.pausedAt p)) ∧
    (∀ r ix w, p.wb = some (r, ix) → s.wb r ix = some w →
      exec .pauseSettled s = .next ((s.pausedAt p).finish r w 0 [p.p % 2 ^ 32, p.p / 2 ^ 32 % 2 ^ 32])) := by
  have hneg : ¬ ((decide (p.st ≠ 2) || !p.clus.all s.settled) = true) := by simp [hst, hset]
  have hunfold := show exec .pauseSettled s = execPauseSettled s from rfl
  unfold execPauseSettled at hunfold
  simp only [hp] at hunfold
  rw [if_neg hneg] at hunfold
  refine ⟨fun hw => ?_, fun r ix hw hnone => ?_, fun r ix w hw hsome => ?_⟩
  · simp only [hw] at hunfold
    exact hunfold
  · have hwb := (s.pausedAt_wb p r ix).trans hnone
    simp only [hw] at hunfold
    rw [hunfold]
    simp only [State.pausedAt, State.onClusters, Cluster.paused] at hwb ⊢
    rw [hwb]
  · have hwb := (s.pausedAt_wb p r ix).trans hsome
    simp only [hw] at hunfold
    rw [hunfold]
    simp only [State.pausedAt, State.onClusters, Cluster.paused] at hwb ⊢
    rw [hwb]
    rfl

end

/-- Settles O22: the votes by `passVote`'s cases, a settled pause by what becomes of each cluster of its set. -/
theorem modulesVoteAndPausesSettle : Obligations.ModulesVoteAndPausesSettle := by
  unfold Obligations.ModulesVoteAndPausesSettle
  refine ⟨fun s => ?votes, fun s => ⟨fun hnone => ?noPause, fun p hp => ⟨exec_pauseSettled_of_not hp, fun hst hset => ?settled⟩⟩⟩
  case votes =>
    intro decided
    have hdec (u : State) (hu : u.children = s.children) (take pause : Bool) : decided u take pause (u.setDecision take pause) :=
      ⟨fun p => hu ▸ u.setDecision_port take pause p, u.setDecision_frame take pause⟩
    refine ⟨fun hm hr hv hk => ?_, exec_votePoint_of_not_time, fun hm hl hv hd hk => ?_, exec_leadDecisionDeadline_of_not_time⟩
    · intro v vins c k
      have hrun := exec_votePoint_of_time hm hr hv hk
      have hown : v.cvn.own = some (!s.linksWait, s.pauseOk) := rfl
      refine ⟨fun h => hrun.trans (congrArg _ (State.passVote_of_waits hown h)), fun hd hall => ⟨fun hl => ?_, fun hl p hp => ?_, fun hl hp => ?_⟩⟩
      · exact ⟨_, hrun.trans (congrArg _ (State.passVote_of_lead hown hd hall hl)), hdec v rfl c (c && k)⟩
      · exact hrun.trans (congrArg _ (State.passVote_of_parent hown hd hall hl hp))
      · exact hrun.trans (congrArg _ (State.passVote_of_alone hown hd hall hl hp))
    · exact ⟨_, exec_leadDecisionDeadline_of_time hm hl hv hd hk, hdec s rfl false false⟩
  case noPause =>
    show execPauseSettled s = _
    unfold execPauseSettled
    rw [hnone]
  case settled =>
    obtain ⟨x, hx⟩ := s.pausedAt_frame p
    have hcl := s.pausedAt_cl p
    refine ⟨s.pausedAt p, by rw [hx], fun n hn => ?_, fun n hn => ?_, by rw [hx], by rw [hx], by rw [hx],
      exec_pauseSettled_of_settled hp hst hset⟩
    · rw [hcl, if_pos hn]
      rfl
    · rw [hcl, if_neg hn]

end Sys2Proof.Machine
end

section
/-! SUPPORT. Frames received on a caravan link: acknowledgements, VB bits, and the frame itself (R311, R312, R314, R325, R326). -/

namespace Sys2Proof.Machine

/-! Acknowledgements (R312, R314) -/

/-- An ACK drops the frames up to the first that has its FSEQ. -/
theorem ackFrames_of_first {a : Nat} {f : SentFrame} {pre rest : List SentFrame} (hf : f.fseq = a) (hpre : ∀ g ∈ pre, g.fseq ≠ a) :
    ackFrames a (pre ++ f :: rest) = rest := by
  have hdrop : (pre ++ f :: rest).dropWhile (fun f => f.fseq ≠ a) = f :: rest := by
    rw [List.dropWhile_append_of_pos (by simpa using hpre), List.dropWhile_cons_of_neg (by simpa using hf)]
  unfold ackFrames
  rw [if_pos (by simp [hf]), hdrop]
  rfl

section
variable {x : Port} {a : Nat} {f : SentFrame} {pre rest : List SentFrame} (hr : x.replay = []) (hs : x.sent = pre ++ f :: rest)
  (hf : f.fseq = a) (hpre : ∀ g ∈ pre, g.fseq ≠ a)
include hr hs hf hpre

theorem Port.acked_of_ack : x.acked a false = { x with sent := rest, nakRun := 0 } := by
  unfold Port.acked
  simp only [hr, hs, ackFrames_of_first hf hpre, List.any_nil, Bool.false_eq_true, if_false, Bool.not_false, if_true]

/-- A NAK puts what is left before new frames; whether its credits go out anew depends on the oldest of them. -/
theorem Port.acked_of_nak : ∃ run slot, x.acked a true =
    (let sure := rest.head?.any (fun g => !g.again)
     { x with
       nakFor := a, nakRun := run, sent := [], rslot := slot
       replay := if sure then rest else rest.map (fun h => { h with again := true })
       credOut := if sure then x.credOut + (rest.map (fun h => h.cred)).foldl (· + ·) 0 else x.credOut }) := by
  refine ⟨if x.nakFor = a ∧ x.nakRun ≠ 0 then x.nakRun + 1 else 1, if rest = [] then x.rslot else 0, ?_⟩
  unfold Port.acked
  simp only [hr, hs, ackFrames_of_first hf hpre, List.any_nil, Bool.false_eq_true, if_false, Bool.not_true, List.append_nil]
  cases rest with
  | nil => rfl
  | cons g r => rfl

end

/-! VB bits of a good frame (R325, R326) -/

@[simp] theorem State.setPort_children (s : State) (p : Nat) (x : Port) : (s.setPort p x).children = s.children := rfl

section
variable {s : State} {p vb : Nat}

theorem State.takeVb_of_no_vote (h : s.mustered = false ∨ vb % 2 = 0) : s.takeVb p vb = s := by
  unfold State.takeVb
  exact if_pos (by rcases h with h | h <;> simp [h])

variable (hm : s.mustered = true) (hv : vb % 2 = 1)
include hm hv

theorem State.takeVb_of_decision (hp : s.parent = some p) (h : s.cvn.decision.isSome = true ∨ s.cvn.voted = false) :
    s.takeVb p vb = s := by
  unfold State.takeVb
  rw [if_neg (by simp [hm, hv]), if_pos hp, if_pos (by rcases h with h | h <;> simp [h])]

theorem State.takeVb_of_parent (hp : s.parent = some p) (hd : s.cvn.decision = none) (hvoted : s.cvn.voted = true) :
    s.takeVb p vb = (s.setPort p { s.port p with vin := vb }).setDecision (vb.testBit 1) (vb.testBit 2) := by
  unfold State.takeVb
  rw [if_neg (by simp [hm, hv]), if_pos hp, if_neg (by simp [hd, hvoted])]

theorem State.takeVb_of_early (hp : s.parent ≠ some p) (hk : s.kc < 8192 - s.voteKc) : s.takeVb p vb = s := by
  unfold State.takeVb
  rw [if_neg (by simp [hm, hv]), if_neg hp, if_pos hk]

theorem State.takeVb_of_vote (hp : s.parent ≠ some p) (hk : 8192 - s.voteKc ≤ s.kc) :
    s.takeVb p vb = (s.setPort p { s.port p with vin := vb }).passVote := by
  unfold State.takeVb
  rw [if_neg (by simp [hm, hv]), if_neg hp, if_neg (by omega)]

end

/-! Frames (R311, R312) -/

@[simp] theorem State.count_port (s : State) (a n p : Nat) : (s.count a n).port p = s.port p :=
  State.port_eq_of_sansRecords (s.count_sansRecords a n) p

/-- What a frame does to the counters of its errors. -/
def State.frameCounts (s : State) (p : Nat) (fec : FecCase) : State :=
  (s.count (pa p 0x18) fec.corrected).count (pa p 0x1C) fec.uncorrectable

@[simp] theorem State.frameCounts_port (s : State) (p q : Nat) (fec : FecCase) : (s.frameCounts p fec).port q = s.port q := by
  simp [State.frameCounts]

/-- The KIND nibbles of a control word. -/
def frameKinds (w : Nat) : List Nat := (List.range 5).map (fun i => bits w (24 + 4 * i) 4)

/-- A port after a good frame: the ACK, and in order the slots and the credits. -/
def Port.framed (x : Port) (f : Frame) : Port :=
  let w := f.control.toNat
  let x1 := x.acked (bits w 8 8) (w.testBit 16)
  if w % 256 = (x.good + 1) % 256 then
    { x1 with
      good := w % 256, naking := false, returned := (x1.returned + bits w 17 7) % 2 ^ 32
      rx := x1.rx ++ ((frameKinds w).zip f.slots).filter (fun k => decide (k.1 ≠ 0)) }
  else x1

theorem Port.framed_nakRun (x : Port) (f : Frame) :
    (x.framed f).nakRun = (x.acked (bits f.control.toNat 8 8) (f.control.toNat.testBit 16)).nakRun := by
  unfold Port.framed
  dsimp only
  split <;> rfl

/-- The 16th NAK in a row for one frame takes the port down. -/
def State.unlessNaked (s : State) (p run : Nat) : State := if 16 ≤ run then s.portDown p 4 else s

section
variable {s : State} {p : Fin 16} {fec : FecCase} {f : Frame}

theorem exec_caravanFrame_of_deaf (h1 : s.lnk p ≠ 1) (h2 : s.lnk p ≠ 2) (h5 : s.lnk p ≠ 5) : exec (.caravanFrame p fec f) s = .next s :=
  (if_pos (.inl ⟨h2, h1, h5⟩) : execCaravanFrame p fec f s = _)

variable (hwf : (Instr.caravanFrame p fec f).wf = true) (hl : s.lnk p = 1 ∨ s.lnk p = 2 ∨ s.lnk p = 5)
include hwf hl

theorem caravanFrame_seen :
    ¬ ((s.lnk p ≠ 2 ∧ s.lnk p ≠ 1 ∧ s.lnk p ≠ 5) ∨ f.slots.length ≠ 5 ∨ f.slots.any (fun b => b.length ≠ 512) = true) := by
  have h : (decide (f.slots.length = 5) && f.slots.all (fun s => decide (s.length = 512))) = true := hwf
  rw [Bool.and_eq_true, decide_eq_true_iff, List.all_eq_true] at h
  rintro (⟨h2, h1, h5⟩ | hlen | hany)
  · rcases hl with h | h | h <;> contradiction
  · exact hlen h.1
  · obtain ⟨b, hb, hne⟩ := List.any_eq_true.mp hany
    have := of_decide_eq_true (h.2 b hb)
    simp [this] at hne

/-- A frame whose CRC does not fit. -/
theorem exec_caravanFrame_of_bad_crc (hc : bits f.control.toNat 44 32 ≠ frameCrc f.slots (f.control.toNat % 2 ^ 44)) :
    exec (.caravanFrame p fec f) s =
      .next (((s.frameCounts p fec).count (pa p 0x20) 1).setPort p { s.port p with naking := true }) := by
  show execCaravanFrame p fec f s = _
  unfold execCaravanFrame
  rw [if_neg (caravanFrame_seen hwf hl)]
  extract_lets w kinds s1 crcBad s2 x
  have hbad : crcBad = true := decide_eq_true hc
  have hs2 : s2 = (s.frameCounts p fec).count (pa p 0x20) 1 := if_pos hbad
  have hx : x = s.port p := by rw [show x = s2.port p from rfl, hs2, State.count_port, State.frameCounts_port]
  rw [hbad, Bool.true_or, Bool.true_or, if_pos rfl, hs2, hx]

variable (hc : bits f.control.toNat 44 32 = frameCrc f.slots (f.control.toNat % 2 ^ 44))
include hc

/-- A frame with an uncorrectable error or a reserved KIND. -/
theorem exec_caravanFrame_of_unusable (h : 0 < fec.uncorrectable ∨ ∃ k ∈ frameKinds f.control.toNat, 4 < k) :
    exec (.caravanFrame p fec f) s = .next ((s.frameCounts p fec).setPort p { s.port p with naking := true }) := by
  show execCaravanFrame p fec f s = _
  unfold execCaravanFrame
  rw [if_neg (caravanFrame_seen hwf hl)]
  extract_lets w kinds s1 crcBad s2 x
  have hgood : crcBad = false := decide_eq_false (not_not.mpr hc)
  have hs2 : s2 = s.frameCounts p fec := if_neg (by simp [hgood])
  have hx : x = s.port p := by rw [show x = s2.port p from rfl, hs2, State.frameCounts_port]
  rw [if_pos, hs2, hx]
  rcases h with h | ⟨k, hk, h4⟩
  · simp [h]
  · have hany : kinds.any (fun k => decide (4 < k)) = true := List.any_eq_true.mpr ⟨k, hk, decide_eq_true h4⟩
    simp [hany]

/-- A good frame. -/
theorem exec_caravanFrame_of_good (hfec : fec.uncorrectable = 0) (hk : ∀ k ∈ frameKinds f.control.toNat, k ≤ 4) :
    exec (.caravanFrame p fec f) s = .next ((((s.frameCounts p fec).setPort p ((s.port p).framed f)).takeVb p (bits f.control.toNat 76 4)).unlessNaked p
      ((s.port p).framed f).nakRun) := by
  show execCaravanFrame p fec f s = _
  unfold execCaravanFrame
  rw [if_neg (caravanFrame_seen hwf hl)]
  extract_lets w kinds s1 crcBad s2 x x1 x2 s3
  have hgood : crcBad = false := decide_eq_false (not_not.mpr hc)
  have hs2 : s2 = s.frameCounts p fec := if_neg (by simp [hgood])
  have hx : x = s.port p := by rw [show x = s2.port p from rfl, hs2, State.frameCounts_port]
  have hx2 : x2 = (s.port p).framed f := by rw [← hx]; rfl
  have hkinds : kinds.any (fun k => decide (4 < k)) = false := by
    rw [List.any_eq_false]
    intro k hmem
    have := hk k hmem
    simpa using this
  rw [hgood, hkinds, hfec]
  refine (if_neg (by decide)).trans ?_
  rw [show s3 = (s2.setPort p x2).takeVb p (bits w 76 4) from rfl, hx2, hs2]
  rfl

end

/-- Settles O24: a frame by what is wrong with it, VB bits by the port they come from, an ACK by the first frame it names. -/
theorem caravanFramesAreTaken : Obligations.CaravanFramesAreTaken := by
  unfold Obligations.CaravanFramesAreTaken
  refine ⟨fun s p fec f hwf => ?frames, fun s p vb => ⟨State.takeVb_of_no_vote, fun hm hv => ?votes⟩,
    fun x a f pre rest hr hs hf hpre => ⟨Port.acked_of_ack hr hs hf hpre, ?nak⟩⟩
  case frames =>
    intro w kinds s1 good x x1 ends
    refine ⟨exec_caravanFrame_of_deaf, fun hl => ⟨fun hbad => ?_, fun hgood h => ?_, fun hgood hfec hk => ?_⟩⟩
    · exact exec_caravanFrame_of_bad_crc hwf hl (of_decide_eq_false hbad)
    · exact exec_caravanFrame_of_unusable hwf hl (of_decide_eq_true hgood) h
    · have hrun := exec_caravanFrame_of_good hwf hl (of_decide_eq_true hgood) hfec hk
      rw [Port.framed_nakRun, Port.framed] at hrun
      refine ⟨fun hin => ?_, fun hout => ?_⟩
      · rw [if_pos hin] at hrun
        exact hrun
      · rw [if_neg hout] at hrun
        exact hrun
  case votes =>
    intro u
    refine ⟨State.takeVb_of_decision hm hv, fun hp hd hvoted => ?_, State.takeVb_of_early hm hv, State.takeVb_of_vote hm hv⟩
    have h := State.takeVb_of_parent hm hv hp hd hvoted
    refine ⟨h, ?_, fun q hq => ?_⟩
    · rw [h, State.setDecision_frame]
      rfl
    · rw [h, State.setDecision_port, State.setPort_children, if_pos hq]
      rfl
  case nak =>
    obtain ⟨run, slot, heq⟩ := Port.acked_of_nak hr hs hf hpre
    rw [heq]
    refine ⟨rfl, rfl, rfl, fun g r hrest hagain => ?_, fun hagain => ?_⟩
    · subst hrest
      simp only [List.head?_cons, Option.any_some, hagain, Bool.not_false, if_true, and_self]
    · cases rest with
      | nil => exact ⟨rfl, rfl⟩
      | cons g r =>
        simp only [List.head?_cons, Option.any_some, hagain g r rfl, Bool.not_true, Bool.false_eq_true, if_false, and_self]

end Sys2Proof.Machine
end

section
/-! SUPPORT. Deliveries of relay stores and their answers (R314, R341, R342). -/

namespace Sys2Proof.Machine

/-! Slots received -/

section
variable {s s1 : State} {p : Nat} {f : Nat × List Byte → Bool} {m : List Byte}

/-- A slot that is taken frees its buffer; the credit of one that is no IDENT goes back. -/
theorem State.takeRx_eq_some (h : s.takeRx p f = some (m, s1)) : ∃ k rx, f (k, m) = true ∧
    s1 = s.setPort p { s.port p with rx := rx, credOut := (s.port p).credOut + (if isIdent k m then 0 else 1) } := by
  unfold State.takeRx at h
  obtain ⟨⟨k, m'⟩, hfind, heq⟩ := Option.map_eq_some_iff.mp h
  obtain ⟨rfl, rfl⟩ := Prod.mk.inj heq
  exact ⟨k, _, List.find?_some hfind, rfl⟩

end

/-! Deliveries (R341, R342) -/

/-- A delivery lies in a relay window. -/
def State.inRelay (s : State) (a n : Nat) (w : Relay) : Bool :=
  decide (w.dst = s.modnum) && decide (w.dpage * 0x200000 ≤ a) && decide (a + n ≤ (w.dpage + w.pages) * 0x200000)

/-- A module of a mustered domain takes a delivery. -/
def State.relayed (s : State) (a n : Nat) : Bool :=
  match s.cvn.book with | some b => s.mustered && b.relays.any (s.inRelay a n) | none => false

theorem State.relayed_eq_true {s : State} {a n : Nat} {b : Book} (hb : s.cvn.book = some b) (hm : s.mustered = true)
    (h : ∃ w ∈ b.relays, w.dst = s.modnum ∧ w.dpage * 0x200000 ≤ a ∧ a + n ≤ (w.dpage + w.pages) * 0x200000) :
    s.relayed a n = true := by
  obtain ⟨w, hw, hdst, hlo, hhi⟩ := h
  have hin : s.inRelay a n w = true := by
    rw [State.inRelay, decide_eq_true hdst, decide_eq_true hlo, decide_eq_true hhi]
    rfl
  unfold State.relayed
  simp only [hb, hm, Bool.true_and]
  exact List.any_eq_true.mpr ⟨w, hw, hin⟩

theorem State.relayed_eq_false {s : State} {a n : Nat} (h : s.mustered = false ∨ ∀ b, s.cvn.book = some b → ∀ w ∈ b.relays,
    ¬ (w.dst = s.modnum ∧ w.dpage * 0x200000 ≤ a ∧ a + n ≤ (w.dpage + w.pages) * 0x200000)) : s.relayed a n = false := by
  unfold State.relayed
  split
  case h_2 => rfl
  case h_1 b hb =>
    rcases h with h | h
    · rw [h, Bool.false_and]
    · rw [Bool.and_eq_false_iff]
      right
      rw [List.any_eq_false]
      intro w hw hin
      simp only [State.inRelay, Bool.and_eq_true, decide_eq_true_eq] at hin
      exact h b hb w hw ⟨hin.1.1, hin.1.2, hin.2⟩

/-- The bytes a delivery carries. -/
def deliveryData (m : List Byte) : List Byte := (m.drop 16).take (leAt m 5 2)

section
variable {s s1 : State} {p : Fin 16} {ecc : List (Nat × EccCase)} {m : List Byte}

theorem exec_delivery_of_none (h : s.takeRx p (fun m => decide (m.1 = 2)) = none) : exec (.delivery p ecc) s = .next s := by
  show execDelivery p ecc s = _
  unfold execDelivery
  rw [h]

section
variable (h : s.takeRx p (fun m => decide (m.1 = 2)) = some (m, s1))
include h

/-- What a delivery received does, by whether a window takes it and by its length. -/
theorem exec_delivery_of_some : exec (.delivery p ecc) s = .next (
    if !s.relayed (leAt m 0 5) (deliveryData m).length then s1.dackOut p (leAt m 8 2) (leAt m 10 2) 2
    else if (deliveryData m).length = 0 then s1.dackOut p (leAt m 8 2) (leAt m 10 2) 0
    else (s1.deliver p (leAt m 8 2) (leAt m 10 2) (leAt m 0 5) (deliveryData m).length (leAt m 0 5)
      ((deliveryData m).take (512 - leAt m 0 5 % 512)) ecc).deliver p (leAt m 8 2) (leAt m 10 2) (leAt m 0 5) (deliveryData m).length
      (leAt m 0 5 + (512 - leAt m 0 5 % 512)) ((deliveryData m).drop (512 - leAt m 0 5 % 512)) ecc) := by
  show execDelivery p ecc s = _
  unfold execDelivery
  rw [h]
  dsimp only
  rw [apply_ite Host.Outcome.next, apply_ite Host.Outcome.next]
  rfl

theorem exec_delivery_of_unrelayed (hr : s.relayed (leAt m 0 5) (deliveryData m).length = false) :
    exec (.delivery p ecc) s = .next (s1.dackOut p (leAt m 8 2) (leAt m 10 2) 2) := by
  rw [exec_delivery_of_some h, hr, if_pos (by decide)]

variable (hr : s.relayed (leAt m 0 5) (deliveryData m).length = true)
include hr

theorem exec_delivery_of_empty (hn : (deliveryData m).length = 0) :
    exec (.delivery p ecc) s = .next (s1.dackOut p (leAt m 8 2) (leAt m 10 2) 0) := by
  rw [exec_delivery_of_some h, hr, if_neg (by decide), if_pos hn]

theorem exec_delivery_of_bytes (hn : 0 < (deliveryData m).length) : exec (.delivery p ecc) s = .next (
    (s1.deliver p (leAt m 8 2) (leAt m 10 2) (leAt m 0 5) (deliveryData m).length (leAt m 0 5)
      ((deliveryData m).take (512 - leAt m 0 5 % 512)) ecc).deliver p (leAt m 8 2) (leAt m 10 2) (leAt m 0 5) (deliveryData m).length
      (leAt m 0 5 + (512 - leAt m 0 5 % 512)) ((deliveryData m).drop (512 - leAt m 0 5 % 512)) ecc) := by
  rw [exec_delivery_of_some h, hr, if_neg (by decide), if_neg hn.ne']

end
end

theorem State.deliver_nil (s : State) (p dseq cl start n a : Nat) (ecc : List (Nat × EccCase)) :
    s.deliver p dseq cl start n a [] ecc = s := if_pos rfl

theorem State.deliver_of_ne {bs : List Byte} (h : bs ≠ []) (s : State) (p dseq cl start n a : Nat) (ecc : List (Nat × EccCase)) :
    s.deliver p dseq cl start n a bs ecc = s.request { write := true, addr := a, src := .car p dseq cl start n, found := ecc
                                                       bytes := bs.zipIdx.map (fun x => { addr := a + x.2, mask := 3#2, val := x.1 }) } :=
  if_neg h

/-! Answers (R315, R342) -/

@[simp] theorem State.stopCl_relays (s : State) (n cause : Nat) : (s.stopCl n cause).relays = s.relays := by
  unfold State.stopCl
  dsimp only
  split <;> rfl

theorem State.raise_relays (s : State) (code cls unit d0 d1 : Nat) : (s.raise code cls unit d0 d1).relays = s.relays :=
  (congrArg State.relays (s.raise_sansRecords code cls unit d0 d1 false) :)

/-- What the status of an answer does to the store's cluster. -/
def State.answered (s : State) (p dseq cl status : Nat) : State :=
  if status = 1 then (s.raise 30 1 cl dseq p).stopCl cl 8
  else if status = 2 then (s.raise 7 1 cl (s.regN (ca cl 0x410)) (s.regN (ca cl 0x414))).stopCl cl 2 else s

theorem State.answered_relays (s : State) (p dseq cl status : Nat) : (s.answered p dseq cl status).relays = s.relays := by
  unfold State.answered
  split
  · rw [State.stopCl_relays, State.raise_relays]
  · split
    · rw [State.stopCl_relays, State.raise_relays]
    · rfl

/-- The relay store an answer is for. -/
def awaits (p dseq cl : Nat) : RelaySt → Bool := fun r => decide (r.cl = cl) && decide (r.port = p) && r.seqs.contains dseq

section
variable {s : State} {p dseq cl status : Nat}

theorem State.dackEntry_of_none (h : s.relays.find? (awaits p dseq cl) = none) : s.dackEntry p dseq cl status = s := by
  have h1 : (s.answered p dseq cl status).relays.find? (awaits p dseq cl) = none := by rw [State.answered_relays, h]
  unfold State.dackEntry
  extract_lets c s1
  rw [show s1.relays.find? (fun r => decide (r.cl = cl) && decide (r.port = p) && r.seqs.contains dseq) = none from h1]

variable {r : RelaySt} (h : s.relays.find? (awaits p dseq cl) = some r)
include h

theorem State.dackEntry_of_more (hmore : r.seqs.erase dseq ≠ []) : s.dackEntry p dseq cl status = { s.answered p dseq cl status with
    relays := s.relays.erase r ++ [{ r with seqs := r.seqs.erase dseq, status := max r.status status }] } := by
  have h1 : (s.answered p dseq cl status).relays.find? (awaits p dseq cl) = some r := by rw [State.answered_relays, h]
  have h2 : (s.answered p dseq cl status).relays = s.relays := s.answered_relays ..
  unfold State.dackEntry
  extract_lets c s1
  rw [show s1.relays.find? (fun r => decide (r.cl = cl) && decide (r.port = p) && r.seqs.contains dseq) = some r from h1]
  dsimp only
  rw [if_pos hmore, show s1.relays = s.relays from h2]
  rfl

/-- The last answer performs the store's tag. -/
theorem State.dackEntry_of_last (hlast : r.seqs.erase dseq = []) : s.dackEntry p dseq cl status =
    ({ s.answered p dseq cl status with relays := s.relays.erase r } : State).setCl cl
      (((s.answered p dseq cl status).cl cl).setTag r.tag { (s.cl cl).tag r.tag with st := 2 }) := by
  have h1 : (s.answered p dseq cl status).relays.find? (awaits p dseq cl) = some r := by rw [State.answered_relays, h]
  have h2 : (s.answered p dseq cl status).relays = s.relays := s.answered_relays ..
  unfold State.dackEntry
  extract_lets c s1
  rw [show s1.relays.find? (fun r => decide (r.cl = cl) && decide (r.port = p) && r.seqs.contains dseq) = some r from h1]
  dsimp only
  rw [if_neg (not_not.mpr hlast), show s1.relays = s.relays from h2]
  rfl

end

section
variable {s s1 : State} {p : Fin 16} {m : List Byte}

theorem exec_dack_of_none (h : s.takeControl p 5 = none) : exec (.dack p) s = .next s := by
  show execDack p s = _
  unfold execDack
  rw [h]

theorem exec_dack_of_one (h : s.takeControl p 5 = some (m, s1)) (h1 : leAt m 4 2 = 1) :
    exec (.dack p) s = .next (s1.dackEntry p (leAt m 8 2) (leAt m 10 2) (leAt m 12 1)) := by
  show execDack p s = _
  unfold execDack
  rw [h]
  dsimp only
  rw [h1]
  rfl

theorem State.takeControl_relays {type : Nat} (h : s.takeControl p type = some (m, s1)) : s1.relays = s.relays := by
  obtain ⟨k, rx, -, rfl⟩ := State.takeRx_eq_some h
  rfl

end

/-- Settles O25: a delivery by its window and length, an answer by what its store still waits for. -/
theorem deliveriesAreWrittenAndAcknowledged : Obligations.DeliveriesAreWrittenAndAcknowledged := by
  unfold Obligations.DeliveriesAreWrittenAndAcknowledged
  refine ⟨fun s p ecc => ⟨exec_delivery_of_none, fun m s1 h => ?delivery⟩, fun s p => ⟨exec_dack_of_none, fun m s1 h hone => ?dack⟩⟩
  case delivery =>
    intro a data n k inWin part
    have hk : 0 < k := by show 0 < 512 - a % 512; omega
    refine ⟨?_, ?_, fun b hb hm hw => ⟨fun hn => ?_, fun hpos hle => ?_, fun hlt => ?_⟩, fun hno => ?_⟩
    · obtain ⟨kind, rx, hkind, rfl⟩ := State.takeRx_eq_some h
      have hkind : kind = 2 := of_decide_eq_true hkind
      rw [State.setPort_port_same, hkind]
      rfl
    · obtain ⟨kind, rx, -, rfl⟩ := State.takeRx_eq_some h
      rfl
    · exact exec_delivery_of_empty h (State.relayed_eq_true hb hm hw) hn
    · have hle : (deliveryData m).length ≤ 512 - leAt m 0 5 % 512 := hle
      have hpos : 0 < (deliveryData m).length := hpos
      refine (exec_delivery_of_bytes h (State.relayed_eq_true hb hm hw) hpos).trans (congrArg _ ?_)
      rw [List.take_of_length_le hle, List.drop_of_length_le hle, State.deliver_nil, State.deliver_of_ne (List.ne_nil_of_length_pos hpos)]
      rfl
    · have hlt : 512 - leAt m 0 5 % 512 < (deliveryData m).length := hlt
      have htake : (deliveryData m).take (512 - leAt m 0 5 % 512) ≠ [] := List.ne_nil_of_length_pos (by rw [List.length_take]; omega)
      have hdrop : (deliveryData m).drop (512 - leAt m 0 5 % 512) ≠ [] := List.ne_nil_of_length_pos (by rw [List.length_drop]; omega)
      refine (exec_delivery_of_bytes h (State.relayed_eq_true hb hm hw) (hk.trans hlt)).trans (congrArg _ ?_)
      rw [State.deliver_of_ne htake, State.deliver_of_ne hdrop]
      rfl
    · exact exec_delivery_of_unrelayed h (State.relayed_eq_false hno)
  case dack =>
    intro dseq cl status mine s2
    have hrun := exec_dack_of_one h hone
    have hrelays := State.takeControl_relays h
    refine ⟨fun hnone => ?_, fun r hr => ⟨fun hmore => ?_, fun hlast => ?_⟩⟩
    · rw [hrun, State.dackEntry_of_none (by rw [hrelays]; exact hnone)]
    · rw [hrun, State.dackEntry_of_more (by rw [hrelays]; exact hr) hmore, hrelays]
      rfl
    · rw [hrun, State.dackEntry_of_last (by rw [hrelays]; exact hr) hlast, hrelays]
      rfl

end Sys2Proof.Machine
end

section
/-! SUPPORT. IDENT and LEAVE, the messages of a muster, its time limits and its start (R318, R320, R322, R323, R420). -/

namespace Sys2Proof.Machine

/-! IDENT and LEAVE (R318, R420) -/

section
variable {s s1 : State} {p : Fin 16} {m : List Byte}

theorem exec_identMessage_of_not (h : s.takeControl p 2 = none ∨ (s.lnk p ≠ 1 ∧ s.lnk p ≠ 5)) : exec (.identMessage p) s = .next s := by
  show execIdentMessage p s = _
  unfold execIdentMessage
  by_cases hl : s.lnk p ≠ 1 ∧ s.lnk p ≠ 5
  · exact if_pos hl
  · rw [if_neg hl, h.resolve_right hl]

/-- What LNK_PEER holds after an IDENT. -/
def State.peered (s : State) (p : Nat) (m : List Byte) : State :=
  s.setRegN (pa p 8) (leAt m 24 2 % 512 + leAt m 26 1 % 16 * 2 ^ 9 + 2 ^ 13)

theorem exec_identMessage_of_some (h : s.takeControl p 2 = some (m, s1)) (hl : s.lnk p = 1 ∨ s.lnk p = 5) :
    exec (.identMessage p) s = .next (if leAt m 27 1 = s.clkStep then s1.peered p m else (s1.peered p m).portDown p 2) := by
  show execIdentMessage p s = _
  unfold execIdentMessage
  rw [if_neg (by omega), h]
  rfl

theorem exec_leave_of_none (h : s.takeControl p 6 = none) : exec (.leave p) s = .next s := by
  show execLeave p s = _
  unfold execLeave
  rw [h]

theorem exec_leave_of_some (h : s.takeControl p 6 = some (m, s1)) : exec (.leave p) s =
    .next ((s1.setPort p { s1.port p with quiesce := true }).raise 24 4 p (leAt m 26 1) (leAt m 24 2)) := by
  show execLeave p s = _
  unfold execLeave
  rw [h]

end

/-! READY and GO (R323) -/

theorem State.sendSlot_cvn (s : State) (p act kind : Nat) (data : List Byte) : (s.sendSlot p act kind data).cvn = s.cvn := rfl

section
variable {s : State} {b : Book} (hb : s.cvn.book = some b)
include hb

/-- GO goes to the children. -/
theorem State.passGo_eq (t0 : Nat) : s.passGo t0 = s.children.foldl (fun u p => u.sendSlot p 2 4 (musterMsg 4 b.rbid s.cvn.s0 t0))
    { s with cvn := { s.cvn with t0 := some t0 } } := by
  have hfold (ps : List Nat) (u : State) (hu : u.cvn.s0 = s.cvn.s0) :
      ps.foldl (fun v p => v.sendSlot p 2 4 (musterMsg 4 b.rbid v.cvn.s0 t0)) u =
        ps.foldl (fun v p => v.sendSlot p 2 4 (musterMsg 4 b.rbid s.cvn.s0 t0)) u := by
    induction ps generalizing u with
    | nil => rfl
    | cons p ps ih =>
      rw [List.foldl_cons, List.foldl_cons, ih _ (by rw [State.sendSlot_cvn, hu]), hu]
  unfold State.passGo
  rw [hb]
  exact hfold s.children _ rfl

/-- The modules a complete READY counts. -/
def State.mustered1 (s : State) : Nat := (s.children.map (fun p => sget zeroNat s.cvn.subs p)).foldl (· + ·) 1

/-- READY has been sent. -/
def State.readied (s : State) : State := { s with cvn := { s.cvn with readySent := true } }

variable (hd : s.dstate = 1) (hr : s.cvn.readySent = false) (hl : s.leads = true ∨ (s.reg 0x500000).getLsbD 2 = true)
  (hc : ∀ p ∈ s.children, sget zeroNat s.cvn.subs p ≠ 0)
include hd hr hl hc

theorem State.musterStep_of_ready : s.musterStep =
    if s.leads then (if s.mustered1 = b.mods.length then s.readied.passGo s.readied.pickT0 else s)
    else match s.parent with
      | some p => s.readied.sendSlot p 2 4 (musterMsg 3 b.rbid s.cvn.s0 s.mustered1)
      | none => s.readied := by
  have hany : (s.children.map (fun p => sget zeroNat s.cvn.subs p)).any (fun n => n = 0) = false := by
    rw [List.any_eq_false]
    intro n hn
    obtain ⟨p, hp, rfl⟩ := List.mem_map.mp hn
    simpa using hc p hp
  have hlocked : (s.leads || (s.reg 0x500000).getLsbD 2) = true := by rcases hl with h | h <;> simp [h]
  have hback : ({ s.readied with cvn := { s.readied.cvn with readySent := false } } : State) = s := by
    have hcvn : ({ s.cvn with readySent := false } : Cvn) = s.cvn := by rw [← hr]
    exact congrArg (fun c => ({ s with cvn := c } : State)) hcvn
  unfold State.musterStep
  rw [hb]
  extract_lets subs locked total s1
  have hany : subs.any (fun n => n = 0) = false := hany
  have hlocked : locked = true := hlocked
  refine (if_neg (by rw [hany, hlocked, hd, hr]; decide)).trans ?_
  by_cases hlead : s.leads = true
  · rw [if_pos hlead, if_pos hlead]
    by_cases ht : total = b.mods.length
    · rw [if_pos ht, if_pos (show s.mustered1 = _ from ht)]
      rfl
    · rw [if_neg ht, if_neg (show ¬ s.mustered1 = _ from ht)]
      exact hback
  · rw [if_neg hlead, if_neg hlead]
    rfl

end

theorem State.ticksPerKc_pos (s : State) : 0 < s.ticksPerKc := by
  unfold State.ticksPerKc
  split
  · decide
  · split <;> decide

/-- The first of the edges `e + k * period` that is not below a bound. -/
theorem first_edge {e b period : Nat} (hp : 0 < period) :
    b ≤ e + (b - e + period - 1) / period * period ∧
      ((b - e + period - 1) / period = 0 ∨ e + (b - e + period - 1) / period * period < b + period) := by
  have hdiv := Nat.div_add_mod (b - e + period - 1) period
  have hmod := Nat.mod_lt (b - e + period - 1) hp
  rw [Nat.mul_comm] at hdiv
  refine ⟨by omega, ?_⟩
  by_cases hd : b ≤ e
  · exact .inl (Nat.div_eq_of_lt (by omega))
  · exact .inr (by omega)

/-- T0 is the first own edge of a period at least 100 µs ahead. -/
theorem State.pickT0_eq (s : State) : ∃ k, s.pickT0 = s.cvnTime + (8192 - s.kc) * s.ticksPerKc + k * (8192 * s.ticksPerKc) ∧
    s.cvnTime + 282000 ≤ s.pickT0 ∧ (k = 0 ∨ s.pickT0 < s.cvnTime + 282000 + 8192 * s.ticksPerKc) :=
  have hpos : 0 < 8192 * s.ticksPerKc := Nat.mul_pos (by decide) s.ticksPerKc_pos
  ⟨_, rfl, first_edge hpos⟩

/-! A muster that fails or starts (R322, R323) -/

section
variable {s s1 : State} {p : Fin 16} {m : List Byte} {b : Book}

theorem exec_readyMessage_of_not (hd : s.dstate ≠ 1) : exec (.readyMessage p) s = .next s := (if_pos hd : execReadyMessage p s = _)
theorem exec_go_of_not (hd : s.dstate ≠ 1) : exec (.go p) s = .next s := (if_pos hd : execGo p s = _)
theorem exec_musterTimeout_of_not {nl : Bool} (hd : s.dstate ≠ 1) : exec (.musterTimeout nl) s = .next s :=
  (if_pos hd : execMusterTimeout nl s = _)

theorem exec_musterStart_of_none (h : s.cvn.t0 = none) : exec .musterStart s = .next s := by
  show execMusterStart s = _
  unfold execMusterStart
  rw [h]

theorem exec_musterStart_of_not {t0 : Nat} (h : s.cvn.t0 = some t0) (hd : s.dstate ≠ 1 ∨ s.cvnTime < t0) : exec .musterStart s = .next s := by
  show execMusterStart s = _
  unfold execMusterStart
  rw [h]
  exact if_pos hd

theorem exec_musterStart_of_not_forming (hd : s.dstate ≠ 1) : exec .musterStart s = .next s := by
  cases h : s.cvn.t0 with
  | none => exact exec_musterStart_of_none h
  | some t0 => exact exec_musterStart_of_not h (.inl hd)

variable (hd : s.dstate = 1)
include hd

theorem exec_musterTimeout_of_lock (h : s.leads = true ∨ (s.reg 0x500000).getLsbD 2 = true) : exec (.musterTimeout true) s = .next s := by
  show execMusterTimeout true s = _
  unfold execMusterTimeout
  rw [if_neg (not_not.mpr hd), if_pos rfl, if_pos (by rcases h with h | h <;> simp [h])]

theorem exec_musterTimeout_of_no_lock (hl : s.leads = false) (h : (s.reg 0x500000).getLsbD 2 = false) :
    exec (.musterTimeout true) s = .next (s.musterFail 5) := by
  show execMusterTimeout true s = _
  unfold execMusterTimeout
  rw [if_neg (not_not.mpr hd), if_pos rfl, hl, h]
  rfl

theorem exec_musterTimeout_of_time : exec (.musterTimeout false) s = .next (s.musterFail 8) := by
  show execMusterTimeout false s = _
  unfold execMusterTimeout
  rw [if_neg (not_not.mpr hd)]
  rfl

/-- The module at T0, the boundary that begins S0 taken. -/
def State.mustersNow (s : State) : State :=
  ({ s.setFld 0x500000 0 2 2 with cvn := { s.cvn with t0 := none, wb := none } } : State).takeBoundary s.cvn.s0 false

section
variable {t0 : Nat} (h : s.cvn.t0 = some t0) (ht : t0 ≤ s.cvnTime)
include h ht

theorem exec_musterStart_of_time_alone (hw : s.cvn.wb = none) : exec .musterStart s = .next s.mustersNow := by
  show execMusterStart s = _
  unfold execMusterStart
  rw [h]
  dsimp only
  rw [if_neg (by omega), hw]
  rfl

theorem exec_musterStart_of_time (hb : s.cvn.book = some b) {r ix : Nat} {w : Wb} (hw : s.cvn.wb = some (r, ix))
    (hwb : s.mustersNow.wb r ix = some w) : exec .musterStart s =
      .next (s.mustersNow.finish r w 0 (pairOf t0 ++ pairOf b.rbid ++ [if s.leads then 1 else 0])) := by
  show execMusterStart s = _
  unfold execMusterStart
  rw [h]
  refine (if_neg (by omega)).trans ?_
  extract_lets wb v c u t rb
  have ht0 : t = s.mustersNow := rfl
  have hrb : rb = b.rbid := by show (match s.cvn.book with | some b => b.rbid | none => 0) = _; rw [hb]
  rw [show wb = some (r, ix) from hw, ht0, hrb]
  dsimp only
  rw [hwb]

end

variable (hb : s.cvn.book = some b)
include hb

theorem exec_readyMessage_of_some (h : s.takeControl p 3 = some (m, s1)) : exec (.readyMessage p) s = .next (
    if leAt m 8 8 ≠ b.rbid then s1.musterFail 2
    else if !(s.children.contains p.val) then s1
    else ({ s1 with cvn := { s1.cvn with subs := sput zeroNat s1.cvn.subs p (leAt m 24 2) } } : State).musterStep) := by
  show execReadyMessage p s = _
  unfold execReadyMessage
  rw [if_neg (not_not.mpr hd), h, hb, apply_ite Host.Outcome.next, apply_ite Host.Outcome.next]

theorem exec_go_of_some (h : s.takeControl p 4 = some (m, s1)) : exec (.go p) s = .next (
    if s.parent ≠ some p.val then s1
    else if leAt m 8 8 ≠ b.rbid then s1.musterFail 2
    else if leAt m 24 8 < s.cvnTime then s1.musterFail 8
    else s1.passGo (leAt m 24 8)) := by
  show execGo p s = _
  unfold execGo
  rw [if_neg (not_not.mpr hd), h, hb, apply_ite Host.Outcome.next, apply_ite Host.Outcome.next, apply_ite Host.Outcome.next]

end

/-- Settles O27: each message and time limit by the domain's state, the book and the port it comes from. -/
theorem peersIdentifyAndMustersComplete : Obligations.PeersIdentifyAndMustersComplete := by
  unfold Obligations.PeersIdentifyAndMustersComplete
  refine ⟨fun s p => ⟨exec_identMessage_of_not, exec_leave_of_none, fun m s1 => ⟨fun h hl => ?ident, exec_leave_of_some⟩⟩,
    ⟨fun s b hd hb hr hl hc => ?ready, fun s b t0 hb => State.passGo_eq hb t0⟩,
    ⟨fun s p nl hd => ⟨exec_readyMessage_of_not hd, exec_go_of_not hd, exec_musterTimeout_of_not hd, exec_musterStart_of_not_forming hd⟩,
      fun s b hd hb => ?forming⟩⟩
  case ident =>
    intro s2
    have hrun := exec_identMessage_of_some h hl
    exact ⟨fun hk => hrun.trans (congrArg _ (if_pos hk)), fun hk => hrun.trans (congrArg _ (if_neg hk))⟩
  case ready =>
    intro total u
    have hstep := State.musterStep_of_ready hb hd hr hl hc
    refine ⟨fun hlead p hp => ?_, fun hlead ht => ?_, fun hlead ht => ?_⟩
    · rw [hstep, if_neg (by simp [hlead]), hp]
      rfl
    · rw [hstep, if_pos hlead]
      exact if_neg ht
    · obtain ⟨k, hk, hlo, hhi⟩ := u.pickT0_eq
      refine ⟨k, ?_⟩
      intro edge t0
      have ht0 : u.pickT0 = t0 := hk
      rw [ht0] at hlo hhi
      refine ⟨hlo, hhi, ?_⟩
      rw [hstep, if_pos hlead, ← ht0]
      exact if_pos ht
  case forming =>
    intro fails
    have hfails (u : State) (c : Nat) : State.musterFail u c = fails u c := by
      unfold State.musterFail
      simp only [fails]
      rcases u.cvn.wb with _ | ⟨r, ix⟩ <;> rfl
    refine ⟨hfails, fun p m s1 h => ?_, fun p m s1 h => ?_, fun hl h => ?_, exec_musterTimeout_of_lock hd, ?_, exec_musterStart_of_none,
      fun t0 ht0 => ?_⟩
    · have hrun := exec_readyMessage_of_some hd hb h
      refine ⟨fun hne => ?_, fun heq hp => ?_, fun heq hp => ?_⟩
      · rw [hrun, if_pos hne, hfails]
      · rw [hrun, if_neg (not_not.mpr heq), if_pos (by simp [hp])]
      · rw [hrun, if_neg (not_not.mpr heq), if_neg (by simp [hp])]
    · have hrun := exec_go_of_some hd hb h
      refine ⟨fun hp => ?_, fun hp => ⟨fun hne => ?_, fun heq hlt => ?_, fun heq hle => ?_⟩⟩
      · rw [hrun, if_pos hp]
      · rw [hrun, if_neg (not_not.mpr hp), if_pos hne, hfails]
      · rw [hrun, if_neg (not_not.mpr hp), if_neg (not_not.mpr heq), if_pos hlt, hfails]
      · rw [hrun, if_neg (not_not.mpr hp), if_neg (not_not.mpr heq), if_neg (Nat.not_lt.mpr hle)]
    · rw [exec_musterTimeout_of_no_lock hd hl h, hfails]
    · rw [exec_musterTimeout_of_time hd, hfails]
    · intro u
      exact ⟨fun hlt => exec_musterStart_of_not ht0 (.inr hlt), fun hle hw => exec_musterStart_of_time_alone hd ht0 hle hw,
        fun hle r ix w hw hwb => exec_musterStart_of_time hd ht0 hle hb hw hwb⟩

end Sys2Proof.Machine
end

section
/-! SUPPORT. Caravan ports: training, their states, and the commands to them (R315 to R318, R360, R376, R419, R425). -/

namespace Sys2Proof.Machine

/-! Training (R315, R316, R318) -/

section
variable (s : State) (p st cause : Nat)

theorem State.setLnk_lnk (h : st < 8) : (s.setLnk p st cause).lnk p = st := by
  rw [State.lnk, State.setLnk, State.setFld_fld_apart _ _ _ (by decide) (by decide), State.setFld_fld_same _ _ _ (by decide)]
  exact Nat.mod_eq_of_lt h

theorem State.setLnk_cause (h : cause < 8) : (s.setLnk p st cause).fld (pa p 0) 3 3 = cause := by
  rw [State.setLnk, State.setFld_fld_same _ _ _ (by decide)]
  exact Nat.mod_eq_of_lt h

end

/-- Another port is ACTIVE. -/
def State.othersActive (s : State) (p : Nat) : Bool := (List.range 16).any (fun q => decide (q ≠ p) && decide (s.lnk q = 2))

/-- A port whose ledger starts afresh, its IDENT first. -/
def State.trainedPort (s : State) (p : Nat) : Port :=
  { txq := { act := 2, kind := 4, data := s.identMsg p } :: (s.port p).txq.filter (fun t => !isIdent t.kind t.data) }

section
variable (s : State) (p : Nat) (recal : Bool)

/-- Chunks held for their RED return no credit to the fresh ledger. -/
def State.earlyAfter : List (Nat × List Byte) := s.early.map (fun e => if e.1 = p then (16, e.2) else e)

theorem State.train_eq : s.train p recal = ((({ s with early := s.earlyAfter p } : State).setPort p (s.trainedPort p)).setLnk p
    (if recal && s.othersActive p then 5 else 1) 0) := rfl

theorem State.train_port (q : Nat) : (s.train p recal).port q = if q = p then s.trainedPort p else s.port q :=
  State.setPort_port ({ s with early := s.earlyAfter p } : State) p q (s.trainedPort p)

theorem State.train_lnk : (s.train p recal).lnk p = if recal && s.othersActive p then 5 else 1 := by
  rw [State.train_eq, State.setLnk_lnk]
  split <;> decide

theorem State.train_cause : (s.train p recal).fld (pa p 0) 3 3 = 0 := by rw [State.train_eq, State.setLnk_cause _ _ _ _ (by decide)]

end

/-! States (R316 to R319, R419) -/

section
variable {s : State} {p : Fin 16}

theorem exec_linkDown_of_up (h : s.lnk p = 1 ∨ s.lnk p = 2 ∨ s.lnk p = 5) : exec (.linkDown p) s = .next (s.portDown p 4) :=
  (if_pos (by omega) : execLinkDown p s = _)

theorem exec_linkDown_of_not_up (h1 : s.lnk p ≠ 1) (h2 : s.lnk p ≠ 2) (h5 : s.lnk p ≠ 5) : exec (.linkDown p) s = .next s :=
  (if_neg (by omega) : execLinkDown p s = _)

theorem exec_trainingComplete_of_not_training {r : TrainEnd} (h1 : s.lnk p ≠ 1) (h5 : s.lnk p ≠ 5) :
    exec (.trainingComplete p r) s = .next s := (if_pos ⟨h1, h5⟩ : execTrainingComplete p r s = _)

/-- A port whose training has succeeded: the IDENT messages left are dropped. -/
def Port.trained (x : Port) : Port :=
  { x with txq := x.txq.filter (fun t => !isIdent t.kind t.data), rx := x.rx.filter (fun m => !isIdent m.1 m.2) }

/-- The module with a port that has become ACTIVE. -/
def State.activated (s : State) (p rtt : Nat) : State :=
  (((s.setRegN (pa p 0x0C) rtt).setPort p (s.port p).trained).setLnk p 2 0).portReceipts p

theorem State.leavePort_quiesce (s : State) (p : Nat) : ((s.leavePort p).port p).quiesce = true := by
  unfold State.leavePort
  dsimp only
  rw [State.setPort_port_same]

section
variable (h : s.lnk p = 1 ∨ s.lnk p = 5)
include h

theorem exec_trainingComplete_of_failed (c : BitVec 3) :
    exec (.trainingComplete p (.failed c)) s = .next (s.portDown p (if c.toNat = 4 then 1 else c.toNat)) :=
  (if_neg (by omega) : execTrainingComplete p (.failed c) s = _)

theorem exec_trainingComplete_of_long {rtt : BitVec 16} (hr : 1804 < rtt.toNat) :
    exec (.trainingComplete p (.ok rtt)) s = .next ((s.setRegN (pa p 0x0C) rtt.toNat).portDown p 3) :=
  (if_neg (by omega) : execTrainingComplete p (.ok rtt) s = _).trans (if_pos hr)

theorem exec_trainingComplete_of_ok {rtt : BitVec 16} (hr : rtt.toNat ≤ 1804) : exec (.trainingComplete p (.ok rtt)) s =
    .next (if (s.activated p rtt.toNat).svcPhase = 4 then (s.activated p rtt.toNat).leavePort p else s.activated p rtt.toNat) :=
  (if_neg (by omega) : execTrainingComplete p (.ok rtt) s = _).trans (if_neg (by omega))

end

/-- Nothing of a quiescing port is under way. -/
def Port.drained (x : Port) : Prop :=
  x.quiesce = true ∧ (∀ t ∈ x.txq, isLeave t.kind t.data = false) ∧ (∀ t ∈ x.frame, t.kind = 0) ∧ x.sent = [] ∧ x.replay = [] ∧
    x.issued = x.returned ∧ x.rx = [] ∧ x.credOut = 0

theorem Port.drained_iff (x : Port) : (x.quiesce = true ∧ (!(x.txq.any (fun t => isLeave t.kind t.data))) = true ∧
    x.frame.all (fun t => t.kind = 0) = true ∧ x.sent = [] ∧ x.replay = [] ∧ x.issued = x.returned ∧ x.rx = [] ∧ x.credOut = 0) ↔
      x.drained := by
  rw [Port.drained, Bool.not_eq_true', List.any_eq_false, List.all_eq_true]
  simp

theorem exec_quiesceComplete_of_drained (hl : s.lnk p = 2) (hd : (s.port p).drained) : exec (.quiesceComplete p) s =
    .next ((((s.setPort p { s.port p with quiesce := false, frame := [] }).setLnk p 3 0).tandemPortLost p).portReceipts p) :=
  (if_pos ⟨hl, (s.port p).drained_iff.mpr hd⟩ : execQuiesceComplete p s = _)

theorem exec_quiesceComplete_of_not (h : s.lnk p ≠ 2 ∨ ¬ (s.port p).drained) : exec (.quiesceComplete p) s = .next s :=
  (if_neg (fun hc => h.elim (· hc.1) (· ((s.port p).drained_iff.mp hc.2))) : execQuiesceComplete p s = _)

end

/-! Commands to a port (R317, R360, R376, R425) -/

@[simp] theorem State.arrived_lnk (s : State) (p : Nat) : s.arrived.lnk p = s.lnk p := s.arrived_congr (·.lnk p) fun _ => rfl
@[simp] theorem State.arrived_port (s : State) (p : Nat) : s.arrived.port p = s.port p := s.arrived_congr (·.port p) fun _ => rfl
@[simp] theorem State.arrived_domainOn (s : State) (d : Nat) : s.arrived.domainOn d = s.domainOn d := s.arrived_congr (·.domainOn d) fun _ => rfl

section
variable {s : State} {p : Fin 16}

section
variable (hs : s.InTurn)
include hs

theorem exec_lnkEnable_of_inTurn (on : Bool) : exec (.lnkEnable p on) s = .next (s.arrived.hostEnable p on) :=
  congrArg Host.Outcome.next (State.hostAccess_of_slotted hs rfl)

theorem exec_lnkEnable_of_held (h : s.wbMask (pa p 4) ≠ 0) (on : Bool) : exec (.lnkEnable p on) s = .next s.arrived := by
  rw [exec_lnkEnable_of_inTurn hs, State.hostEnable, State.arrived_wbMask, if_pos h]

section
variable (h : s.wbMask (pa p 4) = 0)
include h

theorem exec_lnkEnable_of_on : exec (.lnkEnable p true) s = .next (s.arrived.portEnable p) := by
  rw [exec_lnkEnable_of_inTurn hs, State.hostEnable, State.arrived_wbMask, if_neg (not_not.mpr h), if_pos rfl]

theorem exec_lnkEnable_of_off : exec (.lnkEnable p false) s = .next ((s.arrived.portOff p).setFld (pa p 4) 0 1 0) := by
  rw [exec_lnkEnable_of_inTurn hs, State.hostEnable, State.arrived_wbMask, if_neg (not_not.mpr h)]
  rfl

end

theorem exec_lnkQuiesce_of_inTurn : exec (.lnkQuiesce p) s = .next (s.arrived.portQuiesce p) :=
  congrArg Host.Outcome.next (State.hostAccess_of_slotted hs rfl)

theorem exec_lnkRetrain_of_inTurn : exec (.lnkRetrain p) s = .next (s.arrived.portRetrain p) :=
  congrArg Host.Outcome.next (State.hostAccess_of_slotted hs rfl)

end

theorem State.portQuiesce_of_active {p : Nat} (h : s.lnk p = 2) : s.portQuiesce p = s.setPort p { s.port p with quiesce := true } := if_pos h
theorem State.portQuiesce_of_not {p : Nat} (h : s.lnk p ≠ 2) : s.portQuiesce p = s := if_neg h
theorem State.portRetrain_of_down {p : Nat} (h : s.lnk p = 3 ∨ s.lnk p = 4) (hd : s.domainOn (160 + p) = true) :
    s.portRetrain p = s.train p true := if_pos ⟨h, hd⟩
theorem State.portRetrain_of_not {p : Nat} (h : (s.lnk p ≠ 3 ∧ s.lnk p ≠ 4) ∨ s.domainOn (160 + p) = false) : s.portRetrain p = s :=
  if_neg (fun hc => h.elim (fun hl => hc.1.elim hl.1 hl.2) (fun hd => Bool.false_ne_true (hd.symm.trans hc.2)))
theorem State.portEnable_of_off {p : Nat} (h : s.lnk p = 0) (hd : (s.setFld (pa p 4) 0 1 1).domainOn (160 + p) = true) :
    s.portEnable p = (s.setFld (pa p 4) 0 1 1).train p false := if_pos ⟨h, hd⟩
theorem State.portEnable_of_not {p : Nat} (h : (s.setFld (pa p 4) 0 1 1).domainOn (160 + p) = false ∨ s.lnk p ≠ 0) :
    s.portEnable p = s.setFld (pa p 4) 0 1 1 :=
  if_neg (fun hc => h.elim (fun hd => Bool.false_ne_true (hd.symm.trans hc.2)) (· hc.1))

/-- The port's latch is closed, and it is to train by itself. -/
def State.asksTraining (s : State) (p : Nat) : Bool := (s.reg 0x104014).getLsbD p && (s.reg 0x104000).getLsbD 6 && (s.reg (pa p 4)).getLsbD 0

theorem exec_trainingPatternDetect_eq : exec (.trainingPatternDetect p) s = .next (if s.asksTraining p then s.portRetrain p else s) := by
  show execTrainingPatternDetect p s = _
  unfold execTrainingPatternDetect State.autotrain State.asksTraining
  cases (s.reg 0x104014).getLsbD p <;> rfl

end

/-- Settles O28: training by what becomes of the port, each event and command by the port's state. -/
theorem portsFollowTheirStates : Obligations.PortsFollowTheirStates := by
  unfold Obligations.PortsFollowTheirStates
  refine ⟨fun s p recal => ?train, fun s p => ?states, fun s p => ?commands⟩
  case train =>
    intro others t ident
    exact ⟨(s.train_port p recal p).trans (if_pos rfl), fun _ => ⟨s.train_lnk p recal, s.train_cause p recal⟩,
      fun q hq => (s.train_port p recal q).trans (if_neg hq), rfl, rfl⟩
  case states =>
    intro downs
    refine ⟨exec_linkDown_of_up, exec_linkDown_of_not_up, fun r => exec_trainingComplete_of_not_training,
      fun h => ⟨fun rtt => ?_, fun c hc => ?_⟩⟩
    · intro s1 s2
      refine ⟨fun hr h4 => ?_, fun hr h4 => ⟨?_, s2.leavePort_quiesce p⟩, exec_trainingComplete_of_long h⟩
      · exact (exec_trainingComplete_of_ok h hr).trans (congrArg _ (if_neg h4))
      · exact (exec_trainingComplete_of_ok h hr).trans (congrArg _ (if_pos h4))
    · have hne : c.toNat ≠ 4 := fun h4 => hc (BitVec.eq_of_toNat_eq h4)
      rw [exec_trainingComplete_of_failed h, if_neg hne]
      rfl
  case commands =>
    intro trains v v1
    have hlnk : v.lnk p = s.lnk p := s.arrived_lnk p
    have hdom : v.domainOn (160 + p) = s.domainOn (160 + p) := s.arrived_domainOn _
    refine ⟨fun hs hm => ⟨fun hd hl => ?_, fun h => ?_, exec_lnkEnable_of_off hs hm⟩, fun hs hm on => exec_lnkEnable_of_held hs hm on,
      fun hs hl => ?_, fun hs hl => ?_, fun hs hl hd => ?_, fun hs h => ?_, ?_, ?_⟩
    · rw [exec_lnkEnable_of_on hs hm, State.portEnable_of_off (hlnk.trans hl) hd]
    · rw [exec_lnkEnable_of_on hs hm, State.portEnable_of_not (by rw [s.arrived_lnk]; exact h)]
    · rw [exec_lnkQuiesce_of_inTurn hs, State.portQuiesce_of_active (hlnk.trans hl), State.arrived_port]
    · rw [exec_lnkQuiesce_of_inTurn hs, State.portQuiesce_of_not (by rw [s.arrived_lnk]; exact hl)]
    · rw [exec_lnkRetrain_of_inTurn hs, State.portRetrain_of_down (by rw [s.arrived_lnk]; exact hl) (hdom.trans hd)]
    · rw [exec_lnkRetrain_of_inTurn hs, State.portRetrain_of_not (by rw [s.arrived_lnk, s.arrived_domainOn]; exact h)]
    · intro asks
      refine ⟨fun hl hd ha => ?_, fun h => ?_⟩
      · rw [exec_trainingPatternDetect_eq, if_pos (show s.asksTraining p = true from ha), State.portRetrain_of_down hl hd]
      · rw [exec_trainingPatternDetect_eq]
        by_cases ha : s.asksTraining p = true
        · rw [if_pos ha, State.portRetrain_of_not]
          rcases h with h | h | h
          · exact .inl h
          · exact .inr h
          · exact absurd (ha.symm.trans h) (by decide)
        · rw [if_neg ha]
    · intro x done
      exact ⟨exec_quiesceComplete_of_drained, exec_quiesceComplete_of_not⟩

end Sys2Proof.Machine
end

section
/-! SUPPORT. The host's accesses: reads and writes of Loess memory, refused ones, their order, and the first Tether error (R10, R375, R376,
R379 to R381, R385). -/

namespace Sys2Proof.Machine

/-! Order (R379) -/

/-- An access to Loess memory with none waiting acts at once: the stacks keep their order. -/
theorem State.hostAccess_of_loess {s : State} (ht : s.tth = 1) (hl : s.teth.later = []) {i : HostAcc} (hi : i.loess = true)
    (hslot : i.slotted = false) : s.hostAccess i = s.perform i := by
  unfold State.hostAccess
  rw [if_neg (not_not.mpr ht), hslot]
  exact if_pos ⟨hl, by rw [State.inTurnNow, hi]; rfl⟩

/-- An access that something waits before waits at the end. -/
theorem State.hostAccess_of_waits {s : State} {i : HostAcc} (ht : s.tth = 1)
    (h : s.teth.later ≠ [] ∨ (i.loess = false ∧ s.writesWait = true)) : s.hostAccess i =
      { (if i.slotted = true then s.fromHost 1 else s) with
        teth := { (if i.slotted = true then s.fromHost 1 else s).teth with later := s.teth.later ++ [i] } } := by
  have hlater : (if i.slotted = true then s.fromHost 1 else s).teth.later = s.teth.later := by split <;> rfl
  have hwait : (if i.slotted = true then s.fromHost 1 else s).writesWait = s.writesWait := by
    split
    · exact s.fromHost_writesWait 1
    · rfl
  unfold State.hostAccess
  rw [if_neg (not_not.mpr ht)]
  dsimp only
  rw [if_neg, hlater]
  rintro ⟨hnone, hnow⟩
  rcases h with h | ⟨hi, hw⟩
  · exact h (hlater.symm.trans hnone)
  · rw [State.inTurnNow, hwait, hi, hw] at hnow
    exact Bool.false_ne_true hnow

section
variable {s : State} {i : HostAcc} {rest : List HostAcc} (hl : s.teth.later = i :: rest)
include hl

theorem State.hostNext_of_waits (hi : i.loess = false) (hw : s.writesWait = true) : s.hostNext = s := by
  unfold State.hostNext
  rw [hl]
  dsimp only
  rw [if_neg (by rw [State.inTurnNow, hi, hw]; decide)]

theorem State.hostNext_of_turn (h : i.loess = true ∨ s.writesWait = false) :
    s.hostNext = ({ s with teth := { s.teth with later := rest } } : State).perform i := by
  unfold State.hostNext
  rw [hl]
  dsimp only
  rw [if_pos (by rw [State.inTurnNow]; rcases h with h | h <;> simp [h])]

/-- While the first that waits is held, none behind it acts. -/
theorem State.hostOn_of_waits (hi : i.loess = false) (hw : s.writesWait = true) : s.hostOn = s := by
  have hfold (xs : List HostAcc) : xs.foldl (fun u _ => u.hostNext) s = s := by
    induction xs with
    | nil => rfl
    | cons x xs ih => rw [List.foldl_cons, State.hostNext_of_waits hl hi hw, ih]
  exact hfold s.teth.later

theorem State.hostOn_of_turn (h : i.loess = true ∨ s.writesWait = false) : s.hostOn =
    rest.foldl (fun u _ => u.hostNext) (({ s with teth := { s.teth with later := rest } } : State).perform i) := by
  rw [State.hostOn, hl, List.foldl_cons, State.hostNext_of_turn hl h]

end

/-! Loess memory (R375, R376, R379, R381) -/

section
variable {s : State} {addr : Nat}

theorem exec_hostLoessRead_of_down (h : s.tth ≠ 1) (len : Nat) (ecc : List (Nat × EccCase)) :
    exec (.hostLoessRead addr len ecc) s = .next s := congrArg Host.Outcome.next (if_pos h)

theorem exec_hostLoessWrite_of_down (h : s.tth ≠ 1) (data : List Byte) (ecc : List (Nat × EccCase)) :
    exec (.hostLoessWrite addr data ecc) s = .next s := congrArg Host.Outcome.next (if_pos h)

variable (ht : s.tth = 1) (hl : s.teth.later = [])
include ht hl

theorem exec_hostLoessRead_of_up (len : Nat) (ecc : List (Nat × EccCase)) :
    exec (.hostLoessRead addr len ecc) s = .next (s.hostGet addr len ecc) :=
  congrArg Host.Outcome.next ((if_neg (not_not.mpr ht)).trans (State.hostAccess_of_loess ht hl rfl rfl))

theorem exec_hostLoessWrite_of_up (data : List Byte) (ecc : List (Nat × EccCase)) :
    exec (.hostLoessWrite addr data ecc) s = .next (s.hostPut addr data ecc) :=
  congrArg Host.Outcome.next ((if_neg (not_not.mpr ht)).trans (State.hostAccess_of_loess ht hl rfl rfl))

end

/-- A read whose TAG has been taken. -/
def State.tagTaken (s : State) : State := { s with teth := { s.teth with tags := s.teth.tags.drop 1 } }

/-- The request a host read makes at its stack. -/
def State.hostReq (s : State) (addr len : Nat) (ecc : List (Nat × EccCase)) : Req :=
  { write := false, addr := addr, len := len, src := .host s.teth.writes (s.teth.tags.headD 0), found := ecc }

section
variable (s : State) {addr len : Nat}

theorem State.hostGet_of_bad (h : badExtent addr len = true) (ecc : List (Nat × EccCase)) :
    s.hostGet addr len ecc = (s.tagTaken.tthErr 3 1 addr).complete 1 addr (s.teth.tags.headD 0) .error := if_pos h

theorem State.hostGet_of_front (h : badExtent addr len = false) (hb : s.teth.rxq.any (fun x => x.req.isSome) = false)
    (ecc : List (Nat × EccCase)) : s.hostGet addr len ecc = s.tagTaken.request (s.hostReq addr len ecc) :=
  (if_neg (by simp [h])).trans (if_neg (by simp [hb]))

theorem State.hostGet_of_behind (h : badExtent addr len = false) (hb : s.teth.rxq.any (fun x => x.req.isSome) = true)
    (ecc : List (Nat × EccCase)) : s.hostGet addr len ecc =
      { s.tagTaken with teth := { s.tagTaken.teth with
        rxq := s.teth.rxq ++ [{ act := 0, due := s.stageNo, req := some (s.hostReq addr len ecc) }] } } :=
  (if_neg (by simp [h])).trans (if_pos hb)

end

/-! Refused register accesses (R10, R375) -/

section
variable {s : State} {addr : BitVec 43} {size : Nat}

theorem exec_rejectedRegisterAccess_of_down (h : s.tth ≠ 1) (w : Bool) : exec (.rejectedRegisterAccess w addr size) s = .next s :=
  congrArg Host.Outcome.next (if_pos h)

theorem exec_rejectedRegisterAccess_of_inTurn (ht : s.tth = 1) (hs : s.InTurn) (w : Bool) :
    exec (.rejectedRegisterAccess w addr size) s = .next (s.hostReject w addr.toNat size) :=
  congrArg Host.Outcome.next ((if_neg (not_not.mpr ht)).trans (State.hostAccess_of_not_slotted hs (by cases w <;> rfl)))

end

theorem State.hostReject_of_word (s : State) {addr size : Nat} (h : size = 4 ∧ addr % 4 = 0) (w : Bool) : s.hostReject w addr size = s :=
  if_pos h
theorem State.hostReject_of_write (s : State) {addr size : Nat} (h : ¬ (size = 4 ∧ addr % 4 = 0)) :
    s.hostReject true addr size = (s.tthErr 1 2 addr).fromHost 1 := if_neg h
theorem State.hostReject_of_read (s : State) {addr size : Nat} (h : ¬ (size = 4 ∧ addr % 4 = 0)) :
    s.hostReject false addr size = (s.tthErr 1 2 addr).completeWord addr 0xFFFFFFFF#32 := if_neg h

/-! TTH_ERR (R375, R380, R385) -/

section
variable {s : State} {rank : Nat → Nat} {a v : Nat} {rest : List (Nat × Nat)}

/-- While VALID is 1 a capture of equal rank only notes what waits. -/
theorem State.capture_of_valid (h : (s.reg a).getLsbD 0 = true) :
    ∃ c, s.capture noRank a v rest = { s with caught := c } := by
  unfold State.capture
  by_cases hk : (sget noCaught s.caught a).regs.isEmpty = true
  · simp only [hk, h, if_true]
    exact ⟨_, rfl⟩
  · simp only [hk, noRank, Nat.lt_irrefl, Bool.false_eq_true, if_false]
    exact ⟨s.caught, rfl⟩

theorem State.capture_of_free (h : (s.reg a).getLsbD 0 = false) (hk : (sget noCaught s.caught a).regs = []) :
    ∃ c, s.capture rank a v rest = { s.putRegs ((a, v) :: rest) with caught := c } := by
  unfold State.capture
  simp only [hk, h, List.isEmpty_nil, if_true, Bool.false_eq_true, if_false]
  exact ⟨_, rfl⟩

end

section
variable {s : State} {cause space addr : Nat}

theorem State.tthErr_of_valid (h : (s.reg 0x600014).getLsbD 0 = true) : ∃ c, s.tthErr cause space addr =
    State.raise { s with caught := c } 35 7 0 (s.regN 0x600014) (s.regN 0x600018) := by
  obtain ⟨c, hc⟩ := State.capture_of_valid (v := 1 + cause * 2 + space * 16)
    (rest := [(0x600018, addr % 2 ^ 32), (0x60001C, addr / 2 ^ 32 % 2 ^ 11)]) h
  refine ⟨c, ?_⟩
  unfold State.tthErr
  dsimp only
  rw [hc, if_pos h]
  rfl

/-- The registers of the record, where VALID was 0 and nothing was captured before in the kc. -/
theorem State.tthErr_regN (h : (s.reg 0x600014).getLsbD 0 = false) (hk : (sget noCaught s.caught 0x600014).regs = []) {i : Nat}
    (hseq : i ≠ 0x106014) (hlost : i ≠ 0x106018) (hpend : i ≠ 0x600024) : (s.tthErr cause space addr).regN i =
      (s.putRegs [(0x600014, 1 + cause * 2 + space * 16), (0x600018, addr % 2 ^ 32), (0x60001C, addr / 2 ^ 32 % 2 ^ 11)]).regN i := by
  obtain ⟨c, hc⟩ := State.capture_of_free (rank := noRank) (v := 1 + cause * 2 + space * 16)
    (rest := [(0x600018, addr % 2 ^ 32), (0x60001C, addr / 2 ^ 32 % 2 ^ 11)]) h hk
  unfold State.tthErr
  dsimp only
  rw [hc, if_neg (by rw [h]; exact Bool.false_ne_true), State.regN, State.raise_reg_other _ _ _ _ _ _ _ hseq hlost, State.trigger_reg_other _ _ hpend]
  rfl

end

/-- Settles O29: each access by the Tether's state, its extent and what waits before it; TTH_ERR by the capture's cases. -/
theorem hostAccessesAreServed : Obligations.HostAccessesAreServed := by
  unfold Obligations.HostAccessesAreServed
  refine ⟨fun s addr len ecc => ⟨fun h => exec_hostLoessRead_of_down h len ecc, fun ht hl => ?read⟩,
    fun s addr data ecc => ⟨fun h => exec_hostLoessWrite_of_down h data ecc, fun ht hl => ⟨fun hbad => ?badWrite, fun hok => ?write⟩⟩,
    fun s addr size => ⟨fun h w => exec_rejectedRegisterAccess_of_down h w, fun ht hs => ⟨fun h4 ha w => ?word, fun h => ?rejected⟩⟩,
    ⟨fun s i ht h => State.hostAccess_of_waits ht h,
      fun s => ⟨State.hostOn_of_no_later, fun i rest hl => ⟨State.hostOn_of_waits hl, State.hostOn_of_turn hl⟩⟩,
      fun s p u r cl w v b a x => ?rows⟩,
    fun s cause space addr hcause hspace => ⟨State.tthErr_of_valid, fun hvalid hk => ?error⟩⟩
  case read =>
    intro tag s1 r
    refine ⟨fun hbad => ?_, fun hok hb => ?_, fun hok hb => ?_⟩
    · rw [exec_hostLoessRead_of_up ht hl, s.hostGet_of_bad hbad]
      rfl
    · rw [exec_hostLoessRead_of_up ht hl, s.hostGet_of_front hok hb]
      rfl
    · rw [exec_hostLoessRead_of_up ht hl, s.hostGet_of_behind hok hb]
      rfl
  case badWrite =>
    rw [exec_hostLoessWrite_of_up ht hl]
    exact congrArg Host.Outcome.next (if_pos hbad)
  case write =>
    rw [exec_hostLoessWrite_of_up ht hl]
    exact congrArg Host.Outcome.next (if_neg (by simp [hok]))
  case word => rw [exec_rejectedRegisterAccess_of_inTurn ht hs, State.hostReject_of_word _ ⟨h4, ha⟩]
  case rejected =>
    have hnot : ¬ (size = 4 ∧ addr.toNat % 4 = 0) := fun hc => h.elim (· hc.1) (· hc.2)
    rw [exec_rejectedRegisterAccess_of_inTurn ht hs, exec_rejectedRegisterAccess_of_inTurn ht hs, State.hostReject_of_write _ hnot,
      State.hostReject_of_read _ hnot]
    exact ⟨rfl, rfl⟩
  case rows =>
    simp only [List.forall_mem_cons, List.not_mem_nil, false_imp_iff, implies_true, and_true]
    refine ⟨⟨rfl, rfl, rfl⟩, ⟨rfl, rfl, rfl⟩, ⟨rfl, rfl, rfl⟩, ⟨rfl, rfl, rfl⟩, ⟨rfl, rfl, rfl⟩, ⟨rfl, rfl, rfl⟩, ⟨rfl, rfl, rfl⟩,
      ⟨rfl, rfl, rfl⟩, ⟨rfl, rfl, rfl⟩, ⟨rfl, rfl, rfl⟩, ⟨rfl, rfl, rfl⟩, ⟨rfl, rfl, rfl⟩, ⟨rfl, rfl, rfl⟩, ⟨rfl, rfl, rfl⟩,
      ⟨rfl, rfl, rfl⟩, ⟨rfl, rfl, rfl⟩, ⟨rfl, rfl, rfl⟩, ⟨rfl, rfl, rfl⟩, ⟨rfl, rfl, rfl⟩, ⟨rfl, rfl, rfl⟩, ⟨rfl, rfl, rfl⟩,
      ⟨rfl, rfl, rfl⟩, ⟨rfl, rfl, rfl⟩, ⟨rfl, rfl, rfl⟩, ⟨rfl, rfl, rfl⟩, ⟨rfl, rfl, rfl⟩, ⟨rfl, rfl, rfl⟩, rfl, rfl, rfl⟩
  case error =>
    have hreg {i : Nat} := State.tthErr_regN (cause := cause) (space := space) (addr := addr) hvalid hk (i := i)
    refine ⟨?_, ?_, ?_⟩
    · rw [hreg (by decide) (by decide) (by decide)]
      simp only [State.putRegs, List.foldl_cons, List.foldl_nil, State.regN, State.setRegN_reg, Nat.reduceEqDiff, if_false, if_true,
        BitVec.toNat_ofNat]
      omega
    · rw [hreg (by decide) (by decide) (by decide)]
      simp only [State.putRegs, List.foldl_cons, List.foldl_nil, State.regN, State.setRegN_reg, Nat.reduceEqDiff, if_false, if_true,
        BitVec.toNat_ofNat]
      omega
    · rw [hreg (by decide) (by decide) (by decide)]
      simp only [State.putRegs, List.foldl_cons, List.foldl_nil, State.regN, State.setRegN_reg, Nat.reduceEqDiff, if_false, if_true,
        BitVec.toNat_ofNat]
      omega

end Sys2Proof.Machine
end

section
/-! SUPPORT. The Tether link: its loss, its training and the flits it receives (R370 to R373, R380). -/

namespace Sys2Proof.Machine

theorem State.count_teth (s : State) (a n : Nat) : (s.count a n).teth = s.teth := by
  unfold State.count State.noteCount
  split <;> rfl

/-! Loss and training (R372, R373) -/

section
variable {s : State}

theorem exec_tetherDown_of_up (h : s.tth = 1) : exec .tetherDown s = .next s.tetherLost := congrArg Host.Outcome.next (if_pos h)
theorem exec_tetherDown_of_down (h : s.tth ≠ 1) : exec .tetherDown s = .next s := congrArg Host.Outcome.next (if_neg h)

/-- The Tether with the receive credits it advertises. -/
def State.advertised (s : State) : State :=
  { s with
    teth := { txq := s.teth.txq, rxq := s.teth.rxq, writes := s.teth.writes, later := s.teth.later, rxCred := recvCredits }
    out := s.out ++ [.advert recvCredits] }

theorem exec_tetherTrained_of_down {cred : BitVec 11} (h : s.tth ≠ 1) (hc : 256 ≤ cred.toNat) (hd : s.domainOn 176 = true) :
    exec (.tetherTrained cred) s = .next ((s.advertised.setFld 0x600004 0 11 cred.toNat).setTth 1) :=
  (if_neg (by simp [h, hc, hd]) : execTetherTrained cred s = _)

theorem exec_tetherTrained_of_not {cred : BitVec 11} (h : s.tth = 1 ∨ cred.toNat < 256 ∨ s.domainOn 176 = false) :
    exec (.tetherTrained cred) s = .next s :=
  (if_pos (by rcases h with h | h | h <;> simp [h]) : execTetherTrained cred s = _)

end

/-! Flits (R370, R371, R380) -/

/-- The CRC of a flit fits. -/
def flitGood (f : List Byte) : Bool := decide (leAt f 268 4 = (crc32c (leAt f 264 4 % 1024) (f.take 268)).toNat)

/-- The next flit in order. -/
def Teth.expects (t : Teth) (fseq : Nat) : Bool := decide (fseq = (t.good + 1) % 1024)

/-- A header that is reserved, or a continuation out of place. -/
def Teth.odd (t : Teth) (h fseq : Nat) : Bool :=
  if bits h 2 2 = 3 then decide (h ≠ moreHead) || (t.expects fseq && !t.more) else t.expects fseq && t.more

theorem Teth.odd_eq_true {t : Teth} {h fseq : Nat} (hodd : bits h 2 2 = 3 ∧ h ≠ 12 ∨
    fseq = (t.good + 1) % 1024 ∧ ¬(bits h 2 2 = 3 ↔ t.more = true)) : t.odd h fseq = true := by
  unfold Teth.odd Teth.expects
  by_cases hg : bits h 2 2 = 3
  · rw [if_pos hg]
    rcases hodd with ⟨-, hne⟩ | ⟨hin, hmore⟩
    · rw [decide_eq_true (show h ≠ moreHead from hne), Bool.true_or]
    · rw [decide_eq_true hin, show t.more = false by simpa [hg] using hmore]
      simp
  · rw [if_neg hg]
    rcases hodd with ⟨h3, -⟩ | ⟨hin, hmore⟩
    · exact absurd h3 hg
    · rw [decide_eq_true hin, show t.more = true by simpa [hg] using hmore]
      rfl

theorem Teth.odd_eq_false {t : Teth} {h fseq : Nat} (hhead : bits h 2 2 = 3 → h = 12)
    (hmore : fseq = (t.good + 1) % 1024 → (bits h 2 2 = 3 ↔ t.more = true)) : t.odd h fseq = false := by
  unfold Teth.odd Teth.expects
  by_cases hg : bits h 2 2 = 3
  · rw [if_pos hg, decide_eq_false (not_not.mpr (show h = moreHead from hhead hg)), Bool.false_or]
    by_cases hin : fseq = (t.good + 1) % 1024
    · rw [(hmore hin).mp hg, Bool.not_true, Bool.and_false]
    · rw [decide_eq_false hin, Bool.false_and]
  · rw [if_neg hg]
    by_cases hin : fseq = (t.good + 1) % 1024
    · rw [show t.more = false from Bool.eq_false_iff.mpr (fun hm => hg ((hmore hin).mpr hm)), Bool.and_false]
    · rw [decide_eq_false hin, Bool.false_and]

/-- The link after a good flit. -/
def Teth.flitted (t : Teth) (f : List Byte) : Teth :=
  let l := leAt f 264 4
  let t1 := t.acked (bits l 10 10) (l.testBit 20)
  if t.expects (l % 1024) then t1.took (l % 1024) (leAt f 256 8) (bits l 21 11) else t1

/-- The 16th NAK in a row for one flit takes the link down. -/
def State.unlessTorn (s : State) (run : Nat) : State := if 16 ≤ run then s.tetherLost else s

section
variable {s : State} {f : List Byte}

theorem exec_tetherFlit_of_deaf (h : s.tth ≠ 1 ∨ f.length ≠ 272) : exec (.tetherFlit f) s = .next s := (if_pos h : execTetherFlit f s = _)

variable (ht : s.tth = 1) (hlen : f.length = 272)
include ht hlen

theorem exec_tetherFlit_of_bad_crc (hbad : flitGood f = false) :
    exec (.tetherFlit f) s = .next { s.count 0x60000C 1 with teth := { s.teth with naking := true } } := by
  have hcrc : decide (leAt f 268 4 ≠ (crc32c (leAt f 264 4 % 1024) (f.take 268)).toNat) = true :=
    decide_eq_true (of_decide_eq_false hbad)
  show execTetherFlit f s = _
  unfold execTetherFlit
  rw [if_neg (by simp [ht, hlen])]
  extract_lets h l fseq crcBad s1 t good odd
  have hcrcBad : crcBad = true := hcrc
  have hs1 : s1 = s.count 0x60000C 1 := if_pos hcrcBad
  have ht1 : t = s.teth := by rw [show t = s1.teth from rfl, hs1, State.count_teth]
  rw [hcrcBad, Bool.true_or, if_pos rfl, hs1, ht1]

variable (hgood : flitGood f = true)
include hgood

theorem exec_tetherFlit_of_odd (hodd : s.teth.odd (leAt f 256 8) (leAt f 264 4 % 1024) = true) :
    exec (.tetherFlit f) s = .next { s with teth := { s.teth with naking := true } } := by
  have hcrc : decide (leAt f 268 4 ≠ (crc32c (leAt f 264 4 % 1024) (f.take 268)).toNat) = false :=
    decide_eq_false (not_not.mpr (of_decide_eq_true hgood))
  show execTetherFlit f s = _
  unfold execTetherFlit
  rw [if_neg (by simp [ht, hlen])]
  extract_lets h l fseq crcBad s1 t good odd
  have hcrcBad : crcBad = false := hcrc
  have hs1 : s1 = s := if_neg (by rw [hcrcBad]; exact Bool.false_ne_true)
  have ht1 : t = s.teth := congrArg State.teth hs1
  have hodd' : odd = true := by rw [← hodd, ← ht1]; rfl
  rw [hcrcBad, hodd', Bool.false_or, if_pos rfl, hs1, ht1]

theorem exec_tetherFlit_of_good (hodd : s.teth.odd (leAt f 256 8) (leAt f 264 4 % 1024) = false) :
    exec (.tetherFlit f) s = .next (
      (if s.teth.expects (leAt f 264 4 % 1024) && decide (leAt f 256 8 % 4 = 3) then
        ({ s with teth := s.teth.flitted f } : State).tthErr 4 (bits (leAt f 256 8) 2 2) (bits (leAt f 256 8) 27 37 * 64 + bits (leAt f 256 8) 12 6)
      else { s with teth := s.teth.flitted f }).unlessTorn (s.teth.flitted f).nakRun) := by
  have hcrc : decide (leAt f 268 4 ≠ (crc32c (leAt f 264 4 % 1024) (f.take 268)).toNat) = false :=
    decide_eq_false (not_not.mpr (of_decide_eq_true hgood))
  show execTetherFlit f s = _
  unfold execTetherFlit
  rw [if_neg (by simp [ht, hlen])]
  extract_lets h l fseq crcBad s1 t good odd t1 t2 s2 s3
  have hcrcBad : crcBad = false := hcrc
  have hs1 : s1 = s := if_neg (by rw [hcrcBad]; exact Bool.false_ne_true)
  have ht1 : t = s.teth := congrArg State.teth hs1
  have hodd' : odd = false := by rw [← hodd, ← ht1]; rfl
  have hin : good = s.teth.expects (leAt f 264 4 % 1024) := by rw [← ht1]; rfl
  have ht2 : t2 = s.teth.flitted f := by rw [← ht1]; rfl
  have hs2 : s2 = { s with teth := s.teth.flitted f } := by rw [← ht2, ← hs1]
  rw [hcrcBad, hodd', Bool.false_or, if_neg Bool.false_ne_true, show s3 = if good && decide (h % 4 = 3) then
    s2.tthErr 4 (bits h 2 2) (bits h 27 37 * 64 + bits h 12 6) else s2 from rfl, hin, hs2, ht2]
  rfl

end

theorem Teth.flitted_nakRun (t : Teth) (f : List Byte) :
    (t.flitted f).nakRun = (t.acked (bits (leAt f 264 4) 10 10) ((leAt f 264 4).testBit 20)).nakRun := by
  unfold Teth.flitted
  dsimp only
  split <;> rfl

theorem Teth.flitted_of_order {t : Teth} {f : List Byte} (h : t.expects (leAt f 264 4 % 1024) = true) : t.flitted f =
    (t.acked (bits (leAt f 264 4) 10 10) ((leAt f 264 4).testBit 20)).took (leAt f 264 4 % 1024) (leAt f 256 8) (bits (leAt f 264 4) 21 11) :=
  if_pos h

theorem Teth.flitted_of_not {t : Teth} {f : List Byte} (h : t.expects (leAt f 264 4 % 1024) = false) :
    t.flitted f = t.acked (bits (leAt f 264 4) 10 10) ((leAt f 264 4).testBit 20) := if_neg (by simp [h])

/-- Settles O30: link loss by `tetherLost`, a flit by its CRC, its header and its place in the order. -/
theorem tetherLinkStates : Obligations.TetherLinkStates := by
  unfold Obligations.TetherLinkStates
  intro s lost
  have hlost (u : State) : u.tetherLost = lost u := rfl
  refine ⟨fun h => (exec_tetherDown_of_up h).trans (congrArg _ (hlost s)), exec_tetherDown_of_down,
    fun cred h hc hd => exec_tetherTrained_of_down h hc hd, fun cred => exec_tetherTrained_of_not, fun f => exec_tetherFlit_of_deaf,
    fun f ht hlen => ?_⟩
  intro h l good inOrder goesOn t1 ends
  have hends (u : State) : u.unlessTorn (s.teth.flitted f).nakRun = ends u := by
    rw [State.unlessTorn, Teth.flitted_nakRun, hlost]
  refine ⟨fun hbad => exec_tetherFlit_of_bad_crc ht hlen hbad, fun hgood hodd => exec_tetherFlit_of_odd ht hlen hgood (Teth.odd_eq_true hodd),
    fun hgood hhead => ⟨fun hin hmore => ?_, fun hout => ?_⟩⟩
  · intro u
    have hexp : s.teth.expects (leAt f 264 4 % 1024) = true := decide_eq_true hin
    have hrun := exec_tetherFlit_of_good ht hlen hgood (Teth.odd_eq_false hhead fun _ => hmore)
    have htook : ({ s with teth := s.teth.flitted f } : State) = u := by rw [Teth.flitted_of_order hexp]; rfl
    rw [hends, htook, hexp, Bool.true_and] at hrun
    refine ⟨fun h3 => ?_, fun h3 => ?_⟩
    · rw [hrun, if_neg (by simpa using h3)]
    · rw [hrun, if_pos (by simpa using h3)]
  · have hexp : s.teth.expects (leAt f 264 4 % 1024) = false := decide_eq_false hout
    have hrun := exec_tetherFlit_of_good ht hlen hgood (Teth.odd_eq_false hhead fun hin => absurd hin hout)
    rw [hends, Teth.flitted_of_not hexp, hexp, Bool.false_and, if_neg Bool.false_ne_true] at hrun
    exact hrun

end Sys2Proof.Machine
end

section
/-! SUPPORT. Taking a waybill: the fetch, the checks of its head, its bitmap, its clusters and its power state, in their order (R351 to
R356, R364, R370, R376). -/

namespace Sys2Proof.Machine

/-! The fetch (R370, R376) -/

/-- The place in host memory of the next waybill of a ring. -/
def State.wbPlace (s : State) (r : Nat) : Nat := s.reg64 (ra r 4) + 64 * (s.regN (ra r 0x18) % s.ringSize r)

/-- The fetch has gone out and its answer has come. -/
def State.fetched (s : State) (r : Nat) : State :=
  (s.sendMsg { act := 7, due := s.stageNo, msg := .fetch (s.wbPlace r) 64 }).fromHost 7

theorem State.fetched_frame (s : State) (r : Nat) : ∃ x y, s.fetched r = { s with teth := x, out := y } := ⟨_, _, rfl⟩

section
variable (s : State) (r : Nat)

theorem State.fetched_congr {α : Type} (p : State → α) (h : ∀ x y, p { s with teth := x, out := y } = p s) : p (s.fetched r) = p s := by
  obtain ⟨x, y, hxy⟩ := s.fetched_frame r
  rw [hxy, h]

@[simp] theorem State.fetched_ring (q : Nat) : (s.fetched r).ring q = s.ring q := s.fetched_congr r (·.ring q) fun _ _ => rfl
@[simp] theorem State.fetched_reg (a : Nat) : (s.fetched r).reg a = s.reg a := s.fetched_congr r (·.reg a) fun _ _ => rfl
@[simp] theorem State.fetched_ready : (s.fetched r).ready = s.ready := s.fetched_congr r (·.ready) fun _ _ => rfl
@[simp] theorem State.fetched_pstate : (s.fetched r).pstate = s.pstate := s.fetched_congr r (·.pstate) fun _ _ => rfl
@[simp] theorem State.fetched_tooEarly (opc : Nat) : (s.fetched r).tooEarly opc = s.tooEarly opc :=
  s.fetched_congr r (·.tooEarly opc) fun _ _ => rfl
@[simp] theorem State.fetched_rangeUp (a n : Nat) : (s.fetched r).rangeUp a n = s.rangeUp a n :=
  s.fetched_congr r (·.rangeUp a n) fun _ _ => rfl

end

/-! What taking comes to (R355) -/

theorem ready_or_first {s : State} {r : Nat} {bs : List Byte} (hr : s.ready = true ∨ leAt bs 0 2 ≠ 0x100 ∨ (s.ring r).taken = []) :
    ¬ ((!(s.fetched r).ready && decide (leAt bs 0 2 = 0x100) && decide (((s.fetched r).ring r).taken ≠ [])) = true) := by
  rcases hr with h | h | h <;> simp [h]

section
variable {s : State} {r : Fin 16} {x : Option (List Byte)} {ecc : List (Nat × EccCase)} {fault : Option Word}

theorem exec_waybillTake_of_not (h : s.mayTake r = false ∨ s.mayFlit 1 = false) : exec (.waybillTake r x ecc fault) s = .next s :=
  (if_pos (by rcases h with h | h <;> simp [h]) : execWaybillTake r x ecc s fault = _)

variable (hm : s.mayTake r = true) (hf : s.mayFlit 1 = true)
include hm hf

theorem mayTake_and_mayFlit : ¬ ((!s.mayTake r || !s.mayFlit 1) = true) := by simp [hm, hf]

theorem exec_waybillTake_of_failed : exec (.waybillTake r none ecc fault) s =
    .next (((((s.fetched r).tthErr 4 0 (s.wbPlace r)).takeOne r).receipt r (s.regN (ra r 0x18)) (s.expectedSeq r (s.regN (ra r 0x18))) 0 1 []
      false).haltRing r (s.regN (ra r 0x18)) 1) :=
  (if_neg (mayTake_and_mayFlit hm hf) : execWaybillTake r none ecc s fault = _)

variable {bs : List Byte} (hlen : bs.length = 64)
include hlen

/-- READY behind another waybill of ring 0 waits. -/
theorem exec_waybillTake_of_early (hr : s.ready = false) (hopc : leAt bs 0 2 = 0x100) (ht : (s.ring r).taken ≠ []) :
    exec (.waybillTake r (some bs) ecc fault) s = .next s := by
  refine (if_neg (mayTake_and_mayFlit hm hf) : execWaybillTake r (some bs) ecc s fault = _).trans ?_
  refine (if_neg (not_not.mpr hlen)).trans (if_pos ?_)
  have h : (!(s.fetched r).ready && decide (leAt bs 0 2 = 0x100) && decide (((s.fetched r).ring r).taken ≠ [])) = true := by
    simp [hr, hopc, ht]
  exact h

variable (hr : s.ready = true ∨ leAt bs 0 2 ≠ 0x100 ∨ (s.ring r).taken = [])
include hr

theorem exec_waybillTake_of_unreached
    (hb : ((s.fetched r).bitmapAt (s.expectedSeq r (s.regN (ra r 0x18))) bs).any (fun a => !(s.fetched r).rangeUp a 256) = true) :
    exec (.waybillTake r (some bs) ecc fault) s = .next s :=
  (((if_neg (mayTake_and_mayFlit hm hf) : execWaybillTake r (some bs) ecc s fault = _).trans (if_neg (not_not.mpr hlen))).trans
    (if_neg (ready_or_first hr))).trans (if_pos hb)

theorem exec_waybillTake_of_reached
    (hb : ((s.fetched r).bitmapAt (s.expectedSeq r (s.regN (ra r 0x18))) bs).any (fun a => !(s.fetched r).rangeUp a 256) = false) :
    exec (.waybillTake r (some bs) ecc fault) s =
      .next ((s.fetched r).takeWaybill r (s.regN (ra r 0x18)) (s.expectedSeq r (s.regN (ra r 0x18))) bs ecc fault) :=
  (((if_neg (mayTake_and_mayFlit hm hf) : execWaybillTake r (some bs) ecc s fault = _).trans (if_neg (not_not.mpr hlen))).trans
    (if_neg (ready_or_first hr))).trans (if_neg (ne_true_of_eq_false hb))

end

/-! The checks of a waybill's head (R353, R355) -/

/-- The waybill's CRC fits the SEQ expected of it. -/
def wbCrcOk (seq : Nat) (bs : List Byte) : Prop := (crc32c seq (bs.take 60)).toNat = leAt bs 60 4

/-- A waybill that passes the first checks. -/
def State.headOk (s : State) (seq : Nat) (bs : List Byte) : Prop :=
  wbCrcOk seq bs ∧ leAt bs 4 4 = seq ∧ leAt bs 3 1 = 1 ∧ leAt bs 0 2 ∈ wbOpcodes ∧ s.tooEarly (leAt bs 0 2) = false

section
variable {s : State} {seq : Nat} {bs : List Byte}

/-- The bitmap lies in Loess at P1:P2 of a waybill that reads one. -/
theorem State.bitmapAt_of_not_ok (h : ¬ s.headOk seq bs) : s.bitmapAt seq bs = none := by
  unfold State.bitmapAt
  refine if_neg ?_
  rintro ⟨hcrc, hseq, hver, hopc, hearly, -⟩
  exact h ⟨hcrc, hseq, hver, by simpa using hopc, by simpa using hearly⟩

/-- A waybill that passes the first checks reads a bitmap where KIND is 3 and the module is not in a low state. -/
def State.readsBitmap (s : State) (bs : List Byte) : Bool :=
  wbSet (leAt bs 0 2) && decide ((wbParams bs).getD 0 0 / 2 ^ 30 = 3) && !(decide (s.pstate = 2) || decide (s.pstate = 3)) &&
    !pastEnd (pPair (wbParams bs) 1) 256

theorem State.bitmapAt_of_ok (h : s.headOk seq bs) (hh : s.wbHead (leAt bs 0 2) (wbReserved bs) (wbParams bs) = none) :
    s.bitmapAt seq bs = if s.readsBitmap bs then some (pPair (wbParams bs) 1) else none := by
  obtain ⟨hcrc, hseq, hver, hopc, hearly⟩ := h
  unfold State.bitmapAt
  dsimp only
  refine if_congr ?_ rfl rfl
  simp only [State.readsBitmap, Bool.and_eq_true, Bool.not_eq_true', Bool.or_eq_false_iff, decide_eq_true_eq, decide_eq_false_iff_not]
  refine ⟨?_, ?_⟩
  · rintro ⟨-, -, -, -, -, -, h2, h3, hset, hkind, hpast⟩
    exact ⟨⟨⟨hset, hkind⟩, h2, h3⟩, hpast⟩
  · rintro ⟨⟨⟨hset, hkind⟩, h2, h3⟩, hpast⟩
    exact ⟨hcrc, hseq, hver, by simpa using hopc, hearly, hh, h2, h3, hset, hkind, hpast⟩

theorem State.bitmapAt_of_bad_head {k : Nat} (hh : s.wbHead (leAt bs 0 2) (wbReserved bs) (wbParams bs) = some k) :
    s.bitmapAt seq bs = none := by
  unfold State.bitmapAt
  refine if_neg ?_
  rintro ⟨-, -, -, -, -, hnone, -⟩
  rw [hh] at hnone
  exact Option.some_ne_none _ hnone

end

section
variable {s : State} {r ix seq : Nat} {bs : List Byte} {ecc : List (Nat × EccCase)} {fault : Option Word}

theorem State.takeWaybill_of_bad_crc (h : ¬ wbCrcOk seq bs) :
    s.takeWaybill r ix seq bs ecc fault = ((s.takeOne r).receipt r ix seq 0 1 [] false).haltRing r ix 1 := if_pos h

variable (hcrc : wbCrcOk seq bs)
include hcrc

theorem State.takeWaybill_of_bad_seq (h : leAt bs 4 4 ≠ seq) : s.takeWaybill r ix seq bs ecc fault =
    ((s.takeOne r).receipt r ix (leAt bs 4 4) (leAt bs 0 2) 2 [seq] ((leAt bs 2 1).testBit 1)).haltRing r ix 2 :=
  (if_neg (not_not.mpr hcrc)).trans (if_pos h)

variable (hseq : leAt bs 4 4 = seq)
include hseq

theorem State.takeWaybill_of_bad_version (h : leAt bs 3 1 ≠ 1) : s.takeWaybill r ix seq bs ecc fault =
    (s.takeOne r).receipt r ix seq (leAt bs 0 2) 3 [] ((leAt bs 2 1).testBit 1) := by
  subst hseq
  exact ((if_neg (not_not.mpr hcrc)).trans (if_neg (not_not.mpr rfl))).trans (if_pos h)

variable (hver : leAt bs 3 1 = 1)
include hver

theorem State.takeWaybill_of_bad_opcode (h : leAt bs 0 2 ∉ wbOpcodes) : s.takeWaybill r ix seq bs ecc fault =
    (s.takeOne r).receipt r ix seq (leAt bs 0 2) 4 [] ((leAt bs 2 1).testBit 1) := by
  subst hseq
  exact (((if_neg (not_not.mpr hcrc)).trans (if_neg (not_not.mpr rfl))).trans (if_neg (not_not.mpr hver))).trans
    (if_pos (by simpa using h))

variable (hopc : leAt bs 0 2 ∈ wbOpcodes)
include hopc

theorem State.takeWaybill_of_early (h : s.tooEarly (leAt bs 0 2) = true) : s.takeWaybill r ix seq bs ecc fault =
    (s.takeOne r).receipt r ix seq (leAt bs 0 2) 8 [0xFFFFFFFF, 0] ((leAt bs 2 1).testBit 1) := by
  subst hseq
  exact ((((if_neg (not_not.mpr hcrc)).trans (if_neg (not_not.mpr rfl))).trans (if_neg (not_not.mpr hver))).trans
    (if_neg (by simpa using hopc))).trans (if_pos h)

end

/-! A good waybill (R355, R364) -/

/-- The module after the bitmap of a waybill has been read. -/
def State.bitmapRead (s : State) (bs : List Byte) (ecc : List (Nat × EccCase)) : State :=
  if s.readsBitmap bs = true then
    (s.eccReads [(pPair (wbParams bs) 1, 256)] mgmtWho ecc).mgmtTraffic false [(pPair (wbParams bs) 1, 256)]
  else s

/-- The module is in HOLD or STANDBY. -/
def State.low (s : State) : Bool := decide (s.pstate = 2) || decide (s.pstate = 3)

/-- The clusters that a waybill names, `g` being the module after its bitmap has been read; in a low state a bitmap stands for one. -/
def State.wbClusters (s g : State) (bs : List Byte) : List Nat :=
  if (s.low && (wbSet (leAt bs 0 2) && decide ((wbParams bs).getD 0 0 / 2 ^ 30 = 3))) = true then [0]
  else g.clusterSet (leAt bs 0 2) (wbParams bs) (if s.readsBitmap bs = true then g.loessRead (pPair (wbParams bs) 1) 256 else [])

/-- The waybill as it is taken. -/
def wbTaken (ix seq : Nat) (bs : List Byte) (clus : List Nat) : Wb :=
  { ix := ix, opc := leAt bs 0 2, seq := seq, irq := (leAt bs 2 1).testBit 1, fence := (leAt bs 2 1).testBit 0, params := wbParams bs
    tmo := leAt bs 8 2, clus := clus }

/-- A waybill stands behind those of its ring. -/
def State.queueWb (s : State) (r : Nat) (w : Wb) : State := s.setRing r { s.ring r with taken := (s.ring r).taken ++ [w] }

/-- A waybill that passes its checks is queued, unless a fault of the firmware's own answers it. -/
def State.faultOrQueue (s : State) (r : Nat) (w : Wb) (fault : Option Word) : State :=
  match fault with
  | some code => (s.receipt r w.ix w.seq w.opc 0xFF [code.toNat] w.irq).raise 33 5 r code.toNat 0
  | none => s.queueWb r w

section
variable {s : State} {r ix seq : Nat} {bs : List Byte} {ecc : List (Nat × EccCase)} {fault : Option Word}

theorem State.eccBitmap_eq (opc : Nat) (h : opc = leAt bs 0 2) :
    (if s.low = true then s else s.eccBitmap opc (wbParams bs) ecc) = s.bitmapRead bs ecc := by
  subst h
  unfold State.eccBitmap State.bitmapRead State.readsBitmap
  rw [← State.low]
  cases s.low
  · simp
  · simp

theorem State.wbBitmapPoison_eq (g : State) : (if s.low = true then none else g.wbBitmapPoison (leAt bs 0 2) (wbParams bs)) =
    if s.readsBitmap bs = true then g.firstPoison (pPair (wbParams bs) 1) 256 else none := by
  unfold State.wbBitmapPoison State.readsBitmap
  rw [← State.low]
  cases s.low
  · simp
  · simp

theorem State.wbClusters_eq (g : State) : (if (s.low && wbSet (leAt bs 0 2) && decide ((wbParams bs).getD 0 0 / 2 ^ 30 = 3)) = true then [0]
    else g.clusterSet (leAt bs 0 2) (wbParams bs) (g.wbBitmap (leAt bs 0 2) (wbParams bs))) = s.wbClusters g bs := by
  unfold State.wbBitmap State.wbClusters State.readsBitmap
  rw [← State.low]
  generalize wbSet (leAt bs 0 2) = set
  generalize decide ((wbParams bs).getD 0 0 / 2 ^ 30 = 3) = kind
  cases s.low
  · simp
  · cases set <;> cases kind <;> simp

variable (hok : s.headOk seq bs)
include hok

theorem State.takeWaybill_of_bad_head {k : Nat} (hh : s.wbHead (leAt bs 0 2) (wbReserved bs) (wbParams bs) = some k) :
    s.takeWaybill r ix seq bs ecc fault = (s.takeOne r).receipt r ix seq (leAt bs 0 2) 5 [k] ((leAt bs 2 1).testBit 1) := by
  obtain ⟨hcrc, hseq, hver, hopc, hearly⟩ := hok
  subst hseq
  have hcrc : (crc32c (leAt bs 4 4) (bs.take 60)).toNat = leAt bs 60 4 := hcrc
  unfold State.takeWaybill
  extract_lets s1 opc flags own irq ps low g s2 unread clus
  rw [if_neg (not_not.mpr hcrc), if_neg (not_not.mpr rfl), if_neg (not_not.mpr hver), if_neg (by simpa using hopc), if_neg (by simpa using hearly),
    show s.wbHead opc (wbReserved bs) ps = some k from hh]

variable (hh : s.wbHead (leAt bs 0 2) (wbReserved bs) (wbParams bs) = none)
include hh

theorem State.takeWaybill_of_poison (hp : (if s.readsBitmap bs = true then (s.bitmapRead bs ecc).firstPoison (pPair (wbParams bs) 1) 256 else none).isSome = true) :
    s.takeWaybill r ix seq bs ecc fault =
      ((s.bitmapRead bs ecc).takeOne r).receipt r ix seq (leAt bs 0 2) 0x0C [0, 0] ((leAt bs 2 1).testBit 1) := by
  obtain ⟨hcrc, hseq, hver, hopc, hearly⟩ := hok
  obtain ⟨a, ha⟩ := Option.isSome_iff_exists.mp hp
  rw [← State.wbBitmapPoison_eq] at ha
  subst hseq
  have hcrc : (crc32c (leAt bs 4 4) (bs.take 60)).toNat = leAt bs 60 4 := hcrc
  unfold State.takeWaybill
  extract_lets s1 opc flags own irq ps low g s2 unread clus
  rw [if_neg (not_not.mpr hcrc), if_neg (not_not.mpr rfl), if_neg (not_not.mpr hver), if_neg (by simpa using hopc), if_neg (by simpa using hearly),
    show s.wbHead opc (wbReserved bs) ps = none from hh]
  have hg : g = s.bitmapRead bs ecc := State.eccBitmap_eq _ rfl
  rw [← hg] at ha ⊢
  rw [show (if low = true then none else g.wbBitmapPoison opc ps) = some a from ha]

variable (hp : (if s.readsBitmap bs = true then (s.bitmapRead bs ecc).firstPoison (pPair (wbParams bs) 1) 256 else none) = none)
include hp

theorem State.takeWaybill_of_refused {st : Nat} {res : List Nat}
    (hc : (s.bitmapRead bs ecc).wbChecks (leAt bs 0 2) (wbReserved bs) (wbParams bs) (s.wbClusters (s.bitmapRead bs ecc) bs) = some (st, res)) :
    s.takeWaybill r ix seq bs ecc fault =
      ((s.bitmapRead bs ecc).takeOne r).receipt r ix seq (leAt bs 0 2) st res ((leAt bs 2 1).testBit 1) := by
  obtain ⟨hcrc, hseq, hver, hopc, hearly⟩ := hok
  rw [← State.wbBitmapPoison_eq] at hp
  subst hseq
  have hcrc : (crc32c (leAt bs 4 4) (bs.take 60)).toNat = leAt bs 60 4 := hcrc
  unfold State.takeWaybill
  extract_lets s1 opc flags own irq ps low g s2 unread clus
  rw [if_neg (not_not.mpr hcrc), if_neg (not_not.mpr rfl), if_neg (not_not.mpr hver), if_neg (by simpa using hopc), if_neg (by simpa using hearly),
    show s.wbHead opc (wbReserved bs) ps = none from hh]
  have hg : g = s.bitmapRead bs ecc := State.eccBitmap_eq _ rfl
  rw [← hg] at hp hc ⊢
  rw [show (if low = true then none else g.wbBitmapPoison opc ps) = none from hp]
  have hclus : clus = s.wbClusters g bs := State.wbClusters_eq g
  rw [← hclus] at hc
  rw [show g.wbChecks opc (wbReserved bs) ps clus = some (st, res) from hc]

variable (hc : (s.bitmapRead bs ecc).wbChecks (leAt bs 0 2) (wbReserved bs) (wbParams bs) (s.wbClusters (s.bitmapRead bs ecc) bs) = none)
include hc

theorem State.takeWaybill_of_good : s.takeWaybill r ix seq bs ecc fault =
    ((s.bitmapRead bs ecc).takeOne r).faultOrQueue r (wbTaken ix seq bs (s.wbClusters (s.bitmapRead bs ecc) bs)) fault := by
  obtain ⟨hcrc, hseq, hver, hopc, hearly⟩ := hok
  rw [← State.wbBitmapPoison_eq] at hp
  subst hseq
  have hcrc : (crc32c (leAt bs 4 4) (bs.take 60)).toNat = leAt bs 60 4 := hcrc
  unfold State.takeWaybill
  extract_lets s1 opc flags own irq ps low g s2 unread clus
  rw [if_neg (not_not.mpr hcrc), if_neg (not_not.mpr rfl), if_neg (not_not.mpr hver), if_neg (by simpa using hopc), if_neg (by simpa using hearly),
    show s.wbHead opc (wbReserved bs) ps = none from hh]
  have hg : g = s.bitmapRead bs ecc := State.eccBitmap_eq _ rfl
  rw [← hg] at hp hc ⊢
  rw [show (if low = true then none else g.wbBitmapPoison opc ps) = none from hp]
  have hclus : clus = s.wbClusters g bs := State.wbClusters_eq g
  rw [← hclus] at hc ⊢
  rw [show g.wbChecks opc (wbReserved bs) ps clus = none from hc]
  cases fault <;> rfl

end

end Sys2Proof.Machine
end

section
/-! SUPPORT. WAYBILL_TAKE by what its fetch brings: a waybill that is answered at once, and one that is taken (R353, R355, R356, R364). -/

namespace Sys2Proof.Machine

theorem State.fetched_headOk {s : State} {r seq : Nat} {bs : List Byte} : (s.fetched r).headOk seq bs ↔ s.headOk seq bs := by
  rw [State.headOk, State.headOk, State.fetched_tooEarly]

theorem State.tooEarly_of_ready {s : State} (h : s.ready = true) (opc : Nat) : s.tooEarly opc = false := by simp [State.tooEarly, h]

/-- Before READY an opcode is served that R353 names, or UPDATE in recovery. -/
theorem State.tooEarly_of_not_ready {s : State} {opc : Nat} (hr : s.ready = false) (h : opc ∉ [0x100, 0x101, 0x102])
    (hu : ¬ (s.boot.recovery = true ∧ opc = 0x900)) : s.tooEarly opc = true := by
  have hc : List.contains [0x100, 0x101, 0x102] opc = false := by simpa using h
  have hrec : (s.boot.recovery && decide (opc = 0x900)) = false := by
    rw [Bool.and_eq_false_iff]
    by_cases hb : s.boot.recovery = true
    · exact .inr (decide_eq_false fun ho => hu ⟨hb, ho⟩)
    · exact .inl (Bool.eq_false_iff.mpr hb)
  simp only [State.tooEarly, hr, hc, hrec, Bool.not_false, Bool.and_self]

section
variable {s : State} {r : Fin 16} {bs : List Byte} {ecc : List (Nat × EccCase)} {fault : Option Word}
  (hm : s.mayTake r = true) (hf : s.mayFlit 1 = true) (hlen : bs.length = 64)
  (hr : s.ready = true ∨ leAt bs 0 2 ≠ 0x100 ∨ (s.ring r).taken = [])
include hm hf hlen hr

/-- A waybill that fails the first checks is answered whatever it names. -/
theorem exec_waybillTake_of_not_ok (h : ¬ s.headOk (s.expectedSeq r (s.regN (ra r 0x18))) bs) :
    exec (.waybillTake r (some bs) ecc fault) s =
      .next ((s.fetched r).takeWaybill r (s.regN (ra r 0x18)) (s.expectedSeq r (s.regN (ra r 0x18))) bs ecc fault) :=
  exec_waybillTake_of_reached hm hf hlen hr (by rw [State.bitmapAt_of_not_ok (mt State.fetched_headOk.mp h)]; rfl)

end

/-- Settles O35: each check of the waybill's head by its lemma on `takeWaybill`. -/
theorem waybillsAreChecked : Obligations.WaybillsAreChecked := by
  unfold Obligations.WaybillsAreChecked
  intro s r bs ecc fault hlen ix seq place f s1 irq opc crcOk takes
  refine ⟨fun h => ⟨exec_waybillTake_of_not h, exec_waybillTake_of_not h⟩, fun hm hf => ⟨exec_waybillTake_of_failed hm hf,
    fun hr hopc ht => exec_waybillTake_of_early hm hf hlen hr hopc ht, fun hr => ⟨fun hbad => ?crc, fun hgood hseq => ?seq,
      fun hgood hseq => ⟨fun hver => ?version, fun hver hopc => ?opcode, fun hver hopc hready hnot hupd => ?early⟩⟩⟩⟩
  case crc =>
    have hcrc : ¬ wbCrcOk seq bs := of_decide_eq_false (p := (crc32c seq (bs.take 60)).toNat = leAt bs 60 4) hbad
    rw [show takes _ = (exec (.waybillTake r (some bs) ecc fault) s = _) from rfl,
      exec_waybillTake_of_not_ok hm hf hlen hr fun h => hcrc h.1, State.takeWaybill_of_bad_crc hcrc]
    rfl
  case seq =>
    have hcrc : wbCrcOk seq bs := of_decide_eq_true (p := (crc32c seq (bs.take 60)).toNat = leAt bs 60 4) hgood
    rw [show takes _ = (exec (.waybillTake r (some bs) ecc fault) s = _) from rfl,
      exec_waybillTake_of_not_ok hm hf hlen hr fun h => hseq h.2.1, State.takeWaybill_of_bad_seq hcrc hseq]
    rfl
  case version =>
    have hcrc : wbCrcOk seq bs := of_decide_eq_true (p := (crc32c seq (bs.take 60)).toNat = leAt bs 60 4) hgood
    rw [show takes _ = (exec (.waybillTake r (some bs) ecc fault) s = _) from rfl,
      exec_waybillTake_of_not_ok hm hf hlen hr fun h => hver h.2.2.1, State.takeWaybill_of_bad_version hcrc hseq hver]
    rfl
  case opcode =>
    have hcrc : wbCrcOk seq bs := of_decide_eq_true (p := (crc32c seq (bs.take 60)).toNat = leAt bs 60 4) hgood
    rw [show takes _ = (exec (.waybillTake r (some bs) ecc fault) s = _) from rfl,
      exec_waybillTake_of_not_ok hm hf hlen hr fun h => hopc h.2.2.2.1, State.takeWaybill_of_bad_opcode hcrc hseq hver hopc]
    rfl
  case early =>
    have hcrc : wbCrcOk seq bs := of_decide_eq_true (p := (crc32c seq (bs.take 60)).toNat = leAt bs 60 4) hgood
    have hearly : s.tooEarly (leAt bs 0 2) = true := State.tooEarly_of_not_ready hready hnot hupd
    rw [show takes _ = (exec (.waybillTake r (some bs) ecc fault) s = _) from rfl,
      exec_waybillTake_of_not_ok hm hf hlen hr fun h => Bool.false_ne_true (h.2.2.2.2.symm.trans hearly),
      State.takeWaybill_of_early hcrc hseq hver hopc (by rw [State.fetched_tooEarly, hearly])]
    rfl

/-- Settles O36: a good waybill by what its bitmap and the checks of its clusters come to. -/
theorem goodWaybillsAreTaken : Obligations.GoodWaybillsAreTaken := by
  unfold Obligations.GoodWaybillsAreTaken
  intro s r bs ecc fault hlen hm hf hready ix seq f opc fl ps kind3 low reads rsvd g clus takes hcrc hseq hver hopc
  have hr : s.ready = true ∨ leAt bs 0 2 ≠ 0x100 ∨ (s.ring r).taken = [] := .inl hready
  have hok : (s.fetched r).headOk seq bs :=
    State.fetched_headOk.mpr ⟨hcrc, hseq, hver, hopc, State.tooEarly_of_ready hready _⟩
  have hreads : (s.fetched r).readsBitmap bs = reads := by
    rw [State.readsBitmap, State.fetched_pstate]
    rfl
  have hg : (s.fetched r).bitmapRead bs ecc = g := by rw [State.bitmapRead, hreads]; rfl
  have hlow : (s.fetched r).low = low := by rw [State.low, State.fetched_pstate]
  have hclus : (s.fetched r).wbClusters g bs = clus := by rw [State.wbClusters, hreads, hlow]; rfl
  have hany (h : (s.fetched r).wbHead opc rsvd ps = none) : ((s.fetched r).bitmapAt seq bs).any (fun a => !(s.fetched r).rangeUp a 256) =
      (reads && !(s.fetched r).rangeUp (pPair ps 1) 256) := by
    rw [State.bitmapAt_of_ok hok h, hreads]
    cases reads <;> rfl
  refine ⟨fun k hk => ?badHead, fun hh => ⟨fun hrd hup => ?unreached, fun hrd hup hp => ?poison, fun hup => ⟨fun st res hc => ?refused,
    fun hc => ⟨fun code hcode => ?fault, fun hnone => ?queued⟩⟩⟩⟩
  case badHead =>
    have hk : (s.fetched r).wbHead (leAt bs 0 2) (wbReserved bs) (wbParams bs) = some k := hk
    have hreach : ((s.fetched r).bitmapAt seq bs).any (fun a => !(s.fetched r).rangeUp a 256) = false := by
      rw [State.bitmapAt_of_bad_head hk]
      rfl
    rw [show takes _ = (exec (.waybillTake r (some bs) ecc fault) s = _) from rfl, exec_waybillTake_of_reached hm hf hlen hr hreach,
      State.takeWaybill_of_bad_head hok hk]
    rfl
  case unreached =>
    have hup : (s.fetched r).rangeUp (pPair ps 1) 256 = false := hup
    exact exec_waybillTake_of_unreached hm hf hlen hr (by rw [hany hh, hrd, hup]; rfl)
  case poison =>
    have hup : (s.fetched r).rangeUp (pPair ps 1) 256 = true := hup
    rw [show takes _ = (exec (.waybillTake r (some bs) ecc fault) s = _) from rfl,
      exec_waybillTake_of_reached hm hf hlen hr (by rw [hany hh, hrd, hup]; rfl),
      State.takeWaybill_of_poison hok hh (by rw [hreads, hg, if_pos hrd]; exact hp), hg]
  all_goals
    have hreach : ((s.fetched r).bitmapAt seq bs).any (fun a => !(s.fetched r).rangeUp a 256) = false := by
      rw [hany hh]
      rcases hup with h | ⟨h, -⟩
      · rw [h, Bool.false_and]
      · rw [show (s.fetched r).rangeUp (pPair ps 1) 256 = true from h, Bool.not_true, Bool.and_false]
    have hp : (if (s.fetched r).readsBitmap bs = true then ((s.fetched r).bitmapRead bs ecc).firstPoison (pPair (wbParams bs) 1) 256
        else none) = none := by
      rw [hreads, hg]
      rcases hup with h | ⟨-, h⟩
      · rw [h, if_neg Bool.false_ne_true]
      · split
        · exact h
        · rfl
    have hrun := exec_waybillTake_of_reached (ecc := ecc) (fault := fault) hm hf hlen hr hreach
  case refused =>
    rw [State.takeWaybill_of_refused hok hh hp (by rw [hg, hclus]; exact hc), hg] at hrun
    exact hrun
  case fault =>
    rw [State.takeWaybill_of_good hok hh hp (by rw [hg, hclus]; exact hc), hg, hclus, hcode] at hrun
    show exec (.waybillTake r (some bs) ecc fault) s = _
    rw [hcode]
    exact hrun
  case queued =>
    rw [State.takeWaybill_of_good hok hh hp (by rw [hg, hclus]; exact hc), hg, hclus, hnone] at hrun
    show exec (.waybillTake r (some bs) ecc fault) s = _
    rw [hnone]
    exact hrun

end Sys2Proof.Machine
end

section
/-! SUPPORT. A ring's ledger: what LDG_SEL reads of it, what taking a waybill and its receipt count, what enabling the ring resets (R352). -/

namespace Sys2Proof.Machine

/-- The bitmap a waybill reads lies at P1:P2, where its opcode takes a cluster set of KIND 3. -/
theorem State.bitmapAt_eq_some {s : State} {seq a : Nat} {bs : List Byte} (h : s.bitmapAt seq bs = some a) :
    wbSet (leAt bs 0 2) = true ∧ leAt bs 12 4 / 2 ^ 30 = 3 ∧ a = leAt bs 16 4 + 2 ^ 32 * leAt bs 20 4 := by
  unfold State.bitmapAt at h
  dsimp only at h
  split at h
  case isFalse => exact absurd h nofun
  case isTrue hc =>
    obtain ⟨-, -, -, -, -, -, -, -, hset, hkind, -⟩ := hc
    exact ⟨hset, hkind, (Option.some.inj h).symm⟩

/-! What leaves the rings and their registers -/

/-- The rings, and the registers of their windows, are those of another state. -/
structure State.SameRings (s t : State) : Prop where
  ring : ∀ q, t.ring q = s.ring q
  reg : ∀ a, 0x102000 ≤ a → a < 0x102400 → t.reg a = s.reg a

/-- A register outside the rings' windows. -/
def offRings (a : Nat) : Prop := a < 0x102000 ∨ 0x102400 ≤ a

namespace State.SameRings

theorem refl (s : State) : s.SameRings s := ⟨fun _ => rfl, fun _ _ _ => rfl⟩

variable {s t u : State}

theorem trans (h : s.SameRings t) (h' : t.SameRings u) : s.SameRings u :=
  ⟨fun q => (h'.ring q).trans (h.ring q), fun a ha hb => (h'.reg a ha hb).trans (h.reg a ha hb)⟩

theorem of_frame (hrings : t.rings = s.rings) (hregs : t.regs = s.regs) (hgrade : t.grade = s.grade) : s.SameRings t :=
  ⟨fun q => congrArg (sget idleRing · q) hrings, fun a _ _ => by rw [State.reg, State.reg, hregs, hgrade]⟩

theorem foldl {α : Type} {f : State → α → State} (h : ∀ (s : State) (a : α), s.SameRings (f s a)) (xs : List α) (s : State) : s.SameRings (xs.foldl f s) := by
  induction xs generalizing s with
  | nil => exact refl s
  | cons x xs ih => exact (h s x).trans (ih (f s x))

theorem count (s : State) {a : Nat} (h : offRings a) (n : Nat) : s.SameRings (s.count a n) :=
  ⟨fun q => State.ring_eq_of_sansRecords (s.count_sansRecords a n) q,
    fun b hlo hhi => s.count_reg_other n (by rintro rfl; rcases h with h | h <;> omega)⟩

theorem raise (s : State) (ix scls u d0 d1 : Nat) : s.SameRings (s.raise ix scls u d0 d1) :=
  ⟨fun q => State.ring_eq_of_sansRecords (s.raise_sansRecords ix scls u d0 d1 false) q,
    fun b hlo hhi => s.raise_reg_other ix scls u d0 d1 false (by omega) (by omega)⟩

theorem trigger (s : State) (v : Nat) : s.SameRings (s.trigger v) :=
  ⟨fun q => State.ring_eq_of_sansRecords (s.trigger_sansRecords v) q, fun b hlo hhi => s.trigger_reg_other v (by omega)⟩

theorem capture (s : State) (rank : Nat → Nat) {a : Nat} (v : Nat) {rest : List (Nat × Nat)} (h : offRings a) (hrest : ∀ x ∈ rest, offRings x.1) :
    s.SameRings (s.capture rank a v rest) :=
  ⟨fun q => State.ring_eq_of_sansRecords (s.capture_sansRecords rank a v rest) q,
    fun b hlo hhi => s.capture_reg_other rank v (by rintro rfl; rcases h with h | h <;> omega)
      fun x hx => by rintro rfl; rcases hrest x hx with h | h <;> omega⟩

theorem setDie (s : State) (k : Nat) (d : Stack) : s.SameRings (s.setDie k d) := of_frame rfl rfl rfl

end State.SameRings

theorem offRings_sa (k o : Nat) : offRings (sa k o) := by simp only [offRings, sa, Win.base]; omega

/-! What reading a bitmap leaves (R217 to R223) -/

theorem State.uncorrectable_sameRings (s : State) (cw src who : Nat) : s.SameRings (s.uncorrectable cw src who) := by
  unfold State.uncorrectable
  extract_lets p k s1 s2
  have h1 : s.SameRings s1 :=
    (State.SameRings.of_frame rfl rfl rfl : s.SameRings { s with poison := sput zeroBool s.poison cw true }).trans (.count _ (offRings_sa ..) _)
  have h2 : s1.SameRings s2 := .capture _ _ _ (offRings_sa ..) (by simp [offRings_sa])
  exact (h1.trans h2).trans (.raise ..)

theorem State.freeCodeword_sameRings (s : State) (cw : Nat) : s.SameRings (s.freeCodeword cw) := .of_frame rfl rfl rfl

theorem State.writtenBack_sameRings (s : State) (k : Nat) (newer : Bool) : s.SameRings (s.writtenBack k newer) := by
  unfold State.writtenBack
  split
  · exact .refl s
  · exact .setDie ..

theorem State.eccCase_sameRings (s : State) (cw src who : Nat) (newer : Bool) (c : EccCase) : s.SameRings (s.eccCase cw src who newer c) := by
  by_cases h : sget zeroBool s.poison cw = true
  · rw [State.eccCase_of_poisoned _ _ _ _ _ _ h]
    exact .refl s
  · rw [Bool.not_eq_true] at h
    cases c with
    | clean =>
      rw [State.eccCase_clean]
      exact .refl s
    | corrected =>
      rw [State.eccCase_corrected _ _ _ h]
      exact (State.SameRings.count _ (offRings_sa ..) _).trans (State.writtenBack_sameRings ..)
    | detected =>
      rw [State.eccCase_detected _ _ _ h]
      exact s.uncorrectable_sameRings ..
    | miscorrected =>
      have heq : s.eccCase cw src who newer .miscorrected =
          ((s.freeCodeword cw).count (sa (s.place (cw * 64)).1 0x14) 1).writtenBack (s.place (cw * 64)).1 newer :=
        if_neg (ne_true_of_eq_false h)
      rw [heq]
      exact ((s.freeCodeword_sameRings cw).trans (.count _ (offRings_sa ..) _)).trans (State.writtenBack_sameRings ..)
    | silent =>
      have heq : s.eccCase cw src who newer .silent = s.freeCodeword cw := if_neg (ne_true_of_eq_false h)
      rw [heq]
      exact s.freeCodeword_sameRings cw

theorem State.eccReads_sameRings (s : State) (rs : List (Nat × Nat)) (who : Who) (ecc : List (Nat × EccCase)) :
    s.SameRings (s.eccReads rs who ecc) := by
  refine State.SameRings.foldl (fun t e => ?_) ecc s
  split
  · exact t.eccCase_sameRings ..
  · exact .refl t

theorem State.SameRings.count64 (s : State) {a : Nat} (h : offRings a) (h4 : offRings (a + 4)) (n : Nat) : s.SameRings (s.count64 a n) :=
  ⟨fun q => State.ring_eq_of_sansRecords (s.count64_sansRecords a n) q, fun b hlo hhi => by
    unfold State.count64 State.setReg64
    rw [State.setRegN_reg_other _ _ (by rintro rfl; rcases h4 with h4 | h4 <;> omega),
      State.setRegN_reg_other _ _ (by rintro rfl; rcases h with h | h <;> omega), State.noteCount_reg]⟩

theorem State.activate_sameRings (s : State) (k l : Nat) : s.SameRings (s.activate k l) := by
  have h64 : s.SameRings (s.count64 (sa k 0x30) 1) := .count64 s (offRings_sa ..) (offRings_sa k 0x34) 1
  unfold State.activate
  extract_lets s1 d row chan n d1
  split
  · exact h64.trans (.setDie ..)
  · split
    · exact (h64.trans (.setDie ..)).trans (.count _ (offRings_sa ..) _)
    · exact h64.trans (.setDie ..)

theorem State.mgmtTraffic_sameRings (s : State) (fg : Bool) (rs : List (Nat × Nat)) : s.SameRings (s.mgmtTraffic fg rs) := by
  have htouch : s.SameRings (s.touch rs) := State.SameRings.foldl (fun t g => t.activate_sameRings ..) (granules rs) s
  refine htouch.trans ?_
  rw [State.mgmtTraffic, State.claim_frame]
  exact .of_frame rfl rfl rfl

theorem State.bitmapRead_sameRings (s : State) (bs : List Byte) (ecc : List (Nat × EccCase)) : s.SameRings (s.bitmapRead bs ecc) := by
  unfold State.bitmapRead
  split
  · exact (s.eccReads_sameRings ..).trans (State.mgmtTraffic_sameRings ..)
  · exact .refl s

theorem State.tthErr_sameRings (s : State) (cause space addr : Nat) : s.SameRings (s.tthErr cause space addr) := by
  unfold State.tthErr
  extract_lets s0 s1
  have h0 : s.SameRings s0 := .capture s noRank _ (.inr (by decide)) (by simp [offRings])
  have h1 : s.SameRings s1 := by
    unfold s1
    split
    · exact h0
    · exact h0.trans (.trigger ..)
  exact h1.trans (.raise ..)

theorem State.fetched_sameRings (s : State) (r : Nat) : s.SameRings (s.fetched r) := ⟨s.fetched_ring r, fun a _ _ => s.fetched_reg r a⟩

/-! What taking a waybill counts -/

/-- Ring r has taken a waybill: HEAD and ISSUED move on, and either its receipt is counted or it stands behind the others. -/
structure State.Takes (s t : State) (r : Nat) : Prop where
  head : t.regN (ra r 0x18) = (s.regN (ra r 0x18) + 1) % 2 ^ 32
  issued : (t.ring r).issued = ((s.ring r).issued + 1) % 2 ^ 32
  fate : ((t.ring r).taken = (s.ring r).taken ∧ (t.ring r).returned = ((s.ring r).returned + 1) % 2 ^ 32) ∨
    ((t.ring r).taken ≠ (s.ring r).taken ∧ (t.ring r).returned = (s.ring r).returned)
  others : ∀ q, q ≠ r → t.ring q = s.ring q

theorem ra_in_rings {r o : Nat} (hr : r < 16) (ho : o < 0x40) : 0x102000 ≤ ra r o ∧ ra r o < 0x102400 := by simp only [ra, Win.base]; omega

section
variable {s t u : State} {r : Nat} (hr : r < 16)
include hr

theorem State.Takes.of_same_left (h : s.SameRings t) (h' : t.Takes u r) : s.Takes u r := by
  obtain ⟨hlo, hhi⟩ := ra_in_rings hr (o := 0x18) (by decide)
  obtain ⟨hhead, hissued, hfate, hothers⟩ := h'
  rw [h.ring] at hissued hfate
  exact ⟨hhead.trans (by rw [State.regN, h.reg _ hlo hhi, State.regN]), hissued, hfate, fun q hq => (hothers q hq).trans (h.ring q)⟩

theorem State.Takes.of_same_right (h : s.Takes t r) (h' : t.SameRings u) : s.Takes u r := by
  obtain ⟨hlo, hhi⟩ := ra_in_rings hr (o := 0x18) (by decide)
  obtain ⟨hhead, hissued, hfate, hothers⟩ := h
  rw [← h'.ring] at hissued hfate
  exact ⟨by rw [State.regN, h'.reg _ hlo hhi]; exact hhead, hissued, hfate, fun q hq => (h'.ring q).trans (hothers q hq)⟩

end

theorem State.Takes.head_ne {s t : State} {r : Nat} (h : s.Takes t r) : t.regN (ra r 0x18) ≠ s.regN (ra r 0x18) := by
  have hlt := s.regN_lt (ra r 0x18)
  rw [h.head]
  omega

theorem State.takes_queueWb (s : State) (r : Nat) (w : Wb) : s.Takes ((s.takeOne r).queueWb r w) r := by
  refine ⟨?_, ?_, .inr ⟨?_, ?_⟩, fun q hq => ?_⟩
  · rw [State.queueWb, State.setRing_regN, State.takeOne, State.setRing_regN, State.setRegN_regN_same]
  · rw [State.queueWb, State.setRing_ring_same, State.takeOne, State.setRing_ring_same]
  · rw [State.queueWb, State.setRing_ring_same, State.takeOne, State.setRing_ring_same]
    simp
  · rw [State.queueWb, State.setRing_ring_same, State.takeOne, State.setRing_ring_same]
  · rw [State.queueWb, State.setRing_ring, if_neg hq, State.takeOne, State.setRing_ring, if_neg hq]
    rfl

section
variable (s : State) {r : Nat} (hr : r < 16)
include hr

theorem State.takes_receipt (ix seq opc st : Nat) (res : List Nat) (irq : Bool) :
    s.Takes ((s.takeOne r).receipt r ix seq opc st res irq) r := by
  have hne : ra r 0x18 ≠ 0x600024 := by simp only [ra, Win.base]; omega
  refine ⟨?_, ?_, .inl ⟨?_, ?_⟩, fun q hq => ?_⟩
  · rw [State.regN, State.receipt_reg_other _ _ _ _ _ _ _ _ (mt ra_inj.mp (by decide)) hne, ← State.regN, State.takeOne, State.setRing_regN,
      State.setRegN_regN_same]
  · rw [State.receipt_ring_same, State.takeOne, State.setRing_ring_same]
  · rw [State.receipt_ring_same, State.takeOne, State.setRing_ring_same]
  · rw [State.receipt_ring_same, State.takeOne, State.setRing_ring_same]
  · rw [State.receipt_ring_other _ hq, State.takeOne, State.setRing_ring, if_neg hq]
    rfl

/-- A halt of the ring leaves what has been counted. -/
theorem State.Takes.haltRing {s t : State} (h : s.Takes t r) (ix cause : Nat) : s.Takes (t.haltRing r ix cause) r := by
  have h24 : ra r 0x18 ≠ ra r 0x24 := mt ra_inj.mp (by decide)
  obtain ⟨hhead, hissued, hfate, hothers⟩ := h
  rw [State.haltRing_eq]
  refine State.Takes.of_same_right hr ⟨?_, ?_, ?_, fun q hq => ?_⟩ (.raise ..)
  · rw [State.setRing_regN, State.setFld_regN_other _ _ _ _ h24, State.setFld_regN_other _ _ _ _ h24, hhead]
  · rw [State.setRing_ring_same, hissued]
  · rw [State.setRing_ring_same]
    exact hfate
  · rw [State.setRing_ring, if_neg hq]
    exact hothers q hq

theorem State.takes_takeWaybill (ix seq : Nat) (bs : List Byte) (ecc : List (Nat × EccCase)) (fault : Option Word) :
    s.Takes (s.takeWaybill r ix seq bs ecc fault) r := by
  by_cases hcrc : wbCrcOk seq bs
  case neg =>
    rw [State.takeWaybill_of_bad_crc hcrc]
    exact (s.takes_receipt hr ..).haltRing hr ..
  by_cases hseq : leAt bs 4 4 = seq
  case neg =>
    rw [State.takeWaybill_of_bad_seq hcrc hseq]
    exact (s.takes_receipt hr ..).haltRing hr ..
  by_cases hver : leAt bs 3 1 = 1
  case neg =>
    rw [State.takeWaybill_of_bad_version hcrc hseq hver]
    exact s.takes_receipt hr ..
  by_cases hopc : leAt bs 0 2 ∈ wbOpcodes
  case neg =>
    rw [State.takeWaybill_of_bad_opcode hcrc hseq hver hopc]
    exact s.takes_receipt hr ..
  by_cases hearly : s.tooEarly (leAt bs 0 2) = true
  case pos =>
    rw [State.takeWaybill_of_early hcrc hseq hver hopc hearly]
    exact s.takes_receipt hr ..
  have hok : s.headOk seq bs := ⟨hcrc, hseq, hver, hopc, Bool.eq_false_iff.mpr hearly⟩
  have hg := s.bitmapRead_sameRings bs ecc
  cases hh : s.wbHead (leAt bs 0 2) (wbReserved bs) (wbParams bs) with
  | some k =>
    rw [State.takeWaybill_of_bad_head hok hh]
    exact s.takes_receipt hr ..
  | none =>
    cases hp : (if s.readsBitmap bs = true then (s.bitmapRead bs ecc).firstPoison (pPair (wbParams bs) 1) 256 else none) with
    | some a =>
      rw [State.takeWaybill_of_poison hok hh (by rw [hp]; rfl)]
      exact .of_same_left hr hg (State.takes_receipt _ hr ..)
    | none =>
      cases hc : (s.bitmapRead bs ecc).wbChecks (leAt bs 0 2) (wbReserved bs) (wbParams bs) (s.wbClusters (s.bitmapRead bs ecc) bs) with
      | some x =>
        rw [State.takeWaybill_of_refused hok hh hp hc]
        exact .of_same_left hr hg (State.takes_receipt _ hr ..)
      | none =>
        rw [State.takeWaybill_of_good hok hh hp hc]
        cases fault with
        | some code => exact .of_same_left hr hg (.of_same_right hr (State.takes_receipt _ hr ..) (.raise ..))
        | none => exact .of_same_left hr hg (State.takes_queueWb ..)

end

/-! What LDG_SEL reads (R352) -/

theorem mixBits_zero_mod (x v : Nat) : mixBits 0 x v = v % 2 ^ 32 := by
  rw [mixBits, Nat.and_zero, Nat.zero_or, Nat.xor_zero, Nat.and_two_pow_sub_one_eq_mod]

/-- A register with no RWA and no WO field reads as it lives. -/
theorem State.readReg_of_live {s : State} {a : Nat} {w : Win} (hw : winOf a = some w) (hf : fldsOf s.grade w (a - w.base) ≠ [])
    (hon : s.winOn w = true) (hrwa : rwaMask (fldsOf s.grade w (a - w.base)) = 0) (hwo : woMask (fldsOf s.grade w (a - w.base)) = 0) :
    s.readReg a = BitVec.ofNat 32 (s.live a) := by
  have hmod (x : Nat) : BitVec.ofNat 32 (x % 2 ^ 32) = BitVec.ofNat 32 x := BitVec.eq_of_toNat_eq (by simp)
  unfold State.readReg
  simp only [hw]
  rw [if_neg (by simp [hf, hon]), hwo, mixBits_zero_mod, hmod, hrwa]
  split
  · split
    · rw [mixBits_zero_mod, hmod]
    · rfl
  · rfl

theorem State.ledger_ring (s : State) {r : Nat} (hr : r < 16) :
    s.ledger (32 + r) = ledgerOf (s.ringSize r) (s.ring r).issued (s.ring r).returned := by
  unfold State.ledger
  rw [if_neg (by omega), if_neg (by omega), if_pos (by omega), Nat.add_sub_cancel_left]

section
variable {s : State} (hp : s.phase ≠ 0)
include hp

theorem State.readReg_ledger : s.readReg 0x504 = BitVec.ofNat 32 (s.ledger (s.fld 0x500 0 6)).total ∧
    s.readReg 0x50C = BitVec.ofNat 32 (s.ledger (s.fld 0x500 0 6)).held ∧
    s.readReg 0x510 = BitVec.ofNat 32 (s.ledger (s.fld 0x500 0 6)).issued ∧
    s.readReg 0x514 = BitVec.ofNat 32 (s.ledger (s.fld 0x500 0 6)).returned := by
  have hon : s.winOn .global = true := State.winOn_of_powered hp rfl
  have hread (a : Nat) (hw : winOf a = some .global) (ha : a ∈ [0x504, 0x50C, 0x510, 0x514]) : s.readReg a = BitVec.ofNat 32 (s.live a) := by
    have hfields (g : Grade) : ∀ a ∈ [0x504, 0x50C, 0x510, 0x514],
        fldsGlobal g a ≠ [] ∧ rwaMask (fldsGlobal g a) = 0 ∧ woMask (fldsGlobal g a) = 0 := by cases g <;> decide
    obtain ⟨hne, hrwa, hwo⟩ := hfields s.grade a ha
    exact State.readReg_of_live hw hne hon hrwa hwo
  exact ⟨hread 0x504 rfl (by decide), hread 0x50C rfl (by decide), hread 0x510 rfl (by decide), hread 0x514 rfl (by decide)⟩

end

/-! Enabling a ring (R350, R352) -/

/-- SIZE of WBR_CTLr takes the value written. -/
theorem plainValue_ringSize (old v : Nat) : bits (plainValue (fldsRing 0) old v) 1 4 = bits v 1 4 := by
  refine Nat.eq_of_testBit_eq fun i => ?_
  rw [bits_testBit, bits_testBit]
  by_cases hi : i < 4
  · have hrw : inFields ((fldsRing 0).filter (fun f => f.acc = .rw || f.acc = .rws)) (1 + i) = true := by interval_cases i <;> rfl
    have hw1c : inFields ((fldsRing 0).filter (fun f => f.acc = .w1c)) (1 + i) = false := by interval_cases i <;> rfl
    rw [plainValue_testBit _ _ _ (by omega), hrw, hw1c, if_pos rfl, Bool.false_and, Bool.and_false, Bool.xor_false]
  · rw [decide_eq_false hi, Bool.false_and, Bool.false_and]

section
variable (s : State) (r v : Nat)

theorem State.plainWrite_ringCtl :
    s.plainWrite (.ring r) (ra r 0) v = s.setRegN (ra r 0) (plainValue (fldsRing 0) (s.regN (ra r 0)) v) := by
  have hof : ra r 0 - (Win.ring r).base = 0 := Nat.sub_self _
  have hflds (g : Grade) : fldsOf g (.ring r) (ra r 0 - (Win.ring r).base) = fldsRing 0 := by rw [hof]; rfl
  have hrec : ∀ t : State, t.recount (.ring r) (ra r 0) v = t := fun t => by
    unfold State.recount
    exact if_pos (by rw [hflds]; rfl)
  have hclear : maskOf ((fldsRing 0).filter (fun f => f.acc = .w1c)) &&& v = 0 := Nat.zero_and v
  unfold State.plainWrite
  rw [hflds]
  dsimp only
  rw [hrec, hclear, if_pos rfl]
  exact if_pos rfl

theorem State.ringFresh_ctl : (s.ringFresh r).regN (ra r 0) = s.regN (ra r 0) := by
  have hne {o : Nat} (h : 0 ≠ o) : ra r 0 ≠ ra r o := mt ra_inj.mp h
  unfold State.ringFresh
  dsimp only
  rw [State.setRing_regN, State.setFld_regN_other _ _ _ _ (hne (by decide)), State.setRegN_regN _ _ _ (by decide), if_neg (hne (by decide)),
    State.setRegN_regN _ _ _ (by decide), if_neg (hne (by decide)), State.setRegN_regN _ _ _ (by decide), if_neg (hne (by decide))]

/-- A ring that is enabled counts from 0, with the SIZE written. -/
theorem State.ringFresh_written :
    let t := (s.setRegN (ra r 0) (plainValue (fldsRing 0) (s.regN (ra r 0)) v)).ringFresh r
    (t.ring r).issued = 0 ∧ (t.ring r).returned = 0 ∧ t.ringSize r = 2 ^ bits v 1 4 := by
  intro t
  have hreg : t.regN (ra r 0) = plainValue (fldsRing 0) (s.regN (ra r 0)) v % 2 ^ 32 :=
    (State.ringFresh_ctl ..).trans (s.setRegN_regN_same ..)
  have hring : t.ring r = { seqBase := (s.setRegN (ra r 0) (plainValue (fldsRing 0) (s.regN (ra r 0)) v)).regN (ra r 0x20) } :=
    State.setRing_ring_same ..
  have hbits (x : Nat) : bits (x % 2 ^ 32) 1 4 = bits x 1 4 := by simp only [bits]; omega
  rw [hring]
  exact ⟨rfl, rfl, by rw [State.ringSize, State.fld, hreg, hbits, plainValue_ringSize]⟩

end

/-- Settles O34: the ledger's reads, `Takes` for every way a waybill is taken, a receipt's count and a ring that is enabled. -/
theorem ringLedgersCount : Obligations.RingLedgersCount := by
  unfold Obligations.RingLedgersCount
  intro s r
  refine ⟨fun hsel hp => ?reads, fun x ecc fault hm hf hready hx => ?takes, fun w st res => ?receipt,
    fun v hp hs hmask hoff hen hres hlo hhi => ?enable⟩
  case reads =>
    obtain ⟨htotal, hheld, hissued, hreturned⟩ := State.readReg_ledger hp
    rw [hsel, s.ledger_ring r.isLt] at htotal hheld hissued hreturned
    exact ⟨htotal, hissued, hreturned, hheld⟩
  case takes =>
    have done (t : State) (hrun : exec (.waybillTake r x ecc fault) s = .next t) (ht : s.Takes t r) :
        ∃ t, exec (.waybillTake r x ecc fault) s = .next t ∧
          ((∀ bs ∈ x, wbSet (leAt bs 0 2) = true → leAt bs 12 4 / 2 ^ 30 = 3 →
              s.rangeUp (leAt bs 16 4 + 2 ^ 32 * leAt bs 20 4) 256 = true) → t.regN (ra r 0x18) ≠ s.regN (ra r 0x18)) ∧
          (t.regN (ra r 0x18) = s.regN (ra r 0x18) → t = s) ∧
          (t.regN (ra r 0x18) ≠ s.regN (ra r 0x18) →
            (t.ring r).issued = ((s.ring r).issued + 1) % 2 ^ 32 ∧
            ((t.ring r).taken = (s.ring r).taken → (t.ring r).returned = ((s.ring r).returned + 1) % 2 ^ 32) ∧
            ((t.ring r).taken ≠ (s.ring r).taken → (t.ring r).returned = (s.ring r).returned) ∧
            ∀ q : Nat, q ≠ r.val → t.ring q = s.ring q) := by
      have hne := ht.head_ne
      obtain ⟨-, hissued, hfate, hothers⟩ := ht
      refine ⟨t, hrun, fun _ => hne, fun heq => absurd heq hne, fun _ => ⟨hissued, fun htaken => ?_, fun htaken => ?_, hothers⟩⟩
      · rcases hfate with ⟨-, h⟩ | ⟨h, -⟩
        · exact h
        · exact absurd htaken h
      · rcases hfate with ⟨h, -⟩ | ⟨-, h⟩
        · exact absurd h htaken
        · exact h
    have hfetch := s.fetched_sameRings r
    cases x with
    | none =>
      refine done _ (exec_waybillTake_of_failed hm hf) ?_
      exact .of_same_left r.isLt (hfetch.trans (State.tthErr_sameRings ..)) ((State.takes_receipt _ r.isLt ..).haltRing r.isLt ..)
    | some bs =>
      have hlen := hx bs rfl
      cases hb : ((s.fetched r).bitmapAt (s.expectedSeq r (s.regN (ra r 0x18))) bs).any (fun a => !(s.fetched r).rangeUp a 256) with
      | false =>
        exact done _ (exec_waybillTake_of_reached hm hf hlen (.inl hready) hb) (.of_same_left r.isLt hfetch (State.takes_takeWaybill _ r.isLt ..))
      | true =>
        refine ⟨s, exec_waybillTake_of_unreached hm hf hlen (.inl hready) hb, fun hup => ?_, fun _ => rfl, fun h => absurd rfl h⟩
        obtain ⟨a, hat, hdown⟩ := (Option.any_eq_true ..).mp hb
        obtain ⟨hset, hkind, ha⟩ := State.bitmapAt_eq_some hat
        have := hup bs rfl hset hkind
        rw [State.fetched_rangeUp, ha, this] at hdown
        exact absurd hdown (by decide)
  case receipt =>
    rw [State.finish_ring_same]
    exact ⟨rfl, rfl, fun q hq => State.finish_ring_other s hq w st res⟩
  case enable =>
    have hctl : s.ctlRefused r v.toNat = 0 := by
      rw [State.ctlRefused, if_neg (by omega), hoff]
      rfl
    have hwrite : s.arrived.writeBut (.ring r) (ra r 0) v.toNat 0 =
        s.arrived.setRegN (ra r 0) (plainValue (fldsRing 0) (s.arrived.regN (ra r 0)) v.toNat) := by
      unfold State.writeBut
      rw [mixBits_zero v.isLt]
      exact (if_pos rfl).trans (State.plainWrite_ringCtl ..)
    refine ⟨_, exec_wbrEnable_of_inTurn hs hp r v, ?_⟩
    rw [State.writeRingCtl_eq, State.arrived_ctlRefused, hctl, State.arrived_ringOn, if_neg (ne_true_of_eq_false hres),
      if_pos (show s.ringOn r = false ∧ v.toNat.testBit 0 = true from ⟨hoff, hen⟩), hwrite]
    exact s.arrived.ringFresh_written r v.toNat

end Sys2Proof.Machine
end

section
/-! SUPPORT. Events: their order within a kc and the record a raised one leaves (R445, R446, R448, R449), and the routes a record is served
on (R450, R451). -/

namespace Sys2Proof.Machine

/-! The order of one kc (R448) -/

/-- Two records are alike in what orders them. -/
def Ev.like (a b : Ev) : Prop := a.ix = b.ix ∧ a.scls = b.scls ∧ a.unit = b.unit

theorem evBefore_congr {a a' b b' : Ev} (ha : a.like a') (hb : b.like b') : evBefore a b = evBefore a' b' := by
  obtain ⟨hix, hcls, hunit⟩ := ha
  obtain ⟨hix', hcls', hunit'⟩ := hb
  simp only [evBefore, hix, hcls, hunit, hix', hcls', hunit']

theorem evBefore_iff (a b : Ev) : evBefore a b = true ↔ evCode a.ix < evCode b.ix ∨
    evCode a.ix = evCode b.ix ∧ (a.scls < b.scls ∨ a.scls = b.scls ∧ a.unit ≤ b.unit) := by
  simp only [evBefore, Bool.or_eq_true, Bool.and_eq_true, decide_eq_true_eq]

theorem evBefore_trans {a b c : Ev} (hab : evBefore a b = true) (hbc : evBefore b c = true) : evBefore a c = true := by
  rw [evBefore_iff] at *
  omega

theorem evBefore_of_not {a b : Ev} (h : ¬ evBefore a b = true) : evBefore b a = true := by
  rw [evBefore_iff] at *
  omega

/-- The places of a record put into a list: the records are the list's and the new one, alike in what orders them. -/
theorem evInsert_mem {e y : Ev} {l : List Ev} (h : y ∈ evInsert e l) : y.like e ∨ ∃ z ∈ l, y.like z := by
  induction l generalizing e with
  | nil =>
    rw [List.mem_singleton.mp h]
    exact .inl ⟨rfl, rfl, rfl⟩
  | cons x r ih =>
    have later {e' x' : Ev} (hy : y = e' ∨ y ∈ evInsert x' r) (he : e'.like e) (hx : x'.like x) : y.like e ∨ ∃ z ∈ x :: r, y.like z := by
      rcases hy with rfl | hy
      · exact .inl he
      · obtain ⟨h1, h2, h3⟩ := hx
        rcases ih hy with ⟨h1', h2', h3'⟩ | ⟨z, hz, hlike⟩
        · exact .inr ⟨x, List.mem_cons_self, h1'.trans h1, h2'.trans h2, h3'.trans h3⟩
        · exact .inr ⟨z, List.mem_cons_of_mem x hz, hlike⟩
    unfold evInsert at h
    split at h
    · rcases List.mem_cons.mp h with rfl | h
      · exact .inr ⟨_, List.mem_cons_self, rfl, rfl, rfl⟩
      · rcases ih h with hlike | ⟨z, hz, hlike⟩
        · exact .inl hlike
        · exact .inr ⟨z, List.mem_cons_of_mem x hz, hlike⟩
    · split at h
      · exact later (List.mem_cons.mp h) ⟨rfl, rfl, rfl⟩ ⟨rfl, rfl, rfl⟩
      · exact later (List.mem_cons.mp h) ⟨rfl, rfl, rfl⟩ ⟨rfl, rfl, rfl⟩

theorem evInsert_pairwise {e : Ev} {l : List Ev} (h : l.Pairwise (fun a b => evBefore a b = true)) :
    (evInsert e l).Pairwise (fun a b => evBefore a b = true) := by
  induction l generalizing e with
  | nil => exact List.pairwise_singleton _ _
  | cons x r ih =>
    obtain ⟨hx, hr⟩ := List.pairwise_cons.mp h
    have first {e' x' : Ev} (he : e'.like e) (hx' : x'.like x) (hex : evBefore e x = true) :
        (e' :: evInsert x' r).Pairwise (fun a b => evBefore a b = true) := by
      refine List.pairwise_cons.mpr ⟨fun y hy => ?_, ih hr⟩
      rcases evInsert_mem hy with hlike | ⟨z, hz, hlike⟩
      · obtain ⟨h1, h2, h3⟩ := hx'
        obtain ⟨h1', h2', h3'⟩ := hlike
        rw [evBefore_congr he ⟨h1'.trans h1, h2'.trans h2, h3'.trans h3⟩]
        exact hex
      · rw [evBefore_congr he hlike]
        exact evBefore_trans hex (hx z hz)
    unfold evInsert
    split
    case isTrue hxe =>
      refine List.pairwise_cons.mpr ⟨fun y hy => ?_, ih hr⟩
      rcases evInsert_mem hy with hlike | ⟨z, hz, hlike⟩
      · rw [evBefore_congr ⟨rfl, rfl, rfl⟩ hlike]
        exact hxe
      · rw [evBefore_congr ⟨rfl, rfl, rfl⟩ hlike]
        exact hx z hz
    case isFalse hxe =>
      split
      · exact first ⟨rfl, rfl, rfl⟩ ⟨rfl, rfl, rfl⟩ (evBefore_of_not hxe)
      · exact first ⟨rfl, rfl, rfl⟩ ⟨rfl, rfl, rfl⟩ (evBefore_of_not hxe)

/-- The numbers stay in their places. -/
theorem evInsert_seq (e : Ev) (l : List Ev) : (evInsert e l).map (fun x => x.seq) = l.map (fun x => x.seq) ++ [e.seq] := by
  induction l generalizing e with
  | nil => rfl
  | cons x r ih =>
    unfold evInsert
    split
    · rw [List.map_cons, ih, List.map_cons, List.cons_append]
    · split
      · rw [List.map_cons, ih, List.map_cons, List.cons_append]
      · rw [List.map_cons, ih, List.map_cons, List.cons_append]

theorem evInsert_queued (e : Ev) (l : List Ev) :
    (evInsert e l).countP (fun x => !x.gone) = l.countP (fun x => !x.gone) + (if e.gone = true then 0 else 1) := by
  have hgone (b : Bool) : (if (!b) = true then 1 else 0) = (if b = true then 0 else 1) := by cases b <;> rfl
  induction l generalizing e with
  | nil =>
    rw [evInsert, List.countP_singleton, hgone]
    simp
  | cons x r ih =>
    unfold evInsert
    split
    · rw [List.countP_cons, ih, List.countP_cons]
      omega
    · split
      · rw [List.countP_cons, ih, List.countP_cons, hgone, hgone]
      · rw [List.countP_cons, ih, List.countP_cons, hgone, hgone]

/-! A raised event (R446, R449) -/

/-- A record of an event stands in the queue in this stage. -/
def State.sameEvent (s : State) (ix scls u : Nat) (e : Ev) : Bool :=
  decide (e.ix = ix) && decide (e.scls = scls) && decide (e.unit = u) && decide (e.stage = s.stageNo)

/-- The event is on no route. -/
def State.unrouted (s : State) (ix u : Nat) : Bool := decide (s.routeOf ix u = 0)

/-- The queue loses the event. -/
def State.evFull (s : State) (ix u : Nat) : Bool := !s.unrouted ix u && decide (256 ≤ s.queued.length) && s.boot.switching.isNone

/-- The record of a raised event. -/
def State.evRecord (s : State) (ix scls u d0 d1 : Nat) : Ev :=
  { ix := ix, scls := scls
    flags := (if 0 < s.late then 2 else 0) + (if (s.gap && !s.unrouted ix u && !s.evFull ix u) = true then 4 else 0)
    unit := u, kc := s.evKc, stage := s.stageNo, seq := s.regN 0x106014, d0 := d0 % 2 ^ 32, d1 := d1 % 2 ^ 32
    gone := s.unrouted ix u || s.evFull ix u }

/-- The counters and the GAP mark after a raised event that is not merged. -/
def State.evCounted (s : State) (ix u : Nat) : State :=
  if s.evFull ix u = true then { (s.setRegN 0x106014 (s.regN 0x106014 + 1)).count 0x106018 1 with gap := true }
  else if s.unrouted ix u = true then s.setRegN 0x106014 (s.regN 0x106014 + 1)
  else { s.setRegN 0x106014 (s.regN 0x106014 + 1) with gap := false }

section
variable {s : State} {ix scls u : Nat} (d0 d1 : Nat)

theorem State.raise_of_merged (h : s.queued.any (s.sameEvent ix scls u) = true) : s.raise ix scls u d0 d1 =
    { s with events := s.events.map (fun e =>
      if (!e.gone && s.sameEvent ix scls u e) = true then { e with rep := min (e.rep + 1) 0xFFFF } else e) } := by
  unfold State.raise
  dsimp only
  refine (if_pos h).trans ?_
  refine congrArg (fun f => ({ s with events := s.events.map f } : State)) (funext fun e => if_congr ?_ rfl rfl)
  simp only [State.sameEvent, Bool.and_eq_true, Bool.not_eq_true', decide_eq_true_eq, and_assoc]

theorem State.raise_of_new (h : s.queued.any (s.sameEvent ix scls u) = false) :
    s.raise ix scls u d0 d1 = (s.evCounted ix u).queueEvent (s.evRecord ix scls u d0 d1) := by
  unfold State.raise
  dsimp only
  refine (if_neg (ne_true_of_eq_false h)).trans ?_
  simp only [Bool.false_eq_true, if_false, Nat.zero_add]
  rfl

end

section
variable (s : State) (ix u : Nat)

theorem State.evCounted_seq : (s.evCounted ix u).regN 0x106014 = (s.regN 0x106014 + 1) % 2 ^ 32 := by
  unfold State.evCounted
  split
  · exact (congrArg BitVec.toNat (State.count_reg_other _ 1 (by decide))).trans (s.setRegN_regN_same ..)
  · split
    · exact s.setRegN_regN_same ..
    · exact s.setRegN_regN_same ..

theorem State.evCounted_lost : (s.evCounted ix u).regN 0x106018 =
    if s.evFull ix u = true then min (s.regN 0x106018 + 1) (2 ^ 32 - 1) else s.regN 0x106018 := by
  have hkeep : (s.setRegN 0x106014 (s.regN 0x106014 + 1)).regN 0x106018 = s.regN 0x106018 :=
    congrArg BitVec.toNat (s.setRegN_reg_other _ (by decide))
  unfold State.evCounted
  split
  · exact (State.count_regN_same ..).trans (by rw [hkeep])
  · split <;> exact hkeep

theorem State.evCounted_gap : (s.evCounted ix u).gap =
    if s.evFull ix u = true then true else if s.unrouted ix u = true then s.gap else false := by
  unfold State.evCounted
  split
  · rfl
  · split <;> rfl

theorem State.evCounted_events : (s.evCounted ix u).events = s.events := by
  unfold State.evCounted
  split
  · unfold State.count State.noteCount
    split <;> rfl
  · split <;> rfl

end

theorem State.queueEvent_queued (s : State) (e : Ev) :
    (s.queueEvent e).queued.length = s.queued.length + (if e.gone = true then 0 else 1) := by
  have hcount (t : State) : t.queued.length = t.events.countP (fun x => !x.gone) := List.countP_eq_length_filter.symm
  have hsplit := List.countP_eq_countP_filter_add s.events (fun x => !x.gone) s.ofThisKc
  rw [hcount, hcount, State.queueEvent]
  dsimp only
  rw [List.countP_append, evInsert_queued, hsplit]
  omega

end Sys2Proof.Machine
end

section
/-! SUPPORT. The routes a record is served on: what a route needs, what serving one leaves of the others, and EVENT_DELIVER (R450, R451). -/

namespace Sys2Proof.Machine

/-! What a route reads (R447, R451, R457) -/

theorem State.routeOf_congr {s t : State} (ix u : Nat) (h : ∀ a, (0x106040 ≤ a ∨ a = ha u 0) → t.reg a = s.reg a) :
    t.routeOf ix u = s.routeOf ix u := by
  have hroute : t.route ix = s.route ix := by
    rw [State.route, State.route, State.fld, State.fld, State.regN, State.regN, h _ (.inl (by omega))]
  rw [State.routeOf, State.routeOf, hroute, h _ (.inr rfl)]

/-- A triggered vector that is masked is pending: no other bit of a register changes. -/
theorem State.trigger_reg_bit (s : State) (v a : Nat) {i : Nat} (hi : i ≠ v) :
    ((s.trigger v).reg a).getLsbD i = (s.reg a).getLsbD i := by
  by_cases ha : a = 0x600024
  · subst ha
    have hset : ((s.setBits 0x600024 (2 ^ v)).reg 0x600024).getLsbD i = (s.reg 0x600024).getLsbD i := by
      have hreg : (s.setBits 0x600024 (2 ^ v)).reg 0x600024 = BitVec.ofNat 32 (s.regN 0x600024 ||| 2 ^ v) := by
        unfold State.setBits
        rw [if_neg (Nat.two_pow_pos v).ne']
        exact s.setReg_reg_same 0x600024 _
      rw [hreg, BitVec.getLsbD_ofNat, Nat.testBit_or, Nat.testBit_two_pow_of_ne hi.symm, Bool.or_false, ← State.reg_getLsbD]
      by_cases h32 : i < 32
      · rw [decide_eq_true h32, Bool.true_and]
      · rw [decide_eq_false h32, Bool.false_and, BitVec.getLsbD_of_ge _ _ (by omega)]
    unfold State.trigger
    split
    · rfl
    · split
      · exact hset
      · split <;> rfl
  · rw [s.trigger_reg_other v ha]

/-- After vector 16 routes P and S are as before. -/
theorem State.trigger_routeOf_bit (s : State) (ix u : Nat) {k : Nat} (hk : 2 ≤ k) :
    ((s.trigger 16).routeOf ix u).testBit k = (s.routeOf ix u).testBit k := by
  have hroute : ((s.trigger 16).route ix).testBit k = (s.route ix).testBit k := by
    rw [State.route, State.route, State.fld, State.fld, bits_testBit, bits_testBit, ← State.reg_getLsbD, ← State.reg_getLsbD]
    by_cases h4 : k < 4
    · rw [s.trigger_reg_bit 16 _ (by omega)]
    · rw [decide_eq_false h4, Bool.false_and, Bool.false_and]
  have hput (x : Nat) : (putBits x 1 1 0).testBit k = x.testBit k := by rw [putBits_testBit, if_neg (by omega)]
  have hien : (s.trigger 16).reg (ha u 0) = s.reg (ha u 0) := s.trigger_reg_other 16 (by simp only [ha, Win.base]; omega)
  rw [State.routeOf, State.routeOf, hien]
  split
  · rw [hput, hput, hroute]
  · exact hroute

/-! Serving (R450, R451) -/

/-- Route k of a record can be served now. -/
def State.can (s : State) (e : Ev) (k : Nat) : Prop :=
  (s.routeOf e.ix e.unit).testBit k = true ∧ e.served.testBit k = false ∧
    (k = 0 → (s.reg 0x106000).getLsbD 0 = true ∧ (s.regN 0x10600C + 2 ^ 32 - s.regN 0x106010) % 2 ^ 32 < s.evSize ∧ s.tth = 1) ∧
    (k = 1 → s.tth = 1 ∧ ((s.routeOf e.ix e.unit).testBit 0 = false ∨ e.served.testBit 0 = true))

theorem State.canServe_iff (s : State) (e : Ev) {k : Nat} (hk : k < 4) : s.canServe e e.served k = true ↔ s.can e k := by
  unfold State.can State.canServe
  interval_cases k
  · simp [and_assoc]
  · simp [and_assoc]
  · simp
  · simp

/-- A record that one of its routes can take, or that has been served on all. -/
def State.able (s : State) (e : Ev) : Prop := s.routeOf e.ix e.unit &&& (15 - e.served) = 0 ∨ ∃ k < 4, s.can e k

theorem State.able_iff (s : State) (e : Ev) :
    (decide (s.routeOf e.ix e.unit &&& (15 - e.served) = 0) || (List.range 4).any (s.canServe e e.served)) = true ↔ s.able e := by
  rw [State.able, Bool.or_eq_true, decide_eq_true_iff, List.any_eq_true]
  refine or_congr Iff.rfl ⟨fun ⟨k, hk, h⟩ => ?_, fun ⟨k, hk, h⟩ => ⟨k, List.mem_range.mpr hk, (s.canServe_iff e hk).mpr h⟩⟩
  have hk := List.mem_range.mp hk
  exact ⟨k, hk, (s.canServe_iff e hk).mp h⟩

/-- One route in the order of serving. -/
def serveStep (e : Ev) (r : State × Nat) (k : Nat) : State × Nat :=
  if r.1.canServe e r.2 k then (r.1.serveRoute e k, r.2 + 2 ^ k) else r

theorem State.serve_eq (s : State) (e : Ev) :
    s.serve e = serveStep e (serveStep e (serveStep e (serveStep e (s, e.served) 0) 1) 2) 3 := rfl

theorem serveStep_of_can {e : Ev} {r : State × Nat} {k : Nat} (h : r.1.canServe e r.2 k = true) :
    serveStep e r k = (r.1.serveRoute e k, r.2 + 2 ^ k) := if_pos h

theorem serveStep_of_no_route {e : Ev} {r : State × Nat} {k : Nat} (h : (r.1.routeOf e.ix e.unit).testBit k = false) :
    serveStep e r k = r := by
  refine if_neg ?_
  unfold State.canServe
  simp only [h, Bool.false_and, Bool.false_eq_true, not_false_eq_true]

section
variable {s : State} {e : Ev}

/-- A record on one route is served on it alone, where that leaves its other routes as they are. -/
theorem State.serve_of_route {k : Nat} (hk : k < 4) (h0 : e.served = 0) (hroute : s.routeOf e.ix e.unit = 2 ^ k) (hcan : s.can e k)
    (hlater : ∀ j, k < j → ((s.serveRoute e k).routeOf e.ix e.unit).testBit j = false) : s.serve e = (s.serveRoute e k, 2 ^ k) := by
  have hserve : serveStep e (s, 0) k = (s.serveRoute e k, 2 ^ k) := by
    rw [serveStep_of_can (by rw [← h0]; exact (s.canServe_iff e hk).mpr hcan), Nat.zero_add]
  have hbefore {j : Nat} (hj : j < k) : serveStep e (s, 0) j = (s, 0) :=
    serveStep_of_no_route (by rw [hroute, Nat.testBit_two_pow_of_ne (by omega)])
  have hafter {j : Nat} (hj : k < j) (n : Nat) : serveStep e (s.serveRoute e k, n) j = (s.serveRoute e k, n) :=
    serveStep_of_no_route (hlater j hj)
  rw [State.serve_eq, h0]
  interval_cases k
  · rw [hserve, hafter (by decide), hafter (by decide), hafter (by decide)]
  · rw [hbefore (by decide), hserve, hafter (by decide), hafter (by decide)]
  · rw [hbefore (by decide), hbefore (by decide), hserve, hafter (by decide)]
  · rw [hbefore (by decide), hbefore (by decide), hbefore (by decide), hserve]

/-- Route R leaves what every route reads. -/
theorem State.serveRing_routeOf (ix u : Nat) : (s.serveRoute e 0).routeOf ix u = s.routeOf ix u := by
  refine State.routeOf_congr ix u fun a h => ?_
  have hne : a ≠ 0x10600C := by
    rcases h with h | rfl
    · omega
    · simp only [ha, Win.base]
      omega
  exact State.setRegN_reg_other _ _ hne

theorem State.serveRing_tth : (s.serveRoute e 0).tth = s.tth :=
  congrArg (fun w : Word => bits w.toNat 0 2) (State.setRegN_reg_other _ _ (by decide) : (s.serveRoute e 0).reg 0x600000 = _)

theorem State.served_of_ring_and_irq (h0 : e.served = 0) (hroute : s.routeOf e.ix e.unit = 3) (hcan : s.can e 0) :
    s.serve e = ((s.serveRoute e 0).trigger 16, 3) := by
  obtain ⟨-, -, hring, -⟩ := id hcan
  obtain ⟨-, -, htth⟩ := hring rfl
  have hu : (s.serveRoute e 0).routeOf e.ix e.unit = 3 := (s.serveRing_routeOf (e := e) e.ix e.unit).trans hroute
  have hutth : (s.serveRoute e 0).tth = 1 := State.serveRing_tth.trans htth
  have h1 : (s.serveRoute e 0).canServe e 1 1 = true := by
    simp only [State.canServe, hu, hutth]
    decide
  have hcan0 : s.canServe e e.served 0 = true := (s.canServe_iff e (by decide)).mpr hcan
  rw [h0] at hcan0
  have hfirst : serveStep e (s, 0) 0 = (s.serveRoute e 0, 1) := serveStep_of_can hcan0
  have hsecond : serveStep e (s.serveRoute e 0, 1) 1 = ((s.serveRoute e 0).trigger 16, 3) := serveStep_of_can h1
  have hlater {k : Nat} (hk : 2 ≤ k) (n : Nat) : serveStep e ((s.serveRoute e 0).trigger 16, n) k = ((s.serveRoute e 0).trigger 16, n) := by
    refine serveStep_of_no_route ?_
    rw [State.trigger_routeOf_bit _ _ _ hk, hu]
    exact Nat.testBit_lt_two_pow (lt_of_lt_of_le (by decide : 3 < 2 ^ 2) (Nat.pow_le_pow_right (by decide) hk))
  rw [State.serve_eq, h0, hfirst, hsecond, hlater (by decide), hlater (by decide)]

/-- A record on one route that is able can be served on that route. -/
theorem State.can_of_able {k : Nat} (hk : k < 4) (h0 : e.served = 0) (hroute : s.routeOf e.ix e.unit = 2 ^ k) (h : s.able e) : s.can e k := by
  rcases h with h | ⟨j, hj, hcan⟩
  · rw [hroute, h0] at h
    interval_cases k <;> exact absurd h (by decide)
  · have hbit := hcan.1
    rw [hroute] at hbit
    by_cases hjk : k = j
    · exact hjk ▸ hcan
    · rw [Nat.testBit_two_pow_of_ne hjk] at hbit
      exact absurd hbit Bool.false_ne_true

end

/-! EVENT_DELIVER (R451) -/

section
variable {s : State}

theorem exec_eventDeliver_of_halted (h : s.firmwareRuns = false) : exec .eventDeliver s = .next s :=
  (if_pos (by simp [h]) : execEventDeliver s = _)

variable (hr : s.firmwareRuns = true)
include hr

theorem exec_eventDeliver_of_none (h : ∀ e ∈ s.queued, ¬ s.able e) : exec .eventDeliver s = .next s := by
  have hnone : s.queued.find? (fun e => decide (s.routeOf e.ix e.unit &&& (15 - e.served) = 0) || (List.range 4).any (s.canServe e e.served)) =
      none := List.find?_eq_none.mpr fun e he => mt (s.able_iff e).mp (h e he)
  show execEventDeliver s = _
  unfold execEventDeliver
  rw [if_neg (by simp [hr]), hnone]

theorem exec_eventDeliver_of_first {pre post : List Ev} {e : Ev} (hq : s.queued = pre ++ e :: post) (hpre : ∀ x ∈ pre, ¬ s.able x)
    (he : s.able e) : exec .eventDeliver s = .next { (s.serve e).1 with
      events := if (s.serve e).1.routeOf e.ix e.unit &&& (15 - (s.serve e).2) = 0 then (s.serve e).1.events.erase e
        else (s.serve e).1.events.map (fun x => if x = e then { e with served := (s.serve e).2 } else x) } := by
  have hfind : s.queued.find? (fun e => decide (s.routeOf e.ix e.unit &&& (15 - e.served) = 0) || (List.range 4).any (s.canServe e e.served)) =
      some e := by
    rw [hq]
    refine List.find?_eq_some_iff_append.mpr ⟨(s.able_iff e).mpr he, pre, post, rfl, fun x hx => ?_⟩
    rw [Bool.not_eq_true']
    exact Bool.eq_false_iff.mpr (mt (s.able_iff x).mp (hpre x hx))
  show execEventDeliver s = _
  unfold execEventDeliver
  rw [if_neg (by simp [hr]), hfind]

end

end Sys2Proof.Machine
end

section
/-! SUPPORT. Sensor readings: their registers, the ranges of operation and the warnings (R403, R454, R455), and the obligations of events and
telemetry. -/

namespace Sys2Proof.Machine

/-! What a raised event puts into the queue -/

/-- The queue after a raised event depends on the queue, the time, the event's route and the number of the next record. -/
theorem State.raise_events_congr {s t : State} {ix scls u d0 d1 : Nat} (hev : t.events = s.events) (hkc : t.kc = s.kc) (hlate : t.late = s.late)
    (hgap : t.gap = s.gap) (hboot : t.boot = s.boot) (hmark : t.seqMark = s.seqMark) (hst : t.stageNo = s.stageNo)
    (hroute : t.routeOf ix u = s.routeOf ix u) (hseq : t.regN 0x106014 = s.regN 0x106014) :
    (t.raise ix scls u d0 d1).events = (s.raise ix scls u d0 d1).events := by
  have hq : t.queued = s.queued := by rw [State.queued, hev, State.queued]
  have hsame : t.sameEvent ix scls u = s.sameEvent ix scls u := by
    funext e
    rw [State.sameEvent, State.sameEvent, hst]
  cases h : s.queued.any (s.sameEvent ix scls u) with
  | true =>
    rw [State.raise_of_merged _ _ h, State.raise_of_merged _ _ (by rw [hq, hsame]; exact h), hsame, hev]
  | false =>
    have hun : t.unrouted ix u = s.unrouted ix u := by rw [State.unrouted, State.unrouted, hroute]
    have hfull : t.evFull ix u = s.evFull ix u := by rw [State.evFull, State.evFull, hun, hq, hboot]
    have hrec : t.evRecord ix scls u d0 d1 = s.evRecord ix scls u d0 d1 := by
      simp only [State.evRecord, hlate, hgap, hun, hfull, State.evKc, hkc, hst, hseq]
    have hnum : (t.evCounted ix u).ofThisKc = (s.evCounted ix u).ofThisKc := by
      funext e
      have hm (w : State) : (w.evCounted ix u).seqMark = w.seqMark := by
        unfold State.evCounted
        split
        · unfold State.count State.noteCount
          split <;> rfl
        · split <;> rfl
      rw [State.ofThisKc, State.ofThisKc, hm, hm, hmark, State.evCounted_seq, State.evCounted_seq, hseq]
    rw [State.raise_of_new _ _ h, State.raise_of_new _ _ (by rw [hq, hsame]; exact h), State.queueEvent, State.queueEvent, hrec, hnum,
      State.evCounted_events, State.evCounted_events, hev]

/-! A reading (R403, R454) -/

/-- What a sensor's register takes: the cap in force for reading 3, 8000H while the source is off. -/
def State.sensedValue (s : State) (n v : Nat) : Nat := if n = 3 then s.fld 0x200010 0 16 else if s.sensorOn n then v else 0x8000

/-- The sensor's register, and whether its reading lies outside the ranges of operation. -/
def State.sensedBase (s : State) (n v : Nat) : State :=
  let others := s.svc.beyond.filter (fun k => decide (k ≠ n))
  ({ s with svc := { s.svc with beyond := if beyondRange n v then n :: others else others } } : State).setRegN (0x106100 + 4 * n) (s.sensedValue n v)

/-- The module with a reading, before it is judged. -/
def State.sensed (s : State) (n v : Nat) : State :=
  if n = 1 then
    { (s.sensedBase n v).setRegN 0x20001C (s.sensedValue n v) with
      svc := { (s.sensedBase n v).svc with uv := (s.sensedBase n v).svc.uv && decide (v < 44000) } }
  else if n = 2 then (s.sensedBase n v).setRegN 0x200020 (s.sensedValue n v)
  else if n = 16 then (s.sensedBase n v).setRegN 0x200028 (s.sensedValue n v % 2 ^ 16)
  else if n = 17 then (s.sensedBase n v).setRegN 0x200024 (s.sensedValue n v % 2 ^ 16)
  else s.sensedBase n v

/-- A reading is judged by its limit (R455). -/
def State.judged (s : State) (n x : Nat) : State :=
  if s.regN (0x106180 + 4 * n) = 0 ∨ x = 0x8000 then s
  else if readingOf n (s.regN (0x106180 + 4 * n)) < readingOf n x then
    if sget zeroBool s.warned n then s else ({ s with warned := sput zeroBool s.warned n true } : State).raise 45 0 0 n x
  else if 32 * readingOf n x < 31 * readingOf n (s.regN (0x106180 + 4 * n)) then { s with warned := sput zeroBool s.warned n false }
  else s

section
variable (s : State) {n : Nat} (v : Nat)

theorem State.sense_eq (hn : n ≠ 0) : s.sense n v = (s.sensed n v).judged n (s.sensedValue n v) := if_neg hn

theorem State.sensed_frame : ∃ rg sv, s.sensed n v = { s with regs := rg, svc := sv } := by
  unfold State.sensed
  split
  · exact ⟨_, _, rfl⟩
  · split
    · exact ⟨_, _, rfl⟩
    · split
      · exact ⟨_, _, rfl⟩
      · split <;> exact ⟨_, _, rfl⟩

theorem State.sensed_congr {α : Type} (p : State → α) (h : ∀ x y, p { s with regs := x, svc := y } = p s) : p (s.sensed n v) = p s := by
  obtain ⟨x, y, hxy⟩ := s.sensed_frame (n := n) v
  rw [hxy, h]

theorem State.sensedBase_reg (a : Nat) :
    (s.sensedBase n v).reg a = if a = 0x106100 + 4 * n then BitVec.ofNat 32 (s.sensedValue n v) else s.reg a :=
  State.setRegN_reg ..

theorem State.sensed_reg {a : Nat} (h : a ∉ [0x20001C, 0x200020, 0x200024, 0x200028]) :
    (s.sensed n v).reg a = if a = 0x106100 + 4 * n then BitVec.ofNat 32 (s.sensedValue n v) else s.reg a := by
  simp only [List.mem_cons, List.not_mem_nil, or_false, not_or] at h
  obtain ⟨hvin, hiin, hcool, hdie⟩ := h
  rw [← State.sensedBase_reg]
  unfold State.sensed
  split
  · exact (State.setRegN_reg_other (s.sensedBase n v) (s.sensedValue n v) hvin :)
  · split
    · exact State.setRegN_reg_other _ _ hiin
    · split
      · exact State.setRegN_reg_other _ _ hdie
      · split
        · exact State.setRegN_reg_other _ _ hcool
        · rfl

/-- Registers that no reading writes. -/
theorem State.sensed_reg_other (hn : n < 18) {a : Nat} (h : a < 0x106100 ∨ 0x106148 ≤ a) (hp : a ∉ [0x20001C, 0x200020, 0x200024, 0x200028]) :
    (s.sensed n v).reg a = s.reg a := by
  rw [s.sensed_reg v hp, if_neg (by omega)]

theorem State.sensed_limit (hn : n < 18) : (s.sensed n v).regN (0x106180 + 4 * n) = s.regN (0x106180 + 4 * n) :=
  congrArg BitVec.toNat (s.sensed_reg_other v hn (.inr (by omega)) (by simp only [List.mem_cons, List.not_mem_nil, or_false, not_or]; omega))

theorem State.sensedValue_lt (hv : v < 2 ^ 32) : s.sensedValue n v < 2 ^ 32 := by
  unfold State.sensedValue
  split
  · exact (bits_lt _ 0 16).trans (by decide)
  · split
    · exact hv
    · decide

theorem State.sensed_reading (hn : n < 18) (hv : v < 2 ^ 32) : (s.sensed n v).regN (0x106100 + 4 * n) = s.sensedValue n v := by
  rw [State.regN, s.sensed_reg v (by simp only [List.mem_cons, List.not_mem_nil, or_false, not_or]; omega), if_pos rfl, BitVec.toNat_ofNat,
    Nat.mod_eq_of_lt (s.sensedValue_lt v hv)]

end

section
variable {s : State} {n x : Nat}

theorem State.judged_of_unlimited (h : s.regN (0x106180 + 4 * n) = 0 ∨ x = 0x8000) : s.judged n x = s := if_pos h

variable (hl : s.regN (0x106180 + 4 * n) ≠ 0) (hx : x ≠ 0x8000)
include hl hx

theorem State.judged_of_warned (h : readingOf n (s.regN (0x106180 + 4 * n)) < readingOf n x) (hw : sget zeroBool s.warned n = true) :
    s.judged n x = s := by
  rw [State.judged, if_neg (by simp [hl, hx]), if_pos h, if_pos hw]

theorem State.judged_of_above (h : readingOf n (s.regN (0x106180 + 4 * n)) < readingOf n x) (hw : sget zeroBool s.warned n = false) :
    s.judged n x = ({ s with warned := sput zeroBool s.warned n true } : State).raise 45 0 0 n x := by
  rw [State.judged, if_neg (by simp [hl, hx]), if_pos h, if_neg (ne_true_of_eq_false hw)]

theorem State.judged_of_below (h : readingOf n x ≤ readingOf n (s.regN (0x106180 + 4 * n)))
    (hb : 32 * readingOf n x < 31 * readingOf n (s.regN (0x106180 + 4 * n))) :
    s.judged n x = { s with warned := sput zeroBool s.warned n false } := by
  rw [State.judged, if_neg (by simp [hl, hx]), if_neg (by omega), if_pos hb]

theorem State.judged_of_between (h : readingOf n x ≤ readingOf n (s.regN (0x106180 + 4 * n)))
    (hb : 31 * readingOf n (s.regN (0x106180 + 4 * n)) ≤ 32 * readingOf n x) : s.judged n x = s := by
  rw [State.judged, if_neg (by simp [hl, hx]), if_neg (by omega), if_neg (by omega)]

end

/-! SENSOR_REFRESH -/

section
variable {s : State}

theorem exec_sensorRefresh_of_off (hp : s.phase = 0) (rs : List (Fin 18 × Word)) : exec (.sensorRefresh rs) s = .next s :=
  (if_pos hp : execSensorRefresh rs s = _)

theorem exec_sensorRefresh_of_on (hp : s.phase ≠ 0) (rs : List (Fin 18 × Word)) :
    exec (.sensorRefresh rs) s = .next (rs.foldl (fun s e => s.sense e.1.val e.2.toNat) s) := (if_neg hp : execSensorRefresh rs s = _)

theorem exec_sensorRefresh_of_one (hp : s.phase ≠ 0) {n : Fin 18} (hn : n.val ≠ 0) (v : Word) :
    exec (.sensorRefresh [(n, v)]) s = .next ((s.sensed n v.toNat).judged n (s.sensedValue n v.toNat)) := by
  rw [exec_sensorRefresh_of_on hp, List.foldl_cons, List.foldl_nil, State.sense_eq _ _ hn]

end

/-! O32 -/

theorem State.raise_congr {α : Type} (s : State) (ix scls u d0 d1 : Nat) (p : State → α) (h : ∀ t : State, p t = p t.sansRecords) :
    p (s.raise ix scls u d0 d1) = p s := by
  rw [h, State.raise_sansRecords s ix scls u d0 d1 false, ← h]

section
variable (s : State) (n x : Nat)

theorem State.judged_congr {α : Type} (p : State → α) (h : ∀ t : State, p t = p t.sansRecords)
    (hw : ∀ (t : State) w, p { t with warned := w } = p t) : p (s.judged n x) = p s := by
  unfold State.judged
  split
  · rfl
  · split
    · split
      · rfl
      · exact (State.raise_congr _ 45 0 0 n x p h).trans (hw s _)
    · split
      · exact hw s _
      · rfl

theorem State.judged_reg_other {a : Nat} (hseq : a ≠ 0x106014) (hlost : a ≠ 0x106018) : (s.judged n x).reg a = s.reg a := by
  unfold State.judged
  split
  · rfl
  · split
    · split
      · rfl
      · exact State.raise_reg_other _ 45 0 0 n x false hseq hlost
    · split <;> rfl

end

/-- A reading lies above its limit. -/
def Above (lim n x : Nat) : Prop := lim ≠ 0 ∧ x ≠ 0x8000 ∧ readingOf n lim < readingOf n x

/-- A reading lies below 31/32 of its limit. -/
def Below (lim n x : Nat) : Prop := lim ≠ 0 ∧ x ≠ 0x8000 ∧ 32 * readingOf n x < 31 * readingOf n lim ∧ readingOf n x ≤ readingOf n lim

/-- What a judged reading does to the queue and to the marks. -/
theorem judged_warns (s : State) (n x : Nat) :
    (Above (s.regN (0x106180 + 4 * n)) n x ∧ sget zeroBool s.warned n = false →
      (s.judged n x).events = (({ s with warned := sput zeroBool s.warned n true } : State).raise 45 0 0 n x).events) ∧
    (¬ (Above (s.regN (0x106180 + 4 * n)) n x ∧ sget zeroBool s.warned n = false) → (s.judged n x).events = s.events) ∧
    (Above (s.regN (0x106180 + 4 * n)) n x → sget zeroBool (s.judged n x).warned n = true) ∧
    (Below (s.regN (0x106180 + 4 * n)) n x → sget zeroBool (s.judged n x).warned n = false) ∧
    (¬ Above (s.regN (0x106180 + 4 * n)) n x → ¬ Below (s.regN (0x106180 + 4 * n)) n x →
      sget zeroBool (s.judged n x).warned n = sget zeroBool s.warned n) ∧
    ∀ m, m ≠ n → sget zeroBool (s.judged n x).warned m = sget zeroBool s.warned m := by
  by_cases ha : Above (s.regN (0x106180 + 4 * n)) n x
  · obtain ⟨hl, hx, habove⟩ := id ha
    have hb : ¬ Below (s.regN (0x106180 + 4 * n)) n x := fun ⟨_, _, _, h⟩ => absurd h (by omega)
    cases hw : sget zeroBool s.warned n with
    | true =>
      rw [State.judged_of_warned hl hx habove hw]
      exact ⟨fun h => absurd h.2 (by decide), fun _ => rfl, fun _ => hw, fun h => absurd h hb, fun h => absurd ha h, fun _ _ => rfl⟩
    | false =>
      rw [State.judged_of_above hl hx habove hw]
      have hwarned := State.raise_congr { s with warned := sput zeroBool s.warned n true } 45 0 0 n x (·.warned) fun _ => rfl
      rw [hwarned]
      exact ⟨fun _ => rfl, fun h => absurd ⟨ha, rfl⟩ h, fun _ => (sget_sput_same zeroBool s.warned n true :), fun h => absurd h hb, fun h => absurd ha h,
        fun m hm => (sget_sput_other zeroBool s.warned n true hm :)⟩
  · by_cases hb : Below (s.regN (0x106180 + 4 * n)) n x
    · obtain ⟨hl, hx, hbelow, hle⟩ := id hb
      rw [State.judged_of_below hl hx hle hbelow]
      exact ⟨fun h => absurd h.1 ha, fun _ => rfl, fun h => absurd h ha, fun _ => (sget_sput_same zeroBool s.warned n false :), fun _ h => absurd hb h,
        fun m hm => (sget_sput_other zeroBool s.warned n false hm :)⟩
    · have hsame : s.judged n x = s := by
        by_cases hq : s.regN (0x106180 + 4 * n) = 0 ∨ x = 0x8000
        · exact State.judged_of_unlimited hq
        · rw [not_or] at hq
          obtain ⟨hl, hx⟩ := hq
          have hle : ¬ readingOf n (s.regN (0x106180 + 4 * n)) < readingOf n x := fun h => ha ⟨hl, hx, h⟩
          have hbetween : ¬ 32 * readingOf n x < 31 * readingOf n (s.regN (0x106180 + 4 * n)) := fun h => hb ⟨hl, hx, h, by omega⟩
          exact State.judged_of_between hl hx (by omega) (by omega)
      rw [hsame]
      exact ⟨fun h => absurd h.1 ha, fun _ => rfl, fun h => absurd h ha, fun h => absurd h hb, fun _ _ => rfl, fun _ _ => rfl⟩

/-- A reading leaves what the event is made of: its route, its number, its time and the queue. -/
theorem State.sensed_raise_events (s : State) {n : Nat} (v : Nat) (hn : n < 18) (m : SMap Bool) (d0 d1 : Nat) :
    (({ s.sensed n v with warned := m } : State).raise 45 0 0 d0 d1).events = (s.raise 45 0 0 d0 d1).events := by
  have hreg {a : Nat} (ha : a < 0x106100) (hp : a ∉ [0x20001C, 0x200020, 0x200024, 0x200028]) : (s.sensed n v).reg a = s.reg a :=
    s.sensed_reg_other v hn (.inl ha) hp
  have hroute : ({ s.sensed n v with warned := m } : State).routeOf 45 0 = s.routeOf 45 0 :=
    congrArg (fun w : Word => bits w.toNat 20 4) (hreg (by decide) (by decide) : (s.sensed n v).reg 0x106054 = _)
  refine State.raise_events_congr (s.sensed_congr v (·.events) fun _ _ => rfl) (s.sensed_congr v (·.kc) fun _ _ => rfl)
    (s.sensed_congr v (·.late) fun _ _ => rfl) (s.sensed_congr v (·.gap) fun _ _ => rfl) (s.sensed_congr v (·.boot) fun _ _ => rfl)
    (s.sensed_congr v (·.seqMark) fun _ _ => rfl) (State.stageNo_congr fun a ha => ?_) hroute ?_
  · exact hreg (by omega) (by simp only [List.mem_cons, List.not_mem_nil, or_false, not_or]; omega)
  · exact congrArg BitVec.toNat (hreg (by decide) (by decide) : (s.sensed n v).reg 0x106014 = _)

/-- Settles O32: a reading changes registers, and what it is judged to be decides the event and the mark. -/
theorem warningsAreRaisedOnce : Obligations.WarningsAreRaisedOnce := by
  unfold Obligations.WarningsAreRaisedOnce
  intro s n v hp hn
  have hlim := s.sensed_limit v.toNat n.isLt
  have hread : ((s.sensed n v.toNat).judged n (s.sensedValue n v.toNat)).regN (0x106100 + 4 * n.val) = s.sensedValue n v.toNat :=
    (congrArg BitVec.toNat (State.judged_reg_other _ _ _ (by omega) (by omega))).trans (s.sensed_reading v.toNat n.isLt v.isLt)
  have hkept {a : Nat} (ha : 0x106148 ≤ a) (h4 : a ∉ [0x20001C, 0x200020, 0x200024, 0x200028]) :
      ((s.sensed n v.toNat).judged n (s.sensedValue n v.toNat)).regN a = s.regN a :=
    (congrArg BitVec.toNat (State.judged_reg_other _ _ _ (by omega) (by omega))).trans
      (congrArg BitVec.toNat (s.sensed_reg_other v.toNat n.isLt (.inr ha) h4))
  have hframe {α : Type} (p : State → α) (h : ∀ t : State, p t = p t.sansRecords) (hw : ∀ (t : State) w, p { t with warned := w } = p t)
      (hs : ∀ rg sv, p { s with regs := rg, svc := sv } = p s) : p ((s.sensed n v.toNat).judged n (s.sensedValue n v.toNat)) = p s :=
    (State.judged_congr _ _ _ p h hw).trans (s.sensed_congr v.toNat p hs)
  have hwarned : (s.sensed n v.toNat).warned = s.warned := s.sensed_congr v.toNat (·.warned) fun _ _ => rfl
  have hevents : (s.sensed n v.toNat).events = s.events := s.sensed_congr v.toNat (·.events) fun _ _ => rfl
  obtain ⟨hev, hquiet, hset, hclear, hkeep, hothers⟩ := judged_warns (s.sensed n v.toNat) n (s.sensedValue n v.toNat)
  refine ⟨_, exec_sensorRefresh_of_one hp (by omega) v, ?_⟩
  rw [hread]
  rw [hlim] at hev hquiet hset hclear hkeep
  rw [hwarned] at hev hquiet hkeep hothers
  exact ⟨fun h => (hev h).trans (by rw [s.sensed_raise_events v.toNat n.isLt]), fun h => (hquiet h).trans hevents, hset, hclear, hkeep, hothers,
    hframe (·.loess) (fun _ => rfl) (fun _ _ => rfl) fun _ _ => rfl, hframe (·.clusters) (fun _ => rfl) (fun _ _ => rfl) fun _ _ => rfl,
    hframe (·.rings) (fun _ => rfl) (fun _ _ => rfl) fun _ _ => rfl, hframe (·.ports) (fun _ => rfl) (fun _ _ => rfl) fun _ _ => rfl,
    congrArg (fun x => bits x 1 3) (hkept (a := 0x200000) (by decide) (by decide)), hkept (by decide) (by decide), hkept (by decide) (by decide)⟩

end Sys2Proof.Machine
end

section
/-! SUPPORT. The obligations of events and telemetry: raising, delivering and refreshing (R446 to R455). -/

namespace Sys2Proof.Machine

/-! Raising -/

section
variable {s : State} {ix scls u : Nat} (d0 d1 : Nat)

theorem State.raise_of_new_reg (h : s.queued.any (s.sameEvent ix scls u) = false) (a : Nat) :
    (s.raise ix scls u d0 d1).regN a = (s.evCounted ix u).regN a := by
  rw [State.raise_of_new d0 d1 h]
  rfl

theorem State.raise_of_new_events (h : s.queued.any (s.sameEvent ix scls u) = false) :
    (s.raise ix scls u d0 d1).events = s.events.filter (fun x => !(s.raise ix scls u d0 d1).ofThisKc x) ++
      evInsert (s.evRecord ix scls u d0 d1) (s.events.filter (s.raise ix scls u d0 d1).ofThisKc) := by
  rw [State.raise_of_new d0 d1 h, State.queueEvent, State.evCounted_events]
  rfl

theorem State.raise_of_new_queued (h : s.queued.any (s.sameEvent ix scls u) = false) : (s.raise ix scls u d0 d1).queued.length =
    s.queued.length + (if (s.unrouted ix u || s.evFull ix u) = true then 0 else 1) := by
  rw [State.raise_of_new d0 d1 h, State.queueEvent_queued, State.queued, State.evCounted_events]
  rfl

theorem State.raise_of_new_gap (h : s.queued.any (s.sameEvent ix scls u) = false) : (s.raise ix scls u d0 d1).gap =
    if s.evFull ix u = true then true else if s.unrouted ix u = true then s.gap else false := by
  rw [State.raise_of_new d0 d1 h]
  exact State.evCounted_gap ..

end

/-! Delivering -/

/-- An event has four routes (R447). -/
theorem State.routeOf_testBit_of_le (s : State) (ix u : Nat) {k : Nat} (hk : 4 ≤ k) : (s.routeOf ix u).testBit k = false := by
  have hroute : (s.route ix).testBit k = false := by
    rw [State.route, State.fld, bits_testBit, decide_eq_false (by omega), Bool.false_and]
  rw [State.routeOf]
  split
  · rw [putBits_testBit, if_neg (by omega), hroute]
  · exact hroute

section
variable {s : State} {e : Ev} (h0 : e.served = 0)
include h0

theorem State.served_of_ring (hr : s.routeOf e.ix e.unit = 1) (ha : s.able e) : s.serve e = (s.serveRoute e 0, 1) := by
  refine State.serve_of_route (k := 0) (by decide) h0 hr (State.can_of_able (by decide) h0 hr ha) fun j hj => ?_
  rw [State.serveRing_routeOf, hr]
  exact Nat.testBit_two_pow_of_ne (n := 0) (by omega)

theorem State.served_of_irq (hr : s.routeOf e.ix e.unit = 2) (ha : s.able e) : s.serve e = (s.trigger 16, 2) := by
  refine State.serve_of_route (k := 1) (by decide) h0 hr (State.can_of_able (by decide) h0 hr ha) fun j hj => ?_
  refine (s.trigger_routeOf_bit e.ix e.unit hj).trans ?_
  rw [hr]
  exact Nat.testBit_two_pow_of_ne (n := 1) (by omega)

theorem State.served_of_sideband (hr : s.routeOf e.ix e.unit = 4) (ha : s.able e) {eid : Nat} (hrecv : s.side.recv = some eid) :
    s.serve e = (s.sideSend (BitVec.ofNat 8 eid :: 0xF0#8 :: e.bytes 0), 4) := by
  have hsend : s.serveRoute e 2 = s.sideSend (BitVec.ofNat 8 eid :: 0xF0#8 :: e.bytes 0) := by
    simp only [State.serveRoute, hrecv]
  rw [← hsend]
  refine State.serve_of_route (k := 2) (by decide) h0 hr (State.can_of_able (by decide) h0 hr ha) fun j hj => ?_
  rw [hsend]
  show (s.routeOf e.ix e.unit).testBit j = false
  rw [hr]
  exact Nat.testBit_two_pow_of_ne (n := 2) (by omega)

theorem State.served_of_alert (hr : s.routeOf e.ix e.unit = 8) (ha : s.able e) :
    s.serve e = ((s.capture noRank 0x106020 (1 + evCode e.ix * 2 ^ 16) []).alert, 8) :=
  State.serve_of_route (k := 3) (by decide) h0 hr (State.can_of_able (by decide) h0 hr ha) fun _ hj => State.routeOf_testBit_of_le _ _ _ hj

end

/-! Refreshing -/

theorem exec_sensorRefresh_append {s t : State} {r : List (Fin 18 × Word)} (e : Fin 18 × Word) (h : exec (.sensorRefresh r) s = .next t)
    (ht : t.phase ≠ 0) : exec (.sensorRefresh (r ++ [e])) s = exec (.sensorRefresh [e]) t := by
  by_cases hp : s.phase = 0
  · rw [exec_sensorRefresh_of_off hp, Host.Outcome.next.injEq] at h
    exact absurd (h ▸ hp) ht
  · rw [exec_sensorRefresh_of_on hp, Host.Outcome.next.injEq] at h
    rw [exec_sensorRefresh_of_on hp, exec_sensorRefresh_of_on ht, List.foldl_append, h]

/-- Settles O31: what a raised event leaves, the order of one kc, the routes of a delivery and the readings, each by the rule of its operation. -/
theorem eventsAreDeliveredAndSensorsRefreshed : Obligations.EventsAreDeliveredAndSensorsRefreshed := by
  unfold Obligations.EventsAreDeliveredAndSensorsRefreshed
  refine ⟨⟨?raise, fun e l h => ⟨evInsert_pairwise h, evInsert_seq e l⟩⟩, ?deliver, ?refresh⟩
  case raise =>
    intro s ix scls u d0 d1 same t
    refine ⟨State.raise_of_merged d0 d1, fun h => ?_⟩
    exact ⟨(State.raise_of_new_reg d0 d1 h _).trans (State.evCounted_seq ..), (State.raise_of_new_reg d0 d1 h _).trans (State.evCounted_lost ..),
      State.raise_of_new_gap d0 d1 h, State.raise_of_new_queued d0 d1 h, s.evRecord ix scls u d0 d1, State.raise_of_new_events d0 d1 h,
      rfl, rfl, rfl, rfl, rfl, rfl, rfl, rfl, rfl, rfl, rfl, rfl⟩
  case deliver =>
    intro s can able
    refine ⟨exec_eventDeliver_of_halted, exec_eventDeliver_of_none, fun pre e post hr hq hpre he => ?_⟩
    have hexec := exec_eventDeliver_of_first hr hq hpre he
    intro r left
    refine ⟨fun h => ?_, fun h => ?_, fun h0 => ?_⟩
    · rw [hexec, if_pos h]
    · rw [hexec, if_neg h]
    · exact ⟨fun hr => State.served_of_ring h0 hr he, fun hr => State.served_of_irq h0 hr he,
        fun hr hcan => State.served_of_ring_and_irq h0 hr hcan, fun hr _ hrecv => State.served_of_sideband h0 hr he hrecv,
        fun hr => State.served_of_alert h0 hr he⟩
  case refresh =>
    refine fun s => ⟨exec_sensorRefresh_of_off, fun hp => ⟨exec_sensorRefresh_of_on hp _, fun v => exec_sensorRefresh_of_on hp _, ?_, ?_⟩⟩
    · intro n v hn x others s0 s1 lim
      have hs1 : s1 = s.sensed n v.toNat := by
        simp only [s1]
        unfold State.sensed
        split
        case h_1 h1 => exact (if_pos h1).symm
        case h_2 h2 => exact ((if_neg (by omega)).trans (if_pos h2)).symm
        case h_3 h16 => exact ((if_neg (by omega)).trans ((if_neg (by omega)).trans (if_pos h16))).symm
        case h_4 h17 => exact ((if_neg (by omega)).trans ((if_neg (by omega)).trans ((if_neg (by omega)).trans (if_pos h17)))).symm
        case h_5 h1 h2 h16 h17 => exact ((if_neg h1).trans ((if_neg h2).trans ((if_neg h16).trans (if_neg h17)))).symm
      have hexec : exec (.sensorRefresh [(n, v)]) s = .next (s1.judged n x) := hs1 ▸ exec_sensorRefresh_of_one hp hn v
      have hlim : s1.regN (0x106180 + 4 * n.val) = lim := hs1 ▸ s.sensed_limit v.toNat n.isLt
      have hwarned : s1.warned = s.warned := hs1 ▸ s.sensed_congr v.toNat (·.warned) fun _ _ => rfl
      rw [hexec, ← hlim, ← hwarned]
      exact ⟨fun h => congrArg _ (State.judged_of_unlimited h), fun hl hx h => ⟨fun hw => congrArg _ (State.judged_of_warned hl hx h hw),
          fun hw => congrArg _ (State.judged_of_above hl hx h hw)⟩,
        fun hl hx h hb => congrArg _ (State.judged_of_below hl hx h hb), fun hl hx h hb => congrArg _ (State.judged_of_between hl hx h hb)⟩
    · exact fun r e t h ht => exec_sensorRefresh_append e h ht

end Sys2Proof.Machine
end

section
/-! SUPPORT. Power arriving and failing, the flash copy a brown-out tears, and what power-on and module resets leave (R395, R402, R404, R408,
R409, R427, R436). -/

namespace Sys2Proof.Machine

/-! Registers after a power-on reset (R404, R461) -/

/-- A register in scope none of whose fields is kept or sensed holds its value after power-on. -/
theorem State.resetRegs_reg_init (s : State) {k : RKind} {inScope : Win → Bool} {a : Nat} {w : Win} (hw : winOf a = some w)
    (hin : inScope w = true) (h : ∀ v, BitVec.ofNat 32 (regAfter s.grade k w (a - w.base) v) = regInit s.grade a) :
    (s.resetRegs k inScope).reg a = regInit s.grade a := by
  show sget (regInit s.grade) (s.resetRegs k inScope).regs a = _
  unfold State.resetRegs
  dsimp only
  induction s.regs with
  | nil => rfl
  | cons e m ih =>
    rw [List.filterMap_cons]
    split
    · exact ih
    case _ e' he =>
      rw [sget]
      split
      case isFalse => exact ih
      case isTrue ha =>
        subst ha
        split at he
        case h_1 hnone =>
          rw [Option.some.inj he, hw] at hnone
          exact absurd hnone (Option.some_ne_none w)
        case h_2 w' hw' =>
          by_cases hs : inScope w' = true
          · rw [if_pos hs] at he
            split at he
            · exact absurd he (Option.some_ne_none e').symm
            case isFalse hv =>
              have ha : e.1 = e'.1 := (congrArg Prod.fst (Option.some.inj he) :)
              rw [ha, hw, Option.some.injEq] at hw'
              subst hw'
              exact absurd (by rw [ha]; exact h _) hv
          · rw [if_neg hs] at he
            rw [Option.some.inj he, hw, Option.some.injEq] at hw'
            exact absurd (hw' ▸ hin) hs

/-- The power state after a power-on reset: not READY, no failure. -/
theorem State.porReset_power (s : State) : s.porReset.reg 0x200000 = 0 := by
  have hnone (g : Grade) (v : Nat) : BitVec.ofNat 32 (regAfter g .por .power (0x200000 - Win.power.base) v) = regInit g 0x200000 := by
    have hfree : regAfter g .por .power (0x200000 - Win.power.base) v = regAfter g .por .power (0x200000 - Win.power.base) 0 := by
      cases g <;> rfl
    rw [hfree]
    cases g <;> rfl
  have hinit : regInit s.grade 0x200000 = 0 := by cases s.grade <;> rfl
  exact (s.resetRegs_reg_init (k := .por) (inScope := fun _ => true) (w := .power) rfl rfl (hnone _)).trans hinit

/-! A mating of the main connector (R427) -/

section
variable (s : State)

/-- The main connector's mating changes its count, and may be one event. -/
theorem State.mate_main_congr {α : Type} (p : State → α) (h : ∀ t : State, p t = p t.sansRecords)
    (hl : ∀ sv, p { s with svc := { s.svc with life := sv } } = p s) : p (s.mate 16) = p s := by
  unfold State.mate
  extract_lets life s1 s2
  have h2 : p s2 = p s := hl _
  rw [if_neg (by decide : ¬ (16 : Nat) < 16)]
  split
  · exact (s2.raise_congr _ _ _ _ _ p h).trans h2
  · exact h2

theorem State.mate_main_life : (s.mate 16).svc.life = sput zeroNat s.svc.life 16 (min (sget zeroNat s.svc.life 16 + 1) (2 ^ 32 - 1)) := by
  unfold State.mate
  extract_lets life s1 s2
  rw [if_neg (by decide : ¬ (16 : Nat) < 16)]
  split
  · exact s2.raise_congr _ _ _ _ _ (·.svc.life) fun _ => rfl
  · rfl

theorem State.mate_main_reg {a : Nat} (hseq : a ≠ 0x106014) (hlost : a ≠ 0x106018) : (s.mate 16).reg a = s.reg a := by
  unfold State.mate
  extract_lets life s1 s2
  rw [if_neg (by decide : ¬ (16 : Nat) < 16)]
  split
  · exact s2.raise_reg_other _ _ _ _ _ false hseq hlost
  · rfl

end

/-! The copy a brown-out tears (R436) -/

/-- Flash with one copy written: the package `b` with payload `pay` of target `t`, for stack `k`. -/
def State.flashed (s : State) (t k : Nat) (pay : List Byte) (b : FwBank) : State :=
  if t = 0 then s.setBankOf (if s.boot.recovery then !s.boot.sel else !s.boot.act) b
  else if t = 1 then { s with boot := { s.boot with bedsOld := sput noFw s.boot.bedsOld k (some b) } }
  else if t = 2 then { s with boot := { s.boot with glz := some (pay, b) } }
  else { s with boot := { s.boot with rtn := some (pay, b) } }

section
variable {s : State} {t : Nat} (k : Nat) (pay : List Byte) (b : FwBank)

theorem State.setBankOf_stored (s : State) (x : Bool) (b : FwBank) :
    (s.setBankOf x b).boot.cnt = s.boot.cnt ∧ (s.setBankOf x b).boot.beds = s.boot.beds := by cases x <;> exact ⟨rfl, rfl⟩

theorem State.flashed_cnt (s : State) (t k : Nat) (pay : List Byte) (b : FwBank) : (s.flashed t k pay b).boot.cnt = s.boot.cnt := by
  unfold State.flashed
  split
  · exact (State.setBankOf_stored ..).1
  · split
    · rfl
    · split <;> rfl

theorem State.flashed_beds (s : State) (t k : Nat) (pay : List Byte) (b : FwBank) : (s.flashed t k pay b).boot.beds = s.boot.beds := by
  unfold State.flashed
  split
  · exact (State.setBankOf_stored ..).2
  · split
    · rfl
    · split <;> rfl

/-- Out of recovery a management package goes to the bank that does not run. -/
theorem State.flashed_management (h : t = 0) (hrec : s.boot.recovery = false) : s.flashed t k pay b = s.setBankOf (!s.boot.act) b := by
  rw [State.flashed, if_pos h, hrec, if_neg Bool.false_ne_true]

theorem State.flashed_bedrock (h : t = 1) : (s.flashed t k pay b).bedBefore k = b := by
  rw [State.flashed, if_neg (by omega), if_pos h]
  exact (congrArg (Option.getD · (deliveredBed k)) (sget_sput_same noFw s.boot.bedsOld k (some b)) :)

theorem State.flashed_glaze (h : t = 2) : (s.flashed t k pay b).boot.glz = some (pay, b) := by
  rw [State.flashed, if_neg (by omega), if_neg (by omega), if_pos h]

theorem State.flashed_ration (h : t = 3) : (s.flashed t k pay b).boot.rtn = some (pay, b) := by
  rw [State.flashed, if_neg (by omega), if_neg (by omega), if_neg (by omega)]

theorem State.setBankOf_bankOf_same (s : State) (x : Bool) (b : FwBank) : (s.setBankOf x b).bankOf x = b := by cases x <;> rfl

theorem State.setBankOf_bankOf_other (s : State) (x : Bool) (b : FwBank) : (s.setBankOf (!x) b).bankOf x = s.bankOf x := by cases x <;> rfl

end

section
variable {s : State} {r : Fin 16} {w : Wb}

/-- The only waybill taken, an UPDATE that has begun, tears the copy its package goes to. -/
theorem State.tornWrite_of_update (hr : (s.ring r).taken = [w]) (hother : ∀ q, q ≠ r.val → (s.ring q).taken = []) (hopc : w.opc = 0x900)
    (hphase : 1 ≤ w.phase) (hc : s.packageCause (s.loessRead (pPair w.params 0) (w.params.getD 2 0)) (w.params.getD 3 0 % 16) = 0) :
    s.tornWrite = s.flashed (w.params.getD 3 0 % 16) (w.params.getD 3 0 / 256)
      (payloadOf (s.loessRead (pPair w.params 0) (w.params.getD 2 0)))
      { s.packageBank (s.loessRead (pPair w.params 0) (w.params.getD 2 0)) with ok := false } := by
  unfold State.tornWrite
  extract_lets ws
  have hmem (x : Wb) : x ∈ ws ↔ x = w := by
    simp only [ws, List.mem_flatMap, List.mem_range, List.mem_filter]
    constructor
    · rintro ⟨q, -, hx, -⟩
      by_cases hq : q = r.val
      · rw [hq, hr] at hx
        exact List.mem_singleton.mp hx
      · rw [hother q hq] at hx
        exact absurd hx List.not_mem_nil
    · rintro rfl
      exact ⟨r, r.isLt, by rw [hr]; exact List.mem_singleton_self _, by simp [hopc, hphase]⟩
  have hhead : ws.head? = some w := by
    obtain ⟨x, hx⟩ := Option.isSome_iff_exists.mp (List.isSome_head?.mpr (List.ne_nil_of_mem ((hmem w).mpr rfl)))
    rw [hx, (hmem x).mp (List.mem_of_head? hx)]
  rw [hhead]
  dsimp only
  rw [if_neg (not_not.mpr hc)]
  unfold State.flashed
  split
  case h_1 h0 => rw [if_pos h0]
  case h_2 h1 => rw [if_neg (by omega), if_pos h1]
  case h_3 h2 => rw [if_neg (by omega), if_neg (by omega), if_pos h2]
  case h_4 h0 h1 h2 => rw [if_neg h0, if_neg h1, if_neg h2]

end

section
variable (s : State)

/-- What a brown-out keeps is flash and fuses. -/
theorem exec_brownOut (torn : Bool) : exec (.brownOut torn) s = .next ((if torn then s.tornWrite else s).afreshKeeping .por 0) := rfl

theorem exec_powerApplied_of_off (hp : s.phase = 0) (smbus : Bool) (strap : Fin 8) (rstLow : Bool) : exec (.powerApplied smbus strap rstLow) s =
    .next { s.porReset.mate 16 with side := { (s.porReset.mate 16).side with smbus := smbus, strap := strap.val, rstLow := rstLow } } :=
  (if_neg (not_not.mpr hp) : execPowerApplied s smbus strap rstLow = _)

theorem exec_powerApplied_of_on (hp : s.phase ≠ 0) (smbus : Bool) (strap : Fin 8) (rstLow : Bool) :
    exec (.powerApplied smbus strap rstLow) s = .next s :=
  (if_pos hp : execPowerApplied s smbus strap rstLow = _)

/-- After a module reset registers are written: the rest is as its fresh start leaves it. -/
theorem State.modReset_congr {α : Type} (cause : Nat) (p : State → α) (h : ∀ (t : State) rg, p { t with regs := rg } = p t) :
    p (s.modReset cause) = p (s.afreshKeeping .mod 2) := by
  have hset (t : State) (a lo n v : Nat) : p (t.setFld a lo n v) = p t := h t _
  have heff (t : State) : p t.effReset = p t := by
    unfold State.effReset
    split
    · exact hset ..
    · rfl
  unfold State.modReset
  extract_lets next pin s1 s2
  have h2 : p s2 = p s1 := ((hset ..).trans (hset ..)).trans (hset ..)
  rw [heff]
  split
  · exact (hset ..).trans h2
  · exact h2

/-- A tripped die keeps its clusters off (R403). -/
theorem State.clOn_of_tripped {s : State} (h : s.tripped = true) {n : Nat} (hn : n < 2048) : s.clOn n = false := by
  have hk : 8 * (n / 128) + n % 128 / 16 < 128 := by omega
  have hrow (d : Nat) : (decide (d % 8 < s.rowCount) && !s.tripped && !(sget zeroBool s.gated d)) = false := by simp [h]
  unfold State.clOn State.winOn State.domainOn
  simp only [hrow, Bool.and_false]
  split
  · exact Bool.and_false _
  · rw [if_neg (by omega), if_neg (by omega), Bool.and_false]

end

/-! O51 -/

/-- Settles O51: the powers' own effects, the torn copy by its target, and a module reset as a fresh start with a few registers written. -/
theorem powerEventsActAndResetsLeave : Obligations.PowerEventsActAndResetsLeave := by
  unfold Obligations.PowerEventsActAndResetsLeave
  refine ⟨fun s => ⟨fun smbus strap rstLow => ⟨fun hp => ?arrives, fun hp => exec_powerApplied_of_on s hp ..⟩,
    ⟨_, exec_brownOut s false, rfl, rfl, rfl, rfl, rfl, rfl, rfl, rfl, rfl, rfl, rfl, rfl⟩, ?torn, ?under, ?underNot, ?trip, ?tripNot⟩, ?reset⟩
  case arrives =>
    have hmain {α : Type} (p : State → α) (h : ∀ t : State, p t = p t.sansRecords) (hl : ∀ (t : State) sv, p { t with svc := sv } = p t) :
        p (s.porReset.mate 16) = p s.porReset := s.porReset.mate_main_congr p h fun _ => hl _ _
    have hpower : (s.porReset.mate 16).reg 0x200000 = 0 := (s.porReset.mate_main_reg (by decide) (by decide)).trans s.porReset_power
    have hlife : (s.porReset.mate 16).svc.life = sput zeroNat s.svc.life 16 (min (sget zeroNat s.svc.life 16 + 1) (2 ^ 32 - 1)) :=
      s.porReset.mate_main_life
    have hside : (s.porReset.mate 16).side = { s.side with eid := 0, dyn := 0, recv := none } := hmain (·.side) (fun _ => rfl) fun _ _ => rfl
    refine ⟨_, exec_powerApplied_of_off s hp smbus strap rstLow, hmain (·.phase) (fun _ => rfl) fun _ _ => rfl,
      hmain (·.held) (fun _ => rfl) fun _ _ => rfl, congrArg (fun x : Word => x.getLsbD 0) hpower,
      congrArg (fun x : Word => decide (bits x.toNat 4 4 ≠ 0)) hpower, hmain (·.clusters) (fun _ => rfl) fun _ _ => rfl,
      hmain (·.loess) (fun _ => rfl) fun _ _ => rfl, hmain (·.rings) (fun _ => rfl) fun _ _ => rfl, hmain (·.jobs) (fun _ => rfl) fun _ _ => rfl,
      by rw [hside], hmain (·.boot.cnt) (fun _ => rfl) fun _ _ => rfl, hmain (·.boot.revoked) (fun _ => rfl) fun _ _ => rfl,
      hmain (·.boot.fw0) (fun _ => rfl) fun _ _ => rfl, hmain (·.boot.fw1) (fun _ => rfl) fun _ _ => rfl, ?_, fun c hc => ?_⟩
    · exact (congrArg (sget zeroNat · 16) hlife).trans (sget_sput_same ..)
    · exact (congrArg (sget zeroNat · c) hlife).trans (sget_sput_other _ _ _ _ (by omega))
  case torn =>
    intro r w hr hother hopc hphase hrec bs target b hc
    have ht : s.tornWrite = s.flashed target (w.params.getD 3 0 / 256) (payloadOf bs) b := State.tornWrite_of_update hr hother hopc hphase hc
    have hflash {α : Type} (p : State → α) : p s.tornWrite = p (s.flashed target (w.params.getD 3 0 / 256) (payloadOf bs) b) := congrArg p ht
    refine ⟨_, exec_brownOut s true, rfl, rfl, (hflash (·.boot.cnt)).trans (State.flashed_cnt ..), (hflash (·.boot.beds)).trans (State.flashed_beds ..),
      fun h => ⟨(hflash (·.bankOf (!s.boot.act))).trans ?_, (hflash (·.bankOf s.boot.act)).trans ?_⟩, fun h => (hflash (·.bedBefore _)).trans ?_,
      fun h => (hflash (·.boot.glz)).trans ?_, fun h => (hflash (·.boot.rtn)).trans ?_⟩
    · rw [State.flashed_management _ _ _ h hrec, State.setBankOf_bankOf_same]
    · rw [State.flashed_management _ _ _ h hrec, State.setBankOf_bankOf_other]
    · rw [State.flashed_bedrock _ _ _ h]
    · rw [State.flashed_glaze _ _ _ h]
    · rw [State.flashed_ration _ _ _ h]
  case under => exact fun hp hu => (if_neg (by simp [hp, hu]) : execUndervoltage s = _)
  case underNot => exact fun h => (if_pos (by simpa using h) : execUndervoltage s = _)
  case trip =>
    intro hp ht u
    refine ⟨(if_neg (by simp [hp, ht]) : execDieTrip s = _), fun n hn => State.clOn_of_tripped ?_ hn⟩
    exact State.raise_congr _ _ _ _ _ _ (·.tripped) fun _ => rfl
  case tripNot => exact fun h => (if_pos (by simpa using h) : execDieTrip s = _)
  case reset =>
    intro s cause t
    have hkeep {α : Type} (p : State → α) (h : ∀ (u : State) rg, p { u with regs := rg } = p u) : p t = p (s.afreshKeeping .mod 2) :=
      s.modReset_congr cause p h
    exact ⟨hkeep (·.phase) fun _ _ => rfl, hkeep (·.held) fun _ _ => rfl, hkeep (·.trans) fun _ _ => rfl, hkeep (·.kc) fun _ _ => rfl,
      hkeep (·.late) fun _ _ => rfl, hkeep (·.clusters) fun _ _ => rfl, hkeep (·.preds) fun _ _ => rfl, hkeep (·.loess) fun _ _ => rfl,
      hkeep (·.poison) fun _ _ => rfl, hkeep (·.pmes) fun _ _ => rfl, hkeep (·.dies) fun _ _ => rfl, hkeep (·.jobs) fun _ _ => rfl,
      hkeep (·.notices) fun _ _ => rfl, hkeep (·.ports) fun _ _ => rfl, hkeep (·.reds) fun _ _ => rfl, hkeep (·.relays) fun _ _ => rfl,
      hkeep (·.tandem) fun _ _ => rfl, hkeep (·.rings) fun _ _ => rfl, hkeep (·.events) fun _ _ => rfl, hkeep (·.pause) fun _ _ => rfl,
      hkeep (·.checks) fun _ _ => rfl, hkeep (·.boot.cnt) fun _ _ => rfl, hkeep (·.boot.revoked) fun _ _ => rfl,
      hkeep (·.boot.fw0) fun _ _ => rfl, hkeep (·.boot.fw1) fun _ _ => rfl, hkeep (·.boot.meas) fun _ _ => rfl,
      hkeep (·.pending) fun _ _ => rfl, hkeep (·.out) fun _ _ => rfl, hkeep (·.grade) fun _ _ => rfl⟩

end Sys2Proof.Machine
end

section
/-! SUPPORT. The test port's instructions, the sideband contacts and the sideband endpoint's commands (R456, R467, R468, R469). -/

namespace Sys2Proof.Machine

/-! The test port (R469) -/

section
variable {s : State}

/-- While start-up does not wait, an instruction loaded changes the instruction register alone. -/
theorem State.tapLoad_of_not_waiting (h : s.tap.waiting = false) (code : Nat) :
    s.tapLoad code = { s with tap := { s.tap with ir := code } } := by
  refine if_neg ?_
  show ¬ (s.tap.waiting && decide (code ≠ 3)) = true
  rw [h]
  exact Bool.false_ne_true

/-- Loading another instruction than EXTEST lets start-up that waits for it end. -/
theorem State.tapLoad_of_waiting (h : s.tap.waiting = true) {code : Nat} (hc : code ≠ 3) :
    s.tapLoad code = ({ s with tap := { s.tap with ir := code } } : State).endE := by
  refine if_pos ?_
  show (s.tap.waiting && decide (code ≠ 3)) = true
  rw [h, decide_eq_true hc, Bool.and_self]

theorem State.tapDrives_iff : s.tapDrives = true ↔ s.ready = false ∨ s.pstate = 3 := by
  simp [State.tapDrives]

theorem State.tapDrive_of_free (h : s.ready = false ∨ s.pstate = 3) (code : Nat) : s.tapDrive code = s.tapLoad code :=
  if_pos (State.tapDrives_iff.mpr h)

theorem State.tapDrive_of_not_free (h : ¬ (s.ready = false ∨ s.pstate = 3)) (code : Nat) : s.tapDrive code = s.tapLoad 0xFF :=
  if_neg (mt State.tapDrives_iff.mp h)

theorem State.idcode_eq : s.idcode = if s.grade = .xa2048 then 0xA204876B else 0xA179276B := by
  unfold State.idcode
  cases s.grade <;> rfl

section
variable (hp : s.phase ≠ 0)
include hp

theorem exec_bypass_of_other {code : Byte} (hc : code = 0 ∨ 5 < code.toNat) (tdi : List Bool) :
    exec (.bypass code tdi) s = .next ((s.tapLoad 0xFF).tapOut (bypassed tdi)) := by
  have hnot : ¬ (1 ≤ code.toNat ∧ code.toNat ≤ 5) := by
    rcases hc with rfl | hc
    · decide
    · omega
  exact congrArg Host.Outcome.next (if_neg (by simpa [hp] using hnot))

theorem exec_extest_of_free (h : s.ready = false ∨ s.pstate = 3) (cells : List Bool) :
    exec (.extest cells) s = .next ((s.tapLoad 3).tapScan cells) := by
  rw [← State.tapDrive_of_free h]
  exact congrArg Host.Outcome.next ((if_neg hp).trans (if_pos (State.tapDrives_iff.mpr h)))

theorem exec_extest_of_not_free (h : ¬ (s.ready = false ∨ s.pstate = 3)) (cells : List Bool) :
    exec (.extest cells) s = .next ((s.tapLoad 0xFF).tapOut (bypassed cells)) := by
  rw [← State.tapDrive_of_not_free h 3]
  exact congrArg Host.Outcome.next ((if_neg hp).trans (if_neg (mt State.tapDrives_iff.mp h)))

theorem exec_clamp_of_on (tdi : List Bool) : exec (.clamp tdi) s = .next ((s.tapDrive 4).tapOut (bypassed tdi)) :=
  congrArg Host.Outcome.next (if_neg hp)

theorem exec_highz_of_on (tdi : List Bool) : exec (.highz tdi) s = .next ((s.tapDrive 5).tapOut (bypassed tdi)) :=
  congrArg Host.Outcome.next (if_neg hp)

theorem exec_testLogicReset_of_on : exec .testLogicReset s = .next (s.tapLoad 1) := congrArg Host.Outcome.next (if_neg hp)

end

/-! The contacts (R467) -/

section
variable (cell : Nat) (own : Level)

theorem State.contact_of_float (h : s.phase = 0 ∨ s.tap.ir = 5) : s.contact cell own = .float := by
  unfold State.contact
  split
  · rfl
  case isFalse hp => simp only [h.resolve_left hp]

theorem State.contact_of_cells (hp : s.phase ≠ 0) (h : s.tap.ir = 3 ∨ s.tap.ir = 4) :
    s.contact cell own = if s.tap.cells.getD (Config.boundaryCell cell) false then .high else .low := by
  unfold State.contact
  rw [if_neg hp]
  rcases h with h | h <;> simp only [h]

theorem State.contact_of_own (hp : s.phase ≠ 0) (h3 : s.tap.ir ≠ 3) (h4 : s.tap.ir ≠ 4) (h5 : s.tap.ir ≠ 5) : s.contact cell own = own := by
  unfold State.contact
  rw [if_neg hp]
  split
  · contradiction
  · contradiction
  · contradiction
  · rfl

end

/-! The endpoint (R456, R468) -/

theorem State.pldm_of_off (hp : s.phase = 0) (type cmd code : Nat) (data : List Byte) : s.pldm type cmd code data = s := if_pos hp

theorem State.pldm_of_on (hp : s.phase ≠ 0) (type cmd code : Nat) (data : List Byte) : s.pldm type cmd code data =
    s.sideSend (leBytes 1 s.side.eid ++ leBytes 1 type ++ leBytes 1 cmd ++ leBytes 1 code ++ data) := if_neg hp

section
variable {n : Nat}

theorem exec_getSensorReading_of_none (hn : n = 0 ∨ 17 < n) : exec (.getSensorReading n) s = .next (s.pldm 2 0x11 0x80 []) :=
  (if_pos hn : execGetSensorReading n s = _)

theorem exec_getPdr_of_none (hn : n = 0 ∨ 17 < n) : exec (.getPdr n) s = .next (s.pldm 2 0x51 0x82 []) :=
  (if_pos hn : execGetPdr n s = _)

variable (hn : ¬ (n = 0 ∨ 17 < n))
include hn

theorem exec_getSensorReading_of_gone (h : s.sensorGone n = true) : exec (.getSensorReading n) s = .next (s.pldm 2 0x11 0 (leBytes 1 1)) :=
  ((if_neg hn).trans (if_pos h) : execGetSensorReading n s = _)

theorem exec_getSensorReading_of_read (h : s.sensorGone n = false) : exec (.getSensorReading n) s =
    .next (s.pldm 2 0x11 0 (leBytes 1 0 ++ leBytes 4 (s.regN (0x106100 + 4 * n)))) :=
  ((if_neg hn).trans (if_neg (ne_true_of_eq_false h)) : execGetSensorReading n s = _)

theorem exec_getPdr_of_known : exec (.getPdr n) s = .next (s.pldm 2 0x51 0 (Config.pldmPdr n)) := (if_neg hn : execGetPdr n s = _)

end

/-- Without power nothing is answered, whatever the sensor. -/
theorem exec_getSensorReading_of_off (hp : s.phase = 0) (n : Nat) : exec (.getSensorReading n) s = .next s := by
  show execGetSensorReading n s = _
  unfold execGetSensorReading
  split
  · rw [State.pldm_of_off hp]
  · split <;> rw [State.pldm_of_off hp]

theorem exec_getPdr_of_off (hp : s.phase = 0) (n : Nat) : exec (.getPdr n) s = .next s := by
  show execGetPdr n s = _
  unfold execGetPdr
  split <;> rw [State.pldm_of_off hp]

theorem State.assign_of_i3c (hp : s.phase ≠ 0) (hb : s.side.smbus = false) (addr : BitVec 7) :
    s.assign addr = { s with side := { s.side with dyn := addr.toNat } } := if_neg (by simp [hp, hb])

theorem State.assign_of_not (h : s.phase = 0 ∨ s.side.smbus = true) (addr : BitVec 7) : s.assign addr = s := if_pos h

end

/-- Settles O54: the instructions by what they load and shift, the contacts by what drives them, the endpoint by its one response. -/
theorem testPortAndSidebandAnswer : Obligations.TestPortAndSidebandAnswer := by
  unfold Obligations.TestPortAndSidebandAnswer
  refine ⟨⟨?port, ?ends, ?off, ?contacts⟩, ?side⟩
  case port =>
    intro s cells tdi code hp hw load shown scan through codeBits
    have hload (c : Nat) : s.tapLoad c = load c := State.tapLoad_of_not_waiting hw c
    refine ⟨fun hc => ?_, fun h1 h5 => ?_, ?_, ?_, ?_, fun h => ⟨?_, ?_, ?_⟩, fun hr h3 => ?_⟩
    · rw [exec_bypass_of_other hp hc, hload]
      rfl
    · exact congrArg Host.Outcome.next (if_pos (by simp [h1, h5]))
    · refine congrArg Host.Outcome.next ((if_neg hp).trans ?_)
      rw [State.idcode_eq, hload]
      rfl
    · refine congrArg Host.Outcome.next ((if_neg hp).trans ?_)
      rw [hload]
      rfl
    · rw [exec_testLogicReset_of_on hp, hload]
    · rw [exec_extest_of_free hp h, hload]
      rfl
    · rw [exec_clamp_of_on hp, State.tapDrive_of_free h, hload]
      rfl
    · rw [exec_highz_of_on hp, State.tapDrive_of_free h, hload]
      rfl
    · have h : ¬ (s.ready = false ∨ s.pstate = 3) := by simp [hr, h3]
      rw [exec_extest_of_not_free hp h, exec_clamp_of_on hp, exec_highz_of_on hp, State.tapDrive_of_not_free h, State.tapDrive_of_not_free h, hload]
      exact ⟨rfl, rfl, rfl⟩
  case ends =>
    intro s hp hw
    rw [exec_testLogicReset_of_on hp, State.tapLoad_of_waiting hw (by decide)]
  case off =>
    intro s cells tdi code hp
    simp only [List.forall_mem_cons, List.not_mem_nil, false_implies, implies_true, and_true]
    have hoff (t : State) : Host.Outcome.next (if s.phase = 0 then s else t) = (.next s : Host.Outcome State Fault Refusal) :=
      congrArg Host.Outcome.next (if_pos hp)
    exact ⟨congrArg Host.Outcome.next (if_pos (by simp [hp])), hoff _, hoff _, hoff _, hoff _, hoff _, hoff _⟩
  case contacts =>
    intro s level cell
    exact ⟨fun h => ⟨State.contact_of_float _ _ h, State.contact_of_float _ _ h, State.contact_of_float _ _ h⟩,
      fun hp h => ⟨State.contact_of_cells _ _ hp h, State.contact_of_cells _ _ hp h, State.contact_of_cells _ _ hp h⟩,
      fun hp h3 h4 h5 => ⟨State.contact_of_own _ _ hp h3 h4 h5, State.contact_of_own _ _ hp h3 h4 h5, State.contact_of_own _ _ hp h3 h4 h5⟩⟩
  case side =>
    intro s n eid addr
    refine ⟨fun hp => ?_, fun hp => ?_⟩
    · have hpldm (type cmd code : Nat) (data : List Byte) : Host.Outcome.next (s.pldm type cmd code data) =
          (.next s : Host.Outcome State Fault Refusal) := congrArg Host.Outcome.next (State.pldm_of_off hp ..)
      have hassign : Host.Outcome.next (s.assign addr) = (.next s : Host.Outcome State Fault Refusal) :=
        congrArg Host.Outcome.next (State.assign_of_not (.inl hp) _)
      simp only [List.forall_mem_cons, List.not_mem_nil, false_implies, implies_true, and_true]
      exact ⟨exec_getSensorReading_of_off hp n, exec_getPdr_of_off hp n, (if_pos hp : execSetEventReceiver eid s = _), hpldm .., hpldm .., hpldm ..,
        hpldm .., congrArg Host.Outcome.next (if_pos hp), hassign, hassign⟩
    · intro answer
      have hanswer (t : State) (ht : t.phase ≠ 0) (type cmd code : Nat) (data : List Byte) :
          Host.Outcome.next (t.pldm type cmd code data) = (.next (answer t type cmd code data) : Host.Outcome State Fault Refusal) :=
        congrArg Host.Outcome.next (State.pldm_of_on ht ..)
      refine ⟨fun h1 h17 hg => ?_, fun h1 h17 hg => ?_, fun hn => ⟨?_, ?_⟩, fun h1 h17 => ?_, ?_, hanswer s hp .., hanswer s hp .., hanswer s hp ..,
        hanswer s hp .., congrArg Host.Outcome.next (if_neg hp), fun hb => ⟨?_, ?_⟩, fun hb => ⟨?_, ?_⟩, rfl⟩
      · exact (exec_getSensorReading_of_read (by omega) hg).trans (hanswer s hp ..)
      · exact (exec_getSensorReading_of_gone (by omega) hg).trans (hanswer s hp ..)
      · exact (exec_getSensorReading_of_none hn).trans (hanswer s hp ..)
      · exact (exec_getPdr_of_none hn).trans (hanswer s hp ..)
      · exact (exec_getPdr_of_known (by omega)).trans (hanswer s hp ..)
      · exact (if_neg hp : execSetEventReceiver eid s = _).trans (hanswer { s with side := { s.side with recv := some eid.toNat } } hp ..)
      · exact congrArg Host.Outcome.next (State.assign_of_i3c hp hb addr)
      · exact congrArg Host.Outcome.next (State.assign_of_i3c hp hb addr)
      · exact congrArg Host.Outcome.next (State.assign_of_not (.inr hb) addr)
      · exact congrArg Host.Outcome.next (State.assign_of_not (.inr hb) addr)

end Sys2Proof.Machine
end

section
/-! SUPPORT. What reading a range in the management's name leaves, and what UPDATE, FWSWITCH and ATTEST do (R430, R435, R436, R440 to R442). -/

namespace Sys2Proof.Machine

/-! Recovery is not touched by a read (R217 to R223, R438) -/

theorem State.recovery_eq_of_sansRecords {s t : State} (h : t.sansRecords = s.sansRecords) : t.boot.recovery = s.boot.recovery :=
  (congrArg (·.boot.recovery) h :)

theorem State.writtenBack_recovery (s : State) (k : Nat) (newer : Bool) : (s.writtenBack k newer).boot.recovery = s.boot.recovery := by
  unfold State.writtenBack
  split <;> rfl

theorem State.eccCase_recovery (s : State) (cw src who : Nat) (newer : Bool) (c : EccCase) :
    (s.eccCase cw src who newer c).boot.recovery = s.boot.recovery := by
  by_cases h : sget zeroBool s.poison cw = true
  · rw [State.eccCase_of_poisoned _ _ _ _ _ _ h]
  · cases c with
    | clean => rw [State.eccCase_clean]
    | corrected =>
      rw [State.eccCase_corrected _ _ _ (Bool.eq_false_iff.mpr h), State.writtenBack_recovery]
      exact State.recovery_eq_of_sansRecords (State.count_sansRecords ..)
    | detected =>
      rw [State.eccCase_detected _ _ _ (Bool.eq_false_iff.mpr h)]
      exact (congrArg (·.boot.recovery) (State.uncorrectable_sansRecords s cw src who) :)
    | miscorrected =>
      have heq : s.eccCase cw src who newer .miscorrected =
          ((s.freeCodeword cw).count (sa (s.place (cw * 64)).1 0x14) 1).writtenBack (s.place (cw * 64)).1 newer := if_neg h
      rw [heq, State.writtenBack_recovery]
      exact (State.recovery_eq_of_sansRecords (State.count_sansRecords ..)).trans rfl
    | silent =>
      have heq : s.eccCase cw src who newer .silent = s.freeCodeword cw := if_neg h
      rw [heq]
      rfl

theorem State.eccReads_recovery (s : State) (rs : List (Nat × Nat)) (who : Who) (ecc : List (Nat × EccCase)) :
    (s.eccReads rs who ecc).boot.recovery = s.boot.recovery := by
  refine List.foldlRecOn (motive := fun t : State => t.boot.recovery = s.boot.recovery) ecc _ rfl fun t ht e _ => ?_
  split
  · exact (t.eccCase_recovery ..).trans ht
  · exact ht

theorem State.activate_recovery (s : State) (k l : Nat) : (s.activate k l).boot.recovery = s.boot.recovery := by
  obtain ⟨d, -, h⟩ := s.activate_sansRecords k l
  exact (congrArg (·.boot.recovery) h :)

theorem State.mgmtTraffic_recovery (s : State) (fg : Bool) (rs : List (Nat × Nat)) : (s.mgmtTraffic fg rs).boot.recovery = s.boot.recovery := by
  have htouch : (s.touch rs).boot.recovery = s.boot.recovery :=
    List.foldlRecOn (motive := fun t : State => t.boot.recovery = s.boot.recovery) _ _ rfl fun t ht _ _ => (t.activate_recovery ..).trans ht
  refine Eq.trans ?_ htouch
  rw [State.mgmtTraffic, State.claim_frame]

/-! UPDATE (R436) -/

/-- The module after a management agent has read a range. -/
def State.mgmtRead (s : State) (a n : Nat) (ecc : List (Nat × EccCase)) : State :=
  (s.eccReads [(a, n)] mgmtWho ecc).mgmtTraffic false [(a, n)]

theorem State.mgmtRead_recovery (s : State) (a n : Nat) (ecc : List (Nat × EccCase)) : (s.mgmtRead a n ecc).boot.recovery = s.boot.recovery :=
  (State.mgmtTraffic_recovery ..).trans (State.eccReads_recovery ..)

section
variable (s : State) (r : Nat) (w : Wb) (t : Nat) (bs : List Byte)

/-- A package in flash is answered with its version and its target's counter. -/
def State.installed (s : State) (r : Nat) (w : Wb) (t : Nat) (b : FwBank) : State := (s.finish r w 0 [b.version.toNat, s.arb t]).svcRetry

variable {s t}

theorem State.installPackage_management (ht : t = 0) (hr : s.boot.recovery = false) :
    s.installPackage r w t bs = (s.setBankOf (!s.boot.act) (s.packageBank bs)).installed r w t (s.packageBank bs) := by
  subst ht
  unfold State.installPackage
  dsimp only
  exact if_neg (ne_true_of_eq_false hr)

/-- In recovery the bank that did not verify is written, and is selected. -/
theorem State.installPackage_recovery (ht : t = 0) (hr : s.boot.recovery = true) :
    s.installPackage r w t bs = State.installed { s.setBankOf (!s.boot.sel) (s.packageBank bs) with
      boot := { (s.setBankOf (!s.boot.sel) (s.packageBank bs)).boot with sel := !s.boot.sel, rise := true } } r w t (s.packageBank bs) := by
  subst ht
  unfold State.installPackage
  dsimp only
  exact if_pos hr

theorem State.installPackage_glaze (ht : t = 2) : s.installPackage r w t bs =
    (({ s with boot := { s.boot with glz := some (payloadOf bs, s.packageBank bs) } } : State).fuse 2 (s.packageBank bs)).installed r w t
      (s.packageBank bs) := by
  subst ht
  rfl

theorem State.installPackage_rations (ht : t = 3) : s.installPackage r w t bs =
    (({ s with boot := { s.boot with rtn := some (payloadOf bs, s.packageBank bs) } } : State).fuse 3 (s.packageBank bs)).installed r w t
      (s.packageBank bs) := by
  subst ht
  rfl

end

/-- What an UPDATE that starts and reaches its package does, from the module with its rows switched on. -/
def State.updated (s : State) (r : Nat) (w : Wb) (ecc : List (Nat × EccCase)) : State :=
  let a := pPair w.params 0
  let n := w.params.getD 2 0
  let t := w.params.getD 3 0 % 16
  let k := w.params.getD 3 0 / 256
  let u := s.mgmtRead a n ecc
  if t = 1 ∧ u.stackState k ≠ 4 then s.finish r w 8 [k, u.stackState k]
  else if u.firstPoison a n ≠ none then u.finish r w 0x0C [0, 0]
  else if u.packageCause (u.loessRead a n) t ≠ 0 then u.authFail.finish r w 0x0D [u.packageCause (u.loessRead a n) t]
  else u.installPackage r w t (u.loessRead a n)

section
variable {s : State} {r : Fin 16} {i : Word} {w : Wb} (ecc : List (Nat × EccCase)) (hs : s.Starts 0x900 r i.toNat w)
include hs

theorem exec_update_of_away (h : s.rangeUp (pPair w.params 0) (w.params.getD 2 0) = false) : exec (.update r i ecc) s = .next s :=
  congrArg Host.Outcome.next (startWb_of_starts_of_not_up (up := fun w => s.rangeUp (pPair w.params 0) (w.params.getD 2 0)) hs h _)

theorem exec_update_of_reached (h : s.rangeUp (pPair w.params 0) (w.params.getD 2 0) = true) :
    exec (.update r i ecc) s = .next ((s.switchOn w.clus).updated r w ecc) := by
  refine congrArg Host.Outcome.next ((startWb_of_starts (up := fun w => s.rangeUp (pPair w.params 0) (w.params.getD 2 0)) hs h _).trans ?_)
  unfold State.updated
  extract_lets a n u t k bs c
  refine if_congr Iff.rfl rfl ?_
  show _ = if u.firstPoison a n ≠ none then u.finish r w 0x0C [0, 0] else if c ≠ 0 then u.authFail.finish r w 0x0D [c]
    else u.installPackage r w t bs
  cases hp : u.firstPoison a n with
  | none => exact (if_neg (not_not.mpr rfl)).symm
  | some d => exact (if_pos (Option.some_ne_none d)).symm

end

/-! FWSWITCH (R430, R439) -/

section
variable {s : State} {r : Fin 16} {i : Word} {w : Wb}

/-- What the first act of a FWSWITCH does: the bank that does not run is verified and started. -/
theorem exec_fwswitch_of_start (hsw : s.boot.switching = none) (hs : s.Starts 0x901 r i.toNat w) : exec (.fwswitch r i) s =
    .next (((s.switchOn w.clus).anyRuns).elim
      (if s.bankCause (s.bankOf !s.boot.act) ≠ 0 then (s.switchOn w.clus).authFail.finish r w 0x0A [1, bankNo s.boot.act]
        else { (s.switchOn w.clus).setWb r { w with phase := 2 } with
          boot := { ((s.switchOn w.clus).setWb r { w with phase := 2 }).boot with switching := some (r.val, w.ix, !s.boot.act) } })
      (fun res => (s.switchOn w.clus).finish r w 8 res)) := by
  have hbank (b : Bool) : (s.switchOn w.clus).bankOf b = s.bankOf b := by simp [State.bankOf]
  have hcause (b : FwBank) : (s.switchOn w.clus).bankCause b = s.bankCause b := by
    unfold State.bankCause State.storedCause State.arb
    rw [State.switchOn_boot]
  show execFwswitch r i s = _
  unfold execFwswitch
  rw [hsw]
  refine congrArg Host.Outcome.next ((startWb_of_starts (up := always) hs rfl _).trans ?_)
  cases (s.switchOn w.clus).anyRuns with
  | some res => rfl
  | none =>
    dsimp only
    rw [hbank, hcause, State.switchOn_boot]
    rfl

/-- The new bank's receipt ends the switch. -/
theorem exec_fwswitch_of_switched {b : Bool} (hsw : s.boot.switching = some (r.val, i.toNat, b))
    (hw : ((({ s with boot := { s.boot with switching := none, sel := b } } : State).runBank b).fuse 0 (s.bankOf b)).heldIrqs.wb r i.toNat = some w) :
    exec (.fwswitch r i) s = .next ((((({ s with boot := { s.boot with switching := none, sel := b } } : State).runBank b).fuse 0
      (s.bankOf b)).heldIrqs.finish r w 0 [(s.bankOf b).version.toNat, bankNo b]).svcRetry) := by
  show execFwswitch r i s = _
  unfold execFwswitch
  rw [hsw]
  refine (if_neg (by simp)).trans ?_
  dsimp only
  rw [hw]

theorem exec_fwswitchFallback_of_switched {q ix : Nat} {b : Bool} (hsw : s.boot.switching = some (q, ix, b))
    (hw : (({ s with boot := { s.boot with switching := none } } : State).runBank s.boot.act).heldIrqs.wb q ix = some w) :
    exec .fwswitchFallback s = .next (((({ s with boot := { s.boot with switching := none } } : State).runBank s.boot.act).heldIrqs.finish q w 0x0A
      [1, bankNo s.boot.act]).svcRetry) := by
  show execFwswitchFallback s = _
  unfold execFwswitchFallback
  rw [hsw]
  dsimp only
  rw [hw]

theorem exec_fwswitchFallback_of_none (hsw : s.boot.switching = none) : exec .fwswitchFallback s = .next s := by
  show execFwswitchFallback s = _
  unfold execFwswitchFallback
  rw [hsw]

end

/-- Settles O45: each waybill by what it does once it starts, UPDATE by the checks its package meets in turn. -/
theorem securityWaybillsAct : Obligations.SecurityWaybillsAct := by
  unfold Obligations.SecurityWaybillsAct
  intro s r i w ecc s1 a
  refine ⟨fun hs => ?update, fun hsw hs => ?switch, fun b hsw => ?switched, fun b hsw => ?fallback, exec_fwswitchFallback_of_none, fun hs => ?attest⟩
  case update =>
    intro n t k u bs b done
    have hrec : u.boot.recovery = s.boot.recovery := (s1.mgmtRead_recovery a n ecc).trans (congrArg (·.recovery) (State.switchOn_boot ..))
    refine ⟨exec_update_of_away ecc hs, fun hup => ?_⟩
    rw [exec_update_of_reached ecc hs hup]
    refine ⟨fun ht hk => congrArg Host.Outcome.next (if_pos ⟨ht, hk⟩), fun hheld => ?_⟩
    have hnot : ¬ (t = 1 ∧ u.stackState k ≠ 4) := fun h => h.2 (hheld h.1)
    refine ⟨fun hp => congrArg Host.Outcome.next ((if_neg hnot).trans (if_pos hp)), fun hp => ?_⟩
    have hchecked : s1.updated r w ecc =
        if u.packageCause bs t ≠ 0 then u.authFail.finish r w 0x0D [u.packageCause bs t] else u.installPackage r w t bs :=
      (if_neg hnot).trans (if_neg (not_not.mpr hp))
    rw [hchecked]
    clear_value u
    refine ⟨fun hc => congrArg Host.Outcome.next (if_pos hc), fun hc => ?_⟩
    rw [if_neg (not_not.mpr hc)]
    refine ⟨fun ht hr => ?_, fun ht hr => ?_, fun ht => ?_, fun ht => ?_, fun ht => ?_⟩
    · rw [State.installPackage_management r w bs ht (hrec.trans hr)]
      rfl
    · rw [State.installPackage_recovery r w bs ht (hrec.trans hr)]
      rfl
    · rw [ht]
      rfl
    · rw [State.installPackage_glaze r w bs ht]
      rfl
    · rw [State.installPackage_rations r w bs ht]
      rfl
  case switch =>
    intro other
    rw [exec_fwswitch_of_start hsw hs]
    refine ⟨fun res hres => ?_, fun hrun hc => ?_, fun hrun hc => ?_⟩
    · rw [hres]
      rfl
    · rw [hrun]
      exact congrArg Host.Outcome.next (if_pos hc)
    · rw [hrun]
      exact congrArg Host.Outcome.next (if_neg (not_not.mpr hc))
  case switched =>
    intro t hw
    exact exec_fwswitch_of_switched hsw hw
  case fallback =>
    intro t hw
    exact exec_fwswitchFallback_of_switched hsw hw
  case attest => 
    intro v
    exact ⟨fun h => congrArg Host.Outcome.next (startWb_of_starts_of_not_up (up := fun w => s.rangeUp (pPair w.params 0) 11376) hs h _),
      fun h => congrArg Host.Outcome.next (startWb_of_starts (up := fun w => s.rangeUp (pPair w.params 0) 11376) hs h _)⟩

end Sys2Proof.Machine
end

section
/-! SUPPORT. The service sequence: how it is asked for, cancelled and forced, and how its phases end (R417 to R423). -/

namespace Sys2Proof.Machine

/-! A fold in which at most one element acts -/

theorem foldl_eq_of_fixed {α β : Type} {f : β → α → β} {b : β} {l : List α} (h : ∀ x ∈ l, f b x = b) : l.foldl f b = b := by
  induction l with
  | nil => rfl
  | cons x l ih =>
    rw [List.foldl_cons, h x List.mem_cons_self]
    exact ih fun y hy => h y (List.mem_cons_of_mem x hy)

/-- In a list without repetitions, where the other elements do nothing before `a` and after it. -/
theorem foldl_eq_of_single {α β : Type} {f : β → α → β} {b : β} {l : List α} {a : α} (hl : l.Nodup) (ha : a ∈ l)
    (hbefore : ∀ x ∈ l, x ≠ a → f b x = b) (hafter : ∀ x ∈ l, x ≠ a → f (f b a) x = f b a) : l.foldl f b = f b a := by
  obtain ⟨l1, l2, rfl⟩ := List.append_of_mem ha
  obtain ⟨-, h2, hdis⟩ := List.nodup_append.mp hl
  have hmem1 {x : α} (hx : x ∈ l1) : x ≠ a := fun h => hdis x hx a List.mem_cons_self h
  have hmem2 {x : α} (hx : x ∈ l2) : x ≠ a := fun h => (List.nodup_cons.mp h2).1 (h ▸ hx)
  rw [List.foldl_append, foldl_eq_of_fixed fun x hx => hbefore x (List.mem_append_left _ hx) (hmem1 hx), List.foldl_cons]
  exact foldl_eq_of_fixed fun x hx => hafter x (List.mem_append_right _ (List.mem_cons_of_mem a hx)) (hmem2 hx)

/-! Asking for service (R417, R421 to R423) -/

section
variable {s : State} (hs : s.InTurn)
include hs

theorem exec_svcReq_of_inTurn : exec .svcReq s = .next s.arrived.svcRequest := congrArg Host.Outcome.next (State.hostAccess_of_slotted hs rfl)

theorem exec_svcForce_of_inTurn : exec .svcForce s = .next s.arrived.svcForce := congrArg Host.Outcome.next (State.hostAccess_of_slotted hs rfl)

theorem exec_svcCancel_of_inTurn : exec .svcCancel s = .next s.arrived.svcCancel :=
  congrArg Host.Outcome.next (State.hostAccess_of_slotted hs rfl)

theorem exec_svcRelease_of_inTurn : exec .svcRelease s = .next (if s.svcPhase = 3 then s.arrived.startDrain else s.arrived) := by
  have hphase : s.arrived.svcPhase = s.svcPhase := congrArg (fun x : Word => bits x.toNat 0 3) (s.arrived_reg 0x104004)
  rw [← hphase]
  exact congrArg Host.Outcome.next (State.hostAccess_of_slotted hs rfl)

end

/-- The module neither has started up nor has been READY. -/
def State.startingUp (s : State) : Prop := s.phase ≠ 6 ∧ s.ready = false

theorem State.startingUp_iff (s : State) : (decide (s.phase ≠ 6) && !s.ready) = true ↔ s.startingUp := by
  rw [State.startingUp, Bool.and_eq_true, decide_eq_true_iff, Bool.not_eq_true']

section
variable {s : State}

theorem State.svcRequest_of_running (h : s.svcPhase ≠ 0) : s.svcRequest = s := by
  unfold State.svcRequest
  rw [if_neg (by simp [h]), if_pos (by simp [h])]

theorem State.svcRequest_of_reset (h : s.svcPhase = 0) (hr : s.modResetRuns = true) : s.svcRequest = { s with svc := { s.svc with asked := true } } :=
  if_pos (by simp [h, hr])

section
variable (hr : s.modResetRuns = false)
include hr

theorem State.svcRequest_of_ignored (hi : s.startingUp ∨ s.svc.forcedDue = true) : s.svcRequest = s := by
  unfold State.svcRequest
  rw [if_neg (by simp [hr]), if_pos]
  rcases hi with hi | hi
  · rw [(s.startingUp_iff).mpr hi]
    rfl
  · rw [hi, Bool.or_true]

variable (h : s.svcPhase = 0) (hoff : ¬ s.startingUp) (hf : s.svc.forcedDue = false)
include h hoff hf

theorem State.svcRequest_of_heard : s.svcRequest =
    if s.busyBig || s.trans.isSome then { s with svc := { s.svc with asked := true } }
    else
      let s0 := (((s.svcBit 3 0).svcBit 4 0).svcBit 5 0).svcBit 6 0
      let s1 : State := { s0 with svc := { s0.svc with asked := false, saving := false } }
      if s.pstate = 2 ∨ s.pstate = 3 then (if s.svcSave then s1.svcBit 4 1 else s1).startDrain else (s1.setSvcPhase 1).svcEvent 39 := by
  unfold State.svcRequest
  rw [if_neg (by simp [hr]), if_neg]
  rw [Bool.eq_false_iff.mpr (mt (s.startingUp_iff).mp hoff), hf, h]
  decide

end

theorem State.svcCancel_of_forced (h : s.svc.forcedDue = true) : s.svcCancel = s := if_pos h

section
variable (hf : s.svc.forcedDue = false)
include hf

/-- What a cancel leaves of a pause: one of its own that has not begun goes. -/
def State.keptPause (s : State) : Option Pause := s.pause.filter (fun p => !(s.svc.saving && decide (p.st = 1) && p.wb.isNone))

theorem State.svcCancel_of_early (h1 : 1 ≤ s.svcPhase) (h3 : s.svcPhase ≤ 3) : s.svcCancel =
    { (s.svcEvent 40).setSvcPhase 0 with
      pause := s.keptPause, svc := { ((s.svcEvent 40).setSvcPhase 0).svc with saving := false } } := by
  have hpause : ((s.svcEvent 40).setSvcPhase 0).pause = s.pause := State.raise_congr _ _ _ _ _ _ (·.pause) fun _ => rfl
  unfold State.svcCancel
  dsimp only
  rw [if_neg (ne_true_of_eq_false hf), if_pos ⟨h1, h3⟩, hpause]
  refine congrArg (fun p => ({ (s.svcEvent 40).setSvcPhase 0 with
    pause := p, svc := { ((s.svcEvent 40).setSvcPhase 0).svc with saving := false } } : State)) ?_
  unfold State.keptPause
  cases s.pause with
  | none => rfl
  | some p =>
    cases h : s.svc.saving && decide (p.st = 1) && p.wb.isNone with
    | true => simp [Option.filter, h]
    | false => simp [Option.filter, h]

theorem State.svcCancel_of_safe (h : s.svcPhase = 5) : s.svcCancel = ((s.svcEvent 40).setSvcPhase 0).leaveStandby := by
  unfold State.svcCancel
  dsimp only
  rw [if_neg (ne_true_of_eq_false hf), if_neg (by omega), if_pos h]

theorem State.svcCancel_of_none (h : s.svcPhase = 0 ∨ s.svcPhase = 4) : s.svcCancel = s := by
  unfold State.svcCancel
  dsimp only
  rw [if_neg (ne_true_of_eq_false hf), if_neg (by omega), if_neg (by omega)]

end

theorem State.svcForce_ignored_iff :
    (decide (s.phase ≠ 6) && !s.ready || decide (4 ≤ s.svcPhase) || s.svc.forcedDue) = true ↔
      s.startingUp ∨ 4 ≤ s.svcPhase ∨ s.svc.forcedDue = true := by
  rw [Bool.or_eq_true, Bool.or_eq_true, s.startingUp_iff, decide_eq_true_iff, or_assoc]

theorem State.svcForce_of_ignored (h : s.startingUp ∨ 4 ≤ s.svcPhase ∨ s.svc.forcedDue = true) : s.svcForce = s := by
  unfold State.svcForce
  rw [if_pos (State.svcForce_ignored_iff.mpr h)]

theorem State.svcForce_of_heard (h : ¬ (s.startingUp ∨ 4 ≤ s.svcPhase ∨ s.svc.forcedDue = true)) : s.svcForce =
    if s.pstate = 2 ∨ s.pstate = 3 then ((s.svcBit 6 1).svcEvent 41).startDrain
    else { (s.svcBit 6 1).svcEvent 41 with svc := { ((s.svcBit 6 1).svcEvent 41).svc with forcedDue := true, asked := false } } := by
  unfold State.svcForce
  rw [if_neg (mt State.svcForce_ignored_iff.mp h)]

end

/-! Phase 4 begins (R419) -/

theorem pa_ne_service (q o : Nat) : pa q o ≠ 0x104004 := by
  simp only [pa, Win.base]
  omega

theorem State.setSvcPhase_lnk (s : State) (x q : Nat) : (s.setSvcPhase x).lnk q = s.lnk q :=
  congrArg (fun w : Word => bits w.toNat 0 3) (s.setFld_reg_other 0 3 x (pa_ne_service q 0))

theorem State.emitFrame_regs (s : State) (p : Nat) (f : SentFrame) : (s.emitFrame p f).regs = s.regs ∧ (s.emitFrame p f).grade = s.grade :=
  ⟨rfl, rfl⟩

theorem State.fillSlot_regs (s : State) (p : Nat) (m : TxSlot) : (s.fillSlot p m).regs = s.regs ∧ (s.fillSlot p m).grade = s.grade := by
  unfold State.fillSlot
  dsimp only
  split
  · exact ⟨rfl, rfl⟩
  · exact State.emitFrame_regs ..

/-- A port that leaves changes no register. -/
theorem State.leavePort_lnk (s : State) (p q : Nat) : (s.leavePort p).lnk q = s.lnk q := by
  have hreg (t : State) (h : t.regs = s.regs ∧ t.grade = s.grade) : t.lnk q = s.lnk q := by
    simp only [State.lnk, State.fld, State.regN, State.reg, h.1, h.2]
  refine hreg _ ?_
  unfold State.leavePort
  dsimp only
  split
  · exact s.fillSlot_regs ..
  · exact ⟨rfl, rfl⟩

/-- One port in the fold that begins phase 4. -/
def State.drainPort (s : State) (p : Nat) : State := if s.lnk p = 2 then s.leavePort p else s

theorem State.startDrain_eq (s : State) : s.startDrain = (List.range 16).foldl State.drainPort (s.setSvcPhase 4) := rfl

theorem State.startDrain_of_no_active {s : State} (h : ∀ p < 16, s.lnk p ≠ 2) : s.startDrain = s.setSvcPhase 4 := by
  rw [State.startDrain_eq]
  refine foldl_eq_of_fixed fun p hp => if_neg ?_
  rw [State.setSvcPhase_lnk]
  exact h p (List.mem_range.mp hp)

theorem State.startDrain_of_one_active {s : State} {p : Nat} (hp : p < 16) (h : s.lnk p = 2) (hother : ∀ q < 16, q ≠ p → s.lnk q ≠ 2) :
    s.startDrain = (s.setSvcPhase 4).leavePort p := by
  have hp2 : (s.setSvcPhase 4).drainPort p = (s.setSvcPhase 4).leavePort p := if_pos ((s.setSvcPhase_lnk 4 p).trans h)
  rw [State.startDrain_eq, ← hp2]
  refine foldl_eq_of_single List.nodup_range (List.mem_range.mpr hp) (fun q hq hne => if_neg ?_) fun q hq hne => if_neg ?_
  · rw [State.setSvcPhase_lnk]
    exact hother q (List.mem_range.mp hq) hne
  · rw [hp2, State.leavePort_lnk, State.setSvcPhase_lnk]
    exact hother q (List.mem_range.mp hq) hne

/-! The ends of the phases (R417 to R419, R422) -/

section
variable {s : State}

theorem exec_svcWaitExpiry_of_release (h : s.svcPhase = 3) : exec .svcWaitExpiry s = .next (s.svcBit 5 1).startDrain :=
  (if_pos h : execSvcWaitExpiry s = _)

/-- A mustered module in phase 2 waits for a pause that has not settled. -/
def State.awaitsPause (s : State) : Bool :=
  s.svcPhase = 2 && s.svc.saving && s.mustered && s.pause.all (fun p => decide (p.st ≠ 3))

theorem exec_svcWaitExpiry_of_not_release (h : s.svcPhase ≠ 3) : exec .svcWaitExpiry s =
    if s.awaitsPause then .next (({ s with svc := { s.svc with saving := false } } : State).svcBit 4 1).stopRunning else .next s := by
  show execSvcWaitExpiry s = _
  unfold execSvcWaitExpiry State.awaitsPause
  rw [if_neg h]
  cases s.pause <;> rfl

theorem State.awaitsPause_iff : s.awaitsPause = true ↔
    s.svcPhase = 2 ∧ s.svc.saving = true ∧ s.mustered = true ∧ ∀ p, s.pause = some p → p.st ≠ 3 := by
  simp only [State.awaitsPause, Bool.and_eq_true, decide_eq_true_iff, and_assoc]
  cases s.pause <;> simp

/-- A cluster runs. -/
def State.runs (s : State) : Bool := s.presentList.any (fun n => decide ((s.cl n).st = 2))

theorem exec_svcStopped_of_other (h : s.svcPhase ≠ 2 ∨ s.svc.forcedDue = true) : exec .svcStopped s = .next s :=
  (if_pos (by simpa using h) : execSvcStopped s = _)

section
variable (h2 : s.svcPhase = 2) (hf : s.svc.forcedDue = false)
include h2 hf

/-- With nothing to save phase 2 ends with the last running cluster. -/
theorem exec_svcStopped_of_plain (hs : s.svc.saving = false) : exec .svcStopped s = if s.runs then .next s else .next s.startDrain := by
  show execSvcStopped s = _
  unfold execSvcStopped
  rw [if_neg (by simp [h2, hf]), if_neg (ne_true_of_eq_false hs)]
  rfl

variable (hs : s.svc.saving = true)
include hs

theorem exec_svcStopped_of_no_pause (hp : s.pause = none) : exec .svcStopped s = .next s := by
  show execSvcStopped s = _
  unfold execSvcStopped
  rw [if_neg (by simp [h2, hf]), if_pos hs, hp]

/-- The module with the paused set saved to the service's range. -/
def State.savedTo (s : State) (p : Pause) (a : Nat) : State :=
  ((s.noteSaved p).mgmtTraffic true [(a, (s.saveImage p).1.length)]).agentWrite a (s.saveImage p).1 mgmtWho

theorem exec_svcStopped_of_pause {p : Pause} (hp : s.pause = some p) : exec .svcStopped s =
    if p.st ≠ 3 then .next s
    else if s.runs then .next s.stopRunning
    else if !s.rangeUp (s.reg64 0x104008) (4096 + recSize * p.clus.length) then .next s
    else .next ((({ (s.savedTo p (s.reg64 0x104008)).draw with
      svc := { (s.savedTo p (s.reg64 0x104008)).svc with saving := false } } : State).svcBit 3 1).setSvcPhase 3) := by
  show execSvcStopped s = _
  unfold execSvcStopped
  rw [if_neg (by simp [h2, hf]), if_pos hs, hp]
  unfold State.runs State.savedTo
  dsimp only

end

/-- What phase 4 waits for: every receipt and event record acknowledged. -/
def State.told (s : State) : Bool :=
  !(s.teth.txq.any (fun m => m.msg.isMem)) && !(s.teth.sent.any (fun m => m.2.msg.isMem)) && !(s.teth.replay.any (fun m => m.2.msg.isMem)) &&
    s.queued.isEmpty

/-- A waybill acts that has no receipt yet. -/
def State.wbActs (s : State) : Bool := (List.range 16).any (fun r => (s.ring r).taken.any (fun w => decide (1 ≤ w.phase)))

theorem exec_svcDrained : exec .svcDrained s = if s.portsServed && s.told && !s.wbActs then
    .next ((({ s.leaveDomain with phase := 6 } : State).enterStandby.setSvcPhase 5).svcEvent 42) else .next s := rfl

theorem State.portsServed_iff : s.portsServed = true ↔ s.svcPhase = 4 ∧ ∀ p < 16, s.lnk p = 0 ∨ s.lnk p = 3 ∨ s.lnk p = 4 := by
  simp [State.portsServed, or_assoc]

theorem State.told_iff : s.told = true ↔ (∀ m ∈ s.teth.txq, m.msg.isMem = false) ∧ (∀ m ∈ s.teth.sent, m.2.msg.isMem = false) ∧
    (∀ m ∈ s.teth.replay, m.2.msg.isMem = false) ∧ s.queued = [] := by
  simp only [State.told, Bool.and_eq_true, Bool.not_eq_true', List.any_eq_false, Bool.not_eq_true, List.isEmpty_iff, and_assoc]

theorem State.wbActs_iff : s.wbActs = false ↔ ∀ r < 16, ∀ w ∈ (s.ring r).taken, w.phase = 0 := by
  simp only [State.wbActs, List.any_eq_false, List.mem_range, Bool.not_eq_true, decide_eq_false_iff_not]
  simp

theorem State.forcedReset_of_due (h : s.svc.forcedDue = true) : s.forcedReset =
    ((List.range 16).foldl State.resetEngine1 ({ s with svc := { s.svc with forcedDue := false, saving := false } } : State)).startDrain := by
  unfold State.forcedReset
  rw [if_neg (by simp [h])]

theorem State.forcedReset_of_not_due (h : s.svc.forcedDue = false) : s.forcedReset = s := if_pos (by simp [h])

end

/-- Settles O52: a request, a cancel and a force by what they meet, and each phase by what it waits for. -/
theorem serviceRunsItsPhases : Obligations.ServiceRunsItsPhases := by
  unfold Obligations.ServiceRunsItsPhases
  refine ⟨⟨?inTurn, ?asked⟩, ?ends⟩
  case inTurn =>
    intro s hs f
    refine ⟨exec_svcReq_of_inTurn hs, exec_svcForce_of_inTurn hs, exec_svcCancel_of_inTurn hs, fun h => ?_, fun h => ?_⟩
    · rw [exec_svcRelease_of_inTurn hs, if_pos h]
    · rw [exec_svcRelease_of_inTurn hs, if_neg h]
  case asked =>
    intro s off asked cleared taken forced ended
    refine ⟨State.svcRequest_of_running, State.svcRequest_of_reset, fun h0 hr => ⟨State.svcRequest_of_ignored hr, fun hoff hf => ?request⟩,
      State.svcCancel_of_forced, fun hf => ⟨fun h1 h3 => ?cancel, State.svcCancel_of_safe hf, State.svcCancel_of_none hf⟩,
      State.svcForce_of_ignored, fun hoff h4 hf => ?force, State.startDrain_of_no_active,
      fun p hp h2 hother => ⟨State.startDrain_of_one_active hp h2 hother, ?_⟩⟩
    case request =>
      have heard := State.svcRequest_of_heard hr h0 hoff hf
      refine ⟨fun hbusy => heard.trans (if_pos (by simpa using hbusy)), fun hbusy htrans => ?_⟩
      have hfree : ¬ (s.busyBig || s.trans.isSome) = true := by simp [hbusy, htrans]
      exact ⟨fun h2 h3 => (heard.trans (if_neg hfree)).trans (if_neg (by simp [h2, h3])), fun h => (heard.trans (if_neg hfree)).trans (if_pos h)⟩
    case cancel =>
      have hcancel := State.svcCancel_of_early hf h1 h3
      refine ⟨fun hp => ?_, fun p hp => ⟨fun hown => ?_, fun hown => ?_⟩⟩
      · rw [hcancel, State.keptPause, hp]
        rfl
      · obtain ⟨hsave, hst, hwb⟩ := hown
        have hkept : s.keptPause = none := by simp [State.keptPause, hp, Option.filter, hsave, hst, hwb]
        rw [hcancel, hkept]
      · have hnot : (s.svc.saving && decide (p.st = 1) && p.wb.isNone) = false := by
          refine Bool.eq_false_iff.mpr fun h => hown ?_
          simpa [and_assoc] using h
        have hkept : s.keptPause = some p := by simp only [State.keptPause, hp, Option.filter, hnot, Bool.not_false, if_true]
        rw [hcancel, hkept]
    case force =>
      have hnot : ¬ (s.startingUp ∨ 4 ≤ s.svcPhase ∨ s.svc.forcedDue = true) := by
        rintro (h | h | h)
        · exact hoff h
        · omega
        · exact absurd (hf.symm.trans h) Bool.false_ne_true
      have hheard := State.svcForce_of_heard hnot
      exact ⟨fun h => hheard.trans (if_pos h), fun h2 h3 => hheard.trans (if_neg (by simp [h2, h3]))⟩
    · rw [State.startDrain_of_one_active hp h2 hother]
      exact State.leavePort_quiesce ..
  case ends =>
    intro s runs
    refine ⟨exec_svcWaitExpiry_of_release, fun h2 hs hm hp => ?_, fun h3 h => ?_, exec_svcStopped_of_other,
      fun h2 hf => ⟨fun hs => ?plain, exec_svcStopped_of_no_pause h2 hf, fun p hs hp => ?paused⟩, ?drained, fun hon hd => ?_, fun h => ?_⟩
    · rw [exec_svcWaitExpiry_of_not_release (by omega), if_pos (State.awaitsPause_iff.mpr ⟨h2, hs, hm, hp⟩)]
    · have hnot : ¬ s.awaitsPause = true := by
        rw [State.awaitsPause_iff]
        rintro ⟨h2, hs, hm, hp⟩
        rcases h with h | h | h | ⟨p, hp', h⟩
        · exact h h2
        · exact absurd (hs.symm.trans h) (by decide)
        · exact absurd (hm.symm.trans h) (by decide)
        · exact hp p hp' h
      rw [exec_svcWaitExpiry_of_not_release h3, if_neg hnot]
    case plain =>
      have hexec := exec_svcStopped_of_plain h2 hf hs
      exact ⟨fun h => hexec.trans (if_pos h), fun h => hexec.trans (if_neg (ne_true_of_eq_false h))⟩
    case paused =>
      have hexec := exec_svcStopped_of_pause h2 hf hs hp
      intro a img s1
      have hsaved : s.savedTo p a = s1 := by rw [State.savedTo]
      refine ⟨fun hst => hexec.trans (if_pos hst), fun hst hrun => ?_, fun hst hrun hup => ?_, fun hst hrun hup => ?_⟩
      · rw [hexec, if_neg (not_not.mpr hst)]
        exact if_pos hrun
      · have hrun : s.runs = false := hrun
        have hup : s.rangeUp (s.reg64 0x104008) (4096 + recSize * p.clus.length) = false := hup
        rw [hexec, if_neg (not_not.mpr hst), if_neg (ne_true_of_eq_false hrun), if_pos (by rw [hup]; rfl)]
      · have hrun : s.runs = false := hrun
        have hup : s.rangeUp (s.reg64 0x104008) (4096 + recSize * p.clus.length) = true := hup
        rw [hexec, if_neg (not_not.mpr hst), if_neg (ne_true_of_eq_false hrun), if_neg (by rw [hup]; exact Bool.false_ne_true), hsaved]
    case drained =>
      intro served told done
      have hiff : (s.portsServed && s.told && !s.wbActs) = true ↔ served ∧ told ∧ done := by
        rw [Bool.and_eq_true, Bool.and_eq_true, Bool.not_eq_true', State.portsServed_iff, State.told_iff, State.wbActs_iff, and_assoc]
      exact ⟨fun h => exec_svcDrained.trans (if_pos (hiff.mpr h)), fun h => exec_svcDrained.trans (if_neg (mt hiff.mp h))⟩
    · rw [← State.forcedReset_of_due hd]
      exact congrArg Host.Outcome.next (if_pos (by simpa using hon))
    · refine congrArg Host.Outcome.next ?_
      split
      case isFalse => rfl
      case isTrue hon =>
        refine State.forcedReset_of_not_due (h.resolve_right ?_)
        rintro ⟨h6, hready⟩
        simp [h6, hready] at hon

end Sys2Proof.Machine
end

section
/-! SUPPORT. What leaves the power state alone: the work of stacks, jobs, clusters and ports never touches PWR_STATUS, the start-up phase or the
service's own state. -/

namespace Sys2Proof.Machine

/-- Start-up phase, transition and the service's state. -/
def State.powerCore (s : State) : Nat × Option (Nat × Bool) × Svc × Bool := (s.phase, s.trans, s.svc, s.boot.recovery)

/-- PWR_STATUS, the start-up phase, the transition and the service's state are those of another state. -/
structure State.SamePower (s t : State) : Prop where
  reg : t.reg 0x200000 = s.reg 0x200000
  core : t.powerCore = s.powerCore

theorem State.powerCore_eq_of_sansRecords {s t : State} (h : t.sansRecords = s.sansRecords) : t.powerCore = s.powerCore :=
  (congrArg State.powerCore h :)

namespace State.SamePower

theorem refl (s : State) : s.SamePower s := ⟨rfl, rfl⟩

variable {s t u : State}

theorem trans (h : s.SamePower t) (h' : t.SamePower u) : s.SamePower u := ⟨h'.reg.trans h.reg, h'.core.trans h.core⟩

theorem of_frame (hregs : t.regs = s.regs) (hgrade : t.grade = s.grade) (hcore : t.powerCore = s.powerCore) : s.SamePower t :=
  ⟨by rw [State.reg, State.reg, hregs, hgrade], hcore⟩

theorem of_sansRecords (hreg : t.reg 0x200000 = s.reg 0x200000) (h : t.sansRecords = s.sansRecords) : s.SamePower t :=
  ⟨hreg, State.powerCore_eq_of_sansRecords h⟩

theorem foldl {α : Type} {f : State → α → State} (h : ∀ (s : State) (a : α), s.SamePower (f s a)) (xs : List α) (s : State) :
    s.SamePower (xs.foldl f s) := by
  induction xs generalizing s with
  | nil => exact refl s
  | cons x xs ih => exact (h s x).trans (ih (f s x))

theorem ite {p : Prop} [Decidable p] (ht : s.SamePower t) (hu : s.SamePower u) : s.SamePower (if p then t else u) := by
  split
  · exact ht
  · exact hu

theorem phase (h : s.SamePower t) : t.phase = s.phase := congrArg Prod.fst h.core
theorem trans_eq (h : s.SamePower t) : t.trans = s.trans := congrArg (fun c => c.2.1) h.core
theorem svc (h : s.SamePower t) : t.svc = s.svc := congrArg (fun c => c.2.2.1) h.core
theorem recovery (h : s.SamePower t) : t.boot.recovery = s.boot.recovery := congrArg (fun c => c.2.2.2) h.core
theorem ready (h : s.SamePower t) : t.ready = s.ready := congrArg (fun x : Word => x.getLsbD 0) h.reg
theorem failed (h : s.SamePower t) : t.failed = s.failed := congrArg (fun x : Word => decide (bits x.toNat 4 4 ≠ 0)) h.reg
theorem pstate (h : s.SamePower t) : t.pstate = s.pstate := congrArg (fun x : Word => bits x.toNat 1 3) h.reg

/-! The operations of the state -/

section
variable (s : State) {a : Nat} (h : 0x200000 ≠ a)
include h

theorem setRegN (v : Nat) : s.SamePower (s.setRegN a v) := ⟨s.setRegN_reg_other v h, rfl⟩
theorem setFld (lo n v : Nat) : s.SamePower (s.setFld a lo n v) := setRegN s h _
theorem count (n : Nat) : s.SamePower (s.count a n) := of_sansRecords (s.count_reg_other n h) (s.count_sansRecords a n)

theorem capture (rank : Nat → Nat) (v : Nat) {rest : List (Nat × Nat)} (hrest : ∀ x ∈ rest, 0x200000 ≠ x.1) :
    s.SamePower (s.capture rank a v rest) := of_sansRecords (s.capture_reg_other rank v h hrest) (s.capture_sansRecords rank a v rest)

theorem setReg64 (h4 : 0x200000 ≠ a + 4) (v : Nat) : s.SamePower (s.setReg64 a v) := (setRegN s h _).trans (setRegN _ h4 _)

end

variable (s : State)

theorem raise (ix scls u d0 d1 : Nat) (isHeld : Bool := false) : s.SamePower (s.raise ix scls u d0 d1 isHeld) :=
  of_sansRecords (s.raise_reg_other ix scls u d0 d1 isHeld (by decide) (by decide)) (s.raise_sansRecords ix scls u d0 d1 isHeld)

theorem trigger (v : Nat) : s.SamePower (s.trigger v) := of_sansRecords (s.trigger_reg_other v (by decide)) (s.trigger_sansRecords v)

theorem count64 {a : Nat} (h : 0x200000 ≠ a) (h4 : 0x200000 ≠ a + 4) (n : Nat) : s.SamePower (s.count64 a n) := by
  have hnote : s.SamePower (s.noteCount a (s.reg64 a) n) := of_sansRecords (s.noteCount_reg ..) (s.noteCount_sansRecords ..)
  exact hnote.trans (setReg64 _ h h4 _)

theorem setDie (k : Nat) (d : Stack) : s.SamePower (s.setDie k d) := of_frame rfl rfl rfl
theorem setCl (n : Nat) (c : Cluster) : s.SamePower (s.setCl n c) := of_frame rfl rfl rfl
theorem setPort (p : Nat) (x : Port) : s.SamePower (s.setPort p x) := of_frame rfl rfl rfl

theorem finish (r : Nat) (w : Wb) (st : Nat) (res : List Nat) : s.SamePower (s.finish r w st res) :=
  ⟨s.finish_reg_other r w st res (by simp only [ra, Win.base]; omega) (by decide),
    (State.powerCore_eq_of_sansRecords ((s.untaken r w).receipt_sansRecords r w.ix w.seq w.opc st res w.irq)).trans rfl⟩

/-- What answers waybills of the rings leaves the power state alone. -/
theorem eachWb {f : State → Nat → Wb → State} (hf : ∀ (s : State) r w, s.SamePower (f s r w)) : s.SamePower (s.eachWb f) :=
  foldl (fun t r => foldl (fun t w => hf t r w) _ t) _ s

end State.SamePower

theorem sa_ne_power (k o : Nat) : 0x200000 ≠ sa k o := by
  simp only [sa, Win.base]
  omega

/-! Stacks (R215 to R223) -/

section
variable (s : State)

theorem State.uncorrectable_samePower (cw src who : Nat) : s.SamePower (s.uncorrectable cw src who) := by
  unfold State.uncorrectable
  extract_lets p k s1 s2
  have h1 : s.SamePower s1 :=
    (State.SamePower.of_frame rfl rfl rfl : s.SamePower { s with poison := sput zeroBool s.poison cw true }).trans (.count _ (sa_ne_power _ _) _)
  have h2 : s1.SamePower s2 := .capture _ (sa_ne_power _ _) _ _ (by simp [sa_ne_power])
  exact (h1.trans h2).trans (.raise ..)

theorem State.writtenBack_samePower (k : Nat) (newer : Bool) : s.SamePower (s.writtenBack k newer) := .ite (.refl s) (.setDie ..)

theorem State.freeCodeword_samePower (cw : Nat) : s.SamePower (s.freeCodeword cw) := .of_frame rfl rfl rfl

theorem State.eccCase_samePower (cw src who : Nat) (newer : Bool) (c : EccCase) : s.SamePower (s.eccCase cw src who newer c) := by
  by_cases h : sget zeroBool s.poison cw = true
  · rw [State.eccCase_of_poisoned _ _ _ _ _ _ h]
    exact .refl s
  · have hf := Bool.eq_false_iff.mpr h
    cases c with
    | clean =>
      rw [State.eccCase_clean]
      exact .refl s
    | corrected =>
      rw [State.eccCase_corrected _ _ _ hf]
      exact (State.SamePower.count _ (sa_ne_power _ _) _).trans (State.writtenBack_samePower ..)
    | detected =>
      rw [State.eccCase_detected _ _ _ hf]
      exact s.uncorrectable_samePower ..
    | miscorrected =>
      have heq : s.eccCase cw src who newer .miscorrected =
          ((s.freeCodeword cw).count (sa (s.place (cw * 64)).1 0x14) 1).writtenBack (s.place (cw * 64)).1 newer := if_neg h
      rw [heq]
      exact ((s.freeCodeword_samePower cw).trans (.count _ (sa_ne_power _ _) _)).trans (State.writtenBack_samePower ..)
    | silent =>
      have heq : s.eccCase cw src who newer .silent = s.freeCodeword cw := if_neg h
      rw [heq]
      exact s.freeCodeword_samePower cw

theorem State.activate_samePower (k l : Nat) : s.SamePower (s.activate k l) := by
  have h64 : s.SamePower (s.count64 (sa k 0x30) 1) := .count64 s (sa_ne_power _ _) (sa_ne_power k 0x34) 1
  unfold State.activate
  extract_lets s1 d row chan n d1
  split
  · exact h64.trans (.setDie ..)
  · exact .ite ((h64.trans (.setDie ..)).trans (.count _ (sa_ne_power _ _) _)) (h64.trans (.setDie ..))

theorem State.throttle_samePower (k chan row : Nat) : s.SamePower (s.throttle k chan row) :=
  .ite (((State.SamePower.setDie ..).trans (.count _ (sa_ne_power _ _) _)).trans (.raise ..)) (.refl s)

theorem State.runRefresh_samePower (k : Nat) (waits : Mit → Bool) : s.SamePower (s.runRefresh k waits) := by
  unfold State.runRefresh
  extract_lets due s1 d rows
  have h1 : s.SamePower s1 := State.SamePower.foldl (fun t m => t.throttle_samePower ..) due s
  exact h1.trans (.setDie ..)

theorem State.noteWrite_samePower (page k : Nat) (who : Who) : s.SamePower (s.noteWrite page k who) := by
  unfold State.noteWrite
  extract_lets s1 st
  have h1 : s.SamePower s1 := .ite (.refl s) (.of_frame rfl rfl rfl)
  refine h1.trans (State.SamePower.foldl (fun t e => ?_) _ s1)
  dsimp only
  split
  · exact .of_frame rfl rfl rfl
  · exact .refl t

theorem State.writeGran_samePower (own : Bool) (g : Nat) (ws : List WByte) : s.SamePower (s.writeGran own g ws) := by
  have h := s.writeGran_sansMemory own g ws
  exact .of_frame (congrArg State.regs h :) (congrArg State.grade h :) (congrArg State.powerCore h :)

theorem State.tthErr_samePower (cause space addr : Nat) : s.SamePower (s.tthErr cause space addr) := by
  unfold State.tthErr
  extract_lets s0 s1
  have h0 : s.SamePower s0 := .capture s (by decide) _ _ (by simp)
  have h1 : s.SamePower s1 := .ite h0 (h0.trans (.trigger ..))
  exact h1.trans (.raise ..)

theorem State.complete_samePower (space addr tag : Nat) (m : HMsg) : s.SamePower (s.complete space addr tag m) := .of_frame rfl rfl rfl

theorem State.answerTag_samePower (r : Req) (data : List Byte) (poison : Bool) : s.SamePower (s.answerTag r data poison) := .setCl ..

theorem State.served_samePower (k i l : Nat) : s.SamePower ((s.dropAccepted k i).activate k l) :=
  (State.SamePower.setDie ..).trans (State.activate_samePower ..)

theorem State.performRead_samePower (k i : Nat) (r : Req) (ecc : List (Fin 8 × EccCase)) : s.SamePower (s.performRead k i r ecc) := by
  unfold State.performRead
  extract_lets pg s1 data bad s2
  have h1 : s.SamePower s1 := State.SamePower.foldl (fun t e => .ite (t.eccCase_samePower ..) (.refl t)) _ s
  have h2 : s.SamePower s2 := h1.trans (s1.served_samePower ..)
  split
  · exact .ite ((h2.trans (State.tthErr_samePower ..)).trans (State.complete_samePower ..)) (h2.trans (State.complete_samePower ..))
  · exact h2.trans (State.answerTag_samePower ..)

theorem State.carDone_samePower (src : ReqSrc) : s.SamePower (s.carDone src) := by
  unfold State.carDone
  split
  · exact .ite (.refl s) (.setPort ..)
  · exact .refl s

theorem State.performWrite_samePower (k i : Nat) (r : Req) (ecc : List (Fin 8 × EccCase)) : s.SamePower (s.performWrite k i r ecc) := by
  unfold State.performWrite
  extract_lets own pg part s1 s2
  have h1 : s.SamePower s1 := State.SamePower.foldl (fun t e => .ite (t.eccCase_samePower ..) (.refl t)) _ s
  have h2 : s.SamePower s2 := (h1.trans (s1.writeGran_samePower ..)).trans (State.served_samePower ..)
  split
  · exact h2.trans (State.answerTag_samePower ..)
  · exact h2.trans (State.carDone_samePower ..)

theorem State.settleReq_samePower (k j : Nat) (q : Req) : s.SamePower (s.settleReq k j q) := by
  unfold State.settleReq
  extract_lets l s1
  have h1 : s.SamePower s1 := .ite (s.runRefresh_samePower ..) (.refl s)
  exact .ite (h1.trans (s1.performWrite_samePower ..)) (h1.trans (s1.performRead_samePower ..))

theorem State.settleRanges_samePower (k : Nat) (rs : List (Nat × Nat)) : s.SamePower (s.settleRanges k rs) := by
  refine State.SamePower.foldl (fun t q => .ite ?_ (.refl t)) _ s
  split
  · exact t.settleReq_samePower ..
  · exact .refl t

theorem State.settleOne_samePower (n k : Nat) : s.SamePower (State.settleOne n k s) := by
  unfold State.settleOne
  extract_lets d
  split
  · exact .refl s
  · extract_lets at_
    split
    · exact .refl s
    · exact .ite (.setDie ..) (s.settleReq_samePower ..)

theorem State.quietDie_samePower (n k : Nat) : s.SamePower (s.quietDie n k) := by
  unfold State.quietDie
  extract_lets d mine puts s1 s2
  have h1 : s.SamePower s1 := .setDie ..
  have h2 : s1.SamePower s2 := State.SamePower.foldl (fun t r => .ite (.refl t) (t.noteWrite_samePower ..)) _ s1
  exact (h1.trans h2).trans (State.SamePower.foldl (fun t _ => t.settleOne_samePower n k) _ s2)

/-! Jobs (R225, R226) -/

theorem State.loessWriteAux_samePower (own : Nat → Bool) (fuel a : Nat) (bs : List Byte) : s.SamePower (s.loessWriteAux own fuel a bs) := by
  induction fuel generalizing s a bs with
  | zero => exact .refl s
  | succ fuel ih =>
    unfold State.loessWriteAux
    split
    · exact .refl s
    · exact (s.writeGran_samePower ..).trans (ih ..)

end

/-- A job's run keeps the power state of another state. -/
def JobRun.SamePower (s : State) (r : JobRun) : Prop := s.SamePower r.s

section
variable {s : State}

theorem JobRun.SamePower.write {r : JobRun} (h : r.SamePower s) (own : Nat → Bool) (a : Nat) (bs : List Byte) : (r.write own a bs).SamePower s :=
  State.SamePower.trans h (State.loessWriteAux_samePower ..)

theorem JobRun.SamePower.foldl {α : Type} {f : JobRun → α → JobRun} (hf : ∀ r x, JobRun.SamePower s r → JobRun.SamePower s (f r x)) (xs : List α)
    {r : JobRun} (h : r.SamePower s) : (xs.foldl f r).SamePower s := by
  induction xs generalizing r with
  | nil => exact h
  | cons x xs ih => exact ih (hf r x h)

theorem JobRun.SamePower.guarded {r : JobRun} (h : r.SamePower s) (own : Nat → Bool) (rs : List (Nat × Nat)) {k : JobRun → JobRun}
    (hk : ∀ r, JobRun.SamePower s r → JobRun.SamePower s (k r)) : (r.guarded own rs k).SamePower s := by
  unfold JobRun.guarded
  split
  · exact h
  · split
    · exact h
    · exact hk _ h

end

end Sys2Proof.Machine
end

section
/-! SUPPORT. What switching clusters, ports and the caravan domain off leaves of the power state, and how STANDBY is entered (R397, R399, R408). -/

namespace Sys2Proof.Machine

/-! Jobs of a cluster that is quieted (R405) -/

section
variable {s : State}

theorem jobBlock_samePower {r : JobRun} (h : r.SamePower s) (d : JobD) (own : Nat → Bool) (b : Nat × Nat) : (jobBlock d own r b).SamePower s :=
  h.guarded _ _ fun _ h => .foldl (fun _ _ h => h.write ..) _ h

theorem jobRow_samePower {r : JobRun} (h : r.SamePower s) (d : JobD) (own : Nat → Bool) (i : Nat) : (jobRow d own r i).SamePower s := by
  refine h.guarded _ _ fun r h => ?_
  dsimp only
  split
  · exact h
  · exact h.guarded _ _ fun _ h => h.write ..

end

section
variable (s : State)

theorem State.runJob_samePower (j : Job) : s.SamePower (s.runJob j).s := by
  have hcleanse {r : JobRun} (h : r.SamePower s) (own : Nat → Bool) : s.SamePower (r.cleanse own) := h.trans (.of_frame rfl rfl rfl)
  have h0 : JobRun.SamePower s { s := s } := State.SamePower.refl s
  refine hcleanse ?_ _
  split
  · exact .foldl (fun _ _ h => .foldl (fun _ _ h => jobBlock_samePower h ..) _ h) _ h0
  · exact .foldl (fun _ _ h => jobRow_samePower h ..) _ h0
  · exact .foldl (fun _ _ h => h.write ..) _ h0

theorem State.touch_samePower (rs : List (Nat × Nat)) : s.SamePower (s.touch rs) :=
  State.SamePower.foldl (fun t _ => t.activate_samePower ..) _ s

theorem State.noteRuns_samePower (j : Job) (runs : List (Nat × Nat)) : s.SamePower (s.noteRuns j runs) :=
  .ite (.refl s) (State.SamePower.foldl (fun t _ => t.noteWrite_samePower ..) _ s)

theorem State.workJob_samePower (j : Job) : s.SamePower (s.workJob j) := by
  unfold State.workJob
  extract_lets r s1 n
  have h1 : s.SamePower s1 := ((s.runJob_samePower j).trans (State.noteRuns_samePower ..)).trans (State.touch_samePower ..)
  exact h1.trans (.of_frame rfl rfl rfl)

theorem State.jobFault_samePower (k cause wid : Nat) (wb isHeld : Bool) : s.SamePower (s.jobFault k cause wid wb isHeld) :=
  (State.SamePower.capture s (sa_ne_power _ _) _ _ (rest := []) (by simp)).trans (.raise (isHeld := isHeld) ..)

theorem State.quietJob_samePower (n : Nat) (j : Job) : s.SamePower (State.quietJob n s j) := by
  unfold State.quietJob
  extract_lets rs ready s1 j1 t
  have hready : s.SamePower ready :=
    State.SamePower.foldl (fun t k => (t.settleRanges_samePower k rs).trans (State.runRefresh_samePower ..)) _ s
  have h1 : s.SamePower s1 := .ite (.refl s) (hready.trans (ready.workJob_samePower j))
  exact .ite h1 (h1.trans (s1.jobFault_samePower ..))

theorem State.quietJobs_samePower (n : Nat) : s.SamePower (s.quietJobs n) :=
  (State.SamePower.foldl (fun t j => t.quietJob_samePower n j) _ s).trans (.of_frame rfl rfl rfl)

theorem State.freePmes_samePower (n : Nat) : s.SamePower (s.freePmes n) := .of_frame rfl rfl rfl

theorem State.closePmes_samePower (n task : Nat) : s.SamePower (s.closePmes n task) := .of_frame rfl rfl rfl

theorem State.storesGone_samePower (n : Nat) : s.SamePower { s with
    relays := s.relays.filter (fun r => decide (r.cl ≠ n))
    reds := s.reds.map (fun r => if r.cl = n then { r with rseq := 2 ^ 16 } else r)
    notices := s.notices.filter (fun x => decide (x.cl ≠ n)) } := .of_frame rfl rfl rfl

theorem State.forget_samePower (n : Nat) : s.SamePower (s.forget n) := by
  unfold State.forget
  extract_lets s1 s2 c s3 s4
  have h1 : s.SamePower s1 := State.SamePower.foldl (fun t d => t.quietDie_samePower n d) _ s
  have h2 : s1.SamePower s2 := s1.quietJobs_samePower n
  have h3 : s2.SamePower s3 := by
    refine State.SamePower.foldl (fun t x => ?_) _ s2
    split
    · exact t.closePmes_samePower ..
    · exact .refl t
  have h4 : s3.SamePower s4 := s3.storesGone_samePower n
  have h5 : s4.SamePower (s4.setCl n c.idled) := .setCl ..
  exact ((h1.trans (h2.trans h3)).trans (h4.trans h5)).trans (State.freePmes_samePower ..)

/-! Registers set back (R405, R408) -/

/-- A map that leaves the entries of a key, and gives no other entry that key. -/
theorem sget_filterMap_of_fixed {α : Type} {d : Nat → α} {f : Nat × α → Option (Nat × α)} {a : Nat} (hsame : ∀ e : Nat × α, e.1 = a → f e = some e)
    (hkey : ∀ e e' : Nat × α, f e = some e' → e'.1 = e.1) (m : SMap α) : sget d (m.filterMap f) a = sget d m a := by
  induction m with
  | nil => rfl
  | cons e m ih =>
    rw [List.filterMap_cons]
    by_cases ha : e.1 = a
    · rw [hsame e ha]
      exact (if_pos ha).trans (if_pos ha).symm
    · have hrest : sget d (e :: m) a = sget d m a := if_neg ha
      cases he : f e with
      | none => exact ih.trans hrest.symm
      | some e' => exact ((if_neg (by rw [hkey e e' he]; exact ha)).trans ih).trans hrest.symm

/-- A register out of scope keeps its value. -/
theorem State.resetRegs_reg_out {k : RKind} {inScope : Win → Bool} {a : Nat} {w : Win} (hw : winOf a = some w) (hout : inScope w = false) :
    (s.resetRegs k inScope).reg a = s.reg a := by
  refine sget_filterMap_of_fixed (fun e he => ?_) (fun e e' he => ?_) s.regs
  · rw [he, hw]
    exact if_neg (ne_true_of_eq_false hout)
  · split at he
    · rw [Option.some.inj he]
    case h_2 w' _ =>
      by_cases hs : inScope w' = true
      · rw [if_pos hs] at he
        dsimp only at he
        split at he
        · exact absurd he (Option.some_ne_none e').symm
        · exact (congrArg Prod.fst (Option.some.inj he)).symm
      · rw [if_neg hs] at he
        rw [Option.some.inj he]

theorem State.resetRegs_samePower (k : RKind) {inScope : Win → Bool} (h : inScope .power = false) : s.SamePower (s.resetRegs k inScope) :=
  ⟨s.resetRegs_reg_out rfl h, rfl⟩

theorem State.dropShadows_samePower (inScope : Win → Bool) : s.SamePower (s.dropShadows inScope) := .of_frame rfl rfl rfl

theorem State.clearArms_samePower : s.SamePower s.clearArms := by
  refine ⟨sget_filterMap_of_fixed (fun e he => ?_) (fun e e' he => ?_) s.regs, rfl⟩
  · rw [he]
    rfl
  · split at he
    · split at he
      · dsimp only at he
        split at he
        · exact absurd he (Option.some_ne_none e').symm
        · exact (congrArg Prod.fst (Option.some.inj he)).symm
      · rw [Option.some.inj he]
    · rw [Option.some.inj he]

theorem State.dropClusters_samePower (ns : List Nat) : s.SamePower (s.dropClusters ns) := by
  unfold State.dropClusters
  extract_lets s1
  have h1 : s.SamePower s1 := State.SamePower.foldl (fun t n => (t.forget_samePower n).trans (.setCl ..)) _ s
  exact (h1.trans (s1.resetRegs_samePower .por rfl)).trans (State.dropShadows_samePower ..)

/-! Ports and the caravan domain (R305, R316, R317, R406) -/

theorem pa_ne_power (p o : Nat) : 0x200000 ≠ pa p o := by
  simp only [pa, Win.base]
  omega

theorem State.setLnk_samePower (p st cause : Nat) : s.SamePower (s.setLnk p st cause) :=
  (State.SamePower.setFld s (pa_ne_power _ _) ..).trans (.setFld _ (pa_ne_power _ _) ..)

theorem State.stopCl_samePower (n cause : Nat) : s.SamePower (s.stopCl n cause) := .ite (.refl s) (.setCl ..)

theorem State.diverge_samePower (cause : Nat) (own : TRec) : s.SamePower (s.diverge cause own) := by
  unfold State.diverge
  extract_lets k s2 s3
  have h2 : s.SamePower s2 := (State.SamePower.count s (by decide) 1).trans (.capture _ (by decide) _ _ (by simp))
  have h3 : s.SamePower s3 := h2.trans (.raise ..)
  exact .ite (h3.trans (State.SamePower.foldl (fun t e => .ite (t.stopCl_samePower ..) (.refl t)) _ s3)) h3

theorem State.tandemPortLost_samePower (p : Nat) : s.SamePower (s.tandemPortLost p) := .ite (s.diverge_samePower ..) (.refl s)

theorem State.portReceipts_samePower (p : Nat) : s.SamePower (s.portReceipts p) := by
  refine State.SamePower.foldl (fun t r => State.SamePower.foldl (fun t w => .ite ?_ (.refl t)) _ t) _ s
  exact .ite (.finish ..) (.ite (.finish ..) (.refl t))

theorem State.portOff_samePower (p : Nat) : s.SamePower (s.portOff p) := by
  unfold State.portOff
  extract_lets was x s1
  have h1 : s.SamePower s1 := (State.SamePower.setPort ..).trans (State.setLnk_samePower ..)
  exact (State.SamePower.ite (h1.trans (s1.tandemPortLost_samePower p)) h1).trans (State.portReceipts_samePower ..)

theorem State.leaveDomain_samePower : s.SamePower s.leaveDomain := by
  obtain ⟨ps, h⟩ := s.leaveDomain_frame
  exact ⟨s.leaveDomain_reg_other (by decide), (State.powerCore_eq_of_sansRecords h).trans rfl⟩

theorem State.evalMismatch_samePower : s.SamePower s.evalMismatch :=
  .of_sansRecords (s.evalMismatch_reg_other (by decide) (by decide) (by decide)) s.evalMismatch_sansRecords

theorem State.engineStateGone_samePower : s.SamePower { s with tandem := [], preds := [], pause := none, gated := [] } := .of_frame rfl rfl rfl

theorem State.computeOff_samePower : s.SamePower s.computeOff := by
  unfold State.computeOff
  extract_lets s1 s2
  have h1 : s.SamePower s1 := (s.dropClusters_samePower _).trans (State.resetRegs_samePower _ .por rfl)
  have h2 : s1.SamePower s2 := s1.engineStateGone_samePower.trans (State.SamePower.foldl (fun t p => t.portOff_samePower p) _ _)
  exact (((h1.trans h2).trans s2.leaveDomain_samePower).trans (State.clearArms_samePower _)).trans (State.evalMismatch_samePower _)

/-! A state of R399 is reached, STANDBY is entered -/

/-- The state is shown and no transition runs: nothing else of the power state changes. -/
theorem State.pstateReached_samePower (st : Nat) :
    State.SamePower { s.setFld 0x200000 1 3 st with trans := none } (s.pstateReached st) := by
  unfold State.pstateReached
  exact State.SamePower.eachWb _ fun t _ _ => .ite (.finish ..) (.refl t)

theorem State.stackStateGone_samePower : s.SamePower { s with
    loess := [], poison := [], sel := [], wr := [], pmes := [], dies := [], jobs := [], written := [], notices := [], noted := [] } :=
  .of_frame rfl rfl rfl

/-- STANDBY is entered with the start-up phase and the service's own state as they were. -/
theorem State.enterStandby_power : s.enterStandby.pstate = 3 ∧ s.enterStandby.ready = s.ready ∧ s.enterStandby.phase = s.phase ∧
    s.enterStandby.svc = s.svc := by
  unfold State.enterStandby
  extract_lets s1 s2 s3
  have h2 : s.SamePower s2 := (s.computeOff_samePower.trans (s1.resetRegs_samePower .mod rfl)).trans (State.dropShadows_samePower ..)
  have h3 : s.SamePower s3 := h2.trans s2.stackStateGone_samePower
  clear_value s3
  have hr := s3.pstateReached_samePower 3
  refine ⟨hr.pstate.trans ?_, hr.ready.trans (Eq.trans ?_ h3.ready), hr.phase.trans h3.phase, hr.svc.trans h3.svc⟩
  · exact s3.setFld_fld_same 0x200000 3 (lo := 1) (n := 3) (by decide)
  · exact (s3.setFld_reg_bit 0x200000 3 0 (lo := 1) (n := 3) (by decide)).trans (if_neg (by decide))

end

end Sys2Proof.Machine
end

section
/-! SUPPORT. Start-up: what its ends leave of the power state, and what each phase does when it is done or has failed (R409 to R411, R423). -/

namespace Sys2Proof.Machine

/-! READY and its receipts (R365, R411) -/

section
variable (s : State)

theorem State.readyReceipts_samePower (status : Nat) (res : List Nat) : s.SamePower (s.readyReceipts status res) :=
  State.SamePower.eachWb _ fun t _ _ => .ite (.finish ..) (.refl t)

/-- The module shows whether it is in recovery. -/
def State.inRecovery (s : State) (rec : Bool) : State := { s with boot := { s.boot with recovery := rec } }

theorem State.inRecovery_reg (rec : Bool) (a : Nat) : (s.inRecovery rec).reg a = s.reg a := rfl

theorem State.startFail_eq (c : Nat) (rec : Bool) : s.startFail c rec = ((s.setFld 0x200000 4 4 c).inRecovery rec).readyReceipts 0x12 [c] := rfl

/-- A start-up that fails shows its cause, whether it is in recovery, and nothing else of the power state. -/
theorem State.startFail_power {c : Nat} (rec : Bool) (h1 : 1 ≤ c) (h6 : c ≤ 6) :
    (s.startFail c rec).failed = true ∧ (s.startFail c rec).fld 0x200000 4 4 = c ∧ (s.startFail c rec).ready = s.ready ∧
      (s.startFail c rec).boot.recovery = rec := by
  have h := ((s.setFld 0x200000 4 4 c).inRecovery rec).readyReceipts_samePower 0x12 [c]
  rw [← State.startFail_eq] at h
  have hreg := h.reg.trans (State.inRecovery_reg ..)
  have hcause : (s.startFail c rec).fld 0x200000 4 4 = c := by
    rw [State.fld, State.regN, hreg]
    refine (s.setFld_fld_same 0x200000 c (lo := 4) (n := 4) (by decide)).trans ?_
    omega
  refine ⟨?_, hcause, ?_, h.recovery⟩
  · rw [State.failed, hcause, decide_eq_true_iff]
    omega
  · rw [State.ready, hreg]
    exact (s.setFld_reg_bit 0x200000 c 0 (lo := 4) (n := 4) (by decide)).trans (if_neg (by decide))

/-- An 8 s press has stopped start-up: STANDBY in phase 5 of the service sequence. -/
theorem State.startStopped_power : s.startStopped.phase = 6 ∧ s.startStopped.svcPhase = 5 ∧ s.startStopped.pstate = 3 ∧
    s.startStopped.ready = s.ready ∧ s.startStopped.svc.forcedDue = false := by
  obtain ⟨hp, hr, hph, hsvc⟩ := State.enterStandby_power { s with phase := 6, held := false, svc := { s.svc with forcedDue := false } }
  unfold State.startStopped
  generalize State.enterStandby _ = s1 at *
  have hs : s1.SamePower (s1.setSvcPhase 5) := .setFld _ (by decide) ..
  have h : s1.SamePower ((s1.setSvcPhase 5).svcEvent 42) := hs.trans (.raise ..)
  refine ⟨h.phase.trans hph, ?_, h.pstate.trans hp, h.ready.trans hr, (congrArg Svc.forcedDue (h.svc.trans hsvc) :)⟩
  have hreg : ((s1.setSvcPhase 5).svcEvent 42).reg 0x104004 = (s1.setSvcPhase 5).reg 0x104004 :=
    State.raise_reg_other _ _ _ _ _ _ false (by decide) (by decide)
  exact (congrArg (fun x : Word => bits x.toNat 0 3) hreg).trans (s1.setFld_fld_same 0x104004 5 (lo := 0) (n := 3) (by decide))

/-! Phases D and E (R409, R411) -/

theorem State.portEnable_samePower (p : Nat) : s.SamePower (s.portEnable p) := by
  have htrain (t : State) : t.SamePower (t.train p false) := by
    rw [State.train_eq]
    have hearly (u : State) (es : List (Nat × List Byte)) : u.SamePower { u with early := es } := .of_frame rfl rfl rfl
    exact ((hearly t _).trans (.setPort ..)).trans (State.setLnk_samePower ..)
  unfold State.portEnable
  extract_lets s1
  have h1 : s.SamePower s1 := .setFld _ (pa_ne_power _ _) ..
  exact .ite (h1.trans (htrain s1)) h1

theorem State.startD_failed : s.startD.failed = s.failed := by
  have h : State.SamePower { s with phase := 4 } s.startD := State.SamePower.foldl (fun t p => .ite (t.portEnable_samePower p) (.refl t)) _ _
  exact h.failed.trans rfl

theorem State.memoryCleared_failed (n : Nat) :
    ({ s with loess := [], poison := [], sel := [], wr := [], written := [], phase := n } : State).failed = s.failed := rfl

theorem State.SamePower.setReg (s : State) {a : Nat} (h : 0x200000 ≠ a) (v : Word) : s.SamePower (s.setReg a v) := ⟨s.setReg_reg_other v h, rfl⟩

theorem State.endD_failed : s.endD.failed = s.failed := by
  unfold State.endD
  extract_lets s1 s2
  have hstack (t : State) (k : Nat) (v : Word) : t.SamePower ((if t.stackState k = 1 then t.setStack k 2 else t).setReg (sa k 0x3C) v) :=
    (State.SamePower.ite (.setFld t (sa_ne_power _ _) ..) (.refl t)).trans (.setReg _ (sa_ne_power _ _) v)
  have h1 : s.SamePower s1 := State.SamePower.foldl (fun t k => hstack t k _) _ s
  have h2 : s1.SamePower s2 := .ite (State.SamePower.foldl (fun t n => .setCl ..) _ s1) (.refl s1)
  exact (s2.memoryCleared_failed 5).trans (h1.trans h2).failed

theorem State.checkClLedger_samePower (n : Nat) : s.SamePower (s.checkClLedger n) := by
  unfold State.checkClLedger
  extract_lets bad s1
  have h1 : s.SamePower s1 := .capture s (by simp only [ca, Win.base]; omega) _ _ (by simp)
  exact .ite (.refl s) (h1.trans (.raise ..))

theorem State.checkModLedgers_samePower : s.SamePower s.checkModLedgers := by
  unfold State.checkModLedgers
  extract_lets bad s1
  have h1 : s.SamePower s1 := .capture s (by decide) _ _ (by simp)
  exact .ite (.refl s) (h1.trans (.raise ..))

theorem State.checkLedgers_eq :
    s.checkLedgers = s.checkModLedgers.clusters.foldl (fun t e => t.checkClLedger e.1) s.checkModLedgers := rfl

theorem State.checkEntry_samePower (e : Nat × Cluster) : s.SamePower (s.checkClLedger e.1) := s.checkClLedger_samePower e.1

theorem State.checkClLedgers_samePower (l : SMap Cluster) : s.SamePower (l.foldl (fun t e => t.checkClLedger e.1) s) :=
  State.SamePower.foldl State.checkEntry_samePower l s

theorem State.checkLedgers_samePower : s.SamePower s.checkLedgers := by
  rw [State.checkLedgers_eq]
  exact s.checkModLedgers_samePower.trans (State.checkClLedgers_samePower ..)

theorem State.loadRations_samePower : s.SamePower s.loadRations := by
  unfold State.loadRations
  split
  · exact .refl s
  · refine List.foldlRecOn (motive := fun t => s.SamePower t) _ _ (.refl s) fun t ht i hi => ht.trans (.ite (.refl t) (.setRegN _ ?_ _))
    have := List.mem_range.mp hi
    omega

theorem State.draw_samePower : s.SamePower s.draw := .of_frame rfl rfl rfl

/-- READY is shown: nothing else of the power state changes. -/
theorem State.raiseReady_power : s.raiseReady.ready = true ∧ s.raiseReady.phase = s.phase ∧ s.raiseReady.trans = s.trans ∧
    s.raiseReady.svc = s.svc := by
  have hl := s.loadRations_samePower
  have h0 : s.SamePower (s.loadRations.setReg64 0x400 0) := hl.trans (.setReg64 _ (by decide) (by decide) 0)
  unfold State.raiseReady
  generalize s.loadRations.setReg64 0x400 0 = u at h0
  extract_lets s1 f boot s2
  have h1 : (u.setFld 0x200000 0 1 1).SamePower s1 := .setReg _ (by decide) _
  have h2 : s1.SamePower s2 := .ite (.of_frame rfl rfl rfl) (.refl s1)
  have h3 : s2.SamePower ((s2.draw.trigger 18).readyReceipts 0 s2.readyWords) :=
    (s2.draw_samePower.trans (.trigger s2.draw 18)).trans (State.readyReceipts_samePower ..)
  have h := h1.trans (h2.trans h3)
  refine ⟨h.ready.trans ?_, h.phase.trans h0.phase, h.trans_eq.trans h0.trans_eq, h.svc.trans h0.svc⟩
  exact (u.setFld_reg_bit 0x200000 1 0 (lo := 0) (n := 1) (by decide)).trans (if_pos (by decide))

/-- Stages begin at kc 0; a transition out of STANDBY ends, a service request that waited is taken. -/
def State.stagesBegin (s : State) : State :=
  let t : State := { s.newKc with phase := 6, kc := 0, late := 0, hung := false, wheel := [], tap := { s.tap with waiting := false } }
  (if t.trans.isSome then t.pstateReached 0 else t).svcRetry

theorem State.endE_eq : s.endE = (if s.ready then s.checkLedgers else s.checkLedgers.raiseReady).stagesBegin := rfl

theorem State.stagesBegin_power {s : State} (ht : s.trans = none) (ha : s.svc.asked = false) :
    s.stagesBegin.phase = 6 ∧ s.stagesBegin.ready = s.ready ∧ s.stagesBegin.kc = 0 := by
  have hretry (t : State) (h : t.svc.asked = false) : t.svcRetry = t := if_neg (by simp [h])
  unfold State.stagesBegin
  extract_lets src tap t
  have hnot : ¬ t.trans.isSome = true := by
    rw [show t.trans = none from ht]
    exact Bool.false_ne_true
  rw [if_neg hnot, hretry t ha]
  exact ⟨rfl, rfl, rfl⟩

/-- The end of phase E, with nothing that waits for it: READY at kc 0. -/
theorem State.endE_power {s : State} (hr : s.ready = false) (ht : s.trans = none) (ha : s.svc.asked = false) :
    s.endE.phase = 6 ∧ s.endE.ready = true ∧ s.endE.kc = 0 := by
  have hl := s.checkLedgers_samePower
  obtain ⟨hready, -, htrans, hsvc⟩ := s.checkLedgers.raiseReady_power
  have ha' : s.checkLedgers.raiseReady.svc.asked = false := (congrArg Svc.asked (hsvc.trans hl.svc)).trans ha
  obtain ⟨hphase, hr', hkc⟩ := State.stagesBegin_power (htrans.trans (hl.trans_eq.trans ht)) ha'
  rw [State.endE_eq, if_neg (ne_true_of_eq_false hr)]
  exact ⟨hphase, hr'.trans hready, hkc⟩

end

end Sys2Proof.Machine
end

section
/-! SUPPORT. Start-up's phases as STARTUP_PHASE_DONE runs them, and the stored packages that phase B checks (R409, R410, R423, R433, R434, R437,
R441). -/

namespace Sys2Proof.Machine

/-! STARTUP_PHASE_DONE -/

theorem exec_startupPhaseDone_of_over {s : State} (e : PhaseEnd)
    (h : s.phase = 0 ∨ s.phase = 6 ∨ s.failed = true ∨ s.held = true ∨ s.tap.waiting = true) : exec (.startupPhaseDone e) s = .next s := by
  refine (if_pos ?_ : execStartupPhaseDone e s = _)
  rcases h with h | h | h | h | h <;> simp [h]

section
variable {s : State} (hf : s.failed = false) (hh : s.held = false) (hw : s.tap.waiting = false) (h0 : s.phase ≠ 0) (h6 : s.phase ≠ 6)
include hf hh hw h0 h6

/-- How a phase that runs ends: after an 8 s press start-up stops there. -/
theorem exec_startupPhaseDone_of_runs (e : PhaseEnd) : exec (.startupPhaseDone e) s =
    let stop := s.svc.forcedDue && !s.ready
    let s1 := match e with
      | .done => if stop && decide (s.phase = 5) && !s.rationsBad then s else s.phaseDone
      | .failed c rec => s.phaseFailed c.toNat rec
    .next (if stop && !s1.failed then s1.startStopped else s1) :=
  (if_neg (by simp [hf, hh, hw, h0, h6]) : execStartupPhaseDone e s = _)

section
variable (hstop : s.svc.forcedDue = false ∨ s.ready = true)
include hstop

theorem exec_startupPhaseDone_of_done : exec (.startupPhaseDone .done) s = .next s.phaseDone := by
  have hno : (s.svc.forcedDue && !s.ready) = false := by rcases hstop with h | h <;> simp [h]
  rw [exec_startupPhaseDone_of_runs hf hh hw h0 h6]
  dsimp only
  rw [hno]
  rfl

theorem exec_startupPhaseDone_of_failed (c : BitVec 4) (rec : Bool) :
    exec (.startupPhaseDone (.failed c rec)) s = .next (s.phaseFailed c.toNat rec) := by
  have hno : (s.svc.forcedDue && !s.ready) = false := by rcases hstop with h | h <;> simp [h]
  rw [exec_startupPhaseDone_of_runs hf hh hw h0 h6]
  dsimp only
  rw [hno]
  rfl

end

section
variable (hd : s.svc.forcedDue = true) (hr : s.ready = false)
include hd hr

/-- A phase before E ends well, then start-up stops. -/
theorem exec_startupPhaseDone_of_stopping (h5 : s.phase ≠ 5) (hd' : s.phaseDone.failed = false) :
    exec (.startupPhaseDone .done) s = .next s.phaseDone.startStopped := by
  have hrun : (if (s.svc.forcedDue && !s.ready) && decide (s.phase = 5) && !s.rationsBad then s else s.phaseDone) = s.phaseDone :=
    if_neg (by simp [h5])
  rw [exec_startupPhaseDone_of_runs hf hh hw h0 h6]
  dsimp only
  rw [hrun, if_pos (by simp [hd, hr, hd'])]

/-- Phase E is not run to its end. -/
theorem exec_startupPhaseDone_of_stopping_last (h5 : s.phase = 5) (hb : s.rationsBad = false) :
    exec (.startupPhaseDone .done) s = .next s.startStopped := by
  have hrun : (if (s.svc.forcedDue && !s.ready) && decide (s.phase = 5) && !s.rationsBad then s else s.phaseDone) = s :=
    if_pos (by simp [hd, hr, h5, hb])
  rw [exec_startupPhaseDone_of_runs hf hh hw h0 h6]
  dsimp only
  rw [hrun, if_pos (by simp [hd, hr, hf])]

end
end

section
variable {s : State}

theorem State.phaseDone_of_a (h : s.phase = 1) : s.phaseDone =
    if (s.reg 0x104004).getLsbD 9 && !s.side.rstLow then { s with phase := 2, held := false } else { s with held := true } := by
  simp only [State.phaseDone, h]

theorem State.phaseDone_of_b (h : s.phase = 2) : s.phaseDone = s.bootBanks := by simp only [State.phaseDone, h]

theorem State.phaseDone_of_c (h : s.phase = 3) : s.phaseDone = s.startD := by simp only [State.phaseDone, h]

theorem State.phaseDone_of_d (h : s.phase = 4) : s.phaseDone = if s.glazeBad then s.startFail 5 false else s.endD := by
  simp only [State.phaseDone, h]

theorem State.phaseDone_of_e (h : s.phase = 5) : s.phaseDone = if s.rationsBad then s.startFail 6 false
    else if s.tap.ir = 3 ∧ !s.ready then { s with tap := { s.tap with waiting := true } } else s.endE := by
  simp only [State.phaseDone, h]

variable (c : Nat) (rec : Bool)

theorem State.phaseFailed_of_a (h : s.phase = 1) : s.phaseFailed c rec = s := by simp only [State.phaseFailed, h]

theorem State.phaseFailed_of_b (h : s.phase = 2) : s.phaseFailed c rec =
    ((((if rec then s.authFail.measureRom else s.bootBank s.boot.sel).authFail.draw).bootErr (1 + Config.bootErr s.fresh % 7)).startFail 1 rec) := by
  simp only [State.phaseFailed, h]

theorem State.phaseFailed_of_c (h : s.phase = 3) : s.phaseFailed c rec = s.startFail 2 false := by simp only [State.phaseFailed, h]

theorem State.phaseFailed_of_d (h : s.phase = 4) : s.phaseFailed c rec =
    if c = 3 then (s.draw.setStack (Config.failedStack s.fresh % 8) 7).startFail 3 false else s.startFail (if c = 4 then 4 else 5) false := by
  simp only [State.phaseFailed, h]

theorem State.phaseFailed_of_e (h : s.phase = 5) : s.phaseFailed c rec = s.startFail 6 false := by simp only [State.phaseFailed, h]

end

/-! Stored packages (R433, R434, R437, R441) -/

section
variable {s t : State}

theorem State.storedCause_congr (h : t.boot.revoked = s.boot.revoked) (hc : t.boot.cnt = s.boot.cnt) (k : Nat) (b : FwBank) :
    t.storedCause k b = s.storedCause k b := by
  unfold State.storedCause State.arb
  rw [h, hc]

/-- The cause an image in flash fails with; the images as delivered are root slot 0's. -/
def State.flashCause (s : State) (t : Nat) (x : Option (List Byte × FwBank)) : Nat :=
  x.elim (if s.boot.revoked.testBit 0 then 2 else 0) (fun y => s.storedCause t y.2)

theorem State.flashCause_congr (h : t.boot.revoked = s.boot.revoked) (hc : t.boot.cnt = s.boot.cnt) (k : Nat) (x : Option (List Byte × FwBank)) :
    t.flashCause k x = s.flashCause k x := by
  unfold State.flashCause
  rw [h]
  cases x with
  | none => rfl
  | some y => exact State.storedCause_congr h hc k y.2

end

/-- Phase B once the bedrock images have been looked at. -/
def State.bootChecked (s : State) : State :=
  if (List.range 8).any (fun k => decide (s.storedCause 1 (s.bedOf k) ≠ 0)) then s.startFail 1 false
  else if s.flashCause 2 s.boot.glz ≠ 0 then (s.authFail.bootErr (s.flashCause 2 s.boot.glz)).startFail 1 false
  else if s.flashCause 3 s.boot.rtn ≠ 0 then (s.authFail.bootErr (s.flashCause 3 s.boot.rtn)).startFail 1 false
  else { s.bootMeasure with phase := 3 }

theorem State.bootStored_eq (s : State) : s.bootStored = ((List.range 8).foldl State.bootBed s).bootChecked := by
  unfold State.bootStored State.bootChecked State.flashCause
  extract_lets s1 flash g r
  have hg : g = s1.boot.glz.elim (if s1.boot.revoked.testBit 0 then 2 else 0) (fun y => s1.storedCause 2 y.2) := by
    unfold g flash
    cases s1.boot.glz <;> rfl
  have hr : r = s1.boot.rtn.elim (if s1.boot.revoked.testBit 0 then 2 else 0) (fun y => s1.storedCause 3 y.2) := by
    unfold r flash
    cases s1.boot.rtn <;> rfl
  rw [hg, hr]

section
variable {s : State}

theorem State.bootErr_authFail_boot (s : State) (c : Nat) : (s.authFail.bootErr c).boot = s.boot := by
  show s.authFail.boot = s.boot
  unfold State.authFail State.count State.noteCount
  dsimp only
  split <;> rfl

theorem State.bedOf_congr {s t : State} (h : t.boot.beds = s.boot.beds) (k : Nat) : t.bedOf k = s.bedOf k := by rw [State.bedOf, State.bedOf, h]

/-- Whether the bedrock image of a stack verifies. -/
def State.bedCause (s : State) (k : Nat) : Nat := s.storedCause 1 (s.bedOf k)

theorem State.bedCause_congr {s t : State} (h : t.boot = s.boot) (k : Nat) : t.bedCause k = s.bedCause k := by
  rw [State.bedCause, State.bedCause, State.bedOf_congr (congrArg Boot.beds h),
    State.storedCause_congr (congrArg Boot.revoked h) (congrArg Boot.cnt h)]

theorem State.bootBed_of_good {k : Nat} (h : s.bedCause k = 0) : s.bootBed k = s := if_pos h

/-- Stack k goes back to the image it ran before. -/
def State.bedBack (s : State) (k : Nat) : State :=
  { s with boot := { s.boot with beds := sput noFw s.boot.beds k (some (s.bedBefore k)), bedsOld := sput noFw s.boot.bedsOld k (some (s.bedOf k)) } }

/-- What the image that ran before fails with, while the present one's failure is recorded. -/
theorem State.storedCause_before_recorded (s : State) (c k : Nat) :
    (s.authFail.bootErr c).storedCause 1 ((s.authFail.bootErr c).bedBefore k) = s.storedCause 1 (s.bedBefore k) := by
  have hb := s.bootErr_authFail_boot c
  rw [State.storedCause_congr (congrArg Boot.revoked hb) (congrArg Boot.cnt hb), State.bedBefore, State.bedBefore, hb]

theorem State.bootBed_eq {k : Nat} (h : s.bedCause k ≠ 0) : s.bootBed k =
    let u := s.authFail.bootErr (s.bedCause k)
    if u.storedCause 1 (u.bedBefore k) ≠ 0 then u.authFail.bootErr (u.storedCause 1 (u.bedBefore k)) else u.bedBack k := if_neg h

section
variable {k : Nat} (h : s.bedCause k ≠ 0)
include h

theorem State.bootBed_of_bad (hold : s.storedCause 1 (s.bedBefore k) ≠ 0) : s.bootBed k =
    (s.authFail.bootErr (s.bedCause k)).authFail.bootErr (s.storedCause 1 (s.bedBefore k)) := by
  rw [State.bootBed_eq h]
  dsimp only
  rw [State.storedCause_before_recorded, if_pos hold]

theorem State.bootBed_of_older (hold : s.storedCause 1 (s.bedBefore k) = 0) : s.bootBed k =
    (s.authFail.bootErr (s.bedCause k)).bedBack k := by
  rw [State.bootBed_eq h]
  dsimp only
  rw [State.storedCause_before_recorded, if_neg (not_not.mpr hold)]

end

theorem State.bedBack_cause_same (s : State) (k : Nat) : (s.bedBack k).bedCause k = s.storedCause 1 (s.bedBefore k) := by
  have hput : sget noFw (s.bedBack k).boot.beds k = some (s.bedBefore k) :=
    (sget_sput_same noFw s.boot.beds k (some (s.bedBefore k)) :)
  rw [State.bedCause, State.bedOf, hput, Option.getD_some]
  exact State.storedCause_congr (s := s) rfl rfl ..

theorem State.bedBack_cause_other (s : State) {k j : Nat} (h : j ≠ k) : (s.bedBack k).bedCause j = s.bedCause j := by
  have hbed : (s.bedBack k).bedOf j = s.bedOf j :=
    congrArg (fun x : Option FwBank => x.getD (deliveredBed j)) (sget_sput_other noFw s.boot.beds k (some (s.bedBefore k)) h)
  rw [State.bedCause, hbed]
  exact State.storedCause_congr (s := s) rfl rfl ..

/-! What phase B does with them -/

section
variable (hbeds : ∀ k < 8, s.bedCause k = 0)
include hbeds

theorem State.bootChecked_of_goodBeds : s.bootChecked =
    if s.flashCause 2 s.boot.glz ≠ 0 then (s.authFail.bootErr (s.flashCause 2 s.boot.glz)).startFail 1 false
    else if s.flashCause 3 s.boot.rtn ≠ 0 then (s.authFail.bootErr (s.flashCause 3 s.boot.rtn)).startFail 1 false
    else { s.bootMeasure with phase := 3 } := by
  have hnone : ¬ (List.range 8).any (fun k => decide (s.storedCause 1 (s.bedOf k) ≠ 0)) = true := by
    rw [List.any_eq_true]
    rintro ⟨k, hk, hbad⟩
    exact of_decide_eq_true hbad (hbeds k (List.mem_range.mp hk))
  exact if_neg hnone

theorem State.bootStored_of_goodBeds : s.bootStored = s.bootChecked := by
  rw [State.bootStored_eq, foldl_eq_of_fixed fun k hk => State.bootBed_of_good (hbeds k (List.mem_range.mp hk))]

end

theorem State.bootChecked_of_badBed {k : Nat} (hk : k < 8) (h : s.bedCause k ≠ 0) : s.bootChecked = s.startFail 1 false :=
  if_pos (List.any_eq_true.mpr ⟨k, List.mem_range.mpr hk, decide_eq_true h⟩)

section
variable {k : Nat} (hk : k < 8) (hother : ∀ j < 8, j ≠ k → s.bedCause j = 0)
include hk hother

/-- Only stack k's image is looked at twice. -/
theorem State.bootStored_of_oneBad (hafter : ∀ j < 8, j ≠ k → (s.bootBed k).bedCause j = 0) : s.bootStored = (s.bootBed k).bootChecked := by
  rw [State.bootStored_eq, foldl_eq_of_single List.nodup_range (List.mem_range.mpr hk)
    (fun j hj hne => State.bootBed_of_good (hother j (List.mem_range.mp hj) hne))
    (fun j hj hne => State.bootBed_of_good (hafter j (List.mem_range.mp hj) hne))]

variable (h : s.bedCause k ≠ 0)
include h

/-- Neither image of the stack verifies: start-up ends with the cause found last. -/
theorem State.bootStored_of_bothBad (hold : s.storedCause 1 (s.bedBefore k) ≠ 0) : s.bootStored =
    ((s.authFail.bootErr (s.bedCause k)).authFail.bootErr (s.storedCause 1 (s.bedBefore k))).startFail 1 false := by
  have hboot : (s.bootBed k).boot = s.boot := by
    rw [State.bootBed_of_bad h hold, State.bootErr_authFail_boot, State.bootErr_authFail_boot]
  rw [State.bootStored_of_oneBad hk hother fun j hj hne => (State.bedCause_congr hboot j).trans (hother j hj hne),
    State.bootChecked_of_badBed hk (by rw [State.bedCause_congr hboot]; exact h), State.bootBed_of_bad h hold]

/-- The image the stack ran before takes the place of the one that fails. -/
theorem State.bootStored_of_older (hold : s.storedCause 1 (s.bedBefore k) = 0) (hg : s.flashCause 2 s.boot.glz = 0)
    (hr : s.flashCause 3 s.boot.rtn = 0) :
    s.bootStored = { ((s.authFail.bootErr (s.bedCause k)).bedBack k).bootMeasure with phase := 3 } := by
  have hbed := State.bootBed_of_older h hold
  set u := s.authFail.bootErr (s.bedCause k) with hu
  have hboot : u.boot = s.boot := s.bootErr_authFail_boot _
  have hlater (j : Nat) (hj : j < 8) (hne : j ≠ k) : (u.bedBack k).bedCause j = 0 := by
    rw [u.bedBack_cause_other hne, State.bedCause_congr hboot]
    exact hother j hj hne
  have hsame : (u.bedBack k).bedCause k = 0 := by
    rw [State.bedBack_cause_same]
    exact (State.storedCause_before_recorded s _ k).trans hold
  have hall (j : Nat) (hj : j < 8) : (u.bedBack k).bedCause j = 0 := by
    by_cases hjk : j = k
    · rw [hjk]
      exact hsame
    · exact hlater j hj hjk
  have hflash (t : Nat) (x : Option (List Byte × FwBank)) : (u.bedBack k).flashCause t x = s.flashCause t x :=
    (State.flashCause_congr (s := u) (t := u.bedBack k) rfl rfl t x).trans
      (State.flashCause_congr (congrArg Boot.revoked hboot) (congrArg Boot.cnt hboot) t x)
  have hg' : (u.bedBack k).flashCause 2 (u.bedBack k).boot.glz = 0 :=
    (hflash ..).trans ((congrArg (fun b : Boot => s.flashCause 2 b.glz) hboot).trans hg)
  have hr' : (u.bedBack k).flashCause 3 (u.bedBack k).boot.rtn = 0 :=
    (hflash ..).trans ((congrArg (fun b : Boot => s.flashCause 3 b.rtn) hboot).trans hr)
  rw [State.bootStored_of_oneBad hk hother (by rw [hbed]; exact hlater), hbed, State.bootChecked_of_goodBeds hall,
    if_neg (not_not.mpr hg'), if_neg (not_not.mpr hr')]

end
end

end Sys2Proof.Machine
end

section
/-! SUPPORT. The button, the ejector lever and the cage latches (R413, R414, R422 to R427). -/

namespace Sys2Proof.Machine

/-! The button of a powered module (R413, R414, R423) -/

section
variable {s : State}

/-- The button is released: BTN is cleared, the bar no longer flashes. -/
def State.released (s : State) : State := { s.svcBit 8 0 with svc := { (s.svcBit 8 0).svc with flashed := false } }

/-- SVC_CTL.LOCK. -/
def State.svcLock (s : State) : Bool := (s.reg 0x104000).getLsbD 5

theorem State.released_lock (s : State) : s.released.svcLock = s.svcLock :=
  congrArg (fun x : Word => x.getLsbD 5) (s.setFld_reg_other 8 1 0 (by decide) : (s.svcBit 8 0).reg 0x104000 = _)

theorem State.released_svcPhase (s : State) : s.released.svcPhase = s.svcPhase :=
  s.setFld_fld_apart 0x104004 0 (lo := 8) (n := 1) (lo' := 0) (n' := 3) (by decide) (by decide)

theorem exec_buttonPress_of_none {ms : Nat} (h : s.phase = 0 ∨ ms < 20) : exec (.buttonPress ms) s = .next s := by
  refine (if_pos ?_ : execButtonPress ms s = _)
  rcases h with h | h <;> simp [h]

section
variable {ms : Nat} (h0 : s.phase ≠ 0) (h20 : 20 ≤ ms)
include h0 h20

theorem exec_buttonPress_of_press : exec (.buttonPress ms) s =
    if ms < 1000 then .next { s.released with svc := { s.released.svc with identify := true } }
    else if 8000 ≤ ms then .next s.released
    else if s.released.svcLock then .next ((s.released.svcBit 7 1).svcEvent 39)
    else if s.released.svcPhase = 0 then .next s.released.svcRequest else .next s.released.svcCancel :=
  (if_neg (by simp [h0, h20]) : execButtonPress ms s = _)

theorem exec_buttonPress_of_short (h : ms < 1000) :
    exec (.buttonPress ms) s = .next { s.released with svc := { s.released.svc with identify := true } } := by
  rw [exec_buttonPress_of_press h0 h20, if_pos h]

end

section
variable {ms : Nat} (h0 : s.phase ≠ 0)
include h0

theorem exec_buttonPress_of_long (h : 8000 ≤ ms) : exec (.buttonPress ms) s = .next s.released := by
  rw [exec_buttonPress_of_press h0 (by omega), if_neg (by omega), if_pos h]

section
variable (h : 1000 ≤ ms) (h' : ms < 8000)
include h h'

theorem exec_buttonPress_of_service : exec (.buttonPress ms) s =
    if s.svcLock then .next ((s.released.svcBit 7 1).svcEvent 39)
    else if s.svcPhase = 0 then .next s.released.svcRequest else .next s.released.svcCancel := by
  rw [exec_buttonPress_of_press h0 (by omega), if_neg (by omega), if_neg (by omega), State.released_lock, State.released_svcPhase]

end

theorem exec_buttonHeld1s_of_on : exec .buttonHeld1s s = .next { s.svcBit 8 1 with svc := { s.svc with flashed := !s.svcLock } } :=
  (if_neg h0 : execButtonHeld1s s = _)

theorem exec_buttonHeld8s_of_on : exec .buttonHeld8s s = .next (if s.phase = 6 || s.ready then (s.svcBit 8 1).svcForce
    else if s.held then (s.svcBit 8 1).startStopped else { s.svcBit 8 1 with svc := { (s.svcBit 8 1).svc with forcedDue := true } }) :=
  (if_neg h0 : execButtonHeld8s s = _)

theorem exec_buttonHeld8s_of_run (h : s.phase = 6 ∨ s.ready = true) : exec .buttonHeld8s s = .next (s.svcBit 8 1).svcForce := by
  rw [exec_buttonHeld8s_of_on h0, if_pos (by simpa using h)]

section
variable (h6 : s.phase ≠ 6) (hr : s.ready = false)
include h6 hr

theorem exec_buttonHeld8s_of_held (h : s.held = true) : exec .buttonHeld8s s = .next (s.svcBit 8 1).startStopped := by
  rw [exec_buttonHeld8s_of_on h0, if_neg (by simp [h6, hr]), if_pos h]

theorem exec_buttonHeld8s_of_starting (h : s.held = false) :
    exec .buttonHeld8s s = .next { s.svcBit 8 1 with svc := { (s.svcBit 8 1).svc with forcedDue := true } } := by
  rw [exec_buttonHeld8s_of_on h0, if_neg (by simp [h6, hr]), if_neg (ne_true_of_eq_false h)]

end
end

section
variable (h0 : s.phase = 0)
include h0

theorem exec_buttonHeld1s_of_off : exec .buttonHeld1s s = .next s := (if_pos h0 : execButtonHeld1s s = _)

theorem exec_buttonHeld8s_of_off : exec .buttonHeld8s s = .next s := (if_pos h0 : execButtonHeld8s s = _)

end
end

/-! Violations (R422, R426) -/

section
variable (s : State)

/-- A latch or the lever has opened too early: its bit is kept, the service remembers it, EV_SVC_EARLY is raised. -/
def State.openedEarly (s : State) (m : Nat) : State :=
  { s.setBits 0x104018 m with svc := { (s.setBits 0x104018 m).svc with violated := true } }.raise 43 0 0 ((s.setBits 0x104018 m).regN 0x104018) 0

end

/-! The ejector lever (R422, R424) -/

section
variable {s : State}

/-- The lever is closed. -/
def State.leverClosed (s : State) : Bool := (s.reg 0x104004).getLsbD 9

theorem exec_ejectorLeverClose_of_waiting (hh : s.held = true) (h1 : s.phase = 1) (hl : s.side.rstLow = false) :
    exec .ejectorLeverClose s = .next { s.svcBit 9 1 with phase := 2, held := false } :=
  congrArg Host.Outcome.next (if_pos (by simp [hh, h1, hl]))

theorem exec_ejectorLeverClose_of_other (h : s.held = false ∨ s.phase ≠ 1 ∨ s.side.rstLow = true) :
    exec .ejectorLeverClose s = .next (s.svcBit 9 1) := by
  refine congrArg Host.Outcome.next (if_neg ?_)
  rcases h with h | h | h <;> simp [h]

theorem exec_ejectorLeverOpen_of_open (h : s.leverClosed = false) : exec .ejectorLeverOpen s = .next s :=
  (if_pos (congrArg not h) : execEjectorLeverOpen s = _)

section
variable (h : s.leverClosed = true)
include h

theorem exec_ejectorLeverOpen_of_closed : exec .ejectorLeverOpen s =
    if s.phase ≤ 1 then .next (s.svcBit 9 0)
    else if s.phase < 6 ∧ !s.ready then .next (s.svcBit 9 0).startCut
    else if s.svcPhase = 5 then .next (s.svcBit 9 0)
    else .next ((s.svcBit 9 0).openedEarly (2 ^ 16)).svcForce :=
  (if_neg (ne_true_of_eq_false (congrArg not h)) : execEjectorLeverOpen s = _)

theorem exec_ejectorLeverOpen_of_early (h1 : s.phase ≤ 1) : exec .ejectorLeverOpen s = .next (s.svcBit 9 0) := by
  rw [exec_ejectorLeverOpen_of_closed h, if_pos h1]

variable (h2 : 2 ≤ s.phase)
include h2

theorem exec_ejectorLeverOpen_of_starting (h6 : s.phase < 6) (hr : s.ready = false) :
    exec .ejectorLeverOpen s = .next (s.svcBit 9 0).startCut := by
  rw [exec_ejectorLeverOpen_of_closed h, if_neg (by omega), if_pos ⟨h6, congrArg not hr⟩]

section
variable (hrun : 6 ≤ s.phase ∨ s.ready = true)
include hrun

theorem exec_ejectorLeverOpen_of_run : exec .ejectorLeverOpen s =
    if s.svcPhase = 5 then .next (s.svcBit 9 0) else .next ((s.svcBit 9 0).openedEarly (2 ^ 16)).svcForce := by
  have hnot : ¬ (s.phase < 6 ∧ (!s.ready) = true) := by
    rintro ⟨hlt, hr⟩
    rcases hrun with h6 | hready
    · omega
    · simp [hready] at hr
  rw [exec_ejectorLeverOpen_of_closed h, if_neg (by omega), if_neg hnot]

end
end
end

/-! Start-up is cut: the ports, the Tether and the stacks go off (R424) -/

theorem State.stopCl_reg (s : State) (n cause a : Nat) : (s.stopCl n cause).reg a = s.reg a := by
  unfold State.stopCl
  extract_lets c
  split <;> rfl

section
variable {q : Nat} (hq : q < 16) (s : State)
include hq

theorem pa_ne_of_outside {a : Nat} (h : a < 0x400000 ∨ 0x500000 ≤ a) : pa q 0 ≠ a := by
  simp only [pa, Win.base]
  omega

/-- What tandem mode records of a lost port stands in the global registers. -/
theorem State.tandemPortLost_pa (p : Nat) : (s.tandemPortLost p).reg (pa q 0) = s.reg (pa q 0) := by
  have hpa {a : Nat} (h : a < 0x400000) : pa q 0 ≠ a := pa_ne_of_outside hq (.inl h)
  have hdiverge (own : TRec) : (s.diverge 4 own).reg (pa q 0) = s.reg (pa q 0) := by
    unfold State.diverge
    extract_lets k s2 s3
    have h2 : s2.reg (pa q 0) = s.reg (pa q 0) := by
      refine (State.capture_reg_other _ _ _ (hpa (by decide)) ?_).trans (s.count_reg_other 1 (hpa (by decide)))
      intro x hx
      refine hpa ?_
      fin_cases hx <;> norm_num
    have h3 : s3.reg (pa q 0) = s.reg (pa q 0) := (State.raise_reg_other _ _ _ _ _ _ _ (hpa (by decide)) (hpa (by decide))).trans h2
    split
    · refine List.foldlRecOn (motive := fun t : State => t.reg (pa q 0) = s.reg (pa q 0)) _ _ h3 fun t ht e _ => ?_
      split
      · exact (t.stopCl_reg ..).trans ht
      · exact ht
    · exact h3
  unfold State.tandemPortLost
  split
  · exact hdiverge _
  · rfl

theorem State.portReceipt_pa (p r : Nat) (w : Wb) : (s.portReceipt p r w).reg (pa q 0) = s.reg (pa q 0) := by
  have hfinish (st : Nat) (res : List Nat) : (s.finish r w st res).reg (pa q 0) = s.reg (pa q 0) := by
    refine s.finish_reg_other r w st res ?_ (pa_ne_of_outside hq (.inr (by decide)))
    simp only [pa, ra, Win.base]
    omega
  unfold State.portReceipt
  split
  · split
    · exact hfinish ..
    · split
      · exact hfinish ..
      · rfl
  · rfl

theorem State.portReceipts_pa (p : Nat) : (s.portReceipts p).reg (pa q 0) = s.reg (pa q 0) := by
  rw [State.portReceipts_eq]
  refine List.foldlRecOn (motive := fun t : State => t.reg (pa q 0) = s.reg (pa q 0)) _ _ rfl fun t ht r _ => ?_
  exact List.foldlRecOn (motive := fun t : State => t.reg (pa q 0) = s.reg (pa q 0)) _ _ ht fun u hu w _ =>
    (State.portReceipt_pa hq u p r w).trans hu

theorem State.portOff_lnk (p : Nat) : (s.portOff p).lnk q = if q = p then 0 else s.lnk q := by
  unfold State.portOff
  extract_lets was x s1
  have h1 : s1.lnk q = if q = p then 0 else s.lnk q := by
    split
    case isTrue h =>
      rw [h]
      exact State.setLnk_lnk _ _ _ _ (by decide)
    case isFalse h =>
      have hne : pa q 0 ≠ pa p 0 := by
        simp only [pa, Win.base]
        omega
      exact (State.setFld_fld_other _ _ _ _ _ _ hne).trans (State.setFld_fld_other _ _ _ _ _ _ hne)
  have hlost : (if was = 2 then s1.tandemPortLost p else s1).reg (pa q 0) = s1.reg (pa q 0) := by
    split
    · exact s1.tandemPortLost_pa hq p
    · rfl
  exact (congrArg (fun x : Word => bits x.toNat 0 3) ((State.portReceipts_pa hq _ p).trans hlost)).trans h1

theorem State.portsOff_lnk : ((List.range 16).foldl State.portOff s).lnk q = 0 := by
  have hkeeps (l : List Nat) (t : State) (h : t.lnk q = 0) : (l.foldl State.portOff t).lnk q = 0 :=
    List.foldlRecOn (motive := fun t : State => t.lnk q = 0) l _ h fun u hu p _ => by
      rw [u.portOff_lnk hq p, hu, ite_self]
  obtain ⟨l, m, hlm⟩ := List.append_of_mem (List.mem_range.mpr hq)
  rw [hlm, List.foldl_append, List.foldl_cons]
  refine hkeeps m _ ?_
  rw [State.portOff_lnk hq, if_pos rfl]

end

theorem State.setTth_tth (s : State) : (s.setTth 0).tth = 0 := by
  unfold State.setTth
  split
  · assumption
  · have hreg : ((s.setFld 0x600000 0 2 0).trigger 17).reg 0x600000 = (s.setFld 0x600000 0 2 0).reg 0x600000 :=
      State.trigger_reg_other _ 17 (by decide)
    exact (congrArg (fun x : Word => bits x.toNat 0 2) hreg).trans (s.setFld_fld_same 0x600000 0 (lo := 0) (n := 2) (by decide))

theorem State.setTth_reg_other (s : State) (st : Nat) {a : Nat} (h0 : a ≠ 0x600000) (hp : a ≠ 0x600024) : (s.setTth st).reg a = s.reg a := by
  unfold State.setTth
  split
  · rfl
  · exact (State.trigger_reg_other _ 17 hp).trans (s.setFld_reg_other 0 2 st h0)

/-- All stacks are off. -/
def State.stacksOff (s : State) : State := (List.range 8).foldl (fun s k => s.setStack k 0) s

section
variable (s : State)

theorem State.stacksOff_reg_other {a : Nat} (h : ∀ k, a ≠ sa k 0) : s.stacksOff.reg a = s.reg a :=
  List.foldlRecOn (motive := fun t : State => t.reg a = s.reg a) _ _ rfl fun t ht k _ => (t.setFld_reg_other 0 3 0 (h k)).trans ht

theorem State.stacksOff_dies : s.stacksOff.dies = s.dies :=
  List.foldlRecOn (motive := fun t : State => t.dies = s.dies) _ _ rfl fun _ ht _ _ => ht

theorem State.setStack_stackState (j k : Nat) : (s.setStack j 0).stackState k = if k = j then 0 else s.stackState k := by
  split
  case isTrue h =>
    rw [h]
    exact s.setFld_fld_same (sa j 0) 0 (lo := 0) (n := 3) (by decide)
  case isFalse h =>
    have hne : sa k 0 ≠ sa j 0 := by
      simp only [sa, Win.base]
      omega
    exact s.setFld_fld_other _ _ _ _ _ hne

theorem State.stacksOff_stackState {k : Nat} (hk : k < 8) : s.stacksOff.stackState k = 0 := by
  have hkeeps (l : List Nat) (t : State) (h : t.stackState k = 0) : (l.foldl (fun s j => s.setStack j 0) t).stackState k = 0 :=
    List.foldlRecOn (motive := fun t : State => t.stackState k = 0) l _ h fun u hu j _ => by
      rw [u.setStack_stackState, hu, ite_self]
  obtain ⟨l, m, hlm⟩ := List.append_of_mem (List.mem_range.mpr hk)
  unfold State.stacksOff
  rw [hlm, List.foldl_append, List.foldl_cons]
  refine hkeeps m _ ?_
  rw [State.setStack_stackState, if_pos rfl]

/-- What the Tether and the stacks held is lost. -/
def State.queuesGone (s : State) : State := { s with teth := {}, dies := [] }

theorem State.queuesGone_reg (a : Nat) : s.queuesGone.reg a = s.reg a := rfl

/-- The ports and the Tether are off. -/
def State.linksOff (s : State) : State := ((List.range 16).foldl State.portOff s).queuesGone.setTth 0

theorem State.linksOff_lnk {q : Nat} (hq : q < 16) : s.linksOff.lnk q = 0 := by
  have hreg : s.linksOff.reg (pa q 0) = ((List.range 16).foldl State.portOff s).reg (pa q 0) :=
    (State.setTth_reg_other _ 0 (pa_ne_of_outside hq (.inr (by decide))) (pa_ne_of_outside hq (.inr (by decide)))).trans (State.queuesGone_reg ..)
  exact (congrArg (fun x : Word => bits x.toNat 0 3) hreg).trans (s.portsOff_lnk hq)

theorem State.setTth_dies (st : Nat) : (s.setTth st).dies = s.dies := by
  unfold State.setTth
  split
  · rfl
  · exact (congrArg State.dies ((s.setFld 0x600000 0 2 st).trigger_sansRecords 17) :)

theorem State.linksOff_dies : s.linksOff.dies = [] := ((List.range 16).foldl State.portOff s).queuesGone.setTth_dies 0

theorem State.tth_congr {s t : State} (h : t.reg 0x600000 = s.reg 0x600000) : t.tth = s.tth := by rw [State.tth, State.fld, State.regN, h]; rfl

theorem State.lnk_congr {s t : State} {q : Nat} (h : t.reg (pa q 0) = s.reg (pa q 0)) : t.lnk q = s.lnk q := by
  rw [State.lnk, State.fld, State.regN, h]
  rfl

theorem State.stacksOff_lnk {q : Nat} (hq : q < 16) : s.stacksOff.lnk q = s.lnk q := by
  refine State.lnk_congr (s.stacksOff_reg_other fun k => ?_)
  simp only [pa, sa, Win.base]
  omega

theorem State.stacksOff_tth : s.stacksOff.tth = s.tth := by
  refine State.tth_congr (s.stacksOff_reg_other fun k => ?_)
  simp only [sa, Win.base]
  omega

theorem State.linksOff_tth : s.linksOff.tth = 0 := State.setTth_tth _

/-- Start-up waits in phase A. -/
def State.waitsInA (s : State) : State := { s with phase := 1, held := true }

theorem State.waitsInA_links : s.waitsInA.tth = s.tth ∧ (∀ q, s.waitsInA.lnk q = s.lnk q) ∧
    (∀ k, s.waitsInA.stackState k = s.stackState k) ∧ s.waitsInA.dies = s.dies := ⟨rfl, fun _ => rfl, fun _ => rfl, rfl⟩

theorem State.startCut_eq : s.startCut = s.linksOff.stacksOff.waitsInA := rfl

/-- A cut start-up waits in phase A, with the Tether, the ports and the stacks off. -/
theorem State.startCut_off : s.startCut.phase = 1 ∧ s.startCut.held = true ∧ s.startCut.tth = 0 ∧ (∀ q < 16, s.startCut.lnk q = 0) ∧
    (∀ k < 8, s.startCut.stackState k = 0) ∧ s.startCut.dies = [] := by
  obtain ⟨htth, hlnk, hstack, hdies⟩ := s.linksOff.stacksOff.waitsInA_links
  rw [State.startCut_eq]
  refine ⟨rfl, rfl, ?_, fun q hq => ?_, fun k hk => ?_, ?_⟩
  · rw [htth, State.stacksOff_tth, State.linksOff_tth]
  · rw [hlnk, State.stacksOff_lnk _ hq, State.linksOff_lnk _ hq]
  · rw [hstack, State.stacksOff_stackState _ hk]
  · rw [hdies, State.stacksOff_dies, State.linksOff_dies]

end

/-! Cage latches (R425 to R427) -/

section
variable {s : State} {p : Fin 16}

/-- The latch of a cage is closed. -/
def State.latchClosed (s : State) (p : Fin 16) : Bool := (s.reg 0x104014).getLsbD p

section
variable (h : s.latchClosed p = false)
include h

theorem exec_cageLatchClose_of_open : exec (.cageLatchClose p) s =
    if s.phase = 0 then .next (s.setFld 0x104014 p 1 1) else .next (((s.setFld 0x104014 p 1 1).mate p).autotrain p) :=
  (if_neg (ne_true_of_eq_false h) : execCageLatchClose p s = _)

theorem exec_cageLatchOpen_of_open : exec (.cageLatchOpen p) s = .next s := (if_pos (congrArg not h) : execCageLatchOpen p s = _)

end

/-- A port that is ACTIVE or trains. -/
def State.linkUp (s : State) (p : Nat) : Prop := s.lnk p = 1 ∨ s.lnk p = 2 ∨ s.lnk p = 5

section
variable (h : s.latchClosed p = true)
include h

theorem exec_cageLatchClose_of_closed : exec (.cageLatchClose p) s = .next s := (if_pos h : execCageLatchClose p s = _)

theorem exec_cageLatchOpen_of_down (hd : s.phase = 0 ∨ ¬ s.linkUp p) : exec (.cageLatchOpen p) s = .next (s.setFld 0x104014 p 1 0) := by
  refine (if_neg (ne_true_of_eq_false (congrArg not h)) : execCageLatchOpen p s = _).trans ?_
  by_cases h0 : s.phase = 0
  · exact if_pos h0
  · rw [if_neg h0]
    exact if_neg (hd.resolve_left h0)

/-- A latch opened too early: a violation, and the port grants no slot. -/
theorem exec_cageLatchOpen_of_up (h0 : s.phase ≠ 0) (hup : s.linkUp p) : exec (.cageLatchOpen p) s =
    .next (((s.setFld 0x104014 p 1 0).openedEarly (2 ^ p.val)).setPort p { s.port p with quiesce := true }) := by
  have hport : ((s.setFld 0x104014 p 1 0).setBits 0x104018 (2 ^ p.val)).port p = s.port p :=
    State.port_eq_of_sansRecords (((s.setFld 0x104014 p 1 0).setBits_sansRecords ..).trans (s.setFld_sansRecords ..)) p
  refine (if_neg (ne_true_of_eq_false (congrArg not h)) : execCageLatchOpen p s = _).trans ?_
  rw [if_neg h0, ← hport]
  exact if_pos hup

end

/-- A mating is counted, in the life of the connector and in its register. -/
theorem State.mate_counts (s : State) (p : Fin 16) :
    sget zeroNat (s.mate p).svc.life p = min (sget zeroNat s.svc.life p + 1) (2 ^ 32 - 1) ∧
      (s.mate p).regN (0x104040 + 4 * p) = min (s.regN (0x104040 + 4 * p) + 1) (2 ^ 32 - 1) := by
  unfold State.mate
  extract_lets life sv s1 s2
  have hs2 : s2 = s1.count (0x104040 + 4 * p) 1 := if_pos p.isLt
  have hlife : sget zeroNat s2.svc.life p = life := by
    have hcount : s2.svc = s1.svc := by
      rw [hs2]
      exact (congrArg State.svc (s1.count_sansRecords (0x104040 + 4 * p) 1) :)
    rw [hcount]
    exact sget_sput_same zeroNat s.svc.life p life
  have hreg : s2.regN (0x104040 + 4 * p) = min (s.regN (0x104040 + 4 * p) + 1) (2 ^ 32 - 1) := by
    rw [hs2]
    exact State.count_regN_same ..
  clear_value s2
  rw [if_pos p.isLt]
  split
  · have hr := s2.raise_reg_other (i := 0x104040 + 4 * p) 44 0 0 p life false (by omega) (by omega)
    have hv : (s2.raise 44 0 0 p life).svc = s2.svc := (congrArg State.svc (s2.raise_sansRecords 44 0 0 p life false) :)
    rw [hv]
    exact ⟨hlife, (congrArg BitVec.toNat hr).trans hreg⟩
  · exact ⟨hlife, hreg⟩

end

end Sys2Proof.Machine
end

section
/-! SUPPORT. O53: start-up runs its phases; the button, the ejector lever and the cage latches act (R409 to R414, R422 to R427, R433, R434, R437,
R441, R467). -/

namespace Sys2Proof.Machine

/-! How the phases end (R409, R410) -/

section
variable (s : State)

/-- Phase D's end empties Loess memory and begins phase E. -/
theorem State.endD_memory : s.endD.loess = [] ∧ s.endD.phase = 5 := ⟨rfl, rfl⟩

theorem State.bootBanks_eq : s.bootBanks =
    if s.bankCause (s.bankOf s.boot.sel) = 0 then ((s.bootErr 0).bootBank s.boot.sel).bootStored
    else if s.bankCause (s.bankOf !s.boot.sel) = 0 then
      ((s.authFail.bootErr (s.bankCause (s.bankOf s.boot.sel))).bootBank (!s.boot.sel)).bootStored
    else ((s.authFail.authFail.bootErr (s.bankCause (s.bankOf !s.boot.sel))).measureRom).startFail 1 true := rfl

end

section
variable {s : State} (hf : s.failed = false) (hh : s.held = false) (hw : s.tap.waiting = false)
include hf hh hw

section
variable (hstop : s.svc.forcedDue = false ∨ s.ready = true)
include hstop

theorem exec_phaseDone_eq {n : Nat} (h : s.phase = n) (h0 : n ≠ 0) (h6 : n ≠ 6) :
    exec (.startupPhaseDone .done) s = .next s.phaseDone :=
  exec_startupPhaseDone_of_done hf hh hw (h.trans_ne h0) (h.trans_ne h6) hstop

theorem phaseA_done (h : s.phase = 1) :
    ((s.reg 0x104004).getLsbD 9 = true ∧ s.side.rstLow = false →
      exec (.startupPhaseDone .done) s = .next { s with phase := 2, held := false }) ∧
    ((s.reg 0x104004).getLsbD 9 = false ∨ s.side.rstLow = true → exec (.startupPhaseDone .done) s = .next { s with held := true }) := by
  rw [exec_phaseDone_eq hf hh hw hstop h (by decide) (by decide), State.phaseDone_of_a h]
  refine ⟨fun ⟨hl, hrst⟩ => ?_, fun hno => ?_⟩
  · rw [if_pos (by simp [hl, hrst])]
  · have hwait : ((s.reg 0x104004).getLsbD 9 && !s.side.rstLow) = false := by
      rcases hno with hl | hrst
      · rw [hl, Bool.false_and]
      · rw [hrst, Bool.not_true, Bool.and_false]
    rw [if_neg (ne_true_of_eq_false hwait)]

/-- Phase B takes the bank selected, else the other, else the boot ROM alone. -/
theorem phaseB_done (h : s.phase = 2) :
    let a := s.bankCause (s.bankOf s.boot.sel)
    let b := s.bankCause (s.bankOf !s.boot.sel)
    (a = 0 → exec (.startupPhaseDone .done) s = .next ((s.bootErr 0).bootBank s.boot.sel).bootStored) ∧
    (a ≠ 0 → b = 0 → exec (.startupPhaseDone .done) s = .next ((s.authFail.bootErr a).bootBank (!s.boot.sel)).bootStored) ∧
    (a ≠ 0 → b ≠ 0 → exec (.startupPhaseDone .done) s = .next (((s.authFail.authFail.bootErr b).measureRom).startFail 1 true)) := by
  rw [exec_phaseDone_eq hf hh hw hstop h (by decide) (by decide), State.phaseDone_of_b h, State.bootBanks_eq]
  dsimp only
  refine ⟨fun ha => ?_, fun ha hb => ?_, fun ha hb => ?_⟩
  · rw [if_pos ha]
  · rw [if_neg ha, if_pos hb]
  · rw [if_neg ha, if_neg hb]

theorem phaseC_done (h : s.phase = 3) : exec (.startupPhaseDone .done) s = .next s.startD := by
  rw [exec_phaseDone_eq hf hh hw hstop h (by decide) (by decide), State.phaseDone_of_c h]

theorem phaseD_done (h : s.phase = 4) :
    (s.glazeBad = true → exec (.startupPhaseDone .done) s = .next (s.startFail 5 false)) ∧
    (s.glazeBad = false → exec (.startupPhaseDone .done) s = .next s.endD ∧ s.endD.loess = [] ∧ s.endD.phase = 5) := by
  rw [exec_phaseDone_eq hf hh hw hstop h (by decide) (by decide), State.phaseDone_of_d h]
  exact ⟨fun hb => by rw [if_pos hb], fun hb => ⟨by rw [if_neg (ne_true_of_eq_false hb)], s.endD_memory⟩⟩

theorem phaseE_done (h : s.phase = 5) :
    (s.rationsBad = true → exec (.startupPhaseDone .done) s = .next (s.startFail 6 false)) ∧
    (s.rationsBad = false → s.tap.ir = 3 → s.ready = false →
      exec (.startupPhaseDone .done) s = .next { s with tap := { s.tap with waiting := true } }) ∧
    (s.rationsBad = false → (s.tap.ir ≠ 3 ∨ s.ready = true) → exec (.startupPhaseDone .done) s = .next s.endE) := by
  rw [exec_phaseDone_eq hf hh hw hstop h (by decide) (by decide), State.phaseDone_of_e h]
  refine ⟨fun hb => ?_, fun hb hi hr => ?_, fun hb hgo => ?_⟩
  · rw [if_pos hb]
  · rw [if_neg (ne_true_of_eq_false hb), if_pos ⟨hi, congrArg not hr⟩]
  · rw [if_neg (ne_true_of_eq_false hb), if_neg]
    rintro ⟨hi, hr⟩
    rcases hgo with hgo | hgo
    · exact hgo hi
    · simp [hgo] at hr

theorem exec_phaseFailed_eq {n : Nat} (h : s.phase = n) (h0 : n ≠ 0) (h6 : n ≠ 6) (c : BitVec 4) (rec : Bool) :
    exec (.startupPhaseDone (.failed c rec)) s = .next (s.phaseFailed c.toNat rec) :=
  exec_startupPhaseDone_of_failed hf hh hw (h.trans_ne h0) (h.trans_ne h6) hstop c rec

/-- The cause a phase that fails leaves. -/
theorem phases_failed (c : BitVec 4) (rec : Bool) :
    let fails (t : State) : Prop := exec (.startupPhaseDone (.failed c rec)) s = .next t
    (s.phase = 1 → fails s) ∧
    (s.phase = 2 →
      let u := (if rec then s.authFail.measureRom else s.bootBank s.boot.sel).authFail.draw
      fails ((u.bootErr (1 + Config.bootErr s.fresh % 7)).startFail 1 rec)) ∧
    (s.phase = 3 → fails (s.startFail 2 false)) ∧
    (s.phase = 4 → (c = 3 → fails ((s.draw.setStack (Config.failedStack s.fresh % 8) 7).startFail 3 false)) ∧
      (c = 4 → fails (s.startFail 4 false)) ∧ (c ≠ 3 → c ≠ 4 → fails (s.startFail 5 false))) ∧
    (s.phase = 5 → fails (s.startFail 6 false)) := by
  have hrun {n : Nat} (h : s.phase = n) (h0 : n ≠ 0) (h6 : n ≠ 6) := exec_phaseFailed_eq hf hh hw hstop h h0 h6 c rec
  have hnum (m : BitVec 4) (h : c ≠ m) : c.toNat ≠ m.toNat := fun he => h (BitVec.eq_of_toNat_eq he)
  dsimp only
  refine ⟨fun h => ?_, fun h => ?_, fun h => ?_, fun h => ?_, fun h => ?_⟩
  · rw [hrun h (by decide) (by decide), State.phaseFailed_of_a _ _ h]
  · rw [hrun h (by decide) (by decide), State.phaseFailed_of_b _ _ h]
  · rw [hrun h (by decide) (by decide), State.phaseFailed_of_c _ _ h]
  · rw [hrun h (by decide) (by decide), State.phaseFailed_of_d _ _ h]
    refine ⟨fun hc => ?_, fun hc => ?_, fun h3 h4 => ?_⟩
    · rw [hc, if_pos (by decide)]
    · rw [hc, if_neg (by decide), if_pos (by decide)]
    · have hc3 : c.toNat ≠ 3 := hnum 3 h3
      have hc4 : c.toNat ≠ 4 := hnum 4 h4
      rw [if_neg hc3, if_neg hc4]
  · rw [hrun h (by decide) (by decide), State.phaseFailed_of_e _ _ h]

end

/-- After an 8 s press the phase under way is the last. -/
theorem phases_stopped (hd : s.svc.forcedDue = true) (hr : s.ready = false) :
    (s.phase = 3 → exec (.startupPhaseDone .done) s = .next s.startD.startStopped) ∧
    (s.phase = 4 → s.glazeBad = false → exec (.startupPhaseDone .done) s = .next s.endD.startStopped) ∧
    (s.phase = 5 → s.rationsBad = false → exec (.startupPhaseDone .done) s = .next s.startStopped) := by
  refine ⟨fun h => ?_, fun h hb => ?_, fun h hb => ?_⟩
  · have hdone := State.phaseDone_of_c h
    rw [exec_startupPhaseDone_of_stopping hf hh hw (by omega) (by omega) hd hr (by omega)
      (by rw [hdone, State.startD_failed, hf]), hdone]
  · have hdone := (State.phaseDone_of_d h).trans (if_neg (ne_true_of_eq_false hb))
    rw [exec_startupPhaseDone_of_stopping hf hh hw (by omega) (by omega) hd hr (by omega)
      (by rw [hdone, State.endD_failed, hf]), hdone]
  · exact exec_startupPhaseDone_of_stopping_last hf hh hw (by omega) (by omega) hd hr h hb

end

/-! The obligation's four parts -/

/-- Phase B looks at every stored package. -/
theorem bootStored_looks (s : State) :
    let bed (k : Nat) : Nat := s.storedCause 1 (s.bedOf k)
    let flash (t : Nat) (x : Option (List Byte × FwBank)) : Nat :=
      x.elim (if s.boot.revoked.testBit 0 then 2 else 0) (fun y => s.storedCause t y.2)
    let glz := flash 2 s.boot.glz
    let rtn := flash 3 s.boot.rtn
    ((∀ k < 8, bed k = 0) →
      (glz = 0 → rtn = 0 → s.bootStored = { s.bootMeasure with phase := 3 }) ∧
      (glz ≠ 0 → s.bootStored = (s.authFail.bootErr glz).startFail 1 false) ∧
      (glz = 0 → rtn ≠ 0 → s.bootStored = (s.authFail.bootErr rtn).startFail 1 false)) ∧
    ∀ k < 8, bed k ≠ 0 → (∀ j < 8, j ≠ k → bed j = 0) →
      let old := s.storedCause 1 (s.bedBefore k)
      let u := s.authFail.bootErr (bed k)
      (old ≠ 0 → s.bootStored = (u.authFail.bootErr old).startFail 1 false) ∧
      (old = 0 → glz = 0 → rtn = 0 → s.bootStored = { ({ u with boot := { u.boot with
          beds := sput noFw u.boot.beds k (some (s.bedBefore k)), bedsOld := sput noFw u.boot.bedsOld k (some (s.bedOf k)) } } :
            State).bootMeasure with phase := 3 }) := by
  refine ⟨fun hbeds => ?_, fun k hk hbad hother => ⟨fun hold => ?_, fun hold hg hr => ?_⟩⟩
  · have h := (State.bootStored_of_goodBeds hbeds).trans (State.bootChecked_of_goodBeds hbeds)
    refine ⟨fun hg hr => ?_, fun hg => ?_, fun hg hr => ?_⟩
    · exact h.trans ((if_neg (not_not.mpr hg)).trans (if_neg (not_not.mpr hr)))
    · exact h.trans (if_pos hg)
    · exact h.trans ((if_neg (not_not.mpr hg)).trans (if_pos hr))
  · exact State.bootStored_of_bothBad hk hother hbad hold
  · have hback := State.bootStored_of_older hk hother hbad hold hg hr
    have hboot := s.bootErr_authFail_boot (s.bedCause k)
    have hof : (s.authFail.bootErr (s.bedCause k)).bedOf k = s.bedOf k := State.bedOf_congr (congrArg Boot.beds hboot) k
    have hbefore : (s.authFail.bootErr (s.bedCause k)).bedBefore k = s.bedBefore k := by
      rw [State.bedBefore, State.bedBefore, hboot]
    rw [State.bedBack, hof, hbefore] at hback
    exact hback

theorem button_acts (s : State) (ms : Nat) :
    (s.phase ≠ 0 →
      let s0 := s.svcBit 8 0
      let s1 : State := { s0 with svc := { s0.svc with flashed := false } }
      let lock := (s.reg 0x104000).getLsbD 5
      (ms < 20 → exec (.buttonPress ms) s = .next s) ∧
      (20 ≤ ms → ms < 1000 → exec (.buttonPress ms) s = .next { s1 with svc := { s1.svc with identify := true } }) ∧
      (8000 ≤ ms → exec (.buttonPress ms) s = .next s1) ∧
      (1000 ≤ ms → ms < 8000 →
        (lock = true → exec (.buttonPress ms) s = .next ((s1.svcBit 7 1).svcEvent 39)) ∧
        (lock = false → s.svcPhase = 0 → exec (.buttonPress ms) s = .next s1.svcRequest) ∧
        (lock = false → s.svcPhase ≠ 0 → exec (.buttonPress ms) s = .next s1.svcCancel)) ∧
      exec .buttonHeld1s s = .next { s.svcBit 8 1 with svc := { s.svc with flashed := !lock } } ∧
      ((s.phase = 6 ∨ s.ready = true) → exec .buttonHeld8s s = .next (s.svcBit 8 1).svcForce) ∧
      (s.phase ≠ 6 → s.ready = false → s.held = true → exec .buttonHeld8s s = .next (s.svcBit 8 1).startStopped) ∧
      (s.phase ≠ 6 → s.ready = false → s.held = false →
        exec .buttonHeld8s s = .next { s.svcBit 8 1 with svc := { s.svc with forcedDue := true } })) ∧
    (s.phase = 0 → exec (.buttonPress ms) s = .next s ∧ exec .buttonHeld1s s = .next s ∧ exec .buttonHeld8s s = .next s) ∧
    exec .identifyEnd s = .next { s with svc := { s.svc with identify := false } } := by
  refine ⟨fun h0 => ?_, fun h0 => ⟨exec_buttonPress_of_none (.inl h0), exec_buttonHeld1s_of_off h0, exec_buttonHeld8s_of_off h0⟩, rfl⟩
  refine ⟨fun h => exec_buttonPress_of_none (.inr h), fun h h' => exec_buttonPress_of_short h0 h h', exec_buttonPress_of_long h0,
    fun h h' => ?_, exec_buttonHeld1s_of_on h0, exec_buttonHeld8s_of_run h0, exec_buttonHeld8s_of_held h0, exec_buttonHeld8s_of_starting h0⟩
  have hservice := exec_buttonPress_of_service h0 h h'
  refine ⟨fun hl => ?_, fun hl hp => ?_, fun hl hp => ?_⟩
  · exact hservice.trans (if_pos hl)
  · exact hservice.trans ((if_neg (ne_true_of_eq_false hl)).trans (if_pos hp))
  · exact hservice.trans ((if_neg (ne_true_of_eq_false hl)).trans (if_neg hp))

theorem leverOpen_acts {s : State} (h : s.leverClosed = true) :
    (s.phase ≤ 1 → exec .ejectorLeverOpen s = .next (s.svcBit 9 0)) ∧
    (2 ≤ s.phase → s.phase < 6 → s.ready = false → ∃ t, exec .ejectorLeverOpen s = .next t ∧ t.phase = 1 ∧
      t.held = true ∧ t.tth = 0 ∧ (∀ q < 16, t.lnk q = 0) ∧ (∀ k < 8, t.stackState k = 0) ∧ t.dies = []) ∧
    (2 ≤ s.phase → (6 ≤ s.phase ∨ s.ready = true) →
      (s.svcPhase = 5 → exec .ejectorLeverOpen s = .next (s.svcBit 9 0)) ∧
      (s.svcPhase ≠ 5 → exec .ejectorLeverOpen s = .next ((s.svcBit 9 0).openedEarly (2 ^ 16)).svcForce)) := by
  refine ⟨exec_ejectorLeverOpen_of_early h, fun h2 h6 hr => ?_, fun h2 hrun => ?_⟩
  · exact ⟨_, exec_ejectorLeverOpen_of_starting h h2 h6 hr, State.startCut_off _⟩
  · have hopen := exec_ejectorLeverOpen_of_run h h2 hrun
    exact ⟨fun h5 => hopen.trans (if_pos h5), fun h5 => hopen.trans (if_neg h5)⟩

theorem latches_act (s : State) (p : Fin 16) :
    (s.latchClosed p = false →
      (s.phase = 0 → exec (.cageLatchClose p) s = .next (s.setFld 0x104014 p 1 1)) ∧
      (s.phase ≠ 0 → exec (.cageLatchClose p) s = .next (((s.setFld 0x104014 p 1 1).mate p).autotrain p)) ∧
      exec (.cageLatchOpen p) s = .next s) ∧
    (s.latchClosed p = true →
      let s1 := s.setFld 0x104014 p 1 0
      exec (.cageLatchClose p) s = .next s ∧
      ((s.phase = 0 ∨ (s.lnk p ≠ 1 ∧ s.lnk p ≠ 2 ∧ s.lnk p ≠ 5)) → exec (.cageLatchOpen p) s = .next s1) ∧
      (s.phase ≠ 0 → (s.lnk p = 1 ∨ s.lnk p = 2 ∨ s.lnk p = 5) →
        exec (.cageLatchOpen p) s = .next ((s1.openedEarly (2 ^ p.val)).setPort p { s.port p with quiesce := true }))) := by
  refine ⟨fun h => ?_, fun h => ?_⟩
  · have hclose := exec_cageLatchClose_of_open h
    exact ⟨fun h0 => hclose.trans (if_pos h0), fun h0 => hclose.trans (if_neg h0), exec_cageLatchOpen_of_open h⟩
  · refine ⟨exec_cageLatchClose_of_closed h, fun hd => exec_cageLatchOpen_of_down h (hd.imp_right ?_), exec_cageLatchOpen_of_up h⟩
    rintro ⟨h1, h2, h5⟩ (hl | hl | hl)
    · exact h1 hl
    · exact h2 hl
    · exact h5 hl

/-- Settles O53: each phase, press and movement takes its branch of the command; the ends of start-up leave the power state alone but for what they
show of it. -/
theorem startUpButtonAndLeverAct : Obligations.StartUpButtonAndLeverAct := by
  unfold Obligations.StartUpButtonAndLeverAct
  refine ⟨⟨fun s hf hh hw hstop => ?_, fun s hf hh hw hd hr => phases_stopped hf hh hw hd hr, State.startStopped_power,
    fun s hr ht ha => State.endE_power hr ht ha, fun s c rec h1 h6 => s.startFail_power rec h1 h6,
    fun s e h => exec_startupPhaseDone_of_over e h⟩, bootStored_looks, button_acts, fun s p => ?_⟩
  · exact ⟨phaseA_done hf hh hw hstop, phaseB_done hf hh hw hstop, phaseC_done hf hh hw hstop, phaseD_done hf hh hw hstop,
      phaseE_done hf hh hw hstop, phases_failed hf hh hw hstop⟩
  · obtain ⟨hopen, hclosed⟩ := latches_act s p
    exact ⟨exec_ejectorLeverClose_of_waiting, exec_ejectorLeverClose_of_other, exec_ejectorLeverOpen_of_open, leverOpen_acts, hopen, hclosed,
      s.mate_counts p⟩

end Sys2Proof.Machine
end
